-- ==== Sys2Proof/Word.lean ====
section
/-! DEFINITION. The word types of the head: bytes, 32-bit registers and FP32 values. -/

namespace Sys2Proof

/-- One byte of a slot, a frame, the flash or memory. -/
abbrev Byte := BitVec 8

/-- One 32-bit register, word of memory or FP32 value (R5, R9). -/
abbrev Word := BitVec 32

/-- An FP32 value by its bits (IEEE 754 binary32, R9). -/
abbrev F32 := BitVec 32

end Sys2Proof
end

