-- ==== Sys2Proof/Machine/Bits.lean ====
section
/-! DEFINITION. Fields of words, saturating counts, byte order and exact rounding, each written once. -/

namespace Sys2Proof.Machine

/-- Bits [hi:lo] of a word as a number (R5: bit 0 is the least significant). -/
def bits (w : Word) (hi lo : Nat) : Nat := (w.toNat >>> lo) % 2 ^ (hi + 1 - lo)

/-- Bit i of a word. -/
def bit (w : Word) (i : Nat) : Bool := w.toNat.testBit i

/-- A truth value as a bit. -/
def b2n (b : Bool) : Nat := if b then 1 else 0

/-- A word from its fields (hi, lo, value); a value is cut to its field. -/
def packWord (fs : List (Nat × Nat × Nat)) : Word :=
  BitVec.ofNat 32 (fs.foldl (fun acc f => acc + (f.2.2 % 2 ^ (f.1 + 1 - f.2.1)) * 2 ^ f.2.1) 0)

/-- Two's-complement reading of the low n bits of a number. -/
def signedN (n x : Nat) : Int :=
  let y := x % 2 ^ n
  if y < 2 ^ (n - 1) then (y : Int) else (y : Int) - (2 ^ n : Nat)

/-- Signed reading of a field. -/
def sbits (w : Word) (hi lo : Nat) : Int := signedN (hi + 1 - lo) (bits w hi lo)

/-- An integer into a word, wrapping. -/
def wordOfInt (i : Int) : Word := BitVec.ofInt 32 i

/-- An integer taken modulo 2^n. -/
def intMod (n : Nat) (i : Int) : Nat := (i % (2 ^ n : Nat)).toNat

/-- An integer wrapped to n bits, signed. -/
def wrapInt (n : Nat) (i : Int) : Int := signedN n (intMod n i)

/-- Clamp to [lo, hi]. -/
def clampInt (lo hi x : Int) : Int := if x < lo then lo else if hi < x then hi else x

/-- Clamp to the signed 64-bit range (R9). -/
def sat64 (x : Int) : Int := clampInt (-(2 ^ 63)) (2 ^ 63 - 1) x

/-- Clamp to the signed 32-bit range (R9). -/
def sat32 (x : Int) : Int := clampInt (-(2 ^ 31)) (2 ^ 31 - 1) x

/-- One more, saturating at the given top. -/
def incSat (top n : Nat) : Nat := if n < top then n + 1 else top

/-- One more, saturating at 65,535: the rule of the 16-bit counters. -/
def inc16 (n : Nat) : Nat := incSat 65535 n

/-- Saturate a count at 65,535. -/
def sat16 (n : Nat) : Nat := min n 65535

/-- Round number a is later than round number b (R10). -/
def later (a b : Word) : Bool := 1 ≤ (a - b).toNat && (a - b).toNat ≤ 2 ^ 31 - 1

/-- Quotient rounded to the nearest integer, halves away from zero. -/
def roundAway (num den : Int) : Int :=
  let a := num.natAbs
  let d := den.natAbs
  let q := (2 * a + d) / (2 * d)
  if (num < 0) = (den < 0) then (q : Int) else -(q : Int)

/-- Quotient truncated towards zero. -/
def truncDiv (num den : Int) : Int := Int.tdiv num den

/-- Quotient rounded towards minus infinity (the floor of R161). -/
def floorDiv (num den : Int) : Int := Int.fdiv num den

/-- Sign as −1, 0 or 1. -/
def signInt (x : Int) : Int := if x < 0 then -1 else if x = 0 then 0 else 1

/-- Byte i of a byte string, 0 beyond its end. -/
def byteAt (l : List Byte) (i : Nat) : Nat := (l.getD i 0).toNat

/-- Big-endian number of n bytes from byte i (R6: Toelle and host frames). -/
def beNat (l : List Byte) (i n : Nat) : Nat :=
  (List.range n).foldl (fun acc k => acc * 256 + byteAt l (i + k)) 0

/-- Little-endian number of n bytes from byte i (R5, R6: registers and the image). -/
def leNat (l : List Byte) (i n : Nat) : Nat :=
  (List.range n).foldl (fun acc k => acc + byteAt l (i + k) * 256 ^ k) 0

/-- Big-endian bytes of a number. -/
def beBytes (n x : Nat) : List Byte :=
  (List.range n).map (fun k => BitVec.ofNat 8 (x >>> (8 * (n - 1 - k))))

/-- Little-endian bytes of a number. -/
def leBytes (n x : Nat) : List Byte :=
  (List.range n).map (fun k => BitVec.ofNat 8 (x >>> (8 * k)))

/-- Number of ones. -/
def popcount (n x : Nat) : Nat := ((List.range n).filter (fun i => x.testBit i)).length

/-- Set or clear bit i of a number. -/
def setBit (x i : Nat) (v : Bool) : Nat :=
  if v then x ||| 2 ^ i else if x.testBit i then x - 2 ^ i else x

/-- The words of a big-endian payload. -/
def beWords (l : List Byte) : List Word :=
  (List.range (l.length / 4)).map (fun i => BitVec.ofNat 32 (beNat l (4 * i) 4))

/-- Fixed-length reading of a list: element i, or the default. -/
def nth {α : Type} (d : α) (l : List α) (i : Nat) : α := l.getD i d

/-- Replace element i of a list that is padded with the default up to it. -/
def setNth {α : Type} (d : α) : List α → Nat → α → List α
  | [], 0, v => [v]
  | [], i + 1, v => d :: setNth d [] i v
  | _ :: t, 0, v => v :: t
  | x :: t, i + 1, v => x :: setNth d t i v

end Sys2Proof.Machine
end

