-- ==== Sys2Proof/Machine/Fp32.lean ====
section
/-! DEFINITION. FP32 arithmetic (IEEE 754 binary32, R9, R341): exact on dyadic numbers, rounded once to nearest even. -/

namespace Sys2Proof.Machine

/-- What an FP32 word stands for: NaN, a signed infinity, or ±m·2^e. -/
inductive FVal where
  | nan
  | inf (neg : Bool)
  | fin (neg : Bool) (m : Nat) (e : Int)
  deriving DecidableEq, Repr

/-- The quiet NaN of R129 and R341. -/
def fNaN : F32 := 0x7FC00000#32
/-- +∞ (R321). -/
def fPosInf : F32 := 0x7F800000#32
/-- −∞ (R321). -/
def fNegInf : F32 := 0xFF800000#32
/-- 1.0. -/
def fOne : F32 := 0x3F800000#32

/-- The value of an FP32 word. -/
def fDecode (x : F32) : FVal :=
  let n := x.toNat
  let neg := n.testBit 31
  let ex := (n >>> 23) % 256
  let fr := n % 2 ^ 23
  if ex = 255 then (if fr = 0 then .inf neg else .nan)
  else if ex = 0 then .fin neg fr (-149)
  else .fin neg (fr + 2 ^ 23) ((ex : Int) - 150)

/-- A sign bit in place. -/
def fSign (neg : Bool) (mag : Nat) : F32 := BitVec.ofNat 32 (mag + if neg then 2 ^ 31 else 0)

/-- ±(m·2^e, plus a positive rest below one unit of m when `sticky`) rounded to nearest even. A caller that sets
`sticky` gives m at least 26 bits. -/
def fRound (neg : Bool) (m : Nat) (e : Int) (sticky : Bool) : F32 :=
  if m = 0 then fSign neg 0
  else
    let top : Int := e + m.log2
    let q : Int := if top < -126 then -149 else top - 23
    let k := q - e
    let m' :=
      if k ≤ 0 then m * 2 ^ (-k).toNat
      else
        let d := 2 ^ k.toNat
        let a := m / d
        let r := m % d
        if d < 2 * r || (2 * r = d && (sticky || a % 2 = 1)) then a + 1 else a
    let enc := (q + 149).toNat * 2 ^ 23 + m'
    if 0x7F800000 ≤ enc then fSign neg 0x7F800000 else fSign neg enc

/-- A signed dyadic number i·2^e rounded to FP32; an exact zero takes the sign given. -/
def fOfDyadic (zneg : Bool) (i : Int) (e : Int) : F32 :=
  if i = 0 then fSign zneg 0 else fRound (i < 0) i.natAbs e false

/-- A finite value as an integer over 2^e (e not above either exponent). -/
def fScaled (neg : Bool) (m : Nat) (e base : Int) : Int :=
  let a : Int := (m : Int) * 2 ^ (e - base).toNat
  if neg then -a else a

/-- Exact sum of two FP32 values, rounded once. -/
def fAdd (x y : F32) : F32 :=
  match fDecode x, fDecode y with
  | .nan, _ => fNaN
  | _, .nan => fNaN
  | .inf a, .inf b => if a = b then fSign a 0x7F800000 else fNaN
  | .inf a, .fin .. => fSign a 0x7F800000
  | .fin .., .inf b => fSign b 0x7F800000
  | .fin a m e, .fin b n f =>
    let base := min e f
    fOfDyadic (a && b) (fScaled a m e base + fScaled b n f base) base

/-- Negation (FNEG of R348: the sign bit). -/
def fNeg (x : F32) : F32 := x ^^^ 0x80000000#32

/-- Absolute value (FABS of R348). -/
def fAbs (x : F32) : F32 := x &&& 0x7FFFFFFF#32

/-- Difference. -/
def fSub (x y : F32) : F32 :=
  match fDecode y with
  | .nan => fNaN
  | _ => fAdd x (fNeg y)

/-- Exact product, rounded once. -/
def fMul (x y : F32) : F32 :=
  match fDecode x, fDecode y with
  | .nan, _ => fNaN
  | _, .nan => fNaN
  | .inf a, .inf b => fSign (a != b) 0x7F800000
  | .inf a, .fin b n _ => if n = 0 then fNaN else fSign (a != b) 0x7F800000
  | .fin a m _, .inf b => if m = 0 then fNaN else fSign (a != b) 0x7F800000
  | .fin a m e, .fin b n f => fRound (a != b) (m * n) (e + f) false

/-- Addend plus product with one rounding (FMA of R341). -/
def fFma (z x y : F32) : F32 :=
  match fDecode z, fDecode x, fDecode y with
  | .nan, _, _ => fNaN
  | _, .nan, _ => fNaN
  | _, _, .nan => fNaN
  | .fin c k g, .fin a m e, .fin b n f =>
    let p := a != b
    let base := min g (e + f)
    fOfDyadic (c && p) (fScaled c k g base + fScaled p (m * n) (e + f) base) base
  | _, _, _ =>
    let p := fMul x y
    match fDecode p with
    | .inf _ => fAdd z p
    | .nan => fNaN
    | .fin .. => z

/-- Quotient, rounded once. -/
def fDiv (x y : F32) : F32 :=
  match fDecode x, fDecode y with
  | .nan, _ => fNaN
  | _, .nan => fNaN
  | .inf _, .inf _ => fNaN
  | .inf a, .fin b _ _ => fSign (a != b) 0x7F800000
  | .fin a _ _, .inf b => fSign (a != b) 0
  | .fin a m e, .fin b n f =>
    if n = 0 then (if m = 0 then fNaN else fSign (a != b) 0x7F800000)
    else
      let num := m * 2 ^ 64
      fRound (a != b) (num / n) (e - f - 64) (num % n != 0)

/-- Integer square root, by bits from the top. -/
def isqrtAux : Nat → Nat → Nat → Nat
  | 0, _, r => r
  | k + 1, n, r =>
    let c := r + 2 ^ k
    isqrtAux k n (if c * c ≤ n then c else r)

/-- Largest r with r·r ≤ n. -/
def isqrt (n : Nat) : Nat := isqrtAux (n.log2 / 2 + 1) n 0

/-- Square root, rounded once; of a negative number NaN. -/
def fSqrt (x : F32) : F32 :=
  match fDecode x with
  | .nan => fNaN
  | .inf neg => if neg then fNaN else fPosInf
  | .fin neg m e =>
    if m = 0 then fSign neg 0
    else if neg then fNaN
    else
      let odd := e % 2 != 0
      let m' := (if odd then 2 * m else m) * 2 ^ 64
      let e' := (if odd then e - 1 else e) - 64
      let r := isqrt m'
      fRound false r (e' / 2) (r * r != m')

/-- Finite (R66, R99). -/
def fFinite (x : F32) : Bool :=
  match fDecode x with
  | .fin .. => true
  | _ => false

/-- NaN. -/
def fIsNaN (x : F32) : Bool :=
  match fDecode x with
  | .nan => true
  | _ => false

/-- Order of two values: none when one is NaN. -/
def fCmp (x y : F32) : Option Ordering :=
  match fDecode x, fDecode y with
  | .nan, _ => none
  | _, .nan => none
  | .inf a, .inf b => some (if a = b then .eq else if a then .lt else .gt)
  | .inf a, .fin .. => some (if a then .lt else .gt)
  | .fin .., .inf b => some (if b then .gt else .lt)
  | .fin a m e, .fin b n f =>
    let base := min e f
    some (compare (fScaled a m e base) (fScaled b n f base))

/-- x < y. -/
def fLt (x y : F32) : Bool := fCmp x y == some .lt
/-- x ≤ y. -/
def fLe (x y : F32) : Bool := fCmp x y == some .lt || fCmp x y == some .eq
/-- x = y as numbers. -/
def fEq (x y : F32) : Bool := fCmp x y == some .eq

/-- min of two numbers as min(a, b) in the pseudocode: a when a ≤ b; a NaN makes it NaN. -/
def fMin (x y : F32) : F32 := if fLe x y then x else if fLt y x then y else fNaN
/-- max of two numbers; a NaN makes it NaN. -/
def fMax (x y : F32) : F32 := if fLe y x then x else if fLt x y then y else fNaN
/-- clamp(x, lo, hi). -/
def fClamp (x lo hi : F32) : F32 := fMin (fMax x lo) hi

/-- An integer to FP32, rounded once. -/
def fOfInt (i : Int) : F32 := fOfDyadic false i 0

/-- Floor of ±m·2^e. -/
def floorDyadic (neg : Bool) (m : Nat) (e : Int) : Int :=
  if 0 ≤ e then (if neg then -(m * 2 ^ e.toNat : Nat) else (m * 2 ^ e.toNat : Nat))
  else
    let d := 2 ^ (-e).toNat
    if neg then -(((m + d - 1) / d : Nat) : Int) else ((m / d : Nat) : Int)

/-- Round half up to an integer (R72, R73); none when not finite. -/
def fRoundHalfUp (x : F32) : Option Int :=
  match fDecode x with
  | .fin neg m e =>
    let v := fScaled neg m e (min e (-1)) + 2 ^ ((-1) - min e (-1)).toNat
    some (v.fdiv (2 ^ (-(min e (-1))).toNat))
  | _ => none

/-- Round half away from zero to an integer over 2^k: the nearest multiple of 2^-k (R80, R97); none when not finite. -/
def fRoundAwayScaled (k : Nat) (x : F32) : Option Int :=
  match fDecode x with
  | .fin neg m e =>
    let e' := e + k
    let a : Int := if 0 ≤ e' then ((m * 2 ^ e'.toNat : Nat) : Int)
      else roundAway (m : Int) ((2 ^ (-e').toNat : Nat) : Int)
    some (if neg then -a else a)
  | _ => none

/-- Round to nearest even integer over 2^-k and saturate to a signed 32-bit value; NaN gives 0 (R341). -/
def fToIntSat (k : Nat) (x : F32) : Word :=
  match fDecode x with
  | .nan => 0#32
  | .inf neg => if neg then 0x80000000#32 else 0x7FFFFFFF#32
  | .fin neg m e =>
    let e' := e + k
    let a : Nat :=
      if 0 ≤ e' then (if e' ≤ 64 then m * 2 ^ e'.toNat else if m = 0 then 0 else 2 ^ 40)
      else
        let d := 2 ^ (-e').toNat
        let q := m / d
        let r := m % d
        if d < 2 * r || (2 * r = d && q % 2 = 1) then q + 1 else q
    wordOfInt (sat32 (if neg then -(a : Int) else (a : Int)))

/-- 2π · 2^120. -/
def twoPi120 : Nat := 0x6487ed5110b4611a62633145c06e0e6

/-- Terms of the sine and cosine series of an angle in units of 2^-120 rad: alternating Taylor terms. -/
def trigTerms : Nat → Nat → Int → Int → Int → Int
  | 0, _, _, _, acc => acc
  | n + 1, k, a2, t, acc =>
    let t' := -(t * a2 / (2 ^ 120 : Int)) / ((k + 1) * (k + 2) : Nat)
    trigTerms n (k + 2) a2 t' (acc + t')

/-- (cos, sin) in units of 2^-120 of a turn fraction f·2^-120. -/
def cosSinTurn (f : Int) : Int × Int :=
  let one : Int := 2 ^ 120
  let q := (4 * f + one / 2).fdiv one
  let g := f - q * (one / 4)
  let a := (g * (twoPi120 : Int)).fdiv one
  let a2 := (a * a).fdiv one
  let c := trigTerms 18 0 a2 one one
  let s := trigTerms 18 1 a2 a a
  match (q % 4).toNat with
  | 0 => (c, s)
  | 1 => (-s, c)
  | 2 => (-c, -s)
  | _ => (s, -c)

/-- The turn fraction, in 2^-120, of an angle in units of 1/65,536 turn. -/
def turnOf (x : F32) : Option Int :=
  match fDecode x with
  | .fin neg m e =>
    let i := fScaled neg m e (-149)
    some ((i.fdiv (2 ^ 45)) % 2 ^ 120)
  | _ => none

/-- cos θ of an angle θ in angle units of R60: the FP32 value nearest the real cosine (DEDUCED, log 8). -/
def fCos (x : F32) : F32 :=
  match turnOf x with
  | some f => fOfDyadic false (cosSinTurn f).1 (-120)
  | none => fNaN

/-- sin θ, likewise. -/
def fSin (x : F32) : F32 :=
  match turnOf x with
  | some f => fOfDyadic false (cosSinTurn f).2 (-120)
  | none => fNaN

/-- One step of the search of `atanFrac`: keep bit k of the angle when the direction is not before it. -/
def atanBits : Nat → Nat → Int → Int → Nat
  | 0, phi, _, _ => phi
  | k + 1, phi, x, y =>
    let c := phi + 2 ^ k
    let cs := cosSinTurn ((c : Int) * 2 ^ 104)
    let ok := if c = 8192 then decide (x ≤ y) else decide (0 ≤ cs.1 * y - cs.2 * x)
    atanBits k (if ok then c else phi) x y

/-- floor(65,536 · atan2(s, c)/2π) with the angle in [0, 2π), and 0 for atan2(0, 0) (R141). -/
def atanPhi (s c : Int) : Nat :=
  if s = 0 ∧ c = 0 then 0
  else if 0 < c ∧ 0 ≤ s then atanBits 14 0 c s
  else if c ≤ 0 ∧ 0 < s then 16384 + atanBits 14 0 s (-c)
  else if c < 0 ∧ s ≤ 0 then 32768 + atanBits 14 0 (-c) (-s)
  else 49152 + atanBits 14 0 (-s) c

end Sys2Proof.Machine
end

