-- ==== Sys2Proof/Machine/Tab.lean ====
section
/-! DEFINITION. Sparse data by key: tables of like things, and byte memories in one canonical form. -/

namespace Sys2Proof.Machine

/-- A table of like things by number: pairs in rising key order; a number without a pair has the default. -/
abbrev Tab (α : Type) := List (Nat × α)

/-- Entry k of a table, or the default. -/
def tget {α : Type} (d : α) : Tab α → Nat → α
  | [], _ => d
  | (k', v) :: t, k => if k = k' then v else tget d t k

/-- Write entry k of a table. -/
def tset {α : Type} : Tab α → Nat → α → Tab α
  | [], k, v => [(k, v)]
  | (k', v') :: t, k, v =>
    if k = k' then (k, v) :: t
    else if k < k' then (k, v) :: (k', v') :: t
    else (k', v') :: tset t k v

/-- A byte memory: address and byte pairs (R27; the flash of R364). -/
abbrev Memory := List Host.Cell

/-- The byte at an address; an unlisted address reads as d. -/
def mget (d : Byte) : Memory → Nat → Byte
  | [], _ => d
  | (k', v) :: t, k => if k = k' then v else mget d t k

/-- Write one byte, keeping the canonical form: a byte equal to d is not listed. -/
def mset (d : Byte) : Memory → Nat → Byte → Memory
  | [], k, v => if v = d then [] else [(k, v)]
  | (k', v') :: t, k, v =>
    if k = k' then (if v = d then t else (k, v) :: t)
    else if k < k' then (if v = d then (k', v') :: t else (k, v) :: (k', v') :: t)
    else (k', v') :: mset d t k v

/-- The canonical form: addresses strictly rising, and no byte equal to d. -/
def Memory.wf (d : Byte) : Memory → Bool
  | [] => true
  | (k, v) :: t => v != d && t.all (fun c => k < c.1) && Memory.wf d t

/-- n bytes from an address. -/
def mread (d : Byte) (m : Memory) (a n : Nat) : List Byte :=
  (List.range n).map (fun i => mget d m (a + i))

/-- Write bytes from an address upwards. -/
def mwrite (d : Byte) : Memory → Nat → List Byte → Memory
  | m, _, [] => m
  | m, a, b :: bs => mwrite d (mset d m a b) (a + 1) bs

/-- The listed cells of a block of bytes at an address. -/
def blockCells (d : Byte) : Nat → List Byte → Memory
  | _, [] => []
  | a, b :: bs => if b = d then blockCells d (a + 1) bs else (a, b) :: blockCells d (a + 1) bs

/-- Replace a whole block of bytes at once. -/
def mblock (d : Byte) (m : Memory) (a : Nat) (bs : List Byte) : Memory :=
  m.filter (fun c => c.1 < a) ++ blockCells d a bs ++ m.filter (fun c => a + bs.length ≤ c.1)

/-- Drop every byte of [a, a + n) (erase the flash, clear SRAM). -/
def merase (m : Memory) (a n : Nat) : Memory := m.filter (fun c => c.1 < a || a + n ≤ c.1)

end Sys2Proof.Machine
end

