-- ==== Sys2Proof/Machine/Records.lean ====
section
/-! DEFINITION. The records of axes, groups, queue owners and retire channels, which shadow entry carries whole from one
unit of a pair to the other (R274), so that a command can name them. -/

namespace Sys2Proof.Machine

/-- Axis states (R39). -/
inductive AxState where
  | off | prestart | ready | run | park | qstop | fault | retired
  deriving DecidableEq, Repr

/-- What an axis waits for before a transition of R105 or R108 ends. -/
inductive AxWait where
  /-- nothing -/
  | none
  /-- DISABLE: rest, then the brake, then OFF -/
  | restOff
  /-- DISABLE at rest: the brake report, then OFF -/
  | brakeOff
  /-- a QSTOP reaction: rest, then the brake, then FAULT -/
  | restFault
  /-- a QSTOP reaction at rest: the brake report, then FAULT -/
  | brakeFault
  /-- PARK: the brake report, then gates off -/
  | brakePark
  deriving DecidableEq, Repr

/-- States of a retire channel (R32, R37). -/
inductive RetState where
  | inUse | backoff | retired
  deriving DecidableEq, Repr

/-- What a power-stage sequence is (R119). -/
inductive SeqKind where
  | idle | prestart | diag
  deriving DecidableEq, Repr

/-- What follows the end of a diagnostic run (R114). -/
inductive DiagThen where
  /-- fault 0x11: a transient, and the retry when its backoff ends -/
  | transientRetry
  /-- fault 0x10: the retry at once -/
  | retry
  deriving DecidableEq, Repr

/-- Phases of referencing (R176). -/
inductive RefPhase where
  /-- no referencing -/
  | idle
  /-- running at REFVS away from DIR until the level changes -/
  | away
  /-- coming to rest after that -/
  | awayStop
  /-- searching in direction DIR -/
  | search
  /-- the edge is captured and an index is awaited (mode 1) -/
  | index
  /-- the point is known: coming to rest -/
  | finish
  /-- failed: coming to rest without a shift -/
  | failed
  deriving DecidableEq, Repr

/-- One retire channel. -/
structure RetCh where
  st : RetState := .inUse
  /-- instants of the counted transients, in ms, newest first -/
  stamps : List Nat := []
  backoff : Nat := 0
  perm : Bool := false
  /-- count at retirement (R37) -/
  cnt : Nat := 0
  deriving DecidableEq, Repr

/-- A reply kept in the window of R281. -/
structure Reply where
  seq : Word
  op : Nat
  status : Nat
  pl : List Word
  deriving DecidableEq, Repr

/-! ### Axis: control and faults (R104 to R110) -/

/-- AXCTL to AXSWAP of one axis, with the progress of its transitions. -/
structure AxCtl where
  st : AxState := .off
  /-- reaction class in force: 0, or 2 to 4 (R106) -/
  react : Nat := 0
  fcode : Nat := 0
  /-- the round in which FCODE was set (R106: lowest code of one round) -/
  reactAt : Word := 0
  qscmd : Bool := false
  wait : AxWait := .none
  bank : Bool := false
  swapPend : Bool := false
  swapAt : Word := 0
  lastCode : Nat := 0
  /-- persisting causes, one bit for each fault code (R107) -/
  causes : Nat := 0
  /-- SEENNONE to SEENRET, bits 0 to 4, and those that a write clears at the start of the next computation (R24) -/
  seen : Nat := 0
  seenClr : Nat := 0
  /-- AXFLT.ACTIVE as the last completed computation left it (R24) -/
  active : Bool := false
  feAcc : Nat := 0
  feNow : Int := 0
  /-- the following error in fine counts (R104, R189) -/
  feFine : Int := 0
  fePeak : Nat := 0
  feOver : Bool := false
  /-- round of the previous evaluation since the entry to RUN (R104) -/
  feLast : Option Word := none
  swapCnt : Nat := 0
  refCnt : Nat := 0
  /-- the axis requests the release of its brake (R294) -/
  brkWant : Bool := false
  /-- that request follows a brake request, and no safe period has judged it yet (R294) -/
  brkNew : Bool := false
  /-- Saggar reports the brake released (R110) -/
  brkRel : Bool := false
  /-- Saggar reports the brake applied since the last request -/
  brkApp : Bool := true
  /-- the axes whose reactions raised fault 0x40 here (R200) -/
  from40 : List Nat := []
  /-- the next computation is the first after the entry to RUN (R338) -/
  firstRun : Bool := false
  deriving DecidableEq, Repr

/-! ### Axis: cells (R83 to R99) -/

/-- One cell: outputs and state. -/
structure Cell where
  o0 : F32 := 0
  o1 : F32 := 0
  /-- FP32 state words: PIDF i, d, x_prev; FILT w1, w2 of each section; OBS vhat, ahat -/
  s : List F32 := []
  /-- OBS position estimate in 2^-32 fine counts (R97) -/
  phat : Int := 0
  high : Bool := false
  dwell : Nat := 0
  numf : Bool := false
  inited : Bool := false
  deriving DecidableEq, Repr

/-! ### Axis: current control (R57 to R82) -/

/-- One round of the applied-voltage history (R61, R65). -/
structure Applied where
  round : Word
  off : Bool
  va : F32
  vb : F32
  deriving DecidableEq, Repr

/-- A Hall edge (R69): instant as core clocks from T0 of a round, direction and sector entered. -/
structure HallEdge where
  round : Word
  ofs : Int
  dir : Int
  sec : Nat
  deriving DecidableEq, Repr

/-- Words staged for departure (R48, R50). -/
structure Staged where
  leave : Word
  payload : List Byte
  deriving DecidableEq, Repr

/-- The current-control block of one axis. -/
structure AxPred where
  missRun : Nat := 0
  sat : Bool := false
  vlim : Bool := false
  ilim : Bool := false
  bsinj : Bool := false
  hallSec : Nat := 7
  hallInt : Bool := false
  /-- no index lay before the computation in progress, or the last one (R68) -/
  hallWait : Bool := true
  /-- IDXWAIT and THETA of the last PRED computation (R81) -/
  idxShown : Bool := false
  thShown : Nat := 0
  goff : Bool := true
  theta : Nat := 0
  dtheta : Int := 0
  id : F32 := 0
  iq : F32 := 0
  vd : F32 := 0
  vq : F32 := 0
  udc : F32 := 0
  omega : F32 := 0
  dutyA : Nat := 0
  dutyB : Nat := 0
  dutyC : Nat := 0
  pdc : F32 := 0
  isq : F32 := 0
  offA : F32 := 0
  offB : F32 := 0
  satA : Bool := false
  satB : Bool := false
  vlimCnt : Nat := 0
  missCnt : Nat := 0
  /-- applied voltages of the rounds, newest first -/
  hist : List Applied := []
  /-- angles of past sample rounds, newest first (R70) -/
  thetas : List (Word × Nat) := []
  hall : Nat := 0
  edges : List HallEdge := []
  /-- bootstrap counts of legs a, b, c (R75) -/
  bs : List Nat := [0, 0, 0]
  hold : Nat := 0
  lastSp : Option Int := none
  staged : Option Staged := none
  /-- the words staged before those, which under LAT3 may still have to leave -/
  stagedPrev : Option Staged := none
  /-- CMP flags that leave with the next FDN (R155) -/
  cmpOut : Nat := 0
  /-- rounds from which the gates are on or off, newest first; off before the first -/
  gateLog : List (Word × Bool) := []
  /-- ω_r of the last computation, angle units per round -/
  wr : F32 := 0
  /-- words of the last computation and the voltage they apply -/
  words : List Nat := [0, 0, 0]
  wabA : F32 := 0
  wabB : F32 := 0
  deriving DecidableEq, Repr

/-! ### Axis: power stage (R114 to R132) -/

/-- The protection block of one axis. -/
structure AxStage where
  legs : Nat := 0
  blank : Bool := false
  step : Nat := 0
  result : Nat := 0
  phase : Nat := 7
  bsRun : Nat := 0
  retryOk : Bool := false
  scCnt : Nat := 0
  bsuvCnt : Nat := 0
  rMeas : F32 := 0
  seq : SeqKind := .idle
  /-- round s in which the step applies (R119) -/
  applyAt : Word := 0
  /-- the step's word is still to be sent -/
  sendStep : Bool := false
  /-- the retry may complete (R114, R115) -/
  retryReady : Bool := false
  /-- numbers of the RES pairs found open -/
  opens : List Nat := []
  /-- the previous FUP carried SC (R114) -/
  scPrev : Bool := false
  diagThen : DiagThen := .retry
  /-- a diagnostic run starts when the backoff ends (fault 0x10) -/
  diagAtEnd : Bool := false
  /-- the retry completes when the backoff ends (fault 0x11) -/
  retryAtEnd : Bool := false
  /-- the run waits for the end of the over-voltage forcing (R116) -/
  paused : Bool := false
  deriving DecidableEq, Repr

/-! ### Axis: feedback, probes, compares (R134 to R158) -/

/-- A probe channel (R151 to R153). -/
structure Probe where
  armed : Bool := false
  cont : Bool := false
  edgeSel : Nat := 0
  loc : Bool := false
  input : Nat := 0
  done : Bool := false
  falling : Bool := false
  unrel : Bool := false
  caps : Nat := 0
  pos : Int := 0
  round : Word := 0
  tim : Nat := 0
  /-- edges at or after T0 of this round count (R153) -/
  since : Word := 0
  deriving DecidableEq, Repr

/-- A compare channel (R154, R155); st is 0 IDLE, 1 ARMED, 2 FIRED, 3 BEHIND, 4 LATE_PENDING. -/
structure Compare where
  st : Nat := 0
  dir : Bool := false
  fip : Bool := false
  rep : Bool := false
  nodeOut : Bool := false
  late : Bool := false
  missed : Nat := 0
  fires : Nat := 0
  tim : Nat := 0
  round : Word := 0
  c : Int := 0
  interval : Nat := 0
  /-- armed in the computation in progress, whose sample does not evaluate it (R154) -/
  fresh : Bool := false
  deriving DecidableEq, Repr

/-- An arming word that waits for the next computation (R153, R154). -/
inductive ArmWord where
  | probe (w : Word)
  | compare (w0 w1 w2 w3 : Word)
  deriving DecidableEq, Repr

/-- One kept feedback sample: round, corrected count, remainder, position, extrapolated, the whole change of TRK that
led to it and its motion part, the latter also in counts (R139). -/
structure FbSample where
  round : Word
  ccnt : Nat
  fr : Int
  pos : Int
  extrap : Bool
  delta : Int
  motion : Int
  motionCnt : Int
  deriving DecidableEq, Repr

/-- The feedback block of one axis. -/
structure AxFb where
  raw : Nat := 0
  ccnt : Nat := 0
  corr : Int := 0
  fr : Int := 0
  trk : Int := 0
  /-- TRK has taken its start value (R144) -/
  started : Bool := false
  pos : Int := 0
  s1 : Option FbSample := none
  s2 : Option FbSample := none
  ssiWord : Option Nat := none
  /-- start round of the last local SSI frame used -/
  ssiUsed : Option Word := none
  /-- axis positions of past sample rounds, newest first (R86) -/
  hist : List (Word × Int) := []
  subRun : Nat := 0
  bad : Bool := false
  badCnt : Nat := 0
  posRel : Bool := false
  based : Bool := false
  idxBase : Nat := 0
  idxDev : Int := 0
  idxCorr : Nat := 0
  cntBase : Option Nat := none
  estim : Bool := false
  hall : Nat := 0
  /-- the last valid Hall state; 0 before the first (R140) -/
  hallLast : Nat := 0
  hallSkip : Nat := 0
  multi : Nat := 0
  slLo : Bool := false
  slHi : Bool := false
  modTurn : Int := 0
  /-- PLEVEL0, PLEVEL1 of the last sample -/
  plev : Nat := 0
  /-- the FBMAXD test is skipped once after DEEP PARK (R412) -/
  skipMaxd : Bool := false
  /-- compares use the sample after the return of POSREL first (R155) -/
  cmpFresh : Bool := true
  prb : Tab Probe := []
  cmp : Tab Compare := []
  arming : List ArmWord := []
  /-- a captured reference edge, and an index accepted since (R175) -/
  refCap : Option (Int × Bool) := none
  refIdx : Option Int := none
  deriving DecidableEq, Repr

/-! ### Queue owner (R160 to R182) -/

/-- A move of R163: its eight words. -/
structure Move where
  ctl : Word := 0
  tgtLo : Word := 0
  tgtHi : Word := 0
  vmax : Word := 0
  amax : Word := 0
  dmax : Word := 0
  jmax : Word := 0
  aux : Word := 0
  deriving DecidableEq, Repr

/-- Limits in force of a move. -/
structure Limits where
  v : Nat
  a : Nat
  d : Nat
  j : Nat
  deriving DecidableEq, Repr

/-- What the current profile is. -/
inductive MvKind where
  /-- a move of R163 -/
  | move
  /-- a quick stop (R173) -/
  | quick
  /-- a stop after a move that failed at activation (R170) or after a failed referencing (R176) -/
  | stop
  /-- a movement of the referencing search (R176) -/
  | ref
  deriving DecidableEq, Repr

/-- The current profile: its words, limits, what it ends at (a target, or a velocity for VEL), the joint speed, and the
segments still to run (segment number, rounds, jerk). -/
structure CurMove where
  mv : Move := {}
  kind : MvKind := .move
  lim : Limits
  /-- target in fine counts; on a modulo axis unwrapped with the set-point -/
  target : Option Int := none
  /-- target velocity of a VEL profile -/
  vt : Int := 0
  endV : Int := 0
  segs : List (Nat × Nat × Int) := []
  /-- a VEL profile holds its velocity -/
  holding : Bool := false
  /-- its joint is decided (R167), for this next move -/
  jdec : Bool := false
  jnext : Option Move := none
  /-- window of an OVERLAP joint in rounds -/
  window : Option Nat := none
  /-- direction in which it arrives -/
  arr : Int := 0
  /-- number of the move -/
  nr : Nat := 0
  /-- a round of its last segments 5 to 7 has run -/
  late : Bool := false
  deriving DecidableEq, Repr

/-- A set-point entry (R161). -/
structure Entry where
  p : Int := 0
  v : Int := 0
  a : Int := 0
  j : Int := 0
  /-- target of the move that is current in its round, and the rounds left to that move's planned end (PFTGT, PFREM) -/
  tgt : Int := 0
  rem : Nat := 0
  /-- segment and number of that move (R169) -/
  seg : Nat := 0
  nr : Nat := 0
  deriving DecidableEq, Repr

/-- Wheel's state in units of 2^-32 (R161). -/
structure Kin where
  p : Int := 0
  v : Int := 0
  a : Int := 0
  deriving DecidableEq, Repr

/-- An accepted profile command (R168). -/
inductive PfCmd where
  | append (mv : Move)
  /-- with the number of the move that was in its segments 5 to 7 at acceptance (R169) -/
  | replace (mv : Move) (late : Option Nat)
  | chglim (mv : Move)
  | clear
  | ref
  deriving DecidableEq, Repr

/-- The profile block of a queue owner. -/
structure Prof where
  kin : Kin := {}
  cur : Option CurMove := none
  queue : List Move := []
  /-- accepted commands, each with the round of its acceptance (R162) -/
  accepted : List (Word × PfCmd) := []
  /-- moves started so far: the number of the current one -/
  nr : Nat := 0
  /-- the set-point buffer the clusters read and the profile round of its entry 0 (R46) -/
  entries : List Entry := []
  base : Word := 0
  /-- the second buffer, with its round -/
  nextEntries : Option (Word × List Entry) := none
  /-- the entry used by the last completed computation (R182) -/
  shown : Entry := {}
  tag : Nat := 0
  decDef : Bool := false
  jntMiss : Bool := false
  slStop : Bool := false
  rev : Bool := false
  ovrCut : Bool := false
  rest : Bool := true
  errCode : Nat := 0
  refused : Nat := 0
  done : Nat := 0
  deferred : Nat := 0
  /-- a quick stop is in progress (R173) -/
  quick : Bool := false
  /-- a limit-switch stop is asked for (R174) -/
  limStop : Bool := false
  /-- limits of the move just ended (R170) -/
  lastLim : Option Limits := none
  /-- target of the previous move, for REL (R164) -/
  prevTarget : Option Int := none
  /-- profile of an OVERLAP joint that runs beside the current move (R167) -/
  overlaid : Option (Kin × CurMove) := none
  refPhase : RefPhase := .idle
  /-- travel since the REF command in 2^-32 fine counts, and the limit switches as last seen in the search (R176) -/
  refPath : Nat := 0
  refSw : Bool × Bool := (false, false)
  refPoint : Option Int := none
  deriving DecidableEq, Repr

/-! ### Axis -/

/-- One axis. -/
structure Axis where
  ctl : AxCtl := {}
  pred : AxPred := {}
  stage : AxStage := {}
  fb : AxFb := {}
  prof : Prof := {}
  cells : Tab Cell := []
  deriving DecidableEq, Repr

/-! ### Group unit (R183 to R203) -/

/-- One group. -/
structure Group where
  prof : Prof := {}
  fcode : Nat := 0
  sat : Bool := false
  posRel : Bool := false
  /-- GRSTAT.STATE and BRKREL as the last computation left them (R24) -/
  stShown : Nat := 0
  brkShown : Bool := false
  gfbPos : Int := 0
  gfe : Int := 0
  gfbVel : Int := 0
  gskew : Nat := 0
  lbase : Int := 0
  running : Bool := false
  missRun : Nat := 0
  /-- last entry of a remote leader, kept for the next tick (R187) -/
  lead : Entry := {}
  leadKin : Kin := {}
  /-- current members of a mover: axes in track order; none before the first tick -/
  members : Option (List Nat) := none
  claim : Bool := false
  noThrust : Bool := false
  leadMem : Nat := 0
  weights : List F32 := []
  overlaps : List Nat := []
  /-- the members whose overlaps these are (R196) -/
  weighed : List Nat := []
  x : Int := 0
  x1 : Int := 0
  /-- fused positions of past sample rounds, newest first (R86, R198) -/
  xHist : List (Word × Int) := []
  xMiss : Nat := 0
  brkWant : Bool := false
  brkNew : Bool := false
  brkRel : Bool := false
  /-- the mover's cell state (R198), and the lead's result of the present round -/
  cells : Tab Cell := []
  cellsNew : Option (Tab Cell) := none
  /-- sample round of the last fused position -/
  fusedAt : Option Word := none
  totId : F32 := 0
  totIq : F32 := 0
  totPdc : F32 := 0
  deriving DecidableEq, Repr

end Sys2Proof.Machine
end

