-- ==== Sys2Proof/Syntax.lean ====
section
/-! DEFINITION. The commands of the head: one constructor for each row of spec/opcode_table.json, with the
operands its rule needs to be told from outside (the table itself gives no operand). Every number that names a
resource (axis, group, node, core, channel, pin) is a Nat; WellFormed bounds it. -/

namespace Sys2Proof

/-- The masters of R21. -/
inductive Master where
  | host
  | compact
  | wide (c : Nat)
  | boot
  | saggar
  deriving DecidableEq, Repr

/-- A queue owner of R160, or the owner of a brake channel (R293): an axis or a group. -/
inductive Owner where
  | axis (a : Nat)
  | group (g : Nat)
  deriving DecidableEq, Repr

/-- The address a frame was sent to (R388). -/
inductive Dst where
  | pair
  | unit
  | recovery
  deriving DecidableEq, Repr

/-- The source of a command on its way (R264, R402): an address on Ethernet, the SPI port, or the compact core, whose
writes pass through the pair as commands and which sends no frame. -/
inductive Sender where
  | udp (ip : Word) (port : Nat) (mac : Nat) (dst : Dst)
  | spi
  | core
  deriving DecidableEq, Repr

/-- The source of a recorder command (R332, R333). -/
inductive Source where
  | ethernet
  | spi
  | compact
  deriving DecidableEq, Repr

/-- The DC-link detectors of R123. -/
inductive Detector where
  | analogue
  | sigmaDelta
  deriving DecidableEq, Repr

/-- The monitored rails of R416. -/
inductive Rail where
  | core
  | aon
  deriving DecidableEq, Repr

/-- A slot that reached a Toelle receive port (R213): the channel and port, the START of the position it lies in,
the arrival of its SOF after the unit's own T0 in 1/16 ns, whether a code violation lies in it (R205), and its bytes from HDR to the
last CRC byte. -/
structure RxSlot where
  ch : Nat
  port : Nat
  start : Nat
  arrival : Int
  codeErr : Bool
  bytes : List Byte
  deriving DecidableEq, Repr

/-- A slot that reached the twin lane or the cascade lane (R264, R284): the arrival of its SOF against the unit's
own T0 in 0.25 ns, the core clock at which its last byte arrived, a code violation flag, and its bytes from HDR to
the last CRC byte. -/
structure LaneSlot where
  arrival : Int
  clk : Nat
  codeErr : Bool
  bytes : List Byte
  deriving DecidableEq, Repr

/-- What a copy unit of shadow entry holds (R274). -/
inductive CopyContent where
  /-- the slow block of an axis: both coefficient banks and the swap state -/
  | bank (a : Nat) (b0 b1 : List Word) (active pend : Bool) (at_ : Word)
  /-- the head's slow block: event masks, flags, pin configuration and routing, retire states, duplicate window, safety set and
change log (R274, R312) -/
  | slow (mask flags : BitVec 256) (pinCfg : Word) (route : List (Nat × Word)) (ret : List (Nat × Machine.RetCh)) (window : List Machine.Reply)
      (safety : List (Nat × Word)) (log : List (Nat × List Word)) (logCount logTotal : Nat)
  /-- the persistent region of wide core c -/
  | ladle (c : Nat) (bytes : List Byte)
  /-- a queue owner's Wheel state, move and queue, referencing and limit state; for a group, its group-unit state -/
  | owner (o : Owner) (p : Machine.Prof) (r : Option Machine.Group)
  /-- a group's group-unit state -/
  | group (g : Nat) (r : Machine.Group)
  /-- an axis -/
  | axis (a : Nat) (x : Machine.Axis)
  /-- a mover's group with the axis units of its current members -/
  | mover (g : Nat) (r : Machine.Group) (members : List (Nat × Machine.Axis))
  deriving DecidableEq, Repr

/-- A copy unit of shadow entry (R274) that has arrived: its stamp S, whether it is complete, and the state it carries
as it stood at the end of the computations of round S (log 13). -/
structure CopyUnit where
  stamp : Word
  complete : Bool
  content : CopyContent
  deriving DecidableEq, Repr

/-- What the active unit sees of one channel at byte time 2,448 (R244, R251): the RING of its own MARK at each
port in units of 312.5 ps (none: not returned), whether the MARK came back wrapped at the node-facing port, lock,
_LOS and comma alignment of both ports, and the number of nodes whose upstream content returns at the node-facing port. -/
structure ChanObs where
  ring0 : Option Nat
  ring1 : Option Nat
  wrapped : Bool
  lock0 : Bool
  lock1 : Bool
  los0 : Bool
  los1 : Bool
  align0 : Bool
  align1 : Bool
  reach : Nat
  deriving DecidableEq, Repr

/-- What the boot unit meets at the flash (R364, R371): a good SFDP signature and table, the xSPI profile table,
the density in bytes, a read error in slot A or B, and the retire parameters that each slot's image carries under R33,
which have no register (class, threshold, window in ms, first backoff in ms; log 14). -/
structure BootObs where
  sfdpOk : Bool
  xspiOk : Bool
  density : Nat
  errA : Bool
  errB : Bool
  retA : List (Nat × Nat × Nat × Nat)
  retB : List (Nat × Nat × Nat × Nat)
  deriving DecidableEq, Repr

/-- What a PORT_LOSS finds (R234, R250): the port, and what is lost there: 0 lock, 1 alignment, 2 the light, which is _LOS. -/
structure PortFault where
  port : Nat
  how : Nat
  deriving DecidableEq, Repr

/-- How an image command ends (R377): without a flash error or with one; `ret` are the retire parameters a VERIFY reads
beside the slot, as (class, limit, window, backoff), as BOOT_SEQUENCE takes them (R33). -/
structure JobEnd where
  ok : Bool
  ret : List (Nat × Nat × Nat × Nat)
  deriving DecidableEq, Repr

/-- What a rail's monitor measured over a dip (R416, R417): whether it warned, its minimum in mV and its time below
warning in always-on ticks. -/
structure DipObs where
  warned : Bool
  minMv : Nat
  ticks : Nat
  deriving DecidableEq, Repr

/-- The amount of a Ladle shift (R348): an immediate of five bits or a register. -/
inductive ShAmt where
  | imm (n : Nat)
  | reg (r : Nat)
  deriving DecidableEq, Repr

/-- The FN bits of MAC (R348). -/
structure MacMode where
  sub : Bool
  frac : Bool
  uns : Bool
  repl : Bool
  deriving DecidableEq, Repr

/-- The address modes of format M (R347). -/
inductive MemMode where
  | offset (off : BitVec 15)
  | postModify
  deriving DecidableEq, Repr

/-- The widths of format M (R347). -/
inductive MemWidth where
  | word
  | shalf
  | uhalf
  | ubyte
  deriving DecidableEq, Repr

/-- The conditions of B (R348). -/
inductive BrCond where
  | always
  | eq
  | ne
  | lt
  | ge
  | gt
  | le
  | lo
  | hs
  | flt
  | fge
  | unordered
  deriving DecidableEq, Repr

/-- An enabled load of format D (R347): LD d,(p)+m. -/
structure DualLoad where
  d : Nat
  p : Nat
  deriving DecidableEq, Repr

/-- The commands: one constructor for each row of the opcode table. -/
inductive Instr where
  /-- ROUND_START (R42): At T0 the round counter increments, MARK and the schedule start to leave, and the per-round actions tied to T0 run. -/
  | roundStart
  /-- FUP_RECEIVED (R51): An upstream FUP slot that passes its checks is placed in the owning cluster's input buffer within 16 core clocks. -/
  | fupReceived (r : RxSlot)
  /-- POS_RECEIVED (R221): A POS slot is accepted and its feedback and probe fields are taken for the axis. -/
  | posReceived (r : RxSlot)
  /-- DIAG_RECEIVED (R224): A DIAG slot from a node updates the node descriptor's diagnostic words. -/
  | diagReceived (r : RxSlot)
  /-- SVC_REPLY (R223): An SVC reply or error from a node is taken by the head. -/
  | svcReply (r : RxSlot)
  /-- UPSTREAM_SILENCE (R247): After 2H rounds with the channel up and no accepted upstream content of a node, the head orders re-integration. -/
  | upstreamSilence (ch node : Nat)
  /-- CLUSTER_WAKE (R52): At core clock CLWAKE.WAKE a cluster with computations due wakes and computes its axes back to back, then gates off. -/
  | clusterWake (c : Nat)
  /-- SLICE_OVERRUN (R353): A slice still running at S + BUDGET is stopped, counted and raises fault 0x09. -/
  | sliceOverrun (c : Nat)
  /-- FDN_SLOT_DEPARTURE (R50): At byte time F the axis's FDN slot leaves, or is withheld with the staging-miss event when words are not staged. -/
  | fdnSlotDeparture (a : Nat)
  /-- WHEEL_TICK (R162): In each round with n mod 4 = 3 Wheel takes commands and computes four set-point entries for every queue owner. -/
  | wheelTick
  /-- CXP_RECEIVED (R285): A follower accepts a CXP for one of its remote GEAR groups or counts it missing or late. -/
  | cxpReceived (r : LaneSlot)
  /-- REMOTE_GEAR_DERIVATION (R187): At core clock 2,500 of its tick round the follower derives remote GEAR members, extending missing ticks and raising fault 0x42. -/
  | remoteGearDerivation
  /-- BANK_SWAP (R103): At T0 of round swap_at the axis's active bank changes and the swap-done event is raised. -/
  | bankSwap (a : Nat)
  /-- ENABLE (R108): Axis command ENABLE starts the pre-start sequence, or takes a NONE axis to READY. -/
  | enable (a : Nat)
  /-- RUN (R108): Axis command RUN initialises the cells and requests brake release. -/
  | run (a : Nat)
  /-- PARK (R108): Axis command PARK requests the brake and parks the axis once it reports applied. -/
  | park (a : Nat)
  /-- UNPARK (R108): Axis command UNPARK returns a parked axis to RUN without a pre-start sequence. -/
  | unpark (a : Nat)
  /-- QSTOP (R108): Axis command QSTOP starts a commanded quick stop. -/
  | qstop (a : Nat)
  /-- DISABLE (R108): Axis command DISABLE brings the axis to OFF, through a quick stop when moving. -/
  | disable (a : Nat)
  /-- RESET (R108): Axis command RESET takes a FAULT axis with no active cause and an applied brake to OFF. -/
  | reset (a : Nat)
  /-- SWAP (R103): A write of AXCTL.SWAP checks the inactive bank and schedules a swap at the next frame boundary, or refuses it. -/
  | swap (a : Nat)
  /-- BRAKE_APPLIED_REPORT (R108): Saggar's report that an axis's brake is applied ends PARK, QSTOP-to-FAULT and DISABLE sequences with gates off. -/
  | brakeAppliedReport (a : Nat)
  /-- GROUP_ENABLE (R191): Group command ENABLE is forwarded to every axis of the tree. -/
  | groupEnable (g : Nat)
  /-- GROUP_RUN (R191): Group command RUN is forwarded to every axis of the tree. -/
  | groupRun (g : Nat)
  /-- GROUP_PARK (R191): Group command PARK is forwarded to every axis of the tree. -/
  | groupPark (g : Nat)
  /-- GROUP_UNPARK (R191): Group command UNPARK is forwarded to every axis of the tree. -/
  | groupUnpark (g : Nat)
  /-- GROUP_QSTOP (R191): Group command QSTOP is forwarded to every axis of the tree. -/
  | groupQstop (g : Nat)
  /-- GROUP_DISABLE (R191): Group command DISABLE is forwarded to every axis of the tree. -/
  | groupDisable (g : Nat)
  /-- GROUP_RESET (R191): Group command RESET is forwarded to every axis of the tree. -/
  | groupReset (g : Nat)
  /-- LOCGO (R191): A write of LOCGO replaces a mover's members by segment LOCSEG alone. -/
  | locgo (g seg : Nat)
  /-- APPEND (R168): PFCMD APPEND adds the staged move to the tail of the queue. -/
  | append (o : Owner) (m : Master)
  /-- REPLACE (R168): PFCMD REPLACE discards the current move and queue and makes the staged move current. -/
  | replace (o : Owner) (m : Master)
  /-- CHGLIM (R169): PFCMD CHGLIM replaces limits of the current and queued moves, deferring unsafe lower decelerations. -/
  | chglim (o : Owner) (m : Master)
  /-- CLEAR (R168): PFCMD CLEAR discards the queue while the current move continues. -/
  | clear (o : Owner) (m : Master)
  /-- REF (R176): PFCMD REF starts referencing, arming probe channel 0 and searching. -/
  | ref (o : Owner) (m : Master)
  /-- COMPARE_ARMING (R154): A compare arming word written at CMPW3 arms, disarms or refuses a compare channel. -/
  | compareArming (a : Nat) (w0 w1 w2 w3 : Word)
  /-- PROBE_ARMING (R153): A probe arming word arms or disarms a probe channel from the next computation. -/
  | probeArming (a : Nat) (w : Word)
  /-- LOCAL_PROBE_EDGE (R151): An edge on a local probe pin is latched with its core clock. -/
  | localProbeEdge (pin : Nat) (level : Bool) (clk len : Nat)
  /-- LOCAL_ENCODER_EDGE (R136): An A, B or Z edge on a local ABZ port counts ×4 or latches the counter. -/
  | localEncoderEdge (port : Nat) (pinA pinB pinZ : Bool)
  /-- SSI_FRAME_START (R137): A local SSI port starts its frame at T0 of every 2^SSIPER-th round. -/
  | ssiFrameStart (port : Nat)
  /-- SSI_FRAME_END (R137): A local SSI frame completes and is checked for start bit and check bits. -/
  | ssiFrameEnd (port : Nat) (startOk : Bool) (bits : List Bool)
  /-- BACKOFF_END (R32): When a channel's backoff reaches 0 it returns to IN_USE. -/
  | backoffEnd (cls idx : Nat)
  /-- RTREL_GO (R35): A release through RTREL with the right key releases the selected retired channel. -/
  | rtrelGo (m : Master) (w : Word)
  /-- RETRY_COMPLETE (R115): A power-stage retry completes, ending faults 0x10 and 0x11 and setting RETRYOK. -/
  | retryComplete (a : Nat)
  /-- TEST_STEP_EVALUATION (R119): A pre-start or diagnostic step is evaluated TSETTLE rounds after it applies and the next step is sent. -/
  | testStepEvaluation (a : Nat)
  /-- NO_RESPONSE (R120): A test step echo missing for 4 further sample rounds ends the sequence with NO_RESPONSE. -/
  | noResponse (a : Nat)
  /-- OVER_VOLTAGE_TRIP (R124): An enabled DC-link detector trips, forcing BCHOP and choppers on and gates off for PSOVAX axes with fault 0x17. -/
  | overVoltageTrip (d : Detector)
  /-- OVER_VOLTAGE_FORCING_END (R124): The forcing ends once all detectors are below release and 1 ms has passed since the last trip. -/
  | overVoltageForcingEnd
  /-- CHOPPER_OVERLOAD (R126): A chopper channel on beyond MAXON sets OVERLOAD and raises the chopper-overload event. -/
  | chopperOverload (j : Nat)
  /-- SDI_FAST (R128): A sigma-delta fast filter reaching FCLEVEL raises the SDI-fast event. -/
  | sdiFast (k : Nat)
  /-- SDI_FAULT (R129): Clock loss or a stuck bitstream on a sigma-delta input counts a class-7 transient and raises SDI-fault. -/
  | sdiFault (k : Nat)
  /-- PSCTEST_GO (R130): A write of PSCTEST.GO starts a comparator self-test or refuses it. -/
  | psctestGo (target : Nat)
  /-- COMPARATOR_SELF_TEST_END (R130): A comparator self-test ends with PASS, NOTRIP or NORELEASE and raises its event. -/
  | comparatorSelfTestEnd (tripped released : Bool)
  /-- LISTEN_TIMER_EXPIRY (R236): The listen timer ends and the unit enters COLDSTART with a new epoch. -/
  | listenTimerExpiry
  /-- MARK_ACCEPTED (R263): A MARK of the unit's own CHEAD is accepted and changes the head state as R263 lists. -/
  | markAccepted (r : RxSlot)
  /-- COLDSTART_END (R236): After 16 rounds of COLDSTART without collision the unit enters ACTIVE and starts every node in LOADING. -/
  | coldstartEnd
  /-- LOAD_SEQUENCE (R240): The head sends a node's load sequence of SVC writes ending with NSCHN. -/
  | loadSequence (ch node : Nat)
  /-- LOAD_TIMEOUT (R239): A node without upstream content 2H rounds after the count write goes through the load sequence again. -/
  | loadTimeout (ch node : Nat)
  /-- NODE_ADMISSION (R242): After a hyperperiod of upstream content the head checks identity and delays and admits the node. -/
  | nodeAdmission (ch node : Nat)
  /-- CHANNEL_JUDGEMENT (R251): At byte time 2,448 the active unit judges each channel and heals it from the next T0 when needed. -/
  | channelJudgement (ch : Nat) (o : ChanObs)
  /-- SKIM_ENDED (R258): After 16 rounds of returned markers the head leaves the skim schedule at the next 16-round boundary. -/
  | skimEnded
  /-- PORT_LOSS (R250): Loss of lock, alignment or _LOS on a port makes a non-active unit wrap. -/
  | portLoss (ch : Nat) (f : PortFault)
  /-- UNWRAP_ORDER (R253): At the end of a segment backoff the head sends the unwrap order in every SYNC. -/
  | unwrapOrder (ch : Nat)
  /-- UNWRAP (R253): An element unwraps at a 16-round boundary once its lost port has been locked for 1 ms. -/
  | unwrap (ch : Nat)
  /-- TLEASE_RECEIVED (R265): A TLEASE from the peer is accepted, renewing the lease and updating peer health and steering. -/
  | tleaseReceived (r : LaneSlot)
  /-- TDIG_RECEIVED (R272): The peer's digest is compared with the unit's own, updating DIGCNT and DIGRUN. -/
  | tdigReceived (r : LaneSlot)
  /-- LEASE_EXPIRY (R267): After LEASE silent rounds the standby takes over with a new epoch, or enters LISTEN. -/
  | leaseExpiry
  /-- TWIN_LINK_LOST (R268): A standby that still sees MARKs after losing the twin lane reports TWIN_LINK_LOST and enters ISOLATED. -/
  | twinLinkLost
  /-- TCMD_RECEIVED (R279): The standby stores a forwarded command and returns TCONF. -/
  | tcmdReceived (r : LaneSlot)
  /-- TCONF_RECEIVED (R279): The active unit accepts the confirmed command in the next round and commits it. -/
  | tconfReceived (r : LaneSlot)
  /-- TCONF_TIMEOUT (R279): Without TCONF in 4 rounds the active unit counts a twin-lane transient and accepts the command alone. -/
  | tconfTimeout (seq : Word)
  /-- TCOMMIT_RECEIVED (R279): The standby acts on committed commands, or restarts shadow entry for an unknown one. -/
  | tcommitReceived (r : LaneSlot)
  /-- TCOPY_RECEIVED (R274): A copy unit arrives and is replayed into step, or discarded when late. -/
  | tcopyReceived (u : CopyUnit)
  /-- HBREQ (R276): After TWHOLDOFF of standing conditions the preferred unit requests handback. -/
  | hbreq
  /-- HANDBACK_ROUND (R276): At T0 of round h the alternate enters STANDBY and the preferred enters HANDBACK with epoch + 1. -/
  | handbackRound
  /-- HANDBACK_END (R263): After 16 rounds of HANDBACK the unit enters ACTIVE. -/
  | handbackEnd
  /-- ISOLATED_TIMEOUT (R263): An ISOLATED unit seeing no MARK of its CHEAD for LEASE rounds enters LISTEN. -/
  | isolatedTimeout
  /-- YIELD (R277): TWCMD YIELD starts the handback handshake towards a healthy peer. -/
  | yield (m : Master)
  /-- REJOIN (R277): TWCMD REJOIN takes an ISOLATED unit to LISTEN. -/
  | rejoin (m : Master)
  /-- INHIBIT (R277): TWCMD INHIBIT sets HBINH on both units. -/
  | inhibit (m : Master)
  /-- ALLOW (R277): TWCMD ALLOW clears HBINH on both units. -/
  | allow (m : Master)
  /-- CMARK_RECEIVED (R284): A CMARK gives a slave the cascade round number and checks RNDERR. -/
  | cmarkReceived (r : LaneSlot)
  /-- CSYNC_EDGE (R283; ofs is the edge against the unit's own T0, 0.25 ns): A CSYNCI edge is the target towards which a slave steers its T0. -/
  | csyncEdge (ofs : Int)
  /-- CSYNC_LOST (R283): A slave without CSYNC for 16 rounds enters FREE. -/
  | csyncLost
  /-- CWAIT_EXPIRY (R283): A slave without a time base after CWAIT seconds proceeds in FREE. -/
  | cwaitExpiry
  /-- CASCADE_LANE_LOSS (R284): Loss of lock on the cascade lane counts a cascade-lane transient. -/
  | cascadeLaneLoss
  /-- SAFE_RECEIVED (R298): Saggar judges a SAFE copy and forms a valid pair or degraded copy for the safe period. -/
  | safeReceived (r : RxSlot)
  /-- SAFE_PERIOD (R294): Each safe period Saggar decides APPLY or RELEASE for every brake channel and sends the copies. -/
  | safePeriod
  /-- BRAKE_FEEDBACK_TIMEOUT (R294): Brake feedback not matching the command within BRKTMO is cause 3. -/
  | brakeFeedbackTimeout (b : Nat)
  /-- DEGTIME_EXCEEDED (R299): Degraded time exceeding DEGTIME is cause 13. -/
  | degtimeExceeded
  /-- LOCKOUT_CAUSE (R304): Saggar finds a lock-out cause, switches local outputs off and clears SAGOK from the next T0. -/
  | lockoutCause (cause idx : Nat)
  /-- LOCKOUT (R304): At T0 of round m + 2 the head enters LOCKED, applies every brake and faults every axis with 0x0A. -/
  | lockout
  /-- SAFE_RESET (R305): A low pulse on SAFE_RESET_n of 0.5 to 3 s after all causes cleared ends the lock-out. -/
  | safeReset (startRound : Word) (us : Nat)
  /-- TEST_PULSE (R292): Every 50 ms TPO pulses for 200 µs and the seal and reset inputs are checked for shorts. -/
  | testPulse (sealHigh resetHigh : Bool)
  /-- DARK_PULSE (R302): Every 100 ms each switch of an energised pair is pulsed off and SFB is checked. -/
  | darkPulse (k : Nat) (fell rose : Bool)
  /-- SAGGAR_WATCHDOG_EXPIRY (R290): Saggar's windowed watchdog expiring switches SOUT off in hardware and is cause 7. -/
  | saggarWatchdogExpiry
  /-- SAGGAR_SUPPLY_TRIP (R290): Saggar's monitor finding VDD_AON below 0.705 V switches SOUT off and is cause 10. -/
  | saggarSupplyTrip
  /-- CPU_SELF_TEST (R290): Every 10 ms Saggar tests its processor. -/
  | cpuSelfTest (ok : Bool)
  /-- RAM_SCRUB (R290): Saggar scrubs its data RAM fully every 100 ms. -/
  | ramScrub (ok : Bool)
  /-- ROM_CRC (R290): Every 1 s Saggar checks the CRC-32 of its program ROM. -/
  | romCrc (ok : Bool)
  /-- CLOCK_COMPARISON (R290): Every 1 ms Saggar compares its RC clock with the always-on clock. -/
  | clockComparison (ok : Bool)
  /-- INPUT_COMPARATOR_SELF_TEST (R290): At power-up, every 24 powered hours and on command Saggar tests its input comparators. -/
  | inputComparatorSelfTest (ok : Bool)
  /-- MARCH_TEST (R290): Saggar runs the march test of its RAM at power-up or after a long dip. -/
  | marchTest (ok : Bool)
  /-- SAGGAR_SELF_TEST_END (R307): When power-up self-tests end, SGSTAT.STATE becomes NORMAL or LOCKED. -/
  | saggarSelfTestEnd
  /-- PWD (R308): SGCMD PWD checks the safety password hash and opens the seal or counts a wrong attempt. -/
  | pwd (m : Master) (len : Nat)
  /-- PWDSET (R308): SGCMD PWDSET with the seal open stores a new password hash and logs it. -/
  | pwdset (m : Master) (len : Nat)
  /-- PARAM (R309): SGCMD PARAM writes one safety parameter to the safety region and logs it. -/
  | param (m : Master)
  /-- SEALCLOSE (R308): SGCMD SEALCLOSE closes the seal. -/
  | sealclose (m : Master)
  /-- LOGCLEAR (R310): SGCMD LOGCLEAR with the seal open and the right CRC empties the change log. -/
  | logclear (m : Master)
  /-- BTEST (R301): SGCMD BTEST applies the brake and drives test currents to check the owner does not move. -/
  | btest (m : Master) (b : Nat)
  /-- BTEST_END (R301): A brake test ends with its result, clearing DUE or setting BLOCKED. -/
  | btestEnd
  /-- BTABORT (R301): SGCMD BTABORT ends a running brake test with ABORTED. -/
  | btabort (m : Master)
  /-- OUTSET (R302): SGCMD OUTSET sets the pair bits of the power-contactor outputs. -/
  | outset (m : Master) (mask : Nat)
  /-- SEAL_PIN_CHANGE (R308): SEAL_n going high closes the seal and ends recorder authorisation. -/
  | sealPinChange (level : Bool)
  /-- SEAL_TIMEOUT (R308): The seal closes 30 minutes after the password was accepted. -/
  | sealTimeout
  /-- PASSWORD_BLOCK_END (R308): After 60 s the safety PWD block ends. -/
  | passwordBlockEnd
  /-- POWERED_SECOND (R317): SEC increments each second on the always-on clock. -/
  | poweredSecond
  /-- RECORDER_PWD (R331): RCCMD PWD checks the maintenance password and authorises clearing. -/
  | recorderPwd (m : Master) (len : Nat)
  /-- RECORDER_CLEAR (R332): RCCMD CLEAR logs the clear in flash, empties the selected records at the next T0 and starts a save. -/
  | recorderClear (src : Source) (scope : Nat) (ok : Bool)
  /-- SAVE (R328): RCCMD SAVE starts a full recorder save. -/
  | save (m : Master)
  /-- LOCK (R331): RCCMD LOCK ends clearing authorisation. -/
  | lock (m : Master)
  /-- SAVE_COMPLETE (R328): A recorder save completes with its header CRC, or fails and sets SAVEERR. -/
  | saveComplete (ok : Bool)
  /-- AUTHORISATION_TIMEOUT (R331): Recorder clearing authorisation ends 30 minutes after the password. -/
  | authorisationTimeout
  /-- RECORDER_PWD_BLOCK_END (R331): After 60 s the recorder PWD block ends. -/
  | recorderPwdBlockEnd
  /-- NOP (R348): Ladle instruction NOP does nothing. -/
  | nop (c : Nat)
  /-- ADD (R348): Ladle instruction ADD adds two registers and sets the flags. -/
  | add (c rd rs rt : Nat)
  /-- SUB (R348): Ladle instruction SUB subtracts two registers and sets the flags. -/
  | sub (c rd rs rt : Nat)
  /-- AND (R348): Ladle instruction AND forms the bitwise and. -/
  | and (c rd rs rt : Nat)
  /-- OR (R348): Ladle instruction OR forms the bitwise or. -/
  | or (c rd rs rt : Nat)
  /-- XOR (R348): Ladle instruction XOR forms the bitwise exclusive or. -/
  | xor (c rd rs rt : Nat)
  /-- SHL (R348): Ladle shift SHL shifts left. -/
  | shl (c rd rs : Nat) (amt : ShAmt)
  /-- SHR (R348): Ladle shift SHR shifts right logically. -/
  | shr (c rd rs : Nat) (amt : ShAmt)
  /-- SAR (R348): Ladle shift SAR shifts right arithmetically. -/
  | sar (c rd rs : Nat) (amt : ShAmt)
  /-- ROR (R348): Ladle shift ROR rotates right. -/
  | ror (c rd rs : Nat) (amt : ShAmt)
  /-- MUL (R348): Ladle instruction MUL keeps the low 32 bits of the product. -/
  | mul (c rd rs rt : Nat)
  /-- ADDI (R348): Ladle instruction ADDI adds a signed immediate and sets the flags. -/
  | addi (c rd rs : Nat) (imm : BitVec 18)
  /-- MOVL (R348): Ladle instruction MOVL loads a zero-extended 16-bit immediate. -/
  | movl (c rd : Nat) (imm : BitVec 16)
  /-- MOVH (R348): Ladle instruction MOVH loads the upper 16 bits of a register. -/
  | movh (c rd : Nat) (imm : BitVec 16)
  /-- CMP (R348): Ladle instruction CMP sets the flags from a subtraction. -/
  | cmp (c rs rt : Nat)
  /-- MOV (R348): Ladle instruction MOV copies a register. -/
  | mov (c rd rs : Nat)
  /-- FADD (R348): Ladle instruction FADD adds two FP32 values. -/
  | fadd (c rd rs rt : Nat)
  /-- FSUB (R348): Ladle instruction FSUB subtracts two FP32 values. -/
  | fsub (c rd rs rt : Nat)
  /-- FMUL (R348): Ladle instruction FMUL multiplies two FP32 values. -/
  | fmul (c rd rs rt : Nat)
  /-- FMA (R348): Ladle instruction FMA adds a product to rd with one rounding. -/
  | fma (c rd rs rt : Nat)
  /-- FMS (R348): Ladle instruction FMS subtracts a product from rd with one rounding. -/
  | fms (c rd rs rt : Nat)
  /-- FCMP (R348): Ladle instruction FCMP sets the flags from an FP32 comparison. -/
  | fcmp (c rs rt : Nat)
  /-- FABS (R348): Ladle function FABS takes the FP32 absolute value. -/
  | fabs (c rd rs : Nat)
  /-- FNEG (R348): Ladle function FNEG negates an FP32 value. -/
  | fneg (c rd rs : Nat)
  /-- FMIN (R348): Ladle function FMIN takes the smaller of two FP32 values. -/
  | fmin (c rd rs rt : Nat)
  /-- FMAX (R348): Ladle function FMAX takes the larger of two FP32 values. -/
  | fmax (c rd rs rt : Nat)
  /-- INTEGER_TO_FP (R348): Ladle function converts an integer to FP32. -/
  | integerToFp (c rd rs : Nat)
  /-- FP_TO_INTEGER (R341): Ladle function converts FP32 to an integer, rounding and saturating. -/
  | fpToInteger (c rd rs : Nat)
  /-- Q31_TO_FP (R348): Ladle function converts a Q31 value to FP32. -/
  | q31ToFp (c rd rs : Nat)
  /-- FP_TO_Q31 (R341): Ladle function converts FP32 to Q31, rounding and saturating. -/
  | fpToQ31 (c rd rs : Nat)
  /-- FRCP (R341): Ladle function FRCP returns the correctly rounded reciprocal. -/
  | frcp (c rd rs : Nat)
  /-- MAC (R341): Ladle instruction MAC accumulates a 32 × 32 product into a 72-bit accumulator. -/
  | mac (c acc rs rt : Nat) (md : MacMode)
  /-- RDA (R341): Ladle accumulator operation RDA reads an accumulator shifted, rounded and saturated. -/
  | rda (c rd acc sh : Nat)
  /-- MVA (R348): Ladle accumulator operation MVA loads an accumulator from a scaled register. -/
  | mva (c acc rs sh : Nat)
  /-- CLR (R348): Ladle accumulator operation CLR clears an accumulator. -/
  | clr (c acc : Nat)
  /-- RDG (R348): Ladle accumulator operation RDG reads the sign-extended guard bits. -/
  | rdg (c rd acc : Nat)
  /-- LD (R340): Ladle instruction LD loads aligned data, with optional post-modify. -/
  | ld (c rd p : Nat) (md : MemMode) (w : MemWidth)
  /-- ST (R340): Ladle instruction ST stores aligned data, with optional post-modify. -/
  | st (c rd p : Nat) (md : MemMode) (w : MemWidth)
  /-- PMV_P_FROM_D (R348): Ladle PMV loads a pointer register from a data register. -/
  | pmvPFromD (c pk d : Nat)
  /-- PMV_D_FROM_P (R348): Ladle PMV copies a pointer register to a data register. -/
  | pmvDFromP (c d pk : Nat)
  /-- PMV_M_FROM_D (R348): Ladle PMV loads a modifier register from a data register. -/
  | pmvMFromD (c mk d : Nat)
  /-- PMV_D_FROM_M (R348): Ladle PMV copies a modifier register to a data register. -/
  | pmvDFromM (c d mk : Nat)
  /-- PADD (R348): Ladle PADD sets a pointer to another pointer plus an immediate. -/
  | padd (c pk pj : Nat) (imm : BitVec 16)
  /-- MSET (R348): Ladle MSET sets a modifier step with linear length. -/
  | mset (c mk : Nat) (imm : BitVec 16)
  /-- MLEN (R348): Ladle MLEN sets a modifier's circular length. -/
  | mlen (c mk : Nat) (imm : BitVec 16)
  /-- LDP (R348): Ladle LDP loads a pointer from memory. -/
  | ldp (c pk pj : Nat) (imm : BitVec 16)
  /-- B (R344): Ladle instruction B branches on its condition after two delay slots. -/
  | b (c : Nat) (cond : BrCond) (off : BitVec 22)
  /-- CALL (R348): Ladle instruction CALL writes the return address to d15 and branches. -/
  | call (c : Nat) (off : BitVec 22)
  /-- JR (R348): Ladle instruction JR jumps to a register address. -/
  | jr (c rs : Nat)
  /-- REP (R345): Ladle instruction REP opens a repeat level with an immediate count. -/
  | rep (c count len : Nat)
  /-- REPR (R345): Ladle instruction REPR opens a repeat level with a register count. -/
  | repr (c rs len : Nat)
  /-- BRK (R345): Ladle instruction BRK sets the innermost repeat count to 0. -/
  | brk (c : Nat)
  /-- WAIT (R348): Ladle instruction WAIT ends a slice on a wide core or sleeps the compact core until an interrupt. -/
  | wait (c : Nat)
  /-- RTI (R359): Ladle instruction RTI returns from interrupt to the primary set with IE set. -/
  | rti (c : Nat)
  /-- MRS (R348): Ladle system function MRS reads SR. -/
  | mrs (c rd : Nat)
  /-- MSR (R337): Ladle system function MSR writes N, Z, C, V and IE of SR. -/
  | msr (c rs : Nat)
  /-- EI (R348): Ladle system function EI enables interrupts. -/
  | ei (c : Nat)
  /-- DI (R348): Ladle system function DI disables interrupts. -/
  | di (c : Nat)
  /-- RDC (R348): Ladle system function RDC reads the core clock or always-on tick. -/
  | rdc (c rd : Nat)
  /-- FMAD (R348): Ladle instruction FMAD performs a fused multiply-add with dual loads. -/
  | fmad (c rd rs rt : Nat) (x y : Option DualLoad)
  /-- MACD (R348): Ladle instruction MACD accumulates a fractional product with dual loads. -/
  | macd (c acc rs rt : Nat) (x y : Option DualLoad)
  /-- LD2 (R348): Ladle instruction LD2 performs the enabled dual loads only. -/
  | ld2 (c : Nat) (x y : Option DualLoad)
  /-- COMPACT_CORE_INTERRUPT (R359): The compact core takes a pending enabled interrupt, switches to the shadow set and fetches from LDCVEC. -/
  | compactCoreInterrupt
  /-- LDMBOX_WRITE (R359): A write to LDMBOX sets the mailbox interrupt flag. -/
  | ldmboxWrite (m : Master) (v : Word)
  /-- RESTART (R354): LDCMD RESTART restarts a halted Ladle core. -/
  | restart (m : Master) (c : Nat)
  /-- STOP (R354): LDCMD STOP halts a Ladle core with HCAUSE 6. -/
  | stop (m : Master) (c : Nat)
  /-- BOOT_SEQUENCE (R371): After reset release the boot unit reads SFDP, chooses and verifies an image slot and loads it. -/
  | bootSequence (b : BootObs)
  /-- BOOT_COMPLETE (R374): With image verified, recorder loaded and Saggar self-tests passed the head leaves BOOT for LISTEN. -/
  | bootComplete
  /-- ERASE (R376): IMGCMD ERASE erases the inactive slot. -/
  | erase (m : Master) (slot : Nat)
  /-- PROGRAM (R376): IMGCMD PROGRAM appends staged words to the inactive slot. -/
  | program (m : Master) (slot nwords : Nat)
  /-- VERIFY (R376): IMGCMD VERIFY checks the inactive slot and writes its header when SEQ is later. -/
  | verify (m : Master) (slot : Nat)
  /-- INVALIDATE (R376): IMGCMD INVALIDATE erases the first 4 KB of the inactive slot. -/
  | invalidate (m : Master) (slot : Nat)
  /-- REBOOT (R376): IMGCMD REBOOT resets the head as a commanded reset when all axes are OFF or RETIRED. -/
  | reboot (m : Master)
  /-- IMAGE_COMMAND_DONE (R377): An image command completes or a deferred one runs, setting RESULT and raising the image-command event. -/
  | imageCommandDone (e : JobEnd)
  /-- FPCMD_GO (R380): FPCMD GO programs the selected fuse field or refuses it; `vpp` is the level of VPP_FUSE. -/
  | fpcmdGo (m : Master) (w : Word) (vpp : Bool)
  /-- FUSE_PROGRAM_DONE (R380): Fuse programming completes, sets LOCK and reports read-back in RESULT. -/
  | fuseProgramDone (readBackOk : Bool)
  /-- ETHERNET_FRAME (R386): An Ethernet frame is received and filtered to ARP, ICMP echo or UDP, or dropped. -/
  | ethernetFrame (bytes : List Byte)
  /-- COMMAND_FRAME (R390): A Host Command Protocol frame is checked, rate-limited and dispatched to its opcode, or dropped. -/
  | commandFrame (snd : Sender) (bytes : List Byte)
  /-- READ (R393): Opcode READ returns N words read in ascending order. -/
  | read (snd : Sender) (seq : Word) (pl : List Word)
  /-- WRITE (R393): Opcode WRITE writes N words in ascending order and counts ignored writes. -/
  | write (snd : Sender) (seq : Word) (pl : List Word)
  /-- QUEUE_MOVE (R392): Opcode QUEUE_MOVE stages a move privately and performs the profile operation. -/
  | queueMove (snd : Sender) (seq : Word) (pl : List Word)
  /-- BANK_WRITE (R392): Opcode BANK_WRITE writes the inactive bank and optionally requests a swap. -/
  | bankWrite (snd : Sender) (seq : Word) (pl : List Word)
  /-- SUBSCRIBE (R402): Opcode SUBSCRIBE registers, replaces or removes a notification subscriber. -/
  | subscribe (snd : Sender) (seq : Word) (pl : List Word)
  /-- RECORD_READ (R392): Opcode RECORD_READ returns a consistent recorder record. -/
  | recordRead (snd : Sender) (seq : Word) (pl : List Word)
  /-- IMAGE (R392): Opcode IMAGE performs an image command with privately staged words. -/
  | image (snd : Sender) (seq : Word) (pl : List Word)
  /-- HEAD_STATE (R392): Opcode HEAD_STATE optionally performs a TWCMD and returns the head status words. -/
  | headState (snd : Sender) (seq : Word) (pl : List Word)
  /-- WRITE_FRAME (R397): SPI instruction WRITE_FRAME delivers one command frame. -/
  | writeFrame (bytes : List Byte)
  /-- READ_FRAME (R397): SPI instruction READ_FRAME returns the oldest ready reply or notification. -/
  | readFrame
  /-- STATUS (R397): SPI instruction STATUS returns the target's ready byte. -/
  | status
  /-- PHY_POLL (R385): Every 10 ms the head reads PHY register 1 and updates LINK. -/
  | phyPoll (reg1 : BitVec 16)
  /-- CREDIT_TICK (R395): Every 50 µs the command credit counter gains one credit up to 32. -/
  | creditTick
  /-- PULSE_END (R401): A PULSE-mode event pin becomes inactive 1 µs after the last raise. -/
  | pulseEnd (pin : Nat)
  /-- REGISTER_WRITE (R20): A write to a register without a row of its own takes effect under its access code or is refused. -/
  | registerWrite (m : Master) (addr : Nat) (v : Word)
  /-- PWRCMD_DEEP (R412): A PWRCMD write with DEEP = 1 takes a parked active head to DEEP PARK at the next T0. -/
  | pwrcmdDeep (m : Master)
  /-- WAKE (R412): A wake cause restarts the core PLL and returns the head to PARK at the first T0 20 µs later. -/
  | wake (cause : Nat)
  /-- SUPPLY_WARNING (R417): A warning on VDD_CORE or VDD_AON starts a dip with its deferral and raises supply-warning. -/
  | supplyWarning (rail : Rail) (mv : Nat)
  /-- SUPPLY_WARNING_CLEAR (R417): When both warnings clear the dip is logged and supply-dip-recovered is raised. -/
  | supplyWarningClear (core aon : DipObs)
  /-- DEFERRAL_END (R417): 100 ms after a dip ends the flash deferral lifts and deferred writes proceed. -/
  | deferralEnd
  /-- SUPPLY_RESET (R418): A rail below the reset level resets the head with cause 2. -/
  | supplyReset
  /-- REFCLK_LOSS (R409): No REFCLK edge for 1 µs resets the head with cause 3. -/
  | refclkLoss
  /-- PLL_LOCK_LOSS (R409): Loss of lock of a running PLL resets the head with cause 4. -/
  | pllLockLoss
  /-- PORST (R419): PORST_n low, including power-up, resets the head with cause 1. -/
  | porst
  /-- RESET_RELEASE (R415): After the reset conditions hold and the PLLs lock the head samples its straps and enters BOOT. -/
  | resetRelease (pref casc oct : Bool)
  /-- WATCHDOG_EXPIRY (R420): The system watchdog running out resets the head with cause 6. -/
  | watchdogExpiry
  /-- WDKICK (R420): A keyed WDKICK write restarts the system watchdog. -/
  | wdkick (m : Master) (w : Word)
  /-- TRET_RECEIVED (R36): The standby accepts a TRET slot and adopts the active unit's retirement states, stamps and backoffs. -/
  | tretReceived (r : LaneSlot)
  /-- TXQ_RECEIVED (R275): During shadow entry the standby accepts a TXQ slot and uses its TOTPDC and NODEPDC in place of its own sums. -/
  | txqReceived (r : LaneSlot)
  /-- TLINK_RECEIVED (R264): A TLINK slot delivers the peer's wrap state, the segment report of R251 or the unwrap order of R250. -/
  | tlinkReceived (r : LaneSlot)
  /-- TWIN_LANE_LOSS_OF_LOCK (R268): The twin lane loses lock, counts a twin-lane transient and is taken as lost. -/
  | twinLaneLossOfLock
  /-- TWIN_LANE_LOCKED (R263): The twin lane regains lock, so an ISOLATED unit with CAUSE 1 and the lane IN_USE goes to LISTEN. -/
  | twinLaneLocked
  /-- SFB_MATCH_TIMEOUT (R302): SFBk not matching the commanded output state within 2 ms of a commanded change is cause 4. -/
  | sfbMatchTimeout (k : Nat)
  deriving DecidableEq, Repr

end Sys2Proof
end

