-- ==== Sys2Proof/Decode.lean ====
section
/-! DEFINITION. The word form of the commands. The opcode table gives no row any bits: no word spells a command. -/

namespace Sys2Proof

/-- The command a word of the table's bits spells. No row of spec/opcode_table.json has bits, so no word spells one. -/
def decodeTableWord (_nbits _w : Nat) : Option Instr := none

end Sys2Proof
end

