-- ==== Sys2Proof/Config.lean ====
section
/-! DEFINITION. What an implementation fixes, and the free values: constants without a body, so that no proof can
see a value of theirs. Every meaning applies them to a plain counter of the state (`free`) or to the data the open
value belongs to; notes/assumptions/1.md lists them. -/

namespace Sys2Proof.Config

/-- A fresh word the spec leaves open. -/
opaque freeWord : Nat → Word

/-- A fresh natural number the spec leaves open (an instant inside a round, a choice). -/
opaque freeNat : Nat → Nat

/-- A fresh truth value the spec leaves open. -/
opaque freeBool : Nat → Bool

/-- Which way an inexact quotient is shown where the spec does not say how it is rounded. -/
opaque freeUp : Int → Int → Bool

/-- The planning procedure of R165, which the spec does not further specify: from the state and limits of a move (as
numbers) the durations in rounds and the jerk of the seven segments. The model holds the result to the bounds that
R165 states; see notes/assumptions/7.md. -/
opaque freePlan : List Int → List (Nat × Int)

/-- The payloads of the TRET slots that carry given retire records, whose layout the spec does not fix (R36, R264). -/
opaque tretBytes : List (Nat × Nat × List Nat × Nat) → List (List Byte)

/-- The payloads of the TXQ slots that carry TOTPDC and NODEPDC, whose layout the spec does not fix (R264, R275). -/
opaque txqBytes : Word × List Word → List (List Byte)

/-- The payload of a TLINK slot, whose layout the spec does not fix (R264): the channels and ports at which the sender wraps,
the segment it reports, and the channels it orders to unwrap. -/
opaque tlinkBytes : List (Nat × Nat) × Option Nat × List Nat → List Byte

/-- What the retire records of a TRET payload say, whose layout the spec does not fix (R36, R264): channel key, state,
stamps and backoff of each. -/
opaque tretRecords : List Byte → List (Nat × Nat × List Nat × Nat)

/-- What a TXQ payload says: TOTPDC, and NODEPDC by node (R275). -/
opaque txqValues : List Byte → Word × List Word

/-- What a TLINK payload says (R264): the segment reported under R251, if any, and the channels ordered to unwrap. -/
opaque tlinkContent : List Byte → Option Nat × List Nat

/-- Rounds in a millisecond: 128 × 7.8125 µs (R41). -/
def roundsPerMs : Nat := 128

/-- The key of the keyed command registers (R37, R287, R316, R334, R362, R383, R421). -/
def key : Nat := 0xC1EA

/-- Rounds of COLDSTART (R236) and of HANDBACK (R263). -/
def startRounds : Nat := 16

end Sys2Proof.Config
end

