-- ==== Sys2Proof/Machine/State.lean ====
section
/-! DEFINITION. The state of the head as plain data: every register, buffer, queue, counter, mode and pin the spec
gives it. Configuration registers live in `cfg` by address; what the head itself changes lives in a record of the
unit that owns it, and the register view assembles it. Reset values are the register tables'; a value the spec does
not give is named in notes/assumptions/3.md. -/

namespace Sys2Proof.Machine

/-! ### Names -/

/-- Head states (R40). -/
inductive HeadState where
  | boot | listen | coldstart | active | standby | handback | isolated | locked
  deriving DecidableEq, Repr

/-- Reaction classes (R105). -/
inductive React where
  | none | warn | qstop | torqueOff | retire
  deriving DecidableEq, Repr

/-- Power states (R410); reset is `Sys.inReset`. -/
inductive PwrState where
  | run | park | deep
  deriving DecidableEq, Repr

/-- Why the machine stops. No command of the table stops it: every row has an effect in the spec; an empty type
cannot be written as data, so one name stands for a state that no run reaches. -/
inductive Fault where
  /-- Raised by nobody: reserved so that the type has a value. Safe. -/
  | unreachable
  deriving DecidableEq, Repr

/-- Why a command has no meaning. -/
inductive Refusal where
  /-- Raised by exec's refused arms alone, for a row that has no meaning yet. Safe. -/
  | notModelled (mnemonic : String)
  deriving DecidableEq, Repr

/-! ### System unit, round and power (R41 to R55, R407 to R421) -/

/-- The system unit: round block, power, supplies, resets, straps. -/
structure Sys where
  inReset : Bool := false
  hstate : HeadState := .boot
  /-- the state a unit in LOCKED left (R263, R304) -/
  lockedFrom : HeadState := .boot
  /-- the lock-out takes the head to LOCKED at T0 of this round (R304) -/
  lockAt : Option Word := none
  /-- the head leaves LOCKED at T0 of this round (R305, R313) -/
  unlockAt : Option Word := none
  /-- the head has reached ACTIVE, STANDBY or ISOLATED since its reset (R375, R388) -/
  reached : Bool := false
  /-- what of the queue owners is in force at T0 of a tick round (R162): those that may move, and those with a quick stop or
  limit-switch stop -/
  wheelLive : List Owner := []
  wheelQuick : List Owner := []
  pref : Bool := false
  casc : Bool := false
  oct : Bool := false
  round : Word := 0
  /-- the round counter has run since power-up (R236) -/
  roundRan : Bool := false
  epoch : Nat := 0
  lastEpoch : Nat := 0
  /-- round of the last collision (R237) -/
  collAt : Option Word := none
  /-- last round in which a unit that has stepped down still sends (R263) -/
  lastSend : Option Word := none
  listenTimer : Nat := 0
  /-- rounds spent in COLDSTART or HANDBACK -/
  stateRounds : Nat := 0
  /-- rounds without a MARK of the own CHEAD (R263, R267) -/
  quietRounds : Nat := 0
  /-- a MARK of the own CHEAD was accepted in this round -/
  markSeen : Bool := false
  subMs : Nat := 0
  /-- milliseconds of powered time (R32, R317) -/
  ms : Nat := 0
  latViol : Bool := false
  latMargin : Nat := 0xFFFF
  latNode : Nat := 0
  pwr : PwrState := .run
  /-- consecutive rounds in which condition Q held (R411) -/
  qRun : Nat := 0
  deepReq : Bool := false
  /-- rounds left until PARK after a wake cause (R412) -/
  waking : Option Nat := none
  wakes : Nat := 0
  wcause : Nat := 0
  corWarn : Bool := false
  aonWarn : Bool := false
  dip : Bool := false
  /-- milliseconds of the deferral left after the end of a dip (R417) -/
  deferMs : Nat := 0
  defer : Bool := false
  spCore : Nat := 0
  spAon : Nat := 0
  dipCDur : Nat := 0
  dipCMin : Nat := 0
  dipADur : Nat := 0
  dipAMin : Nat := 0
  dips : Nat := 0
  long : Nat := 0
  /-- junction temperature, 1/16 °C -/
  tj : Int := 0
  rstCause : Nat := 1
  rstPrev : Nat := 0
  rstCount : Nat := 0
  rebootReq : Bool := false
  /-- remaining milliseconds of the system watchdog (R420); none while it does not count -/
  wdLeft : Option Nat := none
  /-- trim t in 0.01 ppm (R408) -/
  trim : Int := 0
  /-- last phase error against the target T0, 0.25 ns units (R408) -/
  phase : Option Int := none
  crLock : Bool := true
  sdLock : Bool := true
  refOk : Bool := true
  /-- the notification-safe marker of leaving BOOT, in ms (R383 BOOTMS) -/
  bootMs : Nat := 0
  deriving DecidableEq, Repr

/-! ### Retire policy (R31 to R38) -/

/-- Parameters of a class (R31, R33): threshold, window and first backoff in ms. -/
structure RetCfg where
  threshold : Nat
  window : Nat
  backoff : Nat
  deriving DecidableEq, Repr

/-- An entry of the retire log (R38). -/
structure RetEntry where
  cause : Nat := 0
  cls : Nat := 0
  idx : Nat := 0
  pc : Word := 0
  sec : Word := 0
  round : Word := 0
  deriving DecidableEq, Repr

/-- The retire block. Channels are numbered class × 256 + index. -/
structure Retire where
  chans : Tab RetCh := []
  /-- parameters the image changed, by class (R33) -/
  cfg : Tab RetCfg := []
  log : Tab RetEntry := []
  next : Nat := 0
  wrapped : Bool := false
  lost : Nat := 0
  /-- RTSEL of each master -/
  sel : Tab Word := []
  /-- retired channels on which a transient occurred in this round: a release of this round goes first (R35) -/
  late : List Nat := []
  /-- channels that a transient of this round has retired: a release of this round went before it (R35) -/
  fresh : List Nat := []
  deriving DecidableEq, Repr

/-! ### Events (R398 to R406) -/

/-- The event unit. -/
structure Events where
  flags : BitVec 256 := 0
  mask : BitVec 256 := 0
  /-- EVROUTE e -/
  route : Tab Word := []
  pinCfg : Word := 0
  /-- pins inside a pulse (R401) -/
  pulse : BitVec 8 := 0
  axCause : Tab Word := []
  grCause : Tab Word := []
  nlost : Nat := 0
  deriving DecidableEq, Repr

/-! ### Host port (R385 to R397, R402, R281) -/

/-- A subscriber (R402). -/
structure Subscriber where
  snd : Sender
  set : BitVec 256
  raised : BitVec 256 := 0
  seq : Nat := 0
  deriving DecidableEq, Repr

/-- A host command on its way (R279, R280). -/
structure HostCmd where
  snd : Sender
  seq : Word
  op : Nat
  pl : List Word
  /-- round of arrival -/
  round : Word
  /-- forwarded to the standby as TCMD -/
  fwd : Bool
  /-- confirmed by TCONF, or accepted alone -/
  ok : Bool
  deriving DecidableEq, Repr

/-- What leaves the head (the model's own observable). -/
inductive Tx where
  /-- a slot from a Toelle port (R213): channel, port, START, bytes after SOF -/
  | toelle (ch port start : Nat) (bytes : List Byte)
  /-- a slot on the twin lane, from a byte time on (R264) -/
  | twin (start : Nat) (bytes : List Byte)
  /-- a complete copy unit in TCOPY slots, whose layout the spec does not fix (R274) -/
  | tcopy (u : CopyUnit)
  /-- a slot on the cascade lane (R284) -/
  | cascade (start : Nat) (bytes : List Byte)
  /-- a slot of another unit, repeated on the cascade lane (R284) -/
  | cascadeRep (bytes : List Byte)
  /-- the CSYNCO pulse (R283) -/
  | csync
  /-- a frame of the host protocol to a sender on Ethernet (R389, R402) -/
  | frame (dst : Sender) (bytes : List Byte)
  /-- an ARP or ICMP answer (R386) -/
  | answer (bytes : List Byte)
  /-- the clock of an SSI frame on LENCk_A (R137) -/
  | ssiClock (port : Nat)
  /-- bytes on SPI_MISO (R397) -/
  | miso (bytes : List Byte)
  deriving DecidableEq, Repr

/-- The host port. -/
structure HostPort where
  credits : Nat := 32
  /-- the window of the 256 most recently accepted sequence numbers, newest first -/
  window : List Reply := []
  /-- commands accepted or awaiting confirmation, in order of arrival -/
  waiting : List HostCmd := []
  subs : Tab (Option Subscriber) := []
  rxok : Nat := 0
  drop : Nat := 0
  busy : Nat := 0
  dup : Nat := 0
  netOk : Bool := false
  link : Bool := false
  fdx : Bool := false
  /-- the six words of the NETWORK record (R387) -/
  net : List Word := []
  /-- outgoing SPI store: notification flag and bytes, oldest first (R397) -/
  out : List (Bool × List Byte) := []
  /-- frames waiting in DEEP PARK, oldest first: a command frame with its sender, or a whole Ethernet frame (R410) -/
  buf : List (Option Sender × List Byte) := []
  deriving DecidableEq, Repr

/-! ### Link (R204 to R261) -/

/-- A node as one channel sees it (R239, R261). -/
structure NodeSt where
  /-- 0 NOT_PRESENT, 1 LOADING, 2 INTEGRATING, 3 ADMITTED, 4 REINTEGRATING, 5 RETIRED -/
  st : Nat := 0
  eofs : Int := 0
  oowRun : Nat := 0
  port : Nat := 0
  wrap : Bool := false
  /-- measured delays in ns; none: unreachable -/
  dup : Option Nat := none
  ddn : Option Nat := none
  /-- round of the last NSCHN write -/
  countAt : Word := 0
  loaded : Bool := false
  /-- writes of the load sequence that wait for their position (R240) -/
  loadq : List (Nat × List Word) := []
  /-- upstream entries accepted in the hyperperiod that began at `hyper` -/
  hyper : Word := 0
  seen : List (Nat × Nat) := []
  silent : Nat := 0
  heard : Bool := false
  /-- offsets written to the node, in 2^-6 ns, and the new one a clamped CORR asked for -/
  nofsN : Int := 0
  nofsF : Int := 0
  nofsNew : Option Int := none
  ident : Option Word := none
  nclass : Option Word := none
  /-- service requests that wait for an SVC position: operation, address, data words (R223) -/
  svcq : List (Nat × Nat × List Word) := []
  /-- the address of each request that is out, by tag -/
  asked : List (Nat × Nat) := []
  tag : Nat := 0
  reint : Bool := false
  deriving DecidableEq, Repr

/-- The last DIAG of a node (R233). -/
structure NodeDiag where
  d0 : Word := 0
  d1 : Word := 0
  d2 : Word := 0
  rnd : Word := 0
  deriving DecidableEq, Repr

/-- One channel. -/
structure Chan where
  txdis0 : Bool := true
  txdis1 : Bool := true
  los0 : Bool := false
  los1 : Bool := false
  lock0 : Bool := false
  lock1 : Bool := false
  align0 : Bool := false
  align1 : Bool := false
  crcErr : Nat := 0
  codeErr : Nat := 0
  mismatch : Nat := 0
  stale : Nat := 0
  /-- segment of the heal in force -/
  hseg : Option Nat := none
  heal : Bool := false
  /-- it was put in force by a takeover and is judged first (R267) -/
  healTake : Bool := false
  dlyImpl : Bool := false
  lost : Bool := false
  /-- RING at each port, 312.5 ps units -/
  ring0 : Option Nat := none
  ring1 : Option Nat := none
  /-- RING at each port as the unit's own MARK of the present round has shown it (R244, R247) -/
  now0 : Option Nat := none
  now1 : Option Nat := none
  /-- ROUND and EPOCH of the MARK accepted in the present round, and how many were (R216, R250) -/
  mark : Option (Word × Nat) := none
  marks : Nat := 0
  oow : Nat := 0
  reint : Nat := 0
  heals : Nat := 0
  coll : Nat := 0
  /-- consecutive judgements without a returned MARK, and with one -/
  noReturn : Nat := 0
  returned : Nat := 0
  /-- the unwrap order is in force -/
  unwrapping : Bool := false
  /-- port at which this unit itself wraps (R250), and rounds since it wrapped -/
  wrapPort : Option Nat := none
  wrapRounds : Nat := 0
  /-- rounds for which the port that wraps has been locked without a break (R253) -/
  lockRounds : Nat := 0
  /-- the delays are to be checked with the next RING (R49) -/
  checkNext : Bool := false
  nodes : Tab NodeSt := []
  deriving DecidableEq, Repr

/-- The last accepted MARK (R216). -/
structure MarkInfo where
  round : Word
  epoch : Nat
  chead : Nat
  alt : Bool
  skim : Bool
  deriving DecidableEq, Repr

/-- The link controller. -/
structure Link where
  chans : Tab Chan := []
  diags : Tab NodeDiag := []
  /-- the surviving channel while the skim schedule holds -/
  skim : Option Nat := none
  /-- reported broken segment from the standby (R251) -/
  segReport : Option Nat := none
  deriving DecidableEq, Repr

/-! ### Input buffers and held control commands (R51, R109, R191) -/

/-- One half of an axis's input entry: the FUP and POS payloads, none while missing. -/
structure InEntry where
  fup : Option (List Byte) := none
  pos : Option (List Byte) := none
  /-- sample of the local port -/
  loc : Option (List Nat) := none
  deriving DecidableEq, Repr

/-- An AXCTL or GRCTL command that acts at the start of the next round (R109, R191). -/
inductive CtlCmd where
  | axis (a cmd : Nat)
  /-- with the axes for which the write was refused (R109) -/
  | group (g cmd : Nat) (skip : List Nat)
  | locgo (g seg : Nat)
  deriving DecidableEq, Repr

/-! ### Twin and cascade (R262 to R288) -/

/-- What the standby keeps of one of the last rounds (R274): the upstream content it has at the end of it, the commands
committed in it, those that act at the next T0, and its shadow state then. -/
structure PastRound where
  round : Word
  inbuf : Tab InEntry
  cmds : List HostCmd
  ctlq : List CtlCmd
  axes : Tab Axis
  groups : Tab Group
  deriving DecidableEq, Repr

/-- The twin unit. -/
structure Twin where
  /-- the lane's receiver is locked and aligned -/
  locked : Bool := false
  /-- round of the last loss of lock (R268) -/
  lostAt : Word := 0
  /-- T0s since the last accepted TLEASE, at most 3: two whole rounds without one are a lost lane (R268) -/
  sinceLease : Nat := 3
  renewed : Bool := false
  /-- consecutive silent rounds (R267) -/
  silent : Nat := 0
  /-- the standby takes over at the next T0 (R267) -/
  takeNext : Bool := false
  /-- TKOK of the TLEASE of this round, and of the last round that was not silent (R267) -/
  tkokSent : Bool := false
  tkokLast : Bool := false
  peerSt : Nat := 0
  /-- the last state other than LOCKED that the peer has shown (R263, R280) -/
  peerFrom : Nat := 0
  peerHealth : Word := 0
  peerHbReq : Bool := false
  peerGrant : Option Nat := none
  cfgEq : Bool := false
  gradeEq : Bool := false
  entry : Bool := false
  progress : Nat := 0
  digCnt : Nat := 0
  digRun : Nat := 0
  entries : Nat := 0
  matched : Nat := 0
  ownDig : Option (Word × Nat) := none
  /-- copy units present: kind and number -/
  units : List (Nat × Nat) := []
  unprot : Bool := false
  hbinh : Bool := false
  tll : Bool := false
  cause : Nat := 0
  ofs : Int := 0
  arr : Int := 0
  takeovers : Nat := 0
  handbacks : Nat := 0
  lastRnd : Word := 0
  /-- ms for which the standing conditions of R276 have held -/
  holdMs : Nat := 0
  hbReq : Bool := false
  /-- round h of a grant, sent or received -/
  hand : Option Word := none
  /-- ms of the last re-entry for mismatch -/
  reentry : Option Nat := none
  /-- TCMDs the standby holds (R279) -/
  stored : List HostCmd := []
  /-- a TCMD body continued in the next one -/
  partBody : List Byte := []
  confirmed : List Word := []
  /-- TCMD payloads that wait for their place in the stream, with their sequence numbers (R264, R279) -/
  outq : List (Word × List Byte) := []
  /-- commands committed in the present round, and the last rounds (R274) -/
  committed : List HostCmd := []
  past : List PastRound := []
  /-- copy units that have arrived and come into step at the next T0 (R274) -/
  arrived : List CopyUnit := []
  /-- the active unit's side of the peer's entry (R274): units still to send, the one under way, those that leave in this
  round, and the peer's last PROGRESS -/
  copyq : Option (List (Nat × Nat)) := none
  copyCur : Option CopyUnit := none
  copyOut : List CopyUnit := []
  copySeen : Nat := 0
  /-- TXQ: TOTPDC and NODEPDC of the active unit (R275) -/
  txq : Option (F32 × List F32) := none
  scrub : Nat := 0
  scrubWord : Nat := 0
  scrubFixed : Nat := 0
  deriving DecidableEq, Repr

/-- A received export (R285): its tick, the state at T0 of it, the entries r to r + 2, and the state after them. -/
structure Export where
  tick : Word := 0
  kin0 : Kin := {}
  entries : List Entry := []
  kin : Kin := {}
  valid : Bool := false
  deriving DecidableEq, Repr

/-- The cascade unit. -/
structure Casc where
  /-- 0 OFF, 1 WAIT, 2 ACQUIRE, 3 SYNCED, 4 FREE -/
  st : Nat := 0
  offs : Int := 0
  rndErr : Bool := false
  crcErr : Nat := 0
  late : Nat := 0
  noSync : Nat := 0
  inRange : Nat := 0
  waitMs : Nat := 0
  cmark : Option Word := none
  /-- epoch of the master pair, from the last CMARK -/
  cepoch : Nat := 0
  /-- exports by cascade head × 8 + slot -/
  exports : Tab Export := []
  locked : Bool := false
  deriving DecidableEq, Repr

/-! ### Saggar (R289 to R316, R435) -/

/-- A brake channel (R294 to R300). -/
structure Brake where
  cmd : Nat := 1
  /-- CMD of the frames of this safe period, and of the one before -/
  sent : Nat := 1
  prevCmd : Nat := 1
  fb : Nat := 0
  link : Nat := 2
  hrs : Nat := 0
  tres : Nat := 0
  due : Bool := false
  blocked : Bool := false
  sseqDn : Nat := 0
  /-- SSEQ starts at 0 in the first safe period after an epoch increment (R297) -/
  fresh : Bool := true
  sseqUp : Nat := 0
  basis : Bool := false
  misses : Nat := 0
  /-- SSEQ and SDATA[15:0] of the copies accepted in this period -/
  copyA : Option (Nat × Nat) := none
  copyB : Option (Nat × Nat) := none
  /-- a valid pair or degraded copy has been formed in this period -/
  got : Bool := false
  /-- this period is the first of an epoch -/
  first : Bool := false
  /-- rounds since the change of command, until the feedback matches -/
  changeRounds : Option Nat := none
  /-- a safe period has begun -/
  began : Bool := false
  refusedNow : Bool := false
  deriving DecidableEq, Repr

/-- A brake test in progress (R301). -/
structure BTest where
  ch : Nat
  /-- 0 waits for the applied report, 1 test with s = +1, 2 with s = −1 -/
  phase : Nat
  p0 : Int
  /-- rounds since the phase began -/
  rounds : Nat
  /-- largest deviation during the holds, fine counts -/
  dev : Nat
  deriving DecidableEq, Repr

/-- The safety island. -/
structure Saggar where
  /-- 0 TEST, 1 NORMAL, 2 LOCKED, 3 CLEARED -/
  st : Nat := 0
  cause : Nat := 0
  index : Nat := 0
  /-- lock-out causes that stand: code and index -/
  standing : List (Nat × Nat) := []
  /-- a cause of another code than 12 was found in this lock-out (R313) -/
  others : Bool := false
  /-- the round in which STATE became CLEARED -/
  clearedAt : Word := 0
  /-- watchdog or supply monitor has stopped outputs and SAFE frames (R290) -/
  stopped : Bool := false
  sagOk : Bool := false
  lockRnd : Word := 0
  /-- SEAL_n is high (R316 SEALPIN resets to 1) -/
  sealPin : Bool := true
  pwdOk : Bool := false
  pwdMs : Nat := 0
  wrong : Nat := 0
  blkMs : Option Nat := none
  pwdHash : List Byte := []
  /-- PWDSET has stored a hash, which takes precedence over the image's (R308) -/
  pwdSet : Bool := false
  pwd : Tab Word := []
  sel : Word := 0
  val : Word := 0
  /-- parameters that the region or the image set, by ID -/
  params : Tab Word := []
  /-- a parameter that takes effect at the next T0 (R309) -/
  pend : List (Nat × Word) := []
  regionBlank : Bool := true
  regionBad : Bool := false
  log : Tab (List Word) := []
  logCount : Nat := 0
  logTotal : Nat := 0
  brakes : Tab Brake := []
  outset : Nat := 0
  outOn : Nat := 0
  /-- pairs that the active unit commands on; a unit that shadows judges SFB against them (R302, R312) -/
  outCmd : Nat := 0
  sfb : Nat := 0
  deg : Bool := false
  degMs : Nat := 0
  test : Option BTest := none
  /-- the stored lock-out (R306) -/
  stored : Option (Nat × Nat) := none
  missPeriods : Nat := 0
  refusedCopies : Nat := 0
  pulseOkMs : Nat := 0
  selfCpu : Option Bool := none
  selfRam : Option Bool := none
  selfRom : Option Bool := none
  selfCmp : Option Bool := none
  deriving DecidableEq, Repr

/-! ### Recorder (R317 to R334); its records lie in SRAM -/

/-- The lifetime recorder. -/
structure Recorder where
  pc : Word := 1
  /-- MS: milliseconds within the current second (R317) -/
  ms : Nat := 0
  sec : Word := 0
  auth : Bool := false
  authMs : Nat := 0
  wrong : Nat := 0
  blkMs : Option Nat := none
  pwdHash : List Byte := []
  pwd : Tab Word := []
  lastCmd : Nat := 0
  result : Nat := 0
  saving : Bool := false
  saveAgain : Bool := false
  deferred : Bool := false
  saveErr : Bool := false
  saveFail : Nat := 0
  loadSrc : Nat := 0
  loadErr : Bool := false
  /-- the copy that holds the latest valid save: 0 none, 1 A, 2 B -/
  lastCopy : Nat := 0
  saveSeq : Word := 0
  saveSec : Word := 0
  saveStart : Word := 0
  savePc : Word := 0
  skip : Nat := 0
  count : Nat := 0
  lost : Nat := 0
  full : Bool := false
  /-- band state of each cone: 0 IN, 1 HI, 2 LO -/
  bands : Tab Nat := []
  clrCnt : Nat := 0
  clearPend : Option Nat := none
  stampPos : Nat := 0
  deriving DecidableEq, Repr

/-! ### Ladle (R335 to R363) -/

/-- An active repeat level (R345): first and last address of the body and the passes left. -/
structure Repeat where
  first : Word
  last : Word
  count : Nat
  deriving DecidableEq, Repr

/-- One register set (R336). -/
structure RegSet where
  d : Tab Word := []
  p : Tab Word := []
  m : Tab Word := []
  reps : List Repeat := []
  n : Bool := false
  z : Bool := false
  c : Bool := false
  v : Bool := false
  ie : Bool := false
  deriving DecidableEq, Repr

/-- What a producer of R343 writes. -/
inductive Res where
  | d (i : Nat)
  | p (i : Nat)
  | m (i : Nat)
  | acc (i : Nat)
  | flags
  deriving DecidableEq, Repr

/-- The producer kinds of R343. -/
inductive Producer where
  | alu | slow | fma | frcp | mac | accOp | addr | pmvPM | ldp | flagOp
  deriving DecidableEq, Repr

/-- A recent write: when it was issued, what kind wrote what, and the value that stood before it. -/
structure Recent where
  at_ : Nat
  kind : Producer
  res : Res
  old : Nat
  /-- the register set in use was the shadow set -/
  shadow : Bool
  deriving DecidableEq, Repr

/-- One core. -/
structure Core where
  /-- 0 IDLE, 1 RUNNING, 2 HALTED, 3 OFF -/
  st : Nat := 0
  hcause : Nat := 0
  clkOff : Bool := false
  ovrCnt : Nat := 0
  halts : Nat := 0
  fpc : Word := 0
  faddr : Word := 0
  peak : Nat := 0
  prim : RegSet := {}
  shad : RegSet := {}
  shadow : Bool := false
  acc : Tab (BitVec 72) := []
  pc : Word := 0
  /-- delay slots left and branch target, if taken -/
  delay : Option (Nat × Option Word) := none
  /-- RTI returns to the primary set after its delay slots -/
  rtiPend : Bool := false
  /-- the pc to which RTI returns -/
  retPc : Word := 0
  /-- instructions issued -/
  issued : Nat := 0
  recent : List Recent := []
  /-- wide core: the core clock at which the next instruction issues, and the first at which none takes effect (R352) -/
  clocks : Nat := 0
  limit : Nat := 0
  /-- axis of the running slice -/
  axis : Option Nat := none
  /-- axes whose slices were still running at S + BUDGET, oldest first (R353) -/
  overran : List Nat := []
  /-- compact core: asleep in WAIT, or stalled on a write that the pair has not yet accepted (R279, R340) -/
  waiting : Bool := false
  stalled : Bool := false
  /-- a RESTART runs slices from T0 of the next round (R354) -/
  restartPend : Bool := false
  deriving DecidableEq, Repr

/-- Slice status of an axis (R363). -/
structure SliceSt where
  ovr : Nat := 0
  lastf : Nat := 0
  last : Nat := 0
  deriving DecidableEq, Repr

/-- A held write to the LADLE partition (R356). -/
structure HeldWrite where
  due : Word
  addr : Nat
  bytes : List Byte
  /-- written by the compact core, whose own loads see it at once (R340) -/
  own : Bool
  deriving DecidableEq, Repr

/-- The Ladle block. -/
structure Ladle where
  cores : Tab Core := []
  slices : Tab SliceSt := []
  mbox : Word := 0
  ipend : Nat := 0
  held : List HeldWrite := []
  deriving DecidableEq, Repr

/-! ### Boot, image and fuses (R364 to R384) -/

/-- The boot and configuration unit. -/
structure Boot where
  flash : Memory := []
  /-- an image has been verified and loaded -/
  verified : Bool := false
  failA : Nat := 0
  failB : Nat := 0
  vpp : Bool := false
  fallback : Bool := false
  auth : Nat := 0
  noImage : Bool := false
  slot : Nat := 3
  failRec : Nat := 0
  seq : Word := 0
  len : Nat := 0
  digest : List Byte := []
  result : Nat := 0
  lastCmd : Nat := 0
  busy : Bool := false
  /-- the image command in progress: code, slot and staged words -/
  job : Option (Nat × Nat × List Word) := none
  inact : Nat := 3
  fill : Nat := 0
  header : List Byte := []
  density : Nat := 0
  wbuf : Tab Word := []
  /-- fuse words as sensed, by offset in the FUSE region -/
  fuses : Tab Word := []
  /-- fuse words as programmed, sensed at the next reset release -/
  fuseCells : Tab Word := []
  fpSel : Word := 0
  fpData : Tab Word := []
  fpBusy : Bool := false
  fpResult : Nat := 0
  fpField : Nat := 0
  /-- the recorder is loaded (R329, R374) -/
  recLoaded : Bool := false
  /-- BTSTAT as the capability list shows it from the moment the head leaves BOOT (R381) -/
  info : Option Word := none
  deriving DecidableEq, Repr

/-! ### Power-stage policy unit (R123 to R133) -/

/-- A sigma-delta input. -/
structure SdIn where
  val : F32 := 0x7FC00000
  deriving DecidableEq, Repr

/-- The head-wide power-stage block. -/
structure Pstage where
  tripCnt : Nat := 0
  sdiFail : Bool := false
  anaFail : Bool := false
  tripped : Bool := false
  srcSdi : Bool := false
  srcAna : Bool := false
  /-- rounds since the last over-voltage trip -/
  tripRounds : Nat := 0
  on : Nat := 0
  forced : Nat := 0
  overload : Nat := 0
  /-- rounds for which each chopper channel has been on -/
  onRounds : Tab Nat := []
  testBusy : Bool := false
  testTarget : Nat := 0
  testResult : Nat := 0
  sdi : Tab SdIn := []
  lost : Bool := false
  deriving DecidableEq, Repr

/-! ### Clusters and input buffers (R51 to R56) -/

/-- The timing block of a cluster. -/
structure Cluster where
  endLast : Nat := 0
  endPeak : Nat := 0
  loadLast : Nat := 0
  endNow : Nat := 0
  loadNow : Nat := 0
  deriving DecidableEq, Repr

/-! ### Local ports and probe pins (R136, R137, R151, R159) -/

/-- A local encoder port. -/
structure Port where
  pinA : Bool := false
  pinB : Bool := false
  pinZ : Bool := false
  cnt : Nat := 0
  /-- counter latched at a Z edge since the last sample -/
  z : Option Nat := none
  quadErr : Bool := false
  /-- the last SSI frame: start bit seen, checks passed, data word -/
  ssi : Option (Bool × Bool × Nat) := none
  /-- round in which that frame started -/
  ssiAt : Word := 0
  /-- a frame is running, and the round in which it started -/
  frame : Bool := false
  frameAt : Word := 0
  pinsT0 : Nat := 0
  count : Nat := 0
  errCnt : Nat := 0
  deriving DecidableEq, Repr

/-- A latched local probe edge: pin, new level, round, core clock, and the port counters of that clock. -/
structure PinEdge where
  pin : Nat
  level : Bool
  round : Word
  clk : Nat
  cnts : List Nat
  deriving DecidableEq, Repr

/-- The feedback unit's pins. -/
structure Fbk where
  ports : Tab Port := []
  level : BitVec 8 := 0
  /-- the levels at T0 of the present round (R174) -/
  levelT0 : BitVec 8 := 0
  edges : List PinEdge := []
  deriving DecidableEq, Repr

/-! ### Per-master access state (R23, R37, R156, R168, R334) -/

/-- What one master's accesses have latched or staged. -/
structure MasterSt where
  /-- latched high words by address, each until it is read -/
  hi : Tab (Option Word) := []
  /-- held low words by address, each until its high word is written -/
  lo : Tab (Option Word) := []
  rcMs : Nat := 0
  /-- banked MVCTL to MVAUX by owner key -/
  stag : Tab Move := []
  /-- held CMPW0 to CMPW2 by axis -/
  cmpw : Tab (Word × Word × Word) := []
  deriving DecidableEq, Repr

/-! ### The whole head -/

/-- The head. -/
structure State where
  /-- commands waiting, first in first out -/
  pending : List Instr := []
  /-- numbers the free values taken so far (the model's own) -/
  free : Nat := 0
  /-- what has left the head in the present round (the model's own), oldest first -/
  tx : List Tx := []
  /-- configuration registers by address; an absent address has its reset value -/
  cfg : Tab Word := []
  /-- SRAM and the compact core's local memory; an unlisted byte reads 0 -/
  mem : Memory := []
  /-- SRAM words (by address, a multiple of 8) that hold a single-bit and a double-bit error (R29, R30) -/
  softErr : List Nat := []
  hardErr : List Nat := []
  /-- words of TRACE whose record is marked damaged (R30) -/
  traceBad : List Nat := []
  sys : Sys := {}
  ret : Retire := {}
  ev : Events := {}
  host : HostPort := {}
  axes : Tab Axis := []
  groups : Tab Group := []
  /-- the axes and groups as their last completed computation left them, which their windows show (R24) -/
  seenAx : Tab Axis := []
  seenGr : Tab Group := []
  ctlq : List CtlCmd := []
  inbuf : Tab InEntry := []
  clusters : Tab Cluster := []
  fbk : Fbk := {}
  ps : Pstage := {}
  link : Link := {}
  twin : Twin := {}
  casc : Casc := {}
  sag : Saggar := {}
  rcd : Recorder := {}
  lad : Ladle := {}
  boot : Boot := {}
  masters : Tab MasterSt := []
  /-- PDC sums at the end of the previous round: by node 0 to 63, and 64 for the head (R86) -/
  pdc : Tab F32 := []
  deriving DecidableEq, Repr

/-- The machine right after reset: every register at the value the spec states (R415, R419), memory with nothing
listed, no command waiting. What the spec leaves open is in notes/assumptions/2.md to 6.md. -/
def State.reset : State := {}

end Sys2Proof.Machine
end

