-- ==== Sys2Proof/Machine/Operands.lean ====
section
/-! DEFINITION. The configuration fields the image loads (R20, R368): each register by its address, each field by
its bits, with the reset values of the register tables. -/

namespace Sys2Proof.Machine

/-- Window of axis a (R25). -/
def axW (a : Nat) : Nat := 0x41000000 + a * 0x1000
/-- Window of group g (R26). -/
def grW (g : Nat) : Nat := 0x42000000 + g * 0x400
/-- Block of cell slot k of axis a (R25, R111). -/
def cellW (a k : Nat) : Nat := axW a + 0x400 + k * 0x40
/-- Window of a queue owner: R26 gives the profile block the same layout in both. -/
def ownW : Owner → Nat
  | .axis a => axW a
  | .group g => grW g
/-- Region of cluster c (R18). -/
def clW (c : Nat) : Nat := 0x40200000 + c * 0x40000
/-- Region of channel ch: LINK A or LINK B (R18). -/
def lkW (ch : Nat) : Nat := 0x40100000 + ch * 0x10000
/-- Descriptor of node n (R233). -/
def ndW (n : Nat) : Nat := 0x40128000 + n * 0x40
/-- Slice table of axis a (R363). -/
def slW (a : Nat) : Nat := 0x40700400 + a * 0x10
/-- Block of core c (R361). -/
def coW (c : Nat) : Nat := 0x40700000 + c * 0x20
/-- Segment table entry i (R203). -/
def segW (i : Nat) : Nat := 0x40311000 + i * 0x10

/-- Reset values of the axis window's configuration registers (R81, R110, R132, R158, R182). -/
def cfgResetAxis (o : Nat) : Word :=
  if o = 0x00C then packWord [(10, 8, 3), (6, 4, 3), (2, 0, 2)]
  else if o = 0x100 then packWord [(31, 24, 4), (19, 18, 1)]
  else if o = 0x114 then packWord [(26, 24, 3), (22, 20, 3), (18, 16, 2), (14, 12, 1), (10, 8, 3), (6, 4, 2), (2, 0, 3)]
  else if o = 0x200 then packWord [(28, 26, 3), (23, 20, 3)]
  else if o = 0x210 then packWord [(20, 16, 1), (9, 0, 160)]
  else if o = 0x280 then 128#32
  else if o = 0x39C then packWord [(18, 16, 2), (14, 12, 2), (10, 8, 1), (6, 4, 2), (2, 0, 2)]
  else 0#32

/-- Reset values of the group window's configuration registers (R201, R202; GEARHOLD 4 belongs to a GEAR group's
word + 0x20C). -/
def cfgResetGroup (o : Nat) : Word :=
  if o = 0x010 then packWord [(22, 20, 3), (18, 16, 2), (14, 12, 3), (10, 8, 2), (6, 4, 3), (2, 0, 3)]
  else if o = 0x20C then 4#32
  else if o = 0x39C then packWord [(18, 16, 2), (14, 12, 2), (10, 8, 1), (6, 4, 2), (2, 0, 2)]
  else 0#32

/-- Reset value of a configuration register (the register tables of R133, R159, R233, R261, R287, R362, R363, R421). -/
def cfgReset (a : Nat) : Word :=
  if 0x41000000 ≤ a ∧ a < 0x41080000 then cfgResetAxis (a % 0x1000)
  else if 0x42000000 ≤ a ∧ a < 0x42020000 then cfgResetGroup (a % 0x400)
  else if a = 0x40330000 then 1023#32
  else if 0x40330008 ≤ a ∧ a < 0x40330018 then 0xFFFFFFFF#32
  else if a = 0x40330080 then packWord [(15, 8, 20), (7, 0, 20)]
  else if 0x40330100 ≤ a ∧ a < 0x40330180 ∧ a % 16 = 0 then 1023#32
  else if 0x40320000 ≤ a ∧ a < 0x40320080 ∧ a % 16 = 0 then 40#32
  else if 0x40128000 ≤ a ∧ a < 0x40129000 ∧ (a % 0x40 = 0x20 ∨ a % 0x40 = 0x24) then 0xFFFFFFFF#32
  else if a = 0x40100108 ∨ a = 0x40110108 then packWord [(15, 8, 48), (4, 0, 8)]
  else if a = 0x40400000 then packWord [(22, 16, 3), (11, 8, 2)]
  else if a = 0x40400004 then 10#32
  else if a = 0x40700108 ∨ a = 0x4070010C then 0x40708000#32
  else if 0x40700400 ≤ a ∧ a < 0x40700C00 ∧ a % 16 = 0 then packWord [(26, 24, 3), (22, 20, 1)]
  else if a = 0x40010008 then 1024#32
  else 0#32

/-- A configuration register: what the image stored, or its reset value (R368). -/
def cfgReg (s : State) (a : Nat) : Word := tget (cfgReset a) s.cfg a

/-- A signed 64-bit configuration pair, low word first (R23). -/
def cfg64 (s : State) (a : Nat) : Int := signedN 64 ((cfgReg s a).toNat + (cfgReg s (a + 4)).toNat * 2 ^ 32)

/-- A signed configuration word. -/
def cfgInt (w : Word) : Int := signedN 32 w.toNat

namespace Cfg

/-- CCFG.MISSREACT (R81). -/
def CCFG_MISSREACT (s : State) (w : Nat) : Nat := bits (cfgReg s (w + 0x200)) 28 26

/-- CCFG.HALLAID (R81). -/
def CCFG_HALLAID (s : State) (w : Nat) : Bool := bit (cfgReg s (w + 0x200)) 25

/-- CCFG.BSEN (R81). -/
def CCFG_BSEN (s : State) (w : Nat) : Bool := bit (cfgReg s (w + 0x200)) 24

/-- CCFG.SMISSMAX (R81). -/
def CCFG_SMISSMAX (s : State) (w : Nat) : Nat := bits (cfgReg s (w + 0x200)) 23 20

/-- CCFG.CARPH (R81). -/
def CCFG_CARPH (s : State) (w : Nat) : Nat := bits (cfgReg s (w + 0x200)) 19 16

/-- CCFG.CARRIER (R81). -/
def CCFG_CARRIER (s : State) (w : Nat) : Nat := bits (cfgReg s (w + 0x200)) 14 12

/-- CCFG.PERIOD (R81). -/
def CCFG_PERIOD (s : State) (w : Nat) : Nat := bits (cfgReg s (w + 0x200)) 9 8

/-- CCFG.VPRIO (R81). -/
def CCFG_VPRIO (s : State) (w : Nat) : Bool := bit (cfgReg s (w + 0x200)) 7

/-- CCFG.WSRC (R81). -/
def CCFG_WSRC (s : State) (w : Nat) : Bool := bit (cfgReg s (w + 0x200)) 6

/-- CCFG.COMSRC (R81). -/
def CCFG_COMSRC (s : State) (w : Nat) : Nat := bits (cfgReg s (w + 0x200)) 5 4

/-- CCFG.KIND (R81). -/
def CCFG_KIND (s : State) (w : Nat) : Nat := bits (cfgReg s (w + 0x200)) 1 0

/-- EPC (R81). -/
def EPC (s : State) (w : Nat) : Word := cfgReg s (w + 0x204)

/-- HALLCFG.HTMAX (R81). -/
def HALLCFG_HTMAX (s : State) (w : Nat) : Nat := bits (cfgReg s (w + 0x208)) 25 18

/-- HALLCFG.MAP (R81). -/
def HALLCFG_MAP (s : State) (w : Nat) : Nat := bits (cfgReg s (w + 0x208)) 17 0

/-- DTCFG.TMINP (R81). -/
def DTCFG_TMINP (s : State) (w : Nat) : Nat := bits (cfgReg s (w + 0x20C)) 23 16

/-- DTCFG.TPDIFF (R81). -/
def DTCFG_TPDIFF (s : State) (w : Nat) : Nat := bits (cfgReg s (w + 0x20C)) 15 8

/-- DTCFG.DT (R81). -/
def DTCFG_DT (s : State) (w : Nat) : Nat := bits (cfgReg s (w + 0x20C)) 7 0

/-- BSCFG.K (R81). -/
def BSCFG_K (s : State) (w : Nat) : Nat := bits (cfgReg s (w + 0x210)) 20 16

/-- BSCFG.TREF (R81). -/
def BSCFG_TREF (s : State) (w : Nat) : Nat := bits (cfgReg s (w + 0x210)) 9 0

/-- IMAX (R81). -/
def IMAX (s : State) (w : Nat) : Word := cfgReg s (w + 0x214)

/-- IDTBAND (R81). -/
def IDTBAND (s : State) (w : Nat) : Word := cfgReg s (w + 0x218)

/-- STEPCFG.HOLDDLY (R81). -/
def STEPCFG_HOLDDLY (s : State) (w : Nat) : Nat := bits (cfgReg s (w + 0x21C)) 15 0

/-- AXREACT.NUMREACT (R110). -/
def AXREACT_NUMREACT (s : State) (w : Nat) : Nat := bits (cfgReg s (w + 0x00C)) 10 8

/-- AXREACT.FEHREACT (R110). -/
def AXREACT_FEHREACT (s : State) (w : Nat) : Nat := bits (cfgReg s (w + 0x00C)) 6 4

/-- AXREACT.FEREACT (R110). -/
def AXREACT_FEREACT (s : State) (w : Nat) : Nat := bits (cfgReg s (w + 0x00C)) 2 0

/-- FELIM (R110). -/
def FELIM (s : State) (w : Nat) : Word := cfgReg s (w + 0x010)

/-- FEHARD (R110). -/
def FEHARD (s : State) (w : Nat) : Word := cfgReg s (w + 0x014)

/-- FETIME.FETIME (R110). -/
def FETIME_FETIME (s : State) (w : Nat) : Nat := bits (cfgReg s (w + 0x018)) 15 0

/-- CELCFG.MAG (R111). -/
def CELCFG_MAG (s : State) (w : Nat) : Bool := bit (cfgReg s (w + 0x00)) 14

/-- CELCFG.DMEAS (R111). -/
def CELCFG_DMEAS (s : State) (w : Nat) : Bool := bit (cfgReg s (w + 0x00)) 13

/-- CELCFG.NSEC (R111). -/
def CELCFG_NSEC (s : State) (w : Nat) : Nat := bits (cfgReg s (w + 0x00)) 9 8

/-- CELCFG.PERIOD (R111). -/
def CELCFG_PERIOD (s : State) (w : Nat) : Nat := bits (cfgReg s (w + 0x00)) 6 4

/-- CELCFG.TYPE (R111). -/
def CELCFG_TYPE (s : State) (w : Nat) : Nat := bits (cfgReg s (w + 0x00)) 3 0

/-- INSEL01.IN1 (R111). -/
def INSEL01_IN1 (s : State) (w : Nat) : Nat := bits (cfgReg s (w + 0x04)) 31 16

/-- INSEL01.IN0 (R111). -/
def INSEL01_IN0 (s : State) (w : Nat) : Nat := bits (cfgReg s (w + 0x04)) 15 0

/-- INSEL23.IN3 (R111). -/
def INSEL23_IN3 (s : State) (w : Nat) : Nat := bits (cfgReg s (w + 0x08)) 31 16

/-- INSEL23.IN2 (R111). -/
def INSEL23_IN2 (s : State) (w : Nat) : Nat := bits (cfgReg s (w + 0x08)) 15 0

/-- FGAIN (R111). -/
def FGAIN (s : State) (w : Nat) : Word := cfgReg s (w + 0x0C)

/-- PSCFG.TSETTLE (R132). -/
def PSCFG_TSETTLE (s : State) (w : Nat) : Nat := bits (cfgReg s (w + 0x280)) 7 0

/-- UDCMIN (R132). -/
def UDCMIN (s : State) (w : Nat) : Word := cfgReg s (w + 0x284)

/-- RMIN (R132). -/
def RMIN (s : State) (w : Nat) : Word := cfgReg s (w + 0x288)

/-- RMAX (R132). -/
def RMAX (s : State) (w : Nat) : Word := cfgReg s (w + 0x28C)

/-- FBCFG.IDXTOL (R158). -/
def FBCFG_IDXTOL (s : State) (w : Nat) : Nat := bits (cfgReg s (w + 0x100)) 31 24

/-- FBCFG.SUBMAX (R158). -/
def FBCFG_SUBMAX (s : State) (w : Nat) : Nat := bits (cfgReg s (w + 0x100)) 19 18

/-- FBCFG.MODEN (R158). -/
def FBCFG_MODEN (s : State) (w : Nat) : Bool := bit (cfgReg s (w + 0x100)) 17

/-- FBCFG.SLEN (R158). -/
def FBCFG_SLEN (s : State) (w : Nat) : Bool := bit (cfgReg s (w + 0x100)) 16

/-- FBCFG.IDXEN (R158). -/
def FBCFG_IDXEN (s : State) (w : Nat) : Bool := bit (cfgReg s (w + 0x100)) 12

/-- FBCFG.INV (R158). -/
def FBCFG_INV (s : State) (w : Nat) : Bool := bit (cfgReg s (w + 0x100)) 11

/-- FBCFG.SRC (R158). -/
def FBCFG_SRC (s : State) (w : Nat) : Nat := bits (cfgReg s (w + 0x100)) 9 8

/-- FBCFG.PORT (R158). -/
def FBCFG_PORT (s : State) (w : Nat) : Nat := bits (cfgReg s (w + 0x100)) 7 5

/-- FBCFG.TYPE (R158). -/
def FBCFG_TYPE (s : State) (w : Nat) : Nat := bits (cfgReg s (w + 0x100)) 2 0

/-- FBCPT (R158). -/
def FBCPT (s : State) (w : Nat) : Word := cfgReg s (w + 0x104)

/-- FBMAXD (R158). -/
def FBMAXD (s : State) (w : Nat) : Word := cfgReg s (w + 0x108)

/-- FBSCCFG.SCRES (R158). -/
def FBSCCFG_SCRES (s : State) (w : Nat) : Nat := bits (cfgReg s (w + 0x10C)) 31 28

/-- FBSCCFG.AMPMAX (R158). -/
def FBSCCFG_AMPMAX (s : State) (w : Nat) : Nat := bits (cfgReg s (w + 0x10C)) 27 16

/-- FBSCCFG.AMPMIN (R158). -/
def FBSCCFG_AMPMIN (s : State) (w : Nat) : Nat := bits (cfgReg s (w + 0x10C)) 11 0

/-- FBSSICFG.GRAY (R158). -/
def FBSSICFG_GRAY (s : State) (w : Nat) : Bool := bit (cfgReg s (w + 0x110)) 8

/-- FBSSICFG.BITS (R158). -/
def FBSSICFG_BITS (s : State) (w : Nat) : Nat := bits (cfgReg s (w + 0x110)) 5 0

/-- FBREACT.R26 (R158). -/
def FBREACT_R26 (s : State) (w : Nat) : Nat := bits (cfgReg s (w + 0x114)) 26 24

/-- FBREACT.C25 (R158). -/
def FBREACT_C25 (s : State) (w : Nat) : Nat := bits (cfgReg s (w + 0x114)) 22 20

/-- FBREACT.C24 (R158). -/
def FBREACT_C24 (s : State) (w : Nat) : Nat := bits (cfgReg s (w + 0x114)) 18 16

/-- FBREACT.C23 (R158). -/
def FBREACT_C23 (s : State) (w : Nat) : Nat := bits (cfgReg s (w + 0x114)) 14 12

/-- FBREACT.C22 (R158). -/
def FBREACT_C22 (s : State) (w : Nat) : Nat := bits (cfgReg s (w + 0x114)) 10 8

/-- FBREACT.C21 (R158). -/
def FBREACT_C21 (s : State) (w : Nat) : Nat := bits (cfgReg s (w + 0x114)) 6 4

/-- FBREACT.C20 (R158). -/
def FBREACT_C20 (s : State) (w : Nat) : Nat := bits (cfgReg s (w + 0x114)) 2 0

/-- FBPOSOFS (R158): signed 64 bits. -/
def FBPOSOFS (s : State) (w : Nat) : Int := cfg64 s (w + 0x118)

/-- SLMIN (R158): signed 64 bits. -/
def SLMIN (s : State) (w : Nat) : Int := cfg64 s (w + 0x120)

/-- SLMAX (R158): signed 64 bits. -/
def SLMAX (s : State) (w : Nat) : Int := cfg64 s (w + 0x128)

/-- MODULO (R158): signed 64 bits. -/
def MODULO (s : State) (w : Nat) : Int := cfg64 s (w + 0x130)

/-- PFVLIM (R182). -/
def PFVLIM (s : State) (w : Nat) : Word := cfgReg s (w + 0x370)

/-- PFALIM (R182). -/
def PFALIM (s : State) (w : Nat) : Word := cfgReg s (w + 0x374)

/-- PFJLIM (R182). -/
def PFJLIM (s : State) (w : Nat) : Word := cfgReg s (w + 0x378)

/-- PFQSDEC (R182). -/
def PFQSDEC (s : State) (w : Nat) : Word := cfgReg s (w + 0x37C)

/-- PFQSJERK (R182). -/
def PFQSJERK (s : State) (w : Nat) : Word := cfgReg s (w + 0x380)

/-- REFCFG.INPUT (R182). -/
def REFCFG_INPUT (s : State) (w : Nat) : Nat := bits (cfgReg s (w + 0x384)) 10 8

/-- REFCFG.LOCAL (R182). -/
def REFCFG_LOCAL (s : State) (w : Nat) : Bool := bit (cfgReg s (w + 0x384)) 6

/-- REFCFG.EDGE (R182). -/
def REFCFG_EDGE (s : State) (w : Nat) : Nat := bits (cfgReg s (w + 0x384)) 5 4

/-- REFCFG.DIR (R182). -/
def REFCFG_DIR (s : State) (w : Nat) : Bool := bit (cfgReg s (w + 0x384)) 2

/-- REFCFG.MODE (R182). -/
def REFCFG_MODE (s : State) (w : Nat) : Nat := bits (cfgReg s (w + 0x384)) 1 0

/-- REFVS (R182). -/
def REFVS (s : State) (w : Nat) : Word := cfgReg s (w + 0x388)

/-- REFMAX (R182). -/
def REFMAX (s : State) (w : Nat) : Word := cfgReg s (w + 0x38C)

/-- HOMEOFS (R182): signed 64 bits. -/
def HOMEOFS (s : State) (w : Nat) : Int := cfg64 s (w + 0x390)

/-- LIMCFG.PEN (R182). -/
def LIMCFG_PEN (s : State) (w : Nat) : Bool := bit (cfgReg s (w + 0x398)) 15

/-- LIMCFG.PLOCAL (R182). -/
def LIMCFG_PLOCAL (s : State) (w : Nat) : Bool := bit (cfgReg s (w + 0x398)) 14

/-- LIMCFG.PACT (R182). -/
def LIMCFG_PACT (s : State) (w : Nat) : Bool := bit (cfgReg s (w + 0x398)) 13

/-- LIMCFG.PINPUT (R182). -/
def LIMCFG_PINPUT (s : State) (w : Nat) : Nat := bits (cfgReg s (w + 0x398)) 10 8

/-- LIMCFG.NEN (R182). -/
def LIMCFG_NEN (s : State) (w : Nat) : Bool := bit (cfgReg s (w + 0x398)) 7

/-- LIMCFG.NLOCAL (R182). -/
def LIMCFG_NLOCAL (s : State) (w : Nat) : Bool := bit (cfgReg s (w + 0x398)) 6

/-- LIMCFG.NACT (R182). -/
def LIMCFG_NACT (s : State) (w : Nat) : Bool := bit (cfgReg s (w + 0x398)) 5

/-- LIMCFG.NINPUT (R182). -/
def LIMCFG_NINPUT (s : State) (w : Nat) : Nat := bits (cfgReg s (w + 0x398)) 2 0

/-- PFREACT.C34 (R182). -/
def PFREACT_C34 (s : State) (w : Nat) : Nat := bits (cfgReg s (w + 0x39C)) 18 16

/-- PFREACT.C33 (R182). -/
def PFREACT_C33 (s : State) (w : Nat) : Nat := bits (cfgReg s (w + 0x39C)) 14 12

/-- PFREACT.C32 (R182). -/
def PFREACT_C32 (s : State) (w : Nat) : Nat := bits (cfgReg s (w + 0x39C)) 10 8

/-- PFREACT.C31 (R182). -/
def PFREACT_C31 (s : State) (w : Nat) : Nat := bits (cfgReg s (w + 0x39C)) 6 4

/-- PFREACT.C30 (R182). -/
def PFREACT_C30 (s : State) (w : Nat) : Nat := bits (cfgReg s (w + 0x39C)) 2 0

/-- GRMCNT.PAREN (R201). -/
def GRMCNT_PAREN (s : State) (w : Nat) : Bool := bit (cfgReg s (w + 0x008)) 15

/-- GRMCNT.PARENT (R201). -/
def GRMCNT_PARENT (s : State) (w : Nat) : Nat := bits (cfgReg s (w + 0x008)) 14 8

/-- GRMCNT.COUNT (R201). -/
def GRMCNT_COUNT (s : State) (w : Nat) : Nat := bits (cfgReg s (w + 0x008)) 7 0

/-- GRCFG.TYPE (R201). -/
def GRCFG_TYPE (s : State) (w : Nat) : Nat := bits (cfgReg s (w + 0x00C)) 2 0

/-- GRREACT.C45 (R201). -/
def GRREACT_C45 (s : State) (w : Nat) : Nat := bits (cfgReg s (w + 0x010)) 22 20

/-- GRREACT.C44 (R201). -/
def GRREACT_C44 (s : State) (w : Nat) : Nat := bits (cfgReg s (w + 0x010)) 18 16

/-- GRREACT.C43 (R201). -/
def GRREACT_C43 (s : State) (w : Nat) : Nat := bits (cfgReg s (w + 0x010)) 14 12

/-- GRREACT.C42 (R201). -/
def GRREACT_C42 (s : State) (w : Nat) : Nat := bits (cfgReg s (w + 0x010)) 10 8

/-- GRREACT.C41 (R201). -/
def GRREACT_C41 (s : State) (w : Nat) : Nat := bits (cfgReg s (w + 0x010)) 6 4

/-- GRREACT.C40 (R201). -/
def GRREACT_C40 (s : State) (w : Nat) : Nat := bits (cfgReg s (w + 0x010)) 2 0

/-- SKEWLIM (R202). -/
def SKEWLIM (s : State) (w : Nat) : Word := cfgReg s (w + 0x200)

/-- GEARSRC.REMOTE (R202). -/
def GEARSRC_REMOTE (s : State) (w : Nat) : Bool := bit (cfgReg s (w + 0x200)) 31

/-- GEARSRC.CHEAD (R202). -/
def GEARSRC_CHEAD (s : State) (w : Nat) : Nat := bits (cfgReg s (w + 0x200)) 26 24

/-- GEARSRC.XSLOT (R202). -/
def GEARSRC_XSLOT (s : State) (w : Nat) : Nat := bits (cfgReg s (w + 0x200)) 18 16

/-- GEARSRC.LGRP (R202). -/
def GEARSRC_LGRP (s : State) (w : Nat) : Bool := bit (cfgReg s (w + 0x200)) 7

/-- GEARSRC.LNUM (R202). -/
def GEARSRC_LNUM (s : State) (w : Nat) : Nat := bits (cfgReg s (w + 0x200)) 6 0

/-- GEARNUM (R202). -/
def GEARNUM (s : State) (w : Nat) : Word := cfgReg s (w + 0x204)

/-- GEARDEN (R202). -/
def GEARDEN (s : State) (w : Nat) : Word := cfgReg s (w + 0x208)

/-- GEARCTR.GEARHOLD (R202). -/
def GEARCTR_GEARHOLD (s : State) (w : Nat) : Nat := bits (cfgReg s (w + 0x20C)) 7 0

/-- HOCFG.BRKEN (R202). -/
def HOCFG_BRKEN (s : State) (w : Nat) : Bool := bit (cfgReg s (w + 0x200)) 31

/-- HOCFG.BRKCH (R202). -/
def HOCFG_BRKCH (s : State) (w : Nat) : Nat := bits (cfgReg s (w + 0x200)) 28 24

/-- HOCFG.TRACK (R202). -/
def HOCFG_TRACK (s : State) (w : Nat) : Nat := bits (cfgReg s (w + 0x200)) 18 16

/-- MLEN (R202). -/
def MLEN (s : State) (w : Nat) : Word := cfgReg s (w + 0x204)

/-- HWIN (R202). -/
def HWIN (s : State) (w : Nat) : Word := cfgReg s (w + 0x208)

/-- RNDCFG.LAT3 (R55). -/
def RNDCFG_LAT3 (s : State) : Bool := bit (cfgReg s 0x40010108) 8

/-- CLWAKE.WAKE (R56). -/
def CLWAKE_WAKE (s : State) (w : Nat) : Nat := bits (cfgReg s (w + 0x3F000)) 11 0

/-- PSOVCFG.ANAEN (R133). -/
def PSOVCFG_ANAEN (s : State) : Bool := bit (cfgReg s 0x40330000) 23

/-- PSOVCFG.SDIEN (R133). -/
def PSOVCFG_SDIEN (s : State) : Bool := bit (cfgReg s 0x40330000) 22

/-- PSOVCFG.DCSDI (R133). -/
def PSOVCFG_DCSDI (s : State) : Nat := bits (cfgReg s 0x40330000) 18 16

/-- PSOVCFG.OVLEVEL (R133). -/
def PSOVCFG_OVLEVEL (s : State) : Nat := bits (cfgReg s 0x40330000) 9 0

/-- PSOVAX.AXES (R133). -/
def PSOVAX_AXES (s : State) (k : Nat) : Word := cfgReg s (0x40330008 + 4 * k)

/-- PSCHOP.EN (R133). -/
def PSCHOP_EN (s : State) (k : Nat) : Bool := bit (cfgReg s (0x40330020 + 4 * k)) 31

/-- PSCHOP.DEST (R133). -/
def PSCHOP_DEST (s : State) (k : Nat) : Bool := bit (cfgReg s (0x40330020 + 4 * k)) 30

/-- PSCHOP.MAXON (R133). -/
def PSCHOP_MAXON (s : State) (k : Nat) : Nat := bits (cfgReg s (0x40330020 + 4 * k)) 29 20

/-- PSCHOP.SLOT (R133). -/
def PSCHOP_SLOT (s : State) (k : Nat) : Nat := bits (cfgReg s (0x40330020 + 4 * k)) 19 16

/-- PSCHOP.DAXIS (R133). -/
def PSCHOP_DAXIS (s : State) (k : Nat) : Nat := bits (cfgReg s (0x40330020 + 4 * k)) 14 8

/-- PSCHOP.AXIS (R133). -/
def PSCHOP_AXIS (s : State) (k : Nat) : Nat := bits (cfgReg s (0x40330020 + 4 * k)) 6 0

/-- SDCLKCFG.DIV1 (R133). -/
def SDCLKCFG_DIV1 (s : State) : Nat := bits (cfgReg s 0x40330080) 15 8

/-- SDCLKCFG.DIV0 (R133). -/
def SDCLKCFG_DIV0 (s : State) : Nat := bits (cfgReg s 0x40330080) 7 0

/-- SDCFG.EN (R133). -/
def SDCFG_EN (s : State) (k : Nat) : Bool := bit (cfgReg s (0x40330100 + 16 * k)) 31

/-- SDCFG.CLKSRC (R133). -/
def SDCFG_CLKSRC (s : State) (k : Nat) : Bool := bit (cfgReg s (0x40330100 + 16 * k)) 30

/-- SDCFG.CLKSEL (R133). -/
def SDCFG_CLKSEL (s : State) (k : Nat) : Bool := bit (cfgReg s (0x40330100 + 16 * k)) 29

/-- SDCFG.MIREN (R133). -/
def SDCFG_MIREN (s : State) (k : Nat) : Bool := bit (cfgReg s (0x40330100 + 16 * k)) 28

/-- SDCFG.OSR (R133). -/
def SDCFG_OSR (s : State) (k : Nat) : Nat := bits (cfgReg s (0x40330100 + 16 * k)) 27 26

/-- SDCFG.MIRROR (R133). -/
def SDCFG_MIRROR (s : State) (k : Nat) : Nat := bits (cfgReg s (0x40330100 + 16 * k)) 23 12

/-- SDCFG.FCLEVEL (R133). -/
def SDCFG_FCLEVEL (s : State) (k : Nat) : Nat := bits (cfgReg s (0x40330100 + 16 * k)) 9 0

/-- SDSCALE (R133). -/
def SDSCALE (s : State) (k : Nat) : Word := cfgReg s (0x40330104 + 16 * k)

/-- SDOFS (R133). -/
def SDOFS (s : State) (k : Nat) : Word := cfgReg s (0x40330108 + 16 * k)

/-- LENCCFG.EN (R159). -/
def LENCCFG_EN (s : State) (k : Nat) : Bool := bit (cfgReg s (0x40320000 + 16 * k)) 31

/-- LENCCFG.SSIPER (R159). -/
def LENCCFG_SSIPER (s : State) (k : Nat) : Nat := bits (cfgReg s (0x40320000 + 16 * k)) 27 24

/-- LENCCFG.TYPE (R159). -/
def LENCCFG_TYPE (s : State) (k : Nat) : Nat := bits (cfgReg s (0x40320000 + 16 * k)) 23 22

/-- LENCCFG.CHK (R159). -/
def LENCCFG_CHK (s : State) (k : Nat) : Nat := bits (cfgReg s (0x40320000 + 16 * k)) 21 20

/-- LENCCFG.GRAY (R159). -/
def LENCCFG_GRAY (s : State) (k : Nat) : Bool := bit (cfgReg s (0x40320000 + 16 * k)) 19

/-- LENCCFG.BITS (R159). -/
def LENCCFG_BITS (s : State) (k : Nat) : Nat := bits (cfgReg s (0x40320000 + 16 * k)) 17 12

/-- LENCCFG.DIV (R159). -/
def LENCCFG_DIV (s : State) (k : Nat) : Nat := bits (cfgReg s (0x40320000 + 16 * k)) 8 0

/-- LENCTMO.TMONO (R159). -/
def LENCTMO_TMONO (s : State) (k : Nat) : Nat := bits (cfgReg s (0x40320004 + 16 * k)) 15 0

/-- LPRBFLT.FLT (R159). -/
def LPRBFLT_FLT (s : State) : Nat := bits (cfgReg s 0x40320084) 3 0

/-- TRKCFG.EN (R203). -/
def TRKCFG_EN (s : State) (k : Nat) : Bool := bit (cfgReg s (0x40310000 + 4 * k)) 31

/-- TRKCFG.LOOP (R203). -/
def TRKCFG_LOOP (s : State) (k : Nat) : Bool := bit (cfgReg s (0x40310000 + 4 * k)) 30

/-- TRKCFG.FIRST (R203). -/
def TRKCFG_FIRST (s : State) (k : Nat) : Nat := bits (cfgReg s (0x40310000 + 4 * k)) 22 16

/-- TRKCFG.COUNT (R203). -/
def TRKCFG_COUNT (s : State) (k : Nat) : Nat := bits (cfgReg s (0x40310000 + 4 * k)) 7 0

/-- GXPORT.EN (R203). -/
def GXPORT_EN (s : State) (k : Nat) : Bool := bit (cfgReg s (0x40310040 + 4 * k)) 31

/-- GXPORT.GRP (R203). -/
def GXPORT_GRP (s : State) (k : Nat) : Bool := bit (cfgReg s (0x40310040 + 4 * k)) 7

/-- GXPORT.NUM (R203). -/
def GXPORT_NUM (s : State) (k : Nat) : Nat := bits (cfgReg s (0x40310040 + 4 * k)) 6 0

/-- LKCFG.EN (R234). -/
def LKCFG_EN (s : State) (w : Nat) : Bool := bit (cfgReg s (w + 0x000)) 31

/-- LKCFG.HP (R234). -/
def LKCFG_HP (s : State) (w : Nat) : Nat := bits (cfgReg s (w + 0x000)) 10 8

/-- LKCFG.NNODE (R234). -/
def LKCFG_NNODE (s : State) (w : Nat) : Nat := bits (cfgReg s (w + 0x000)) 5 0

/-- LKTCFG.SKEN (R261). -/
def LKTCFG_SKEN (s : State) (w : Nat) : Bool := bit (cfgReg s (w + 0x108)) 16

/-- LKTCFG.NLAT (R261). -/
def LKTCFG_NLAT (s : State) (w : Nat) : Nat := bits (cfgReg s (w + 0x108)) 15 8

/-- LKTCFG.HOLD (R261). -/
def LKTCFG_HOLD (s : State) (w : Nat) : Nat := bits (cfgReg s (w + 0x108)) 4 0

/-- TWCFG.EN (R287). -/
def TWCFG_EN (s : State) : Bool := bit (cfgReg s 0x40400000) 31

/-- TWCFG.PREF (R287). -/
def TWCFG_PREF (s : State) : Bool := bit (cfgReg s 0x40400000) 30

/-- TWCFG.LEASE (R287). -/
def TWCFG_LEASE (s : State) : Nat := bits (cfgReg s 0x40400000) 22 16

/-- TWCFG.DIGMAX (R287). -/
def TWCFG_DIGMAX (s : State) : Nat := bits (cfgReg s 0x40400000) 11 8

/-- TWHOLDOFF.HOLDOFF (R287). -/
def TWHOLDOFF_HOLDOFF (s : State) : Nat := bits (cfgReg s 0x40400004) 15 0

/-- CSCFG.EN (R288). -/
def CSCFG_EN (s : State) : Bool := bit (cfgReg s 0x40410000) 31

/-- CSCFG.MASTER (R288). -/
def CSCFG_MASTER (s : State) : Bool := bit (cfgReg s 0x40410000) 30

/-- CSCFG.CHEAD (R288). -/
def CSCFG_CHEAD (s : State) : Nat := bits (cfgReg s 0x40410000) 26 24

/-- CSCFG.CWAIT (R288). -/
def CSCFG_CWAIT (s : State) : Nat := bits (cfgReg s 0x40410000) 23 16

/-- CSCFG.CRDLY (R288). -/
def CSCFG_CRDLY (s : State) : Nat := bits (cfgReg s 0x40410000) 15 0

/-- CSDLY.DLY (R288). -/
def CSDLY_DLY (s : State) : Nat := bits (cfgReg s 0x40410004) 15 0

/-- CXPOS.IDX (R288). -/
def CXPOS_IDX (s : State) (k : Nat) : Nat := bits (cfgReg s (0x40410010 + 4 * k)) 4 0

/-- SGBRK.EN (R316). -/
def SGBRK_EN (s : State) (k : Nat) : Bool := bit (cfgReg s (0x40500100 + 4 * k)) 31

/-- SGBRK.NODE (R316). -/
def SGBRK_NODE (s : State) (k : Nat) : Nat := bits (cfgReg s (0x40500100 + 4 * k)) 27 22

/-- SGBRK.OUT (R316). -/
def SGBRK_OUT (s : State) (k : Nat) : Nat := bits (cfgReg s (0x40500100 + 4 * k)) 21 19

/-- SGBRK.GRP (R316). -/
def SGBRK_GRP (s : State) (k : Nat) : Bool := bit (cfgReg s (0x40500100 + 4 * k)) 7

/-- SGBRK.NUM (R316). -/
def SGBRK_NUM (s : State) (k : Nat) : Nat := bits (cfgReg s (0x40500100 + 4 * k)) 6 0

/-- SGOUT.FUNC (R316). -/
def SGOUT_FUNC (s : State) (k : Nat) : Nat := bits (cfgReg s (0x40500200 + 4 * k)) 31 30

/-- SGOUT.GRP (R316). -/
def SGOUT_GRP (s : State) (k : Nat) : Bool := bit (cfgReg s (0x40500200 + 4 * k)) 7

/-- SGOUT.NUM (R316). -/
def SGOUT_NUM (s : State) (k : Nat) : Nat := bits (cfgReg s (0x40500200 + 4 * k)) 6 0

/-- RCFLASH (R334). -/
def RCFLASH (s : State) : Word := cfgReg s 0x40600028

/-- RHSRC.EN (R318). -/
def RHSRC_EN (s : State) (k : Nat) : Bool := bit (cfgReg s (0x40601000 + 16 * k)) 31

/-- RHSRC.ACTONLY (R318). -/
def RHSRC_ACTONLY (s : State) (k : Nat) : Bool := bit (cfgReg s (0x40601000 + 16 * k)) 30

/-- RHSRC.XEN (R318). -/
def RHSRC_XEN (s : State) (k : Nat) : Bool := bit (cfgReg s (0x40601000 + 16 * k)) 29

/-- RHSRC.RATE (R318). -/
def RHSRC_RATE (s : State) (k : Nat) : Nat := bits (cfgReg s (0x40601000 + 16 * k)) 27 24

/-- RHSRC.CLASS (R318). -/
def RHSRC_CLASS (s : State) (k : Nat) : Nat := bits (cfgReg s (0x40601000 + 16 * k)) 23 20

/-- RHSRC.AXIS (R318). -/
def RHSRC_AXIS (s : State) (k : Nat) : Nat := bits (cfgReg s (0x40601000 + 16 * k)) 18 12

/-- RHSRC.INDEX (R318). -/
def RHSRC_INDEX (s : State) (k : Nat) : Nat := bits (cfgReg s (0x40601000 + 16 * k)) 11 0

/-- RHLO (R334). -/
def RHLO (s : State) (k : Nat) : Word := cfgReg s (0x40601004 + 16 * k)

/-- RHHI (R334). -/
def RHHI (s : State) (k : Nat) : Word := cfgReg s (0x40601008 + 16 * k)

/-- RCSRC.EN (R318). -/
def RCSRC_EN (s : State) (k : Nat) : Bool := bit (cfgReg s (0x40602000 + 16 * k)) 31

/-- RCSRC.ACTONLY (R318). -/
def RCSRC_ACTONLY (s : State) (k : Nat) : Bool := bit (cfgReg s (0x40602000 + 16 * k)) 30

/-- RCSRC.XEN (R318). -/
def RCSRC_XEN (s : State) (k : Nat) : Bool := bit (cfgReg s (0x40602000 + 16 * k)) 29

/-- RCSRC.RATE (R318). -/
def RCSRC_RATE (s : State) (k : Nat) : Nat := bits (cfgReg s (0x40602000 + 16 * k)) 27 24

/-- RCSRC.CLASS (R318). -/
def RCSRC_CLASS (s : State) (k : Nat) : Nat := bits (cfgReg s (0x40602000 + 16 * k)) 23 20

/-- RCSRC.AXIS (R318). -/
def RCSRC_AXIS (s : State) (k : Nat) : Nat := bits (cfgReg s (0x40602000 + 16 * k)) 18 12

/-- RCSRC.INDEX (R318). -/
def RCSRC_INDEX (s : State) (k : Nat) : Nat := bits (cfgReg s (0x40602000 + 16 * k)) 11 0

/-- RCXLO (R334). -/
def RCXLO (s : State) (k : Nat) : Word := cfgReg s (0x40602004 + 16 * k)

/-- RCXHI (R334). -/
def RCXHI (s : State) (k : Nat) : Word := cfgReg s (0x40602008 + 16 * k)

/-- LDCODE (R362). -/
def LDCODE (s : State) : Word := cfgReg s 0x40700104

/-- LDCENTRY (R362). -/
def LDCENTRY (s : State) : Word := cfgReg s 0x40700108

/-- LDCVEC (R362). -/
def LDCVEC (s : State) : Word := cfgReg s 0x4070010C

/-- LDCIRQ.TPER (R362). -/
def LDCIRQ_TPER (s : State) : Nat := bits (cfgReg s 0x40700110) 11 8

/-- LDCIRQ.EN (R362). -/
def LDCIRQ_EN (s : State) : Nat := bits (cfgReg s 0x40700110) 2 0

/-- PWRCFG.PARKEN (R421). -/
def PWRCFG_PARKEN (s : State) : Bool := bit (cfgReg s 0x40010008) 31

/-- PWRCFG.EVWAKE (R421). -/
def PWRCFG_EVWAKE (s : State) : Bool := bit (cfgReg s 0x40010008) 16

/-- PWRCFG.PARKDLY (R421). -/
def PWRCFG_PARKDLY (s : State) : Nat := bits (cfgReg s 0x40010008) 15 0

/-- WDCFG.TIME (R421). -/
def WDCFG_TIME (s : State) : Nat := bits (cfgReg s 0x40010204) 15 0

/-- NDCFG.EN (R233). -/
def NDCFG_EN (s : State) (w : Nat) : Bool := bit (cfgReg s (w + 0x00)) 31

/-- NDCFG.ATTA (R233). -/
def NDCFG_ATTA (s : State) (w : Nat) : Bool := bit (cfgReg s (w + 0x00)) 30

/-- NDCFG.ATTB (R233). -/
def NDCFG_ATTB (s : State) (w : Nat) : Bool := bit (cfgReg s (w + 0x00)) 29

/-- NDCFG.FCH (R233). -/
def NDCFG_FCH (s : State) (w : Nat) : Bool := bit (cfgReg s (w + 0x00)) 28

/-- NDCFG.CLASS (R233). -/
def NDCFG_CLASS (s : State) (w : Nat) : Nat := bits (cfgReg s (w + 0x00)) 25 24

/-- NDCFG.RPOSB (R233). -/
def NDCFG_RPOSB (s : State) (w : Nat) : Nat := bits (cfgReg s (w + 0x00)) 20 16

/-- NDCFG.RPOSA (R233). -/
def NDCFG_RPOSA (s : State) (w : Nat) : Nat := bits (cfgReg s (w + 0x00)) 12 8

/-- NDCFG.NAX (R233). -/
def NDCFG_NAX (s : State) (w : Nat) : Nat := bits (cfgReg s (w + 0x00)) 3 0

/-- NDIDENT (R233). -/
def NDIDENT (s : State) (w : Nat) : Word := cfgReg s (w + 0x04)

/-- IPL (R233). -/
def IPL (s : State) (w : Nat) : Word := cfgReg s (w + 0x08)

/-- UPL (R233). -/
def UPL (s : State) (w : Nat) : Word := cfgReg s (w + 0x0C)

/-- ITEST (R233). -/
def ITEST (s : State) (w : Nat) : Word := cfgReg s (w + 0x10)

/-- TVPL (R233). -/
def TVPL (s : State) (w : Nat) : Word := cfgReg s (w + 0x14)

/-- NDDLY.DUP (R233). -/
def NDDLY_DUP (s : State) (w : Nat) : Nat := bits (cfgReg s (w + 0x18)) 31 16

/-- NDDLY.DDN (R233). -/
def NDDLY_DDN (s : State) (w : Nat) : Nat := bits (cfgReg s (w + 0x18)) 15 0

/-- NDHB (R233). -/
def NDHB (s : State) (w : Nat) : Word := cfgReg s (w + 0x1C)

/-- NDAXMAP0 (R233). -/
def NDAXMAP0 (s : State) (w : Nat) : Word := cfgReg s (w + 0x20)

/-- NDAXMAP1 (R233). -/
def NDAXMAP1 (s : State) (w : Nat) : Word := cfgReg s (w + 0x24)

/-- NDDLYMIN.DDNMIN (R233). -/
def NDDLYMIN_DDNMIN (s : State) (w : Nat) : Nat := bits (cfgReg s (w + 0x28)) 15 0

/-- SLCFG.EN (R363). -/
def SLCFG_EN (s : State) (w : Nat) : Bool := bit (cfgReg s (w + 0x0)) 31

/-- SLCFG.HREACT (R363). -/
def SLCFG_HREACT (s : State) (w : Nat) : Nat := bits (cfgReg s (w + 0x0)) 26 24

/-- SLCFG.OREACT (R363). -/
def SLCFG_OREACT (s : State) (w : Nat) : Nat := bits (cfgReg s (w + 0x0)) 22 20

/-- SLCFG.PERIOD (R363). -/
def SLCFG_PERIOD (s : State) (w : Nat) : Nat := bits (cfgReg s (w + 0x0)) 18 16

/-- SLCFG.BUDGET (R363). -/
def SLCFG_BUDGET (s : State) (w : Nat) : Nat := bits (cfgReg s (w + 0x0)) 11 0

/-- SLENTRY (R363). -/
def SLENTRY (s : State) (w : Nat) : Word := cfgReg s (w + 0x4)

/-- SLDATA (R363). -/
def SLDATA (s : State) (w : Nat) : Word := cfgReg s (w + 0x8)

/-- LDPERS.BASE (R361). -/
def LDPERS_BASE (s : State) (w : Nat) : Nat := bits (cfgReg s (w + 0x10)) 25 16

/-- LDPERS.SIZE (R361). -/
def LDPERS_SIZE (s : State) (w : Nat) : Nat := bits (cfgReg s (w + 0x10)) 4 0

/-- SEGAX.AXIS (R203). -/
def SEGAX_AXIS (s : State) (w : Nat) : Nat := bits (cfgReg s (w + 0x0)) 6 0

/-- SEGORG (R203): signed 64 bits. -/
def SEGORG (s : State) (w : Nat) : Int := cfg64 s (w + 0x4)

/-- SEGLEN (R203). -/
def SEGLEN (s : State) (w : Nat) : Word := cfgReg s (w + 0xC)

end Cfg

/-- PHASE of axis a: AXTIME of its cluster (R44, R56). -/
def phaseOf (s : State) (a : Nat) : Nat := bits (cfgReg s (clW (a / 32) + 0x3F100 + 4 * (a % 32))) 19 16

/-- Member i of group g: none beyond COUNT (R26, R201). -/
def memberByte (s : State) (g i : Nat) : Nat := bits (cfgReg s (grW g + 0x80 + 4 * (i / 4))) (8 * (i % 4) + 7) (8 * (i % 4))

/-- The members of a group in order (R26): bit 7 chooses axis or group. -/
def membersOf (s : State) (g : Nat) : List Owner :=
  (List.range (Cfg.GRMCNT_COUNT s (grW g))).map (fun i =>
    let b := memberByte s g i
    if b < 128 then Owner.axis b else Owner.group (b - 128))

/-- MOFS m of a group, counts (R202). -/
def mofsOf (s : State) (g m : Nat) : Int := cfgInt (cfgReg s (grW g + 0x280 + 4 * m))

/-- Axis i of node n, none for 0xFF or an index beyond NAX (R233). -/
def nodeAxis (s : State) (n i : Nat) : Option Nat :=
  let w := if i < 4 then Cfg.NDAXMAP0 s (ndW n) else Cfg.NDAXMAP1 s (ndW n)
  let b := bits w (8 * (i % 4) + 7) (8 * (i % 4))
  if i < Cfg.NDCFG_NAX s (ndW n) ∧ b < 128 then some b else none

/-- The axes of node n. -/
def nodeAxes (s : State) (n : Nat) : List Nat := (List.range 8).filterMap (nodeAxis s n)

/-- The node that serves axis a and its index there. -/
def axisNode (s : State) (a : Nat) : Option (Nat × Nat) :=
  (List.range 64).findSome? (fun n =>
    if Cfg.NDCFG_EN s (ndW n) then
      (List.range 8).findSome? (fun i => if nodeAxis s n i = some a then some (n, i) else none)
    else none)

/-- Sensed GRADE (R378): the value 3 is sensed as 0. -/
def gradeOf (s : State) : Nat :=
  let g := bits (tget 2#32 s.boot.fuses 0x10) 1 0
  if g = 3 then 0 else g

/-- Usable axes of the grade (R1, R2). -/
def usableAxes (s : State) : Nat := 32 * 2 ^ gradeOf s

/-- Cluster c is powered (R1). -/
def clusterOn (s : State) (c : Nat) : Bool := 32 * c < usableAxes s

/-- Base and size of partition i of R28, from the PARTITIONS record (R368). -/
def partBase (s : State) (i : Nat) : Nat := (cfgReg s (0x80000000 + 8 * i)).toNat
/-- Size of partition i. -/
def partSize (s : State) (i : Nat) : Nat := (cfgReg s (0x80000000 + 8 * i + 4)).toNat

end Sys2Proof.Machine
end

