-- ==== Sys2Proof/Machine/Ops.lean ====
section
/-! DEFINITION. The operations every unit shares: access to the records of the state, free values, events
(R398 to R400), the retire policy (R31 to R38), brake requests and the fault reactions of an axis (R105, R106). -/

namespace Sys2Proof.Machine

/-! ### Records by number -/

/-- Axis a. -/
def getAx (s : State) (a : Nat) : Axis := tget {} s.axes a
/-- Replace axis a. -/
def setAx (s : State) (a : Nat) (x : Axis) : State := { s with axes := tset s.axes a x }
/-- Change axis a. -/
def modAx (s : State) (a : Nat) (f : Axis → Axis) : State := setAx s a (f (getAx s a))
/-- Change the control record of axis a. -/
def modCtl (s : State) (a : Nat) (f : AxCtl → AxCtl) : State := modAx s a (fun x => { x with ctl := f x.ctl })
/-- Change the current-control record of axis a. -/
def modPred (s : State) (a : Nat) (f : AxPred → AxPred) : State := modAx s a (fun x => { x with pred := f x.pred })
/-- Change the power-stage record of axis a. -/
def modStage (s : State) (a : Nat) (f : AxStage → AxStage) : State := modAx s a (fun x => { x with stage := f x.stage })
/-- Change the feedback record of axis a. -/
def modFb (s : State) (a : Nat) (f : AxFb → AxFb) : State := modAx s a (fun x => { x with fb := f x.fb })

/-- Group g. -/
def getGr (s : State) (g : Nat) : Group := tget {} s.groups g
/-- Replace group g. -/
def setGr (s : State) (g : Nat) (x : Group) : State := { s with groups := tset s.groups g x }
/-- Change group g. -/
def modGr (s : State) (g : Nat) (f : Group → Group) : State := setGr s g (f (getGr s g))

/-- The profile block of a queue owner. -/
def getProf (s : State) : Owner → Prof
  | .axis a => (getAx s a).prof
  | .group g => (getGr s g).prof
/-- Change the profile block of a queue owner. -/
def modProf (s : State) (o : Owner) (f : Prof → Prof) : State :=
  match o with
  | .axis a => modAx s a (fun x => { x with prof := f x.prof })
  | .group g => modGr s g (fun x => { x with prof := f x.prof })

/-- Channel ch. -/
def getCh (s : State) (ch : Nat) : Chan := tget {} s.link.chans ch
/-- Change channel ch. -/
def modCh (s : State) (ch : Nat) (f : Chan → Chan) : State :=
  { s with link := { s.link with chans := tset s.link.chans ch (f (getCh s ch)) } }
/-- Node n as channel ch sees it. -/
def getNode (s : State) (ch n : Nat) : NodeSt := tget {} (getCh s ch).nodes n
/-- Change node n of channel ch. -/
def modNode (s : State) (ch n : Nat) (f : NodeSt → NodeSt) : State :=
  modCh s ch (fun c => { c with nodes := tset c.nodes n (f (tget {} c.nodes n)) })

/-- Cell k of an axis. -/
def getCell (x : Axis) (k : Nat) : Cell := tget {} x.cells k
/-- Replace cell k of an axis. -/
def setCell (x : Axis) (k : Nat) (c : Cell) : Axis := { x with cells := tset x.cells k c }

/-- Brake channel b. -/
def getBrk (s : State) (b : Nat) : Brake := tget {} s.sag.brakes b
/-- Change brake channel b. -/
def modBrk (s : State) (b : Nat) (f : Brake → Brake) : State :=
  { s with sag := { s.sag with brakes := tset s.sag.brakes b (f (getBrk s b)) } }

/-- Number of a master in the per-master tables: boot 0, wide core c 1 + c, compact 5, host 6, Saggar 7. -/
def masterNo : Master → Nat
  | .boot => 0
  | .wide c => 1 + c
  | .compact => 5
  | .host => 6
  | .saggar => 7

/-- What master m has latched or staged. -/
def getMs (s : State) (m : Master) : MasterSt := tget {} s.masters (masterNo m)
/-- Change what master m has latched or staged. -/
def modMs (s : State) (m : Master) (f : MasterSt → MasterSt) : State :=
  { s with masters := tset s.masters (masterNo m) (f (getMs s m)) }

/-! ### Free values and what leaves the head -/

/-- Count one free value as taken. -/
def State.tick (s : State) : State := { s with free := s.free + 1 }
/-- The next free word. -/
def freeW (s : State) : Word := Config.freeWord s.free
/-- The next free number in [lo, hi]. -/
def freeIn (s : State) (lo hi : Nat) : Nat := lo + Config.freeNat s.free % (hi + 1 - lo)
/-- The next free truth value. -/
def freeB (s : State) : Bool := Config.freeBool s.free

/-- Something leaves the head. -/
def send (t : Tx) (s : State) : State := { s with tx := s.tx ++ [t] }

/-- Apply an operation for every element of a list, in order. -/
def forAll {α σ : Type} (l : List α) (f : α → σ → σ) (s : σ) : σ := l.foldl (fun acc x => f x acc) s

/-- Apply an operation where a condition holds. -/
def onlyIf {σ : Type} (b : Bool) (f : σ → σ) (s : σ) : σ := if b then f s else s

/-! ### SRAM (R27, R28) -/

/-- The little-endian word of SRAM at an address (R27). -/
def memWord (s : State) (a : Nat) : Word := BitVec.ofNat 32 (leNat (mread 0 s.mem a 4) 0 4)
/-- Store bytes in SRAM from an address upwards. -/
def memPut (a : Nat) (bs : List Byte) (s : State) : State := { s with mem := mwrite 0 s.mem a bs }
/-- Store a word in SRAM, little-endian (R27). -/
def memPutW (a : Nat) (w : Word) (s : State) : State := memPut a (leBytes 4 w.toNat) s
/-- Number of an SRAM partition in the order of R28. -/
def ptAXIS : Nat := 0
def ptTABLES : Nat := 1
def ptSCHED : Nat := 2
def ptQUEUE : Nat := 3
def ptTRACE : Nat := 4
def ptLADLE : Nat := 5
def ptRECORD : Nat := 6
def ptLINKBUF : Nat := 7
def ptFREE : Nat := 8
/-- Address of coefficient word i of cell slot k in a bank of axis a (R28, R100). -/
def coefAddr (s : State) (a : Nat) (bank : Bool) (k i : Nat) : Nat :=
  partBase s ptAXIS + a * 0x800 + b2n bank * 0x400 + k * 0x40 + 4 * i
/-- A coefficient of the active bank (R102). -/
def coef (s : State) (a k i : Nat) : Word := memWord s (coefAddr s a (getAx s a).ctl.bank k i)

/-- Address of a byte of the working copy. -/
def recAddr (s : State) (o : Nat) : Nat := partBase s ptRECORD + o
/-- First byte of histogram q. -/
def histAddr (s : State) (q : Nat) : Nat := recAddr s (0x1000 + q * 0x100)
/-- First byte of cone c. -/
def coneAddr (s : State) (c : Nat) : Nat := recAddr s (0x5000 + c * 0x20)

/-! ### Values the spec does not round (log 1) -/

/-- An integer display of num/den: the quotient where it is exact, else one of its two neighbours, freely. -/
def openDiv (num den : Int) : Int :=
  num.fdiv den + if num.fmod den = 0 then 0 else if Config.freeUp num den then 1 else 0
/-- An integer display of an FP32 value, likewise. -/
def openFloat (x : F32) : Int :=
  match fDecode x with
  | .fin neg m e =>
    let i := fScaled neg m e (min e 0)
    openDiv i (2 ^ (-(min e 0)).toNat)
  | _ => 0

/-! ### Events (R398 to R402) -/

/-- The event numbers of R398 that are not reserved. -/
def evValid (e : Nat) : Bool :=
  (e ≤ 14) || (32 ≤ e && e ≤ 40) || (64 ≤ e && e ≤ 68) || (72 ≤ e && e ≤ 79) || (96 ≤ e && e ≤ 100)
    || (104 ≤ e && e ≤ 108) || (128 ≤ e && e < 256)

/-- Head-wide event numbers (R398). -/
def evRefusedWrite : Nat := 0
def evBusError : Nat := 1
def evRetirement : Nat := 2
def evDoubleBit : Nat := 3
def evLatency : Nat := 4
def evSupplyWarning : Nat := 5
def evDipRecovered : Nat := 6
def evPowerState : Nat := 7
def evImageFallback : Nat := 8
def evImageCommand : Nat := 9
def evLadleFault : Nat := 10
def evHostBusy : Nat := 11
def evHostLink : Nat := 12
def evGroup : Nat := 13
def evHeadState : Nat := 14
def evRingHeal : Nat := 32
def evChannelLost : Nat := 34
def evSkimEnded : Nat := 36
def evCollision : Nat := 37
def evNodeAdmitted : Nat := 38
def evNodeIdentity : Nat := 39
def evDelayImplausible : Nat := 40
def evTwinMismatch : Nat := 64
def evEntryComplete : Nat := 65
def evActiveChanged : Nat := 66
def evTwinLinkLost : Nat := 67
def evCascade : Nat := 68
def evLockOut : Nat := 72
def evLockOutReset : Nat := 73
def evBrakeRefused : Nat := 74
def evBrakeTestDue : Nat := 75
def evBrakeTest : Nat := 76
def evDegraded : Nat := 77
def evPwdBlocked : Nat := 78
def evSafetyRefused : Nat := 79
def evOverVoltage : Nat := 96
def evChopper : Nat := 97
def evComparator : Nat := 98
def evSdiFast : Nat := 99
def evSdiFault : Nat := 100
def evExceedance : Nat := 104
def evListFull : Nat := 105
def evSaveFailed : Nat := 106
def evClearDone : Nat := 107
def evRecorderBlank : Nat := 108

/-- Bits of EVAXCAUSE and EVGRCAUSE (R399). -/
def caFault : Nat := 0
def caRefused : Nat := 1
def caSwapDone : Nat := 2
def caCoefRefused : Nat := 3
def caSampleSat : Nat := 4
def caStagingMiss : Nat := 5
def caIndexBasis : Nat := 6
def caIndexCorr : Nat := 7
def caHallSkip : Nat := 8
def caProbe : Nat := 9
def caCompare : Nat := 10
def caCompareBehind : Nat := 11
def caMoveRefused : Nat := 12
def caJointMissed : Nat := 13
def caDecelDeferred : Nat := 14
def caSoftLimit : Nat := 15
def caReference : Nat := 16
def caShort : Nat := 17
def caBootstrap : Nat := 18
def caPrestart : Nat := 19
def caStageReady : Nat := 20
def caOverrun : Nat := 21

/-- EVROUTE e (R406). -/
def evRoute (s : State) (e : Nat) : Word := tget 0 s.ev.route e

/-- A wake cause in DEEP PARK (R412): the core PLL restarts and locks within 20 µs, and the head returns to PARK at the
third T0, the only one that is at least 20 µs after the cause and at most the third (log 22). -/
def wakeFrom (cause : Nat) (s : State) : State :=
  if s.sys.pwr = .deep ∧ s.sys.waking.isNone then
    { s with sys := { s.sys with waking := some 3, wcause := cause } } else s

/-- Delivery of an unmasked raise of event e (R400): a PULSE pin (outside BOOT), the compact core, the subscribers. -/
def deliver (e : Nat) (s : State) : State :=
  let r := evRoute s e
  let pin := bits r 2 0
  let pulse := bit r 8 && bit s.ev.pinCfg pin && s.sys.hstate != .boot
  (if Cfg.PWRCFG_EVWAKE s then wakeFrom 3 else id) { s with
    ev := if pulse then { s.ev with pulse := s.ev.pulse ||| BitVec.ofNat 8 (2 ^ pin) } else s.ev
    lad := if bit r 9 then { s.lad with ipend := setBit s.lad.ipend 1 true } else s.lad
    host := { s.host with subs := s.host.subs.map (fun q => (q.1, q.2.map (fun b =>
      if b.set.getLsbD e then { b with raised := b.raised ||| BitVec.ofNat 256 (2 ^ e) } else b))) } }

/-- Raise event e (R400). A reserved number is never raised (R398). -/
def raise (e : Nat) (s : State) : State :=
  if evValid e then
    let s1 := { s with ev := { s.ev with flags := s.ev.flags ||| BitVec.ofNat 256 (2 ^ e) } }
    if s.ev.mask.getLsbD e then deliver e s1 else s1
  else s

/-- Raise an event of axis a (R399). -/
def raiseAx (a cause : Nat) (s : State) : State :=
  raise (128 + a) { s with ev := { s.ev with
    axCause := tset s.ev.axCause a (tget 0 s.ev.axCause a ||| BitVec.ofNat 32 (2 ^ cause)) } }

/-- Raise an event of group g (R399). -/
def raiseGr (g cause : Nat) (s : State) : State :=
  raise evGroup { s with ev := { s.ev with
    grCause := tset s.ev.grCause g (tget 0 s.ev.grCause g ||| BitVec.ofNat 32 (2 ^ cause)) } }

/-- Raise an event of a queue owner. -/
def raiseOw (o : Owner) (cause : Nat) (s : State) : State :=
  match o with
  | .axis a => raiseAx a cause s
  | .group g => raiseGr g cause s

/-! ### Set-points as the clusters read them (R46, R161) -/

/-- The set-point entry of profile round n, the sample round of a computation (R160): entry n − base of the buffer;
the held state where no tick has filled it. -/
def spEntry (p : Prof) (n : Word) : Entry :=
  match p.entries with
  | [] => { p := floorDiv p.kin.p (2 ^ 32) }
  | e :: t => nth ((e :: t).getLastD e) (e :: t) (n - p.base).toNat

/-! ### Head state -/

/-- The unit is in state h, or in LOCKED entered from it, where it keeps the port behaviour and the lease of that state
(R263). -/
def keepsTo (s : State) (h : HeadState) : Bool := s.sys.hstate = h || (s.sys.hstate = .locked && s.sys.lockedFrom = h)

/-- The unit computes in shadow (R270, R280). -/
def shadows (s : State) : Bool := keepsTo s .standby

/-- The unit drives the nodes: ACTIVE or HANDBACK (R263). -/
def driving (s : State) : Bool := s.sys.hstate = .active || s.sys.hstate = .handback

/-- What a unit that takes state h leaves behind: its shadow entry when it no longer shadows (R272, R273), and a grant
when it no longer drives (R276). -/
def leaveTwin (h : HeadState) (s : State) : Twin :=
  let t := if shadows s && h ≠ .standby && h ≠ .locked then { s.twin with entry := false } else s.twin
  if driving s && h ≠ .active && h ≠ .handback then { t with hand := none } else t

/-- The head takes a state and reports it (EV 14); a state it already has changes nothing. -/
def setHead (h : HeadState) (s : State) : State :=
  if s.sys.hstate = h then s
  else
    raise evHeadState { s with
      sys := { s.sys with hstate := h, reached := s.sys.reached || h = .active || h = .standby || h = .isolated }
      twin := leaveTwin h s }

/-! ### Errors of the SRAM (R29, R30) -/

/-- The 64-bit word of SRAM in which an address lies. -/
def eccWord (a : Nat) : Nat := a / 8 * 8

/-- A read of the word w corrects a single-bit error in it, which is counted (R29). -/
def eccFix (w : Nat) (s : State) : State :=
  if s.softErr.contains w then
    { s with
      softErr := s.softErr.filter (fun x => x ≠ w)
      twin := { s.twin with scrubFixed := s.twin.scrubFixed + 1, scrub := max s.twin.scrub 1 } }
  else s

/-- The word holds a double-bit error. -/
def eccBad (s : State) (w : Nat) : Bool := s.hardErr.contains w

/-- A double-bit error is reported: event, and the scrub fault of a standby (R30). -/
def eccReport (s : State) : State :=
  raise evDoubleBit (if s.sys.hstate = .standby then { s with twin := { s.twin with scrub := 2 } } else s)

/-- The unit holds the pair role of R278: ACTIVE or HANDBACK, or LOCKED entered from one of them (R388). -/
def pairRole (s : State) : Bool :=
  s.sys.hstate = .active || s.sys.hstate = .handback ||
    (s.sys.hstate = .locked && (s.sys.lockedFrom = .active || s.sys.lockedFrom = .handback))

/-- The unit repeats both lanes of each channel between its ports (R207, R235). -/
def repeatsLanes (s : State) : Bool := keepsTo s .listen || keepsTo s .standby || keepsTo s .isolated

/-! ### Trees of axes and groups (R15, R160, R194) -/

/-- The current members of a mover: those the group unit found last, or the image's (R191). -/
def curMembers (s : State) (g : Nat) : List Nat :=
  match (getGr s g).members with
  | some l => l
  | none => (membersOf s g).filterMap (fun o =>
      match o with
      | .axis a => some a
      | .group _ => none)

/-- The members of a group: axes and groups, the current ones for a mover. -/
def memberList (s : State) (g : Nat) : List Owner :=
  if Cfg.GRCFG_TYPE s (grW g) = 3 then (curMembers s g).map Owner.axis else membersOf s g

/-- The group that has axis a as a member. -/
def parentOf (s : State) (a : Nat) : Option Nat :=
  (List.range 128).find? (fun g => (memberList s g).contains (.axis a))

/-- The queue owner above a group, at most eight levels up (R15 has fewer). -/
def topGroup (s : State) : Nat → Nat → Nat
  | 0, g => g
  | k + 1, g => if Cfg.GRMCNT_PAREN s (grW g) then topGroup s k (Cfg.GRMCNT_PARENT s (grW g)) else g

/-- The queue owner of axis a (R160): itself, or the group at the top of its tree. -/
def topOwner (s : State) (a : Nat) : Owner :=
  match parentOf s a with
  | none => .axis a
  | some g => .group (topGroup s 8 g)

/-- The groups above axis a, lowest first. -/
def ancestors (s : State) (a : Nat) : List Nat :=
  match parentOf s a with
  | none => []
  | some g => (List.range 8).foldl (fun (l : List Nat) _ =>
      match l.getLast? with
      | some h => if Cfg.GRMCNT_PAREN s (grW h) then l ++ [Cfg.GRMCNT_PARENT s (grW h)] else l
      | none => l) [g]

/-- The axes of a group's tree, in order, at most k levels down. -/
def groupAxes (s : State) : Nat → Nat → List Nat
  | 0, _ => []
  | k + 1, g => (memberList s g).flatMap (fun o =>
      match o with
      | .axis a => [a]
      | .group h => groupAxes s k h)

/-- The axes of an owner's tree. -/
def treeAxes (s : State) (o : Owner) : List Nat :=
  match o with
  | .axis a => [a]
  | .group g => groupAxes s 8 g

/-! ### Brakes as the axis logic sees them (R105, R108, R293) -/

/-- The brake channel of a queue owner, if the image gives it one (R293, R316). -/
def brakeOf (s : State) (o : Owner) : Option Nat :=
  (List.range 32).find? (fun b => Cfg.SGBRK_EN s b &&
    (match o with
     | .axis a => !Cfg.SGBRK_GRP s b && Cfg.SGBRK_NUM s b = a
     | .group g => Cfg.SGBRK_GRP s b && Cfg.SGBRK_NUM s b = g))

/-- The local output pair that is the brake of a queue owner, if the image gives it one (R302). -/
def brakePair (s : State) (o : Owner) : Option Nat :=
  (List.range 4).find? (fun k => Cfg.SGOUT_FUNC s k = 1 &&
    (match o with
     | .axis a => !Cfg.SGOUT_GRP s k && Cfg.SGOUT_NUM s k = a
     | .group g => Cfg.SGOUT_GRP s k && Cfg.SGOUT_NUM s k = g))

/-- Request the brake of axis a; without a brake channel the request counts as fulfilled at once (R105). A mover's
release request ends with it (R294). -/
def requestBrake (a : Nat) (s : State) : State :=
  let none_ := (brakeOf s (.axis a)).isNone && (brakePair s (.axis a)).isNone
  let s1 := modCtl s a (fun c => { c with brkWant := false, brkApp := none_ || (c.brkApp && !c.brkWant) })
  match parentOf s a with
  | some g => if Cfg.GRCFG_TYPE s (grW g) = 3 then modGr s1 g (fun r => { r with brkWant := false }) else s1
  | none => s1

/-- Request the release of the brake of axis a (R108, R294). -/
def requestRelease (a : Nat) (s : State) : State :=
  modCtl s a (fun c => { c with brkWant := true, brkApp := false, brkNew := c.brkNew || !c.brkWant })

/-! ### Fuses and safety parameters (R309, R311, R378, R435) -/

/-- A fuse word as sensed, by offset in the FUSE region (R378); unprogrammed fuses are 0, and the grade of a delivered
part is EY4128 (log 6). -/
def fuseWord (s : State) (o : Nat) : Word := tget (if o = 0x10 then 2#32 else 0#32) s.boot.fuses o

/-- BTIMAX: the bound of BTINT in hours; unprogrammed counts as 168 (R311). -/
def btiMax (s : State) : Nat := let x := bits (fuseWord s 0x14) 27 16; if x = 0 then 168 else x
/-- IMAXF in 0.1 A; unprogrammed counts as 4,095 (R311). -/
def imaxFuse (s : State) : Nat := let x := bits (fuseWord s 0x14) 11 0; if x = 0 then 4095 else x
/-- OVTRIP; unprogrammed counts as 1,023 (R311). -/
def ovTripFuse (s : State) : Nat := let x := bits (fuseWord s 0x10) 25 16; if x = 0 then 1023 else x

/-- Default of a safety parameter (R435). -/
def sagDefault (s : State) (id : Nat) : Word :=
  if id = 1 then BitVec.ofNat 32 (btiMax s)
  else if id = 3 then 500#32
  else if 0x40 ≤ id ∧ id < 0x60 then 1000#32
  else if 0x60 ≤ id ∧ id < 0x80 then 64#32
  else 0#32

/-- The IDs of R309. -/
def sagIdOk (id : Nat) : Bool := (1 ≤ id && id ≤ 3) || (0x20 ≤ id && id < 0x80)

/-- A safety parameter in force; an ID that is not listed reads 0 (R309). -/
def sagParam (s : State) (id : Nat) : Word := if sagIdOk id then tget (sagDefault s id) s.sag.params id else 0#32

/-- Owner of a brake channel (R293). -/
def brakeOwner (s : State) (b : Nat) : Owner :=
  if Cfg.SGBRK_GRP s b then .group (Cfg.SGBRK_NUM s b) else .axis (Cfg.SGBRK_NUM s b)

/-- The test current of a brake test in round `r` of its ramp of 20 ms, hold and ramp (R301), FP32 amperes. -/
def testRamp (bti : F32) (r hold : Nat) : F32 :=
  let n := 2560
  if r < n then fDiv (fMul bti (fOfInt r)) (fOfInt n)
  else if r < n + hold then bti
  else if r < 2 * n + hold then fDiv (fMul bti (fOfInt ((2 * n + hold : Nat) - (r : Int)))) (fOfInt n)
  else 0

/-- What replaces in1 of PRED on an owner under test (R301). -/
def testCurrent (s : State) (o : Owner) : Option F32 :=
  match s.sag.test with
  | some t =>
    if t.phase ≠ 0 ∧ brakeOwner s t.ch = o then
      let i := testRamp (sagParam s (0x20 + t.ch)) t.rounds (128 * (sagParam s (0x40 + t.ch)).toNat)
      some (if t.phase = 1 then i else fNeg i)
    else none
  | none => none

/-! ### Retire policy (R31 to R38) -/

/-- Classes of R31. -/
def clsNode : Nat := 0
def clsSegment : Nat := 1
def clsChannel : Nat := 2
def clsTwin : Nat := 3
def clsCascade : Nat := 4
def clsStage : Nat := 5
def clsFeedback : Nat := 6
def clsSdi : Nat := 7

/-- Default parameters of R31: threshold, window in ms, first backoff in ms. -/
def retDefault (cls : Nat) : RetCfg :=
  match cls with
  | 0 => ⟨4, 10000, 0⟩
  | 1 => ⟨8, 60000, 10⟩
  | 2 => ⟨4, 600000, 100⟩
  | 3 => ⟨8, 60000, 10⟩
  | 4 => ⟨8, 60000, 10⟩
  | 5 => ⟨2, 600000, 100⟩
  | 6 => ⟨16, 1000, 0⟩
  | _ => ⟨4, 10000, 1⟩

/-- Parameters of a class in force (R33). -/
def retCfgOf (s : State) (cls : Nat) : RetCfg := tget (retDefault cls) s.ret.cfg cls

/-- Number of a retire channel. -/
def retKey (cls idx : Nat) : Nat := cls * 256 + idx

/-- A retire channel. -/
def getRet (s : State) (cls idx : Nat) : RetCh := tget {} s.ret.chans (retKey cls idx)

/-- Replace a retire channel. -/
def setRet (s : State) (cls idx : Nat) (c : RetCh) : State :=
  { s with ret := { s.ret with chans := tset s.ret.chans (retKey cls idx) c } }

/-- A channel is retired. -/
def isRetired (s : State) (cls idx : Nat) : Bool := (getRet s cls idx).st = .retired

/-- The index belongs to the class (R31). -/
def retIndexOk (cls idx : Nat) : Bool :=
  match cls with
  | 0 => idx < 64
  | 1 => idx < 34 || (64 ≤ idx && idx < 98)
  | 2 => idx < 2
  | 3 => idx = 0
  | 4 => idx = 0
  | 5 => idx < 128
  | 6 => idx < 136
  | 7 => idx < 8
  | _ => false

/-- One entry of the retire log (R38): cause 1 threshold, 2 permanent, 3 release; the newest overwrites the oldest
when the log has filled. -/
def retLog (cause cls idx : Nat) (s : State) : State :=
  let r := s.ret
  { s with ret := { r with
    log := tset r.log r.next { cause, cls, idx, pc := s.rcd.pc, sec := s.rcd.sec, round := s.sys.round }
    next := (r.next + 1) % 64
    wrapped := r.wrapped || r.next = 63
    lost := if r.wrapped then sat16 (r.lost + 1) else r.lost } }

/-- retire(ch, cause) of R32: state, log entry and event. -/
def retireCore (cause cls idx : Nat) (c : RetCh) (s : State) : State :=
  raise evRetirement (retLog cause cls idx
    (setRet s cls idx { c with st := .retired, backoff := 0, perm := cause = 2,
                               cnt := (c.stamps.filter (fun t => s.sys.ms ≤ t + (retCfgOf s cls).window)).length }))

/-! ### Faults of an axis (R105 to R107) -/

/-- Record a fault: LASTCODE, the SEEN flag of its class, and the event for WARN and above. -/
def faultRecord (a code cls : Nat) (s : State) : State :=
  let s1 := modCtl s a (fun c => { c with lastCode := code, seen := setBit c.seen (min cls 4) true })
  if 1 ≤ cls then raiseAx a caFault s1 else s1

/-- The reaction in force after a fault of class `cls` (R106): the highest class; of one round the lowest code. -/
def reactKeep (code cls : Nat) (now : Word) (c : AxCtl) : AxCtl :=
  if c.react < cls then { c with react := cls, fcode := code, reactAt := now }
  else if c.react = cls ∧ c.reactAt = now then { c with fcode := min c.fcode code }
  else c

/-- A pre-start sequence in progress ends with ABORTED (R120); a diagnostic run goes on. -/
def abortPrestart (a : Nat) (s : State) : State :=
  if (getAx s a).stage.seq = .prestart then
    raiseAx a caPrestart (modStage s a (fun g => { g with seq := .idle, step := 0, sendStep := false, result := 7, phase := 7 }))
  else s

/-- An axis enters FAULT, RETIRED or OFF with its gates off: what was waiting ends, a pre-start sequence is aborted. -/
def enterOff (st : AxState) (a : Nat) (s : State) : State :=
  modCtl (abortPrestart a s) a (fun c => { c with st := st, qscmd := false, wait := .none })

/-- What a retirement ends on the power stage of axis a: a diagnostic run, which belongs to FAULT (R119) and whose end raises the
pre-start-result event as every end does (R120; the result that ABORTED names is a DESIGN CHOICE, log 25), what the end of a
backoff was to start (R114), and the causes of 0x10, 0x11 and 0x13, which last as long as these (R122). -/
def stageStop (a : Nat) (s' : State) : State :=
  let s := if (getAx s' a).stage.seq = .diag then raiseAx a caPrestart s' else s'
  modCtl (modStage s a (fun g =>
    let g1 := if g.seq = .diag then { g with seq := .idle, step := 0, sendStep := false, result := 7, phase := 7 } else g
    { g1 with paused := false, diagAtEnd := false, retryAtEnd := false, retryReady := false })) a
    (fun c => { c with causes := setBit (setBit (setBit c.causes 0x10 false) 0x11 false) 0x13 false })

/-- Retirement of the power stage of axis a: the axis enters RETIRED (R34). -/
def stageRetired (a : Nat) (s : State) : State := requestBrake a (enterOff .retired a (stageStop a s))

/-- The fault and its class as the state of the axis alone takes it (R105, R108): the state, and whether a reaction of
class QSTOP, TORQUE_OFF or RETIRE acts. -/
def faultReact (a code cls : Nat) (s : State) : State :=
  let st := (getAx s a).ctl.st
  if cls < 2 then s
  else if cls = 4 then
    if st = .retired then s
    else
      let s1 := modCtl s a (reactKeep code 4 s.sys.round)
      let s2 := stageRetired a s1
      if isRetired s2 clsStage a then s2 else retireCore 2 clsStage a (getRet s2 clsStage a) s2
  else if st = .off ∨ st = .retired then s
  else
    let s1 := modCtl s a (reactKeep code cls s.sys.round)
    if cls = 2 ∧ (st = .run ∨ st = .qstop) then
      modCtl s1 a (fun c => if c.wait = .brakeFault then c else
        { c with st := .qstop, qscmd := false, wait := .restFault })
    else if st = .fault then s1
    else requestBrake a (enterOff .fault a s1)

/-- The SEEN flags that a write clears (R24, R110). -/
def clearSeen (c : AxCtl) : AxCtl :=
  { c with seen := (List.range 5).foldl (fun n i => setBit n i (c.seen.testBit i && !c.seenClr.testBit i)) 0, seenClr := 0 }

/-- Whether a cause of fault `code` persists on axis a (AXFLT.ACTIVE, R107). -/
def setCause (a code : Nat) (on : Bool) (s : State) : State :=
  modCtl s a (fun c => { c with causes := setBit c.causes code on })

/-- A fault of axis a with a reaction class, on that axis alone. -/
def faultOne (a code cls : Nat) (s : State) : State := faultReact a code cls (faultRecord a code cls s)

/-- Whether the fault of a class acts on axis a in its present state (R105, R106). -/
def reacts (s : State) (a cls : Nat) : Bool :=
  let st := (getAx s a).ctl.st
  (cls = 4 && st ≠ .retired) || ((cls = 2 || cls = 3) && st ≠ .off && st ≠ .retired && st ≠ .fault)

/-- R192: a quick stop stops the queue owner, and every other axis of the tree in RUN enters QSTOP with QSCMD = 1. -/
def treeQuickStop (a : Nat) (s : State) : State :=
  let o := topOwner s a
  let s1 := modProf s o (fun p => { p with quick := true })
  forAll (treeAxes s o) (fun b s =>
    if b ≠ a ∧ (getAx s b).ctl.st = .run then
      modCtl s b (fun c => { c with st := .qstop, qscmd := true, wait := .none })
    else s) s1

/-- A fault of axis a with a reaction class (R105), with what a tree makes of it (R192): a QSTOP reaction stops the
queue owner; TORQUE_OFF or RETIRE, or QSTOP where it acts as TORQUE_OFF (R105), in a GANTRY, GEAR or SUM tree raises fault
0x40 on the other axes. -/
def faultAx (a code cls : Nat) (s : State) : State :=
  let go := reacts s a cls
  let moving := (getAx s a).ctl.st = .run || (getAx s a).ctl.st = .qstop
  let s1 := faultOne a code cls s
  if !go then s1
  else if cls = 2 && moving then treeQuickStop a s1
  else
    match parentOf s a with
    | none => s1
    | some g =>
      if Cfg.GRCFG_TYPE s (grW g) = 3 then s1
      else
        let o := topOwner s a
        let c40 := match o with
          | .group q => Cfg.GRREACT_C40 s (grW q)
          | .axis _ => 3
        let s2 := match o with
          | .group q => modGr s1 q (fun x => { x with fcode := 0x40 })
          | .axis _ => s1
        let s3 := forAll (treeAxes s o) (fun b s =>
          if b = a then s
          else faultOne b 0x40 c40 (modCtl (setCause b 0x40 true s) b (fun c => { c with from40 := a :: c.from40.filter (fun x => x ≠ a) }))) s2
        if c40 = 2 then modProf s3 o (fun p => { p with quick := true }) else s3

/-- AXFLT.ACTIVE (R107): a cause persists. Following error and numeric causes stand only in RUN and QSTOP; fault 0x40
stands while the axis that raised it is in FAULT or RETIRED (R200). -/
def causeActive (s : State) (a : Nat) : Bool :=
  let c := (getAx s a).ctl
  let live := c.st = .run || c.st = .qstop
  let base := setBit (if live then c.causes else setBit (setBit (setBit c.causes 1 false) 2 false) 3 false) 0x40 false
  base ≠ 0 || (c.causes.testBit 0x40 &&
    c.from40.any (fun b => (getAx s b).ctl.st = .fault || (getAx s b).ctl.st = .retired))

/-- The window of axis a shows what its computation has left (R24). -/
def snapAxis (a : Nat) (s : State) : State :=
  let x := getAx s a
  { s with seenAx := tset s.seenAx a { x with ctl := { x.ctl with active := causeActive s a } } }

/-- A fault on each of some axes. -/
def faultAxes (l : List Nat) (code cls : Nat) (s : State) : State := forAll l (fun a => faultAx a code cls) s

/-! ### Transients, permanent causes and releases (R32, R34, R35) -/

/-- The consequence of a retirement that the head itself must act on at once (R34): a node slot faults the node's
axes with 0x05; a power stage takes its axis to RETIRED; every axis that uses a retired feedback input takes fault
0x25 (R150); the twin lane is taken as lost. -/
def retireEffect (cls idx : Nat) (s : State) : State :=
  if cls = clsNode then
    let s1 := forAll [0, 1] (fun ch s => modNode s ch idx (fun n => { n with st := 5 })) s
    forAll (nodeAxes s1 idx) (fun a s => faultAx a 0x05 3 (setCause a 0x05 true s)) s1
  else if cls = clsStage then
    stageRetired idx s
  else if cls = clsFeedback then
    forAll (List.range 128) (fun a s =>
      let w := axW a
      let src := Cfg.FBCFG_SRC s w
      if (idx < 128 && a = idx && src < 2) || (128 ≤ idx && src = 2 && Cfg.FBCFG_PORT s w = idx - 128) then
        faultAx a 0x25 (Cfg.FBREACT_C25 s w) (setCause a 0x25 true (modFb s a (fun f => { f with posRel := false })))
      else s) s
  else if cls = clsTwin then
    if s.twin.tll then s else raise evTwinLinkLost { s with twin := { s.twin with tll := true } }
  else s

/-- A transient on a channel (R32). A retired channel counts nothing; a release of the same round takes the transient
after itself (R35). -/
def transient (cls idx : Nat) (s : State) : State :=
  let c := getRet s cls idx
  if c.st = .retired then { s with ret := { s.ret with late := retKey cls idx :: s.ret.late } }
  else
    let p := retCfgOf s cls
    let stamps := s.sys.ms :: c.stamps.filter (fun t => s.sys.ms ≤ t + p.window)
    let n := stamps.length
    let c1 := { c with stamps := stamps }
    if p.threshold ≤ n then
      retireEffect cls idx (retireCore 1 cls idx c1 { s with ret := { s.ret with fresh := retKey cls idx :: s.ret.fresh } })
    else if 0 < p.backoff then
      setRet s cls idx { c1 with st := .backoff, backoff := min (p.backoff * 2 ^ (n - 1)) (16 * p.backoff) }
    else setRet s cls idx c1

/-- A permanent cause on a channel (R32). -/
def permanent (cls idx : Nat) (s : State) : State :=
  let c := getRet s cls idx
  if c.st = .retired then s else retireEffect cls idx (retireCore 2 cls idx c s)

/-- Release of a retired channel (R35): stamps, backoff, PERM and COUNT clear, with a log entry and the event. -/
def release (cls idx : Nat) (s : State) : State :=
  if isRetired s cls idx then raise evRetirement (retLog 3 cls idx (setRet s cls idx {})) else s

/-- Transients inside the window, as RTSTAT.COUNT shows them (R37). -/
def retCount (s : State) (cls idx : Nat) : Nat :=
  let c := getRet s cls idx
  if c.st = .retired then min c.cnt 16
  else min (c.stamps.filter (fun t => s.sys.ms ≤ t + (retCfgOf s cls).window)).length 16

/-! ### What the image uses -/

/-- The image sets a field of the window [w, w + n): an axis or group without one is not configured (log 14). -/
def windowSet (s : State) (w n : Nat) : Bool := s.cfg.any (fun p => w ≤ p.1 && p.1 < w + n)
/-- Axes the image configures. -/
def usedAxes (s : State) : List Nat := (List.range 128).filter (fun a => windowSet s (axW a) 0x1000)
/-- Groups the image defines (R19). -/
def definedGroups (s : State) : List Nat := (List.range 128).filter (fun g => windowSet s (grW g) 0x400)
/-- Queue owners that the image configures (R160). -/
def ownersUsed (s : State) : List Owner :=
  ((usedAxes s).filter (fun a => (parentOf s a).isNone)).map Owner.axis ++
    ((definedGroups s).filter (fun g => !Cfg.GRMCNT_PAREN s (grW g))).map Owner.group

/-! ### Ladle cores halt (R349, R353, R354) -/

/-- Core c of the Ladle block. -/
def getCore (s : State) (c : Nat) : Core := tget {} s.lad.cores c

/-- Change core c. -/
def modCore (c : Nat) (f : Core → Core) (s : State) : State :=
  { s with lad := { s.lad with cores := tset s.lad.cores c (f (getCore s c)) } }

/-- Slice status of axis a. -/
def getSlice (s : State) (a : Nat) : SliceSt := tget {} s.lad.slices a

/-- Change the slice status of axis a. -/
def modSlice (a : Nat) (f : SliceSt → SliceSt) (s : State) : State :=
  { s with lad := { s.lad with slices := tset s.lad.slices a (f (getSlice s a)) } }

/-- The axes of cluster c that have a slice (R354). -/
def sliceAxes (s : State) (c : Nat) : List Nat :=
  ((List.range 32).map (fun j => 32 * c + j)).filter (fun a => Cfg.SLCFG_EN s (slW a))

/-- Fault 0x09 of an axis with a reaction class; `last` tells an overrun (1) from a halt (2) (R353, R354, R363). -/
def ladleFault (a last cls : Nat) (s : State) : State := faultAx a 0x09 cls (modSlice a (fun x => { x with lastf := last }) s)

/-- Core c halts with a cause (R349, R361): the compact core raises the Ladle-fault event; the sliced axes of a wide
core's cluster take fault 0x09, whose cause persists (R354, R360). -/
def haltCore (c cause : Nat) (faddr : Word) (s : State) : State :=
  let s1 := modCore c (fun k => { k with
    st := 2, hcause := cause, fpc := k.pc, faddr := faddr, halts := inc16 k.halts, axis := none, waiting := false
    stalled := false, delay := none, rtiPend := false, restartPend := false }) s
  if c = 4 then raise evLadleFault s1
  else forAll (sliceAxes s c) (fun a s => ladleFault a 2 (Cfg.SLCFG_HREACT s (slW a)) (setCause a 0x09 true s)) s1

end Sys2Proof.Machine
end

