-- ==== Sys2Proof/Machine/Sched.lean ====
section
/-! DEFINITION. The schedule tables in SRAM (R225 to R232, R255 to R257) and what they and PHASE make due (R44, R87). -/

namespace Sys2Proof.Machine

/-- A schedule entry (R225). -/
structure SEntry where
  idx : Nat
  axis : Nat
  up : Bool
  node : Nat
  type : Nat
  start : Nat
  aux : Nat
  rmask : Nat
  deriving DecidableEq, Repr

/-- Slot types of R214. -/
def tyMARK : Nat := 1
def tyFUP : Nat := 2
def tyFDN : Nat := 3
def tyPOS : Nat := 4
def tySAFE : Nat := 5
def tySVC : Nat := 6
def tyDIAG : Nat := 7
def tySYNC : Nat := 8

/-- An entry from its two words; none unless VALID (R225). -/
def sEntryOf (i : Nat) (w0 w1 : Word) : Option SEntry :=
  if bit w0 31 then
    some { idx := i, axis := bits w0 30 24, up := bit w0 23, node := bits w0 22 17, type := bits w0 15 12,
           start := bits w0 11 0, aux := bits w1 20 16, rmask := bits w1 15 0 }
  else none

/-- First byte of a channel's table in SRAM: the normal tables at the partition's base, the skim tables 32 KB above
(R232, R255). -/
def schedAddr (s : State) (ch : Nat) (skim : Bool) : Nat :=
  partBase s 2 + ch * 0x4000 + if skim then 0x8000 else 0

/-- The channel is in use (R234). -/
def chOn (s : State) (ch : Nat) : Bool := Cfg.LKCFG_EN s (lkW ch)

/-- Indices of the entries with a listed byte, each once: `m` rises in address. -/
def entryIdx (b : Nat) : Memory → List Nat
  | [] => []
  | [c] => [(c.1 - b) / 8]
  | c :: d :: m => if (c.1 - b) / 8 = (d.1 - b) / 8 then entryIdx b (d :: m) else (c.1 - b) / 8 :: entryIdx b (d :: m)

/-- The valid entries of a channel's table, by rising index; no table without a SCHED partition. An entry without a listed
byte is all zeros and so not VALID. -/
def schedTable (s : State) (ch : Nat) (skim : Bool) : List SEntry :=
  if partSize s 2 = 0 then []
  else
    let b := schedAddr s ch skim
    let m := s.mem.filter (fun c => b ≤ c.1 && c.1 < b + 0x4000)
    (entryIdx b m).filterMap (fun i =>
      let rd := fun o => BitVec.ofNat 32 (leNat (mread 0 m (b + 8 * i + o) 4) 0 4)
      sEntryOf i (rd 0) (rd 4))

/-- The skim schedule holds (R254, R258). -/
def inSkim (s : State) : Bool := s.link.skim.isSome

/-- The table in force on a channel: the skim table on the surviving channel while the skim schedule holds. -/
def schedNow (s : State) (ch : Nat) : List SEntry := schedTable s ch (s.link.skim = some ch)

/-- An entry acts in round n (R225). -/
def SEntry.acts (e : SEntry) (n : Word) : Bool := e.rmask.testBit (n.toNat % 16)

/-- The entries of a channel that act in round n. -/
def schedAt (s : State) (ch : Nat) (n : Word) : List SEntry := (schedNow s ch).filter (fun e => e.acts n)

/-- The node serving axis a is attached to channel ch (R233). -/
def nodeOn (s : State) (n ch : Nat) : Bool := if ch = 0 then Cfg.NDCFG_ATTA s (ndW n) else Cfg.NDCFG_ATTB s (ndW n)

/-- Fast channel of node n: 0 A, 1 B (R209). -/
def fastCh (s : State) (n : Nat) : Nat := b2n (Cfg.NDCFG_FCH s (ndW n))

/-- Axis a is served under the skim schedule: its node is attached to the surviving channel (R255). -/
def skimServed (s : State) (a : Nat) : Bool :=
  match s.link.skim, axisNode s a with
  | some ch, some (n, _) => nodeOn s n ch
  | _, _ => false

/-- The channel on which a node's fast slots run now: the surviving one in skim, else its fast channel. -/
def nodeCh (s : State) (n : Nat) : Nat :=
  match s.link.skim with
  | some ch => if nodeOn s n ch then ch else fastCh s n
  | none => fastCh s n

/-- The channel on which the axis's slots run now. -/
def axisCh (s : State) (a : Nat) : Nat :=
  match axisNode s a with
  | some (n, _) => nodeCh s n
  | none => 0

/-- The entries of one type for axis a in the table in force. -/
def axisEntries (s : State) (a ty : Nat) : List SEntry :=
  (schedNow s (axisCh s a)).filter (fun e => e.type = ty && e.axis = a)

/-- START of the axis's FDN position (F of R48, R211); none without one. -/
def fdnStart (s : State) (a : Nat) : Option Nat := ((axisEntries s a tyFDN).head?).map SEntry.start

/-- Current-loop period of the image, in rounds (R87). -/
def basePeriod (s : State) (a : Nat) : Nat := 2 ^ Cfg.CCFG_PERIOD s (axW a)

/-- Current-loop period in force: doubled under the skim schedule (R257). -/
def loopPeriod (s : State) (a : Nat) : Nat := if skimServed s a then 2 * basePeriod s a else basePeriod s a

/-- (n − PHASE) mod p = 0 (R44). -/
def dueAt (s : State) (a p : Nat) (n : Word) : Bool := (n - BitVec.ofNat 32 (phaseOf s a)).toNat % p = 0

/-- Sample round n belongs to the axis's current loop (R44; the skim table's FUP rounds under R257). -/
def loopDue (s : State) (a : Nat) (n : Word) : Bool :=
  if skimServed s a then (axisEntries s a tyFUP).any (fun e => e.acts n) else dueAt s a (basePeriod s a) n

/-- Kind of an axis: 0 NONE, 1 SERVO3, 2 STEPPER2 (R57). -/
def kindOf (s : State) (a : Nat) : Nat := Cfg.CCFG_KIND s (axW a)

/-- Type of a cell slot (R83). -/
def cellType (s : State) (a k : Nat) : Nat := Cfg.CELCFG_TYPE s (cellW a k)

/-- Period in force of a cell (R87): a shorter period gives way to the current-loop period in force under skim. -/
def cellPeriod (s : State) (a k : Nat) : Nat :=
  let p := 2 ^ Cfg.CELCFG_PERIOD s (cellW a k)
  if skimServed s a then max p (loopPeriod s a) else p

/-- Cell k of axis a takes the samples of round n (R44, R87). Under skim a cell with the current loop's period in force computes
in the rounds of the skim table's FUP, and one with a longer period where its PHASE has it; the spec does not say so of either
(DESIGN CHOICE, log 33). -/
def cellDue (s : State) (a k : Nat) (n : Word) : Bool :=
  cellType s a k ≠ 0 &&
    (if skimServed s a && decide (kindOf s a ≠ 0) && 2 ^ Cfg.CELCFG_PERIOD s (cellW a k) ≤ loopPeriod s a then loopDue s a n
     else dueAt s a (cellPeriod s a k) n)

/-- Frame length L of the axis: the largest period of its cells (R44). -/
def frameLen (s : State) (a : Nat) : Nat :=
  (List.range 16).foldl (fun m k => if cellType s a k = 0 then m else max m (cellPeriod s a k)) 1

/-- First sample round b ≥ r with (b − PHASE) mod L = 0 (R103). -/
def frameBoundary (s : State) (a : Nat) (r : Word) : Word :=
  let l := frameLen s a
  let x := (r - BitVec.ofNat 32 (phaseOf s a)).toNat % l
  if x = 0 then r else r + BitVec.ofNat 32 (l - x)

/-- Apply delay D of the mode in force (R47, R61). -/
def applyDelay (s : State) : Nat := if Cfg.RNDCFG_LAT3 s then 3 else 2

/-- Rounds in which axis a has a feedback sample (R134, R137, R221). -/
def fbDue (s : State) (a : Nat) (n : Word) : Bool :=
  match Cfg.FBCFG_SRC s (axW a) with
  | 0 => loopDue s a n
  | 1 => (axisEntries s a tyPOS).any (fun e => e.acts n)
  | 2 =>
    let k := Cfg.FBCFG_PORT s (axW a)
    if Cfg.LENCCFG_TYPE s k = 1 then n.toNat % 2 ^ Cfg.LENCCFG_SSIPER s k = 0 else true
  | _ => false

/-- The axis has a feedback sample round without a POS slot (R221). -/
def posGap (s : State) (a : Nat) : Bool :=
  (List.range (max 16 (basePeriod s a))).any (fun r => fbDue s a (BitVec.ofNat 32 r) &&
    !(axisEntries s a tyPOS).any (fun e => e.acts (BitVec.ofNat 32 r)))

/-- The axis has computations: of its current loop, of cells or of a feedback sample (R24, R84). -/
def hasComputation (s : State) (a : Nat) : Bool :=
  kindOf s a ≠ 0 || (List.range 16).any (fun k => cellType s a k ≠ 0) || decide (Cfg.FBCFG_SRC s (axW a) ≤ 2)

/-- Axis x as its window shows it: as its last completed computation left it (R24); an axis that has no computation shows what
it holds (DEDUCED, log 29). -/
def axisShown (s : State) (x : Nat) : State :=
  if hasComputation s x then setAx s x (tget {} s.seenAx x)
  else modCtl s x (fun c => { c with active := causeActive s x })

/-- Key of the input entry of axis a in the half of sample round n (R51). -/
def inKey (a : Nat) (n : Word) : Nat := 2 * a + n.toNat % 2

/-- The input entry of axis a for sample round n. -/
def getIn (s : State) (a : Nat) (n : Word) : InEntry := tget {} s.inbuf (inKey a n)

end Sys2Proof.Machine
end

