-- ==== Sys2Proof/Machine/Feedback.lean ====
section
/-! DEFINITION. Feedback, index check, probes and compares (R134 to R158): what one sample does, step by step. -/

namespace Sys2Proof.Machine

/-! ### One sample as reported (R135, R218, R220) -/

/-- The fields of R135 of one sample round. -/
structure FbIn where
  cnt : Nat := 0
  sin : Int := 0
  cos : Int := 0
  hall : Nat := 0
  idx : Bool := false
  idxLo : Nat := 0
  /-- a local ABZ port latches the whole counter at the index -/
  idxFull : Option Nat := none
  los : Bool := false
  ssiErr : Bool := false
  /-- quadrature error of a local port (R136) -/
  quad : Bool := false
  deriving DecidableEq, Repr

/-- FUP fields used as feedback (R218). -/
def fbInOfFup (b : List Byte) : FbIn :=
  let flg := beNat b 6 2
  { cnt := beNat b 8 4, hall := (flg >>> 5) % 8, idx := flg.testBit 10, idxLo := beNat b 12 2,
    los := flg.testBit 12, ssiErr := flg.testBit 11 }

/-- POS fields used as feedback (R220). -/
def fbInOfPos (b : List Byte) : FbIn :=
  let flg := beNat b 14 2
  { cnt := beNat b 0 4, sin := signedN 16 (beNat b 4 2), cos := signedN 16 (beNat b 6 2), idxLo := beNat b 8 2,
    hall := (flg >>> 8) % 8, idx := flg.testBit 13, los := flg.testBit 15, ssiErr := flg.testBit 14 }

/-- The sample of an ABZ or HALL port at core clock 0 of a round: counter, Z latch, quadrature error, pins (R136). -/
def fbInOfLoc (l : List Nat) : FbIn :=
  { cnt := l.getD 0 0, hall := l.getD 4 0, idx := l.getD 1 0 = 1,
    idxFull := if l.getD 1 0 = 1 then some (l.getD 2 0) else none, quad := l.getD 3 0 = 1 }

/-- Gray to binary, n bits (R142). -/
def grayDecode (n x : Nat) : Nat :=
  (List.range n).foldl (fun acc i => acc ^^^ (x >>> i)) 0 % 2 ^ n

/-- The retire index of the axis's feedback input (R139): the axis, or 128 + the local port. -/
def fbRetIdx (s : State) (a : Nat) : Nat :=
  if Cfg.FBCFG_SRC s (axW a) = 2 then 128 + Cfg.FBCFG_PORT s (axW a) else a

/-- Bits of an SSI data word (R142, R158, R159). -/
def ssiBits (s : State) (a : Nat) : Nat :=
  if Cfg.FBCFG_SRC s (axW a) = 2 then Cfg.LENCCFG_BITS s (Cfg.FBCFG_PORT s (axW a)) else Cfg.FBSSICFG_BITS s (axW a)

/-- Gray coding of the SSI word. -/
def ssiGray (s : State) (a : Nat) : Bool :=
  if Cfg.FBCFG_SRC s (axW a) = 2 then Cfg.LENCCFG_GRAY s (Cfg.FBCFG_PORT s (axW a)) else Cfg.FBSSICFG_GRAY s (axW a)

/-- The local SSI frame that serves sample round n: one started at n, or an unused one of the period before that ended
late (DEDUCED, log 10). -/
def ssiSample (s : State) (a : Nat) (n : Word) : Option (Word × Bool × Bool × Nat) :=
  let k := Cfg.FBCFG_PORT s (axW a)
  let p := tget {} s.fbk.ports k
  match p.ssi with
  | some (st, ok, w) =>
    let d := (n - p.ssiAt).toNat
    if d ≤ 2 ^ Cfg.LENCCFG_SSIPER s k ∧ (getAx s a).fb.ssiUsed ≠ some p.ssiAt then some (p.ssiAt, st, ok, w) else none
  | none => none

/-- The report of sample round n; none while its entry is marked missing, or the input is retired (R139, R150). -/
def fbReport (s : State) (a : Nat) (n : Word) : Option FbIn :=
  if isRetired s clsFeedback (fbRetIdx s a) then none
  else
    let e := getIn s a n
    match Cfg.FBCFG_SRC s (axW a) with
    | 0 => e.fup.map fbInOfFup
    | 1 => e.pos.map fbInOfPos
    | 2 =>
      if Cfg.FBCFG_TYPE s (axW a) = 1 then
        (ssiSample s a n).map (fun r => { cnt := r.2.2.2, los := !r.2.1, ssiErr := r.2.1 && !r.2.2.1 })
      else e.loc.map fbInOfLoc
    | _ => none

/-! ### Counts (R140 to R143) -/

/-- The sign s of R143. -/
def fbSign (s : State) (a : Nat) : Int := if Cfg.FBCFG_INV s (axW a) then -1 else 1

/-- CCNT of a raw count (R143). -/
def ccntOf (sgn corr : Int) (raw : Nat) : Nat := intMod 32 (sgn * raw + corr)

/-- Sector of a Hall state under HALLCFG.MAP; none for 0b000 and 0b111 (R69, R140). -/
def hallSector (s : State) (a h : Nat) : Option Nat :=
  if h = 0 ∨ h = 7 then none else some (bits (cfgReg s (axW a + 0x208)) (3 * h - 1) (3 * h - 3))

/-- Movement between two sectors: +1 or −1 to a neighbour, 0 for the same sector; none when not adjacent (R140). -/
def hallMove (k0 k1 : Nat) : Option Int :=
  match (k1 + 6 - k0) % 6 with
  | 0 => some 0
  | 1 => some 1
  | 5 => some (-1)
  | _ => none

/-- What R141 makes of a sin/cos sample: none when it is bad, else raw count and remainder. -/
def sincosCount (s : State) (a : Nat) (r : FbIn) : Option (Nat × Nat) :=
  let w := axW a
  let a2 := r.sin * r.sin + r.cos * r.cos
  let lo : Int := 16 * Cfg.FBSCCFG_AMPMIN s w
  let hi : Int := 16 * Cfg.FBSCCFG_AMPMAX s w
  if a2 < lo * lo ∨ hi * hi < a2 then none
  else
    let res := 2 ^ Cfg.FBSCCFG_SCRES s w
    let phi := atanPhi r.sin r.cos
    let delta := ((phi >>> 14) + 4 - r.cnt % 4) % 4
    if delta = 2 then none
    else
      let q := intMod 32 ((r.cnt : Int) + if delta = 1 then 1 else if delta = 3 then -1 else 0)
      let prod := phi * res
      some (((q >>> 2) * res + (prod >>> 16)) % 2 ^ 32, prod % 65536)

/-- Why a sample is bad: nothing, the FBMAXD test alone, or something that counts a transient (R139). -/
inductive Badness where
  | good | maxd | bad
  deriving DecidableEq, Repr

/-- The raw count a sample stands for, its remainder, and the SSI word decoded; none when sin/cos is bad. -/
def fbRaw (s : State) (a : Nat) (f : AxFb) (r : FbIn) : Option (Nat × Nat) :=
  match Cfg.FBCFG_TYPE s (axW a) with
  | 0 => some (r.cnt, 0)
  | 1 =>
    let n := ssiBits s a
    let w := if ssiGray s a then grayDecode n r.cnt else r.cnt % 2 ^ n
    match f.ssiWord with
    | none => some (w, 0)
    | some w0 => some (intMod 32 (f.raw + signedN n (w + 2 ^ n - w0 % 2 ^ n)), 0)
  | 2 => sincosCount s a r
  | _ =>
    match hallSector s a f.hallLast, hallSector s a r.hall with
    | some k0, some k1 => some (intMod 32 (f.raw + (hallMove k0 k1).getD 0), 0)
    | _, _ => some (f.raw, 0)

/-- The FBMAXD test fails, against the count of sample n − Pf (R139). It is skipped once after DEEP PARK (R412). -/
def fbOver (s : State) (a : Nat) (f : AxFb) (r : FbIn) : Bool :=
  match fbRaw s a f r, f.s1 with
  | some (raw, _), some p =>
    let d := signedN 32 (ccntOf (fbSign s a) f.corr raw + 2 ^ 32 - p.ccnt)
    let mx := (Cfg.FBMAXD s (axW a)).toNat
    decide (mx ≠ 0) && decide (mx < d.natAbs) && !f.skipMaxd
  | _, _ => false

/-- The verdict on a sample (R139): LOS, SSI check, quadrature, sin/cos, and the FBMAXD test. -/
def fbJudge (s : State) (a : Nat) (f : AxFb) (r : FbIn) : Badness :=
  if r.los || r.ssiErr || r.quad || (fbRaw s a f r).isNone then .bad else if fbOver s a f r then .maxd else .good

/-! ### Index check (R148, R149) -/

/-- Raw counter at the index edge. -/
def rawIdx (s : State) (a : Nat) (r : FbIn) : Nat :=
  match r.idxFull with
  | some x => x
  | none =>
    let d := signedN 16 (r.cnt + 65536 - r.idxLo)
    let x := intMod 32 ((r.cnt : Int) - d)
    if Cfg.FBCFG_TYPE s (axW a) = 2 then (x >>> 2) * 2 ^ Cfg.FBSCCFG_SCRES s (axW a) % 2 ^ 32 else x

/-- What the index check concludes. -/
inductive IdxOut where
  | nothing
  | basis
  | corrected (dev : Int)
  | outside (dev : Int)
  deriving DecidableEq, Repr

/-- The rule of R148 on the corrected count c of an index edge. -/
def idxJudge (based : Bool) (idxBase c cpt tol : Nat) : IdxOut :=
  if !based then .basis
  else if cpt = 0 then .nothing
  else
    let diff := signedN 32 (c + 2 ^ 32 - idxBase)
    let dev := diff - roundAway diff cpt * cpt
    if dev.natAbs ≤ tol then (if dev = 0 then .nothing else .corrected dev) else .outside dev

/-- The index check of a good sample: the feedback record after it, and the deviation that was corrected. -/
def idxCheck (s : State) (a : Nat) (r : FbIn) (f : AxFb) : AxFb × IdxOut :=
  if !(Cfg.FBCFG_IDXEN s (axW a) && r.idx) then (f, .nothing)
  else
    let c := ccntOf (fbSign s a) f.corr (rawIdx s a r)
    let out := idxJudge f.based f.idxBase c (Cfg.FBCPT s (axW a)).toNat (Cfg.FBCFG_IDXTOL s (axW a))
    let f1 := { f with cntBase := some (f.cntBase.getD c) }
    match out with
    | .basis => ({ f1 with idxBase := c, based := true }, out)
    | .corrected dev =>
      ({ f1 with corr := signedN 32 (intMod 32 (f1.corr - dev)), ccnt := intMod 32 (f1.ccnt - dev),
                 idxCorr := inc16 f1.idxCorr, idxDev := dev }, out)
    | .outside dev => ({ f1 with idxDev := dev, posRel := false }, out)
    | .nothing => (f1, out)

/-! ### Track and axis position (R144 to R146) -/

/-- TRK moved by delta: modulo MODULO with MODTURN, or saturating. -/
def trkMove (s : State) (a : Nat) (f : AxFb) (delta : Int) : AxFb :=
  if Cfg.FBCFG_MODEN s (axW a) then
    let m := Cfg.MODULO s (axW a)
    let t := f.trk + delta
    if m ≤ 0 then { f with trk := t }
    else { f with trk := t % m, modTurn := wrapInt 32 (f.modTurn + t.fdiv m) }
  else { f with trk := sat64 (f.trk + delta) }

/-- TRK lies outside the soft-limit range or at a 64-bit limit: below, above (R144, R145). -/
def softOut (s : State) (a : Nat) (trk : Int) : Bool × Bool :=
  let w := axW a
  let en := Cfg.FBCFG_SLEN s w
  ((en && trk < Cfg.SLMIN s w) || (!Cfg.FBCFG_MODEN s w && trk = -(2 ^ 63)),
   (en && Cfg.SLMAX s w < trk) || (!Cfg.FBCFG_MODEN s w && trk = 2 ^ 63 - 1))

/-- Axis position from TRK (R145, R146). -/
def axPos (s : State) (a : Nat) (trk : Int) : Int :=
  if Cfg.FBCFG_SLEN s (axW a) then clampInt (Cfg.SLMIN s (axW a)) (Cfg.SLMAX s (axW a)) trk else trk

/-- Steps 5: axis position, the limit flags and fault 0x24 with its persisting cause. -/
def applyLimits (a : Nat) (s : State) : State :=
  let f := (getAx s a).fb
  let o := softOut s a f.trk
  let s1 := modFb s a (fun f => { f with pos := axPos s a f.trk, slLo := o.1, slHi := o.2 })
  let s2 := setCause a 0x24 (o.1 || o.2) s1
  if (o.1 || o.2) && !(f.slLo || f.slHi) then faultAx a 0x24 (Cfg.FBREACT_C24 s (axW a)) s2 else s2

/-- A start value of TRK, held in [0, MODULO) on a modulo axis (R144, R146). -/
def trkInit (s : State) (a : Nat) (t : Int) : Int :=
  if Cfg.FBCFG_MODEN s (axW a) ∧ 0 < Cfg.MODULO s (axW a) then t % Cfg.MODULO s (axW a) else sat64 t

/-- Before its first good sample an incremental or Hall axis stands at FBPOSOFS (R144). -/
def fbStart (s : State) (a : Nat) (f : AxFb) : AxFb :=
  if f.started || Cfg.FBCFG_TYPE s (axW a) = 1 then f
  else { f with trk := trkInit s a (Cfg.FBPOSOFS s (axW a)), pos := axPos s a (trkInit s a (Cfg.FBPOSOFS s (axW a))) }

/-! ### Probes (R151 to R153) -/

/-- An edge offered to the probe channels: source, rising, time against T0(b) in core clocks (not positive), and the
counter of a local ABZ port at the edge. -/
structure ProbeEdge where
  loc : Bool
  input : Nat
  rising : Bool
  t : Int
  cnt : Option Nat
  deriving DecidableEq, Repr

/-- Edges of the node inputs in a POS of sample round b (R152, R220). -/
def nodeEdges (plev : Nat) (pos : Option (List Byte)) : List ProbeEdge :=
  match pos with
  | none => []
  | some b =>
    [0, 1].filterMap (fun i =>
      let w := beNat b (10 + 2 * i) 2
      if w.testBit 15 then
        some { loc := false, input := i, rising := !plev.testBit i, t := -(4 * (w % 2 ^ 14 : Nat) : Int), cnt := none }
      else none)

/-- Node edges beyond the first of an interval (R152). -/
def nodeMulti (pos : Option (List Byte)) : Nat :=
  match pos with
  | none => 0
  | some b => ([0, 1].filter (fun i => (beNat b (10 + 2 * i) 2).testBit 14)).length

/-- Edges of the local pins in (T0(b − pf), T0(b)], oldest first. -/
def localEdges (s : State) (a : Nat) (b : Word) (pf : Nat) : List ProbeEdge :=
  let w := axW a
  let abz := Cfg.FBCFG_SRC s w = 2 ∧ Cfg.FBCFG_TYPE s w = 0
  s.fbk.edges.filterMap (fun e =>
    let dr : Int := (e.round - b).toInt
    let t := dr * 3125 + e.clk
    if -((pf * 3125 : Nat) : Int) < t ∧ t ≤ 0 then
      some { loc := true, input := e.pin, rising := e.level, t := t,
             cnt := if abz then e.cnts[Cfg.FBCFG_PORT s w]? else none }
    else none)

/-- PLEVEL comes from the FUP when the axis has one, else from the POS (R221); it stands while that slot is missing. -/
def plevelOf (s : State) (a : Nat) (e : InEntry) (old : Nat) : Nat :=
  if (axisEntries s a tyFUP).isEmpty then
    (match e.pos with
     | some p => (beNat p 14 2 >>> 11) % 4
     | none => old)
  else
    match e.fup with
    | some f => (beNat f 6 2 >>> 8) % 4
    | none => old

/-- The captured position of an edge (R152): by interpolation between p(a), shifted by an index correction, and p(b);
of a local ABZ port exactly. -/
def capturePos (s : State) (a : Nat) (f : AxFb) (p0 : Int) (pf : Nat) (e : ProbeEdge) : Int :=
  let dur : Int := (pf * 3125 : Nat)
  let raw : Int :=
    match e.cnt with
    | some c => f.trk + signedN 32 (ccntOf (fbSign s a) f.corr c + 2 ^ 32 - f.ccnt) * 65536
    | none =>
      let move := match f.s1 with
        | some x => if Cfg.FBCFG_MODEN s (axW a) then x.motion else f.pos - p0
        | none => 0
      roundAway ((f.pos - move) * dur + move * (e.t + dur)) dur
  if Cfg.FBCFG_MODEN s (axW a) ∧ 0 < Cfg.MODULO s (axW a) then raw % Cfg.MODULO s (axW a) else sat64 raw

/-- A probe channel takes an edge, if it matches (R153): the channel and whether it captured. -/
def probeTake (s : State) (a : Nat) (f : AxFb) (p0 : Int) (ex : Bool) (b : Word) (pf : Nat) (e : ProbeEdge)
    (c : Probe) : Probe × Bool :=
  let matchEdge := (c.edgeSel = 3) || (c.edgeSel = 1 && e.rising) || (c.edgeSel = 2 && !e.rising)
  let tAbs : Int := (b - c.since).toInt * 3125 + e.t
  if c.armed && c.loc = e.loc && c.input = e.input && matchEdge && decide (0 ≤ tAbs) then
    ({ c with armed := c.cont, done := !c.cont, falling := !e.rising, unrel := ex || !f.posRel,
              caps := incSat 255 c.caps, pos := capturePos s a f p0 pf e,
              round := b + BitVec.ofInt 32 (e.t.fdiv 3125), tim := (e.t % 3125).toNat }, true)
  else (c, false)

/-- Step 6 for one channel and all edges of the interval, earlier edges first. -/
def probeRun (a p : Nat) (p0 : Int) (ex : Bool) (b : Word) (pf : Nat) (es : List ProbeEdge) (s : State) : State :=
  es.foldl (fun s e =>
    let f := (getAx s a).fb
    let c := tget {} f.prb p
    let r := probeTake s a f p0 ex b pf e c
    if r.2 then
      let s1 := raiseAx a caProbe (modFb s a (fun f => { f with prb := tset f.prb p r.1 }))
      if p = 0 ∧ (getAx s a).prof.refPhase ≠ .idle then
        modFb s1 a (fun f => { f with refCap := some (r.1.pos, r.1.unrel), refIdx := none, based := false })
      else s1
    else s) s

/-! ### Compares (R154, R155) -/

/-- Moves of C by INTERVAL until it lies ahead of pc: at least one. -/
def moveCount (dir : Bool) (c pc step : Int) : Int :=
  if dir then (c - pc).fdiv step + 1 else (pc - c).fdiv step + 1

/-- The effect of firing on a channel (R155): c' and pc' are in unwrapped terms; m is 0 or MODULO. -/
def fireCompare (c : Compare) (c' pc' m : Int) (late : Bool) (rnd : Word) (tim : Nat) : Compare :=
  let c1 := { c with fires := incSat 255 c.fires, round := rnd, tim := tim, late := late }
  if c.rep ∧ c.interval ≠ 0 then
    let step : Int := (c.interval * 65536 : Nat)
    let k := max 1 (moveCount c.dir c' pc' step)
    let nc := if c.dir then c' - k * step else c' + k * step
    { c1 with st := 1, c := if 0 < m then nc % m else sat64 nc, missed := min 15 (c.missed + (k - 1).toNat) }
  else { c1 with st := 2 }

/-- One compare channel at an evaluation with pp and pc (R155): the channel and whether it fires. How the
interpolated crossing is rounded to a core clock the spec does not say (log 1). -/
def evalCompare (modulo : Int) (pp pcU pc : Int) (n : Word) (pf : Nat) (c : Compare) : Compare × Bool :=
  let pcR := if 0 < modulo then pcU else pc
  let cU : Int :=
    if 0 < modulo then
      if c.dir then pp - modulo + (c.c - (pp - modulo)) % modulo else pp + 1 + (c.c - (pp + 1)) % modulo
    else c.c
  if c.fresh then (c, false)
  else if c.st = 4 then (fireCompare c cU pcR modulo true n 0, true)
  else if c.st = 1 ∧ ((!c.dir ∧ pp < cU ∧ cU ≤ pcR) ∨ (c.dir ∧ cU < pp ∧ pcR ≤ cU)) then
    let dur : Int := (pf * 3125 : Nat)
    let t := openDiv ((cU - pp) * dur) (pcR - pp) - dur
    (fireCompare c cU pcR modulo false (n + BitVec.ofInt 32 (t.fdiv 3125)) (t % 3125).toNat, true)
  else (c, false)

/-- Step 7 for every channel. -/
def compareRun (a : Nat) (pp pcU pc : Int) (n : Word) (pf : Nat) (s : State) : State :=
  let modulo := if Cfg.FBCFG_MODEN s (axW a) then Cfg.MODULO s (axW a) else 0
  forAll [0, 1, 2, 3] (fun k s =>
    let c := tget {} (getAx s a).fb.cmp k
    let r := evalCompare modulo pp pcU pc n pf c
    if r.2 then
      let s1 := modFb s a (fun f => { f with cmp := tset f.cmp k r.1 })
      let s2 := if c.nodeOut then modPred s1 a (fun p => { p with cmpOut := setBit p.cmpOut k true }) else s1
      raiseAx a caCompare s2
    else s) s

/-! ### Arming words (R153, R154, R156) -/

/-- Take the arming words that wait for this computation, in order, on the sample position p, ahead of its probes and compares
(R153, R154). m is its round. A compare armed here is first evaluated in the next sample. -/
def takeArming (a : Nat) (m : Word) (p : Int) (s : State) : State :=
  let ws := (getAx s a).fb.arming
  let s0 := modFb s a (fun f => { f with arming := [] })
  forAll ws (fun w s =>
    match w with
    | .probe w =>
      let ch := b2n (bit w 8)
      let loc := bit w 3
      let input := bits w 2 0
      if bit w 7 ∧ (bits w 5 4 = 0 ∨ (!loc ∧ (1 < input ∨ posGap s a))) then raiseAx a caRefused s
      else modFb s a (fun f => { f with prb := tset f.prb ch (
        let c := tget {} f.prb ch
        if bit w 7 then { c with armed := true, cont := bit w 6, edgeSel := bits w 5 4, loc := loc, input := input,
                                 done := false, caps := 0, since := m }
        else { c with armed := false }) })
    | .compare w0 w1 w2 w3 =>
      let k := bits w0 1 0
      let f := (getAx s a).fb
      let c := tget {} f.cmp k
      let pos := signedN 64 (w1.toNat + w2.toNat * 2 ^ 32)
      let modulo := Cfg.FBCFG_MODEN s (axW a)
      let put := fun c s => modFb s a (fun f => { f with cmp := tset f.cmp k c })
      if !bit w0 7 then put { c with st := 0 } s
      else if !f.posRel ∨ (bit w0 3 ∧ (fdnStart s a).isNone) then raiseAx a caRefused s
      else if modulo ∧ (pos < 0 ∨ Cfg.MODULO s (axW a) ≤ pos) then raiseAx a caRefused s
      else
        let c1 := { c with st := 1, dir := bit w0 6, fip := bit w0 5, rep := bit w0 4, nodeOut := bit w0 3,
                           late := false, missed := 0, c := pos, interval := w3.toNat, fresh := true }
        let behind := !modulo ∧ ((!bit w0 6 ∧ pos ≤ p) ∨ (bit w0 6 ∧ p ≤ pos))
        if behind then raiseAx a caCompareBehind (put { c1 with st := if bit w0 5 then 4 else 3 } s)
        else put c1 s) s0

/-- The arming words are taken in a computation without a sample of its own: on the position of the last one (R144). -/
def armIdle (a : Nat) (m : Word) (s : State) : State :=
  let f := (getAx s a).fb
  if f.arming.isEmpty then s
  else
    modFb (takeArming a m ((f.s1.map FbSample.pos).getD f.pos) s) a
      (fun f => { f with cmp := f.cmp.map (fun q => (q.1, { q.2 with fresh := false })) })

/-! ### The whole of a sample (R138, R139) -/

/-- Steps 5 to 7 after TRK and the sample record stand. `prev` is the sample before, `dev` an index correction. -/
def fbTail (a : Nat) (n : Word) (prev : Option FbSample) (dev : Int) (s : State) : State :=
  let s1 := applyLimits a s
  let f := (getAx s1 a).fb
  let x := f.s1.getD { round := n, ccnt := f.ccnt, fr := f.fr, pos := 0, extrap := false, delta := 0, motion := 0, motionCnt := 0 }
  let s2 := takeArming a (n + 1) f.pos (modFb s1 a (fun f => { f with s1 := some { x with pos := f.pos }, estim := x.extrap }))
  let e := getIn s a n
  let s3 := modFb s2 a (fun g => { g with multi := sat16 (g.multi + nodeMulti e.pos) })
  match prev with
  | none => modFb s3 a (fun g => { g with
      plev := plevelOf s a e g.plev, cmpFresh := !g.posRel, cmp := g.cmp.map (fun q => (q.1, { q.2 with fresh := false })) })
  | some p =>
    let pf := (n - p.round).toNat
    let p0 := p.pos - dev * 65536
    let ex := x.extrap || p.extrap
    let es := nodeEdges f.plev e.pos ++ localEdges s a n pf
    let s4 := probeRun a 1 p0 ex n pf es (probeRun a 0 p0 ex n pf es s3)
    let s5 :=
      if f.posRel && !f.cmpFresh then compareRun a p0 (p0 + x.motion) f.pos n pf s4
      else s4
    modFb s5 a (fun g => { g with
      plev := plevelOf s a e g.plev, cmpFresh := !g.posRel, cmp := g.cmp.map (fun q => (q.1, { q.2 with fresh := false })) })

/-- A sample that cannot be used: linear extrapolation of the motion part of the last change (R139). Before any
reference there is nothing to extrapolate. -/
def fbExtrapolate (a : Nat) (n : Word) (s : State) : State :=
  let f := (getAx s a).fb
  match f.s1 with
  | none => modFb s a (fun f => { fbStart s a f with estim := true })
  | some p =>
    let fr' := p.fr + fbSign s a * (p.motion - p.motionCnt * 65536)
    let s1 := modFb s a (fun f =>
      let f1 := trkMove s a f p.motion
      { f1 with ccnt := intMod 32 ((p.ccnt : Int) + p.motionCnt), fr := fr', s2 := some p,
                s1 := some { round := n, ccnt := intMod 32 ((p.ccnt : Int) + p.motionCnt), fr := fr', pos := f1.trk,
                             extrap := true, delta := p.motion, motion := p.motion, motionCnt := p.motionCnt } })
    fbTail a n (some p) 0 s1

/-- The transient, faults and counts of a bad sample (R139). -/
def fbBad (a : Nat) (b : Badness) (r : FbIn) (s : State) : State :=
  let w := axW a
  let run := incSat 7 (getAx s a).fb.subRun
  let s1 := modFb s a (fun f => { f with bad := true, badCnt := inc16 f.badCnt, subRun := run })
  let s2 := if Cfg.FBCFG_SRC s w = 2 then
      let k := Cfg.FBCFG_PORT s w
      let pt : Port := tget {} s1.fbk.ports k
      { s1 with fbk := { s1.fbk with ports := tset s1.fbk.ports k { pt with errCnt := inc16 pt.errCnt } } }
    else s1
  let s3 := if b = .bad then transient clsFeedback (fbRetIdx s a) s2 else s2
  let s4 := if r.ssiErr then faultAx a 0x23 (Cfg.FBREACT_C23 s w) s3 else s3
  let s5 := if fbOver s a (getAx s a).fb r then faultAx a 0x26 (Cfg.FBREACT_R26 s w) s4 else s4
  let sub := Cfg.FBCFG_SUBMAX s w
  let s6 := if run = sub + 1 then faultAx a 0x20 (Cfg.FBREACT_C20 s w) s5 else s5
  if sub < run then setCause a 0x20 true (modFb s6 a (fun f => { f with posRel := false })) else s6

/-- The feedback of the axis is incremental: A/B/Z or sin/cos (R68, R142). -/
def incremental (s : State) (a : Nat) : Bool :=
  Cfg.FBCFG_SRC s (axW a) ≠ 3 && (Cfg.FBCFG_TYPE s (axW a) = 0 || Cfg.FBCFG_TYPE s (axW a) = 2)

/-- Hall states in use (R140): TYPE HALL, COMSRC 1, or HALLAID before the first index. -/
def hallInUse (s : State) (a : Nat) : Bool :=
  let w := axW a
  Cfg.FBCFG_TYPE s w = 3 && Cfg.FBCFG_SRC s w ≠ 3 || Cfg.CCFG_COMSRC s w = 1
    || (Cfg.CCFG_HALLAID s w && incremental s a && (getAx s a).fb.cntBase.isNone)

/-- R140 on a reported Hall state. A change is judged from the last valid state `last`, so that an invalid one between loses no
count. -/
def hallJudge (a last h : Nat) (s : State) : State :=
  let inval := hallInUse s a && (hallSector s a h).isNone
  let s1 := if inval then
      faultAx a 0x22 (Cfg.FBREACT_C22 s (axW a)) (transient clsFeedback (fbRetIdx s a) s)
    else s
  let s2 := setCause a 0x22 inval s1
  let skip := match hallSector s a last, hallSector s a h with
    | some k0, some k1 => (hallMove k0 k1).isNone
    | _, _ => false
  let s3 := if skip then raiseAx a caHallSkip (modFb s2 a (fun f => { f with hallSkip := inc16 f.hallSkip })) else s2
  modFb s3 a (fun f => { f with hall := h })

/-- The Hall state of the axis's own feedback report, judged with TYPE HALL (R140). -/
def hallCheck (a : Nat) (r : Option FbIn) (s : State) : State :=
  match r with
  | none => s
  | some r =>
    if Cfg.FBCFG_TYPE s (axW a) = 3 then
      modFb (hallJudge a (getAx s a).fb.hallLast r.hall s) a
        (fun f => { f with hallLast := if (hallSector s a r.hall).isSome then r.hall else f.hallLast })
    else s

/-- The Hall state of the FUP of sample round n, which commutation uses (R69, R140, R221), judged in every computation of the
current loop that has one. With TYPE HALL and SRC 0 it is the feedback's own and has been judged as such. -/
def hallFup (a : Nat) (n : Word) (s : State) : State :=
  let w := axW a
  let own := Cfg.FBCFG_TYPE s w = 3 && Cfg.FBCFG_SRC s w = 0
  let used := Cfg.FBCFG_TYPE s w ≠ 3 || Cfg.CCFG_COMSRC s w = 1 || Cfg.CCFG_HALLAID s w
  match (getIn s a n).fup with
  | some b => if used && !own then hallJudge a (getAx s a).pred.hall ((beNat b 6 2 >>> 5) % 8) s else s
  | none => s

/-- LENCCNT of a local port without a quadrature counter shows the raw counter that the sample of its axis forms (R142, R159;
DEDUCED, log 26). -/
def portCount (a raw : Nat) (s : State) : State :=
  if Cfg.FBCFG_SRC s (axW a) = 2 then
    let k := Cfg.FBCFG_PORT s (axW a)
    { s with fbk := { s.fbk with ports := tset s.fbk.ports k { (tget {} s.fbk.ports k : Port) with count := raw } } }
  else s

/-- A good sample: counts, index check, TRK with its start rules, POSREL of SSI (R142 to R148). -/
def fbGood (a : Nat) (n : Word) (r : FbIn) (raw fr : Nat) (s : State) : State :=
  let w := axW a
  let sgn := fbSign s a
  let ssi := Cfg.FBCFG_TYPE s w = 1
  let word := let b := ssiBits s a; if ssiGray s a then grayDecode b r.cnt else r.cnt % 2 ^ b
  let f := (getAx s a).fb
  let f1 := { f with raw := raw, ccnt := ccntOf sgn f.corr raw, fr := fr, subRun := 0, bad := false, skipMaxd := false,
                     ssiWord := if ssi then some word else f.ssiWord }
  let ic := idxCheck s a r f1
  let f2 := ic.1
  let dev : Int := match ic.2 with
    | .corrected d => d
    | _ => 0
  let dCnt : Int := match f.s1 with
    | some p => signedN 32 (f2.ccnt + 2 ^ 32 - p.ccnt)
    | none => 0
  let dFr : Int := match f.s1 with
    | some p => sgn * ((fr : Int) - p.fr)
    | none => 0
  let delta := dCnt * 65536 + dFr
  let f3 :=
    if ssi && (!f.started || !f.posRel) then
      { f2 with trk := trkInit s a (signedN (ssiBits s a) word * 65536 + Cfg.FBPOSOFS s w), started := true, posRel := true }
    else if !f.started then { f2 with trk := trkInit s a (Cfg.FBPOSOFS s w), started := true }
    else trkMove s a f2 delta
  let motion := delta + dev * 65536
  -- An SSI axis starts TRK anew: what lies before counts on the new basis, and as unreliable.
  let prev := if ssi && !f.posRel then f.s1.map (fun p => { p with pos := f3.trk - delta, extrap := true }) else f.s1
  let accepted := match ic.2 with
    | .outside _ => false
    | _ => Cfg.FBCFG_IDXEN s w && r.idx
  let c := ccntOf sgn f.corr (rawIdx s a r)
  let f4 := { f3 with
    refIdx := if accepted && f.refCap.isSome && f.refIdx.isNone then
        some (f3.trk - signedN 32 (f3.ccnt + 2 ^ 32 - c) * 65536)
      else f.refIdx
    s2 := prev
    s1 := some { round := n, ccnt := f3.ccnt, fr := f3.fr, pos := f3.trk, extrap := false, delta := delta,
                 motion := motion, motionCnt := dCnt + dev } }
  let s1 := setCause a 0x20 false (modFb s a (fun _ => f4))
  let s2 := match ic.2 with
    | .basis => raiseAx a caIndexBasis s1
    | .corrected _ => raiseAx a caIndexCorr s1
    | .outside _ => faultAx a 0x21 (Cfg.FBREACT_C21 s w) s1
    | .nothing => s1
  fbTail a n prev dev (portCount a raw s2)

/-- The computation of feedback sample round n of axis a (R138). -/
def fbSample (a : Nat) (n : Word) (s : State) : State :=
  let rep := fbReport s a n
  let s0 := if Cfg.FBCFG_SRC s (axW a) = 2 ∧ Cfg.FBCFG_TYPE s (axW a) = 1 then
      modFb s a (fun f => { f with ssiUsed := ((ssiSample s a n).map (fun r => r.1)).orElse (fun _ => f.ssiUsed) })
    else s
  match rep with
  | none => fbExtrapolate a n s0
  | some r =>
    let f := (getAx s a).fb
    match fbJudge s a f r with
    | .good =>
      match fbRaw s a f r with
      | some (raw, fr) => fbGood a n r raw fr (hallCheck a rep s0)
      | none => fbExtrapolate a n s0
    | b => fbExtrapolate a n (fbBad a b r (hallCheck a rep s0))

/-- The axis position of a round without a feedback sample: linear from the last two samples, halves away from zero
(R144). -/
def fbEstimate (a : Nat) (n : Word) (s : State) : State :=
  modFb s a (fun f =>
    match f.s1, f.s2 with
    | some p, some q =>
      let d := if Cfg.FBCFG_MODEN s (axW a) then p.delta else p.pos - q.pos
      let den : Int := ((p.round - q.round).toNat : Int)
      let k : Int := ((n - p.round).toNat : Int)
      let x := if den = 0 then p.pos else roundAway (p.pos * den + d * k) den
      let m := Cfg.MODULO s (axW a)
      { f with pos := if Cfg.FBCFG_MODEN s (axW a) ∧ 0 < m then x % m else sat64 x, estim := true }
    | some p, none => { f with pos := p.pos, estim := true }
    | none, _ => { fbStart s a f with estim := true })

/-- Keep the axis position of sample round n (R86 reads up to 16 rounds back). -/
def fbKeep (a : Nat) (n : Word) (s : State) : State :=
  modFb s a (fun f => { f with hist := ((n, f.pos) :: f.hist).take 20 })

end Sys2Proof.Machine
end

