-- ==== Sys2Proof/Machine/Mover.lean ====
section
/-! DEFINITION. Tracks, movers and the states of groups (R190, R193 to R198): the parts of the group unit that every
computation of a segment axis needs. -/

namespace Sys2Proof.Machine

/-- The code of an axis state (R39). -/
def axStNum : AxState → Nat
  | .off => 0
  | .prestart => 1
  | .ready => 2
  | .run => 3
  | .park => 4
  | .qstop => 5
  | .fault => 6
  | .retired => 7

/-- State of axis a. -/
def axSt (s : State) (a : Nat) : AxState := (getAx s a).ctl.st

/-- The axis is in RUN or QSTOP. -/
def inMotionState (s : State) (a : Nat) : Bool := axSt s a = .run || axSt s a = .qstop

/-- Group g is a mover: type HANDOVER (R183). -/
def isMover (s : State) (g : Nat) : Bool := Cfg.GRCFG_TYPE s (grW g) = 3

/-- GRSTAT.STATE (R190): the state that all axes of the tree share, or 8, MIXED. A mover counts its members in RUN,
QSTOP or READY where there are any. -/
def groupState (s : State) (g : Nat) : Nat :=
  let l := treeAxes s (.group g)
  let act := l.filter (fun a => inMotionState s a || axSt s a = .ready)
  let l' := if isMover s g && !act.isEmpty then act else l
  match l' with
  | [] => 0
  | a :: t => if t.all (fun b => axSt s b = axSt s a) then axStNum (axSt s a) else 8

/-- A segment of a track: its axis, origin in fine counts and length in counts (R193). -/
structure Segment where
  axis : Nat
  org : Int
  len : Nat
  deriving DecidableEq, Repr

/-- Segment table entry i (R203). -/
def segmentOf (s : State) (i : Nat) : Segment :=
  ⟨Cfg.SEGAX_AXIS s (segW i), Cfg.SEGORG s (segW i), (Cfg.SEGLEN s (segW i)).toNat⟩

/-- The segments of track t in travel order. -/
def trackSegs (s : State) (t : Nat) : List Segment :=
  if Cfg.TRKCFG_EN s t then
    (List.range (Cfg.TRKCFG_COUNT s t)).map (fun i => segmentOf s (Cfg.TRKCFG_FIRST s t + i))
  else []

/-- The track of a mover. -/
def trackOf (s : State) (g : Nat) : Nat := Cfg.HOCFG_TRACK s (grW g)

/-- Length of a track in fine counts. -/
def trackLen (s : State) (t : Nat) : Int :=
  (trackSegs s t).foldl (fun acc x => acc + (x.len : Int) * 65536) 0

/-- Length of the loop a mover runs on; 0 on an open track. -/
def loopLen (s : State) (g : Nat) : Int := if Cfg.TRKCFG_LOOP s (trackOf s g) then trackLen s (trackOf s g) else 0

/-- The segment of axis a on the track of mover g. -/
def segOfAxis (s : State) (g a : Nat) : Segment :=
  ((trackSegs s (trackOf s g)).find? (fun x => x.axis = a)).getD ⟨a, 0, 0⟩

/-- The mover whose current member axis a is. -/
def moverOf (s : State) (a : Nat) : Option Nat :=
  if Cfg.CCFG_COMSRC s (axW a) = 2 then
    (List.range 128).find? (fun g => isMover s g && (curMembers s g).contains a)
  else none

/-- Overlap of [x, x + m) with a segment, fine counts, on an open track (R196). -/
def overlapOpen (x m : Int) (g : Segment) : Int :=
  max 0 (min (x + m) (g.org + g.len * 65536) - max x g.org)

/-- Overlap taken modulo the track length on a LOOP track (R194). -/
def overlapOf (loop x m : Int) (g : Segment) : Int :=
  if 0 < loop then
    let x' := x % loop
    overlapOpen (x' + loop) m g + overlapOpen x' m g + overlapOpen (x' - loop) m g
  else overlapOpen x m g

/-- Length of mover g in fine counts. -/
def moverLen (s : State) (g : Nat) : Int := ((Cfg.MLEN s (grW g)).toNat : Int) * 65536

/-- The feedback of axis a for sample round n, once per round: the set-point with SRC 3 (R134), a sample where one
is due, else the estimate of R144. -/
def feedbackFor (a : Nat) (n : Word) (s : State) : State :=
  if (getAx s a).fb.hist.head?.map Prod.fst = some n then s
  else if Cfg.FBCFG_SRC s (axW a) = 3 then
    fbKeep a n (modFb s a (fun f => { f with pos := (spEntry (getAx s a).prof n).p, posRel := true }))
  else fbKeep a n (if fbDue s a n then fbSample a n s else fbEstimate a n s)

/-- A number brought to within half a loop of a reference. -/
def nearTo (loop ref x : Int) : Int := if 0 < loop then ref + (x - ref + loop / 2) % loop - loop / 2 else x

/-- The rear edge x of mover g in the computation of sample round n (R194). -/
def rearEdge (s : State) (g : Nat) (n : Word) : Int :=
  let st := groupState s g
  if st = 3 ∨ st = 5 then (spEntry (getGr s g).prof n).p else (getGr s g).x

/-- The fused position X(n) of mover g (R197), once per sample round. How an inexact mean is rounded is left open (log
1). -/
def fuse (g : Nat) (n : Word) (s : State) : State :=
  if (getGr s g).fusedAt = some n then s
  else
    let ms := curMembers s g
    let s1 := forAll ms (fun a => feedbackFor a n) s
    let gr := getGr s1 g
    let loop := loopLen s g
    let reading := fun a => (segOfAxis s g a).org + (getAx s1 a).fb.pos
    let quals := ms.filterMap (fun a =>
      let f := (getAx s1 a).fb
      let at_ := if gr.fusedAt.isSome || groupState s g = 3 || groupState s g = 5 then rearEdge s g n else reading a
      let ov := overlapOf loop at_ (moverLen s g) (segOfAxis s g a)
      if f.posRel && (match f.s1 with | some x => !x.extrap | none => false) && decide (0 < ov) then some (reading a, ov)
      else none)
    match quals with
    | [] =>
      let nx := gr.x + (gr.x - gr.x1)
      let miss := incSat 3 gr.xMiss
      let s2 := modGr s1 g (fun r => { r with
        x := if 0 < loop then nx % loop else nx, x1 := gr.x, xMiss := miss, fusedAt := some n, xHist := ((n, nx) :: r.xHist).take 20
        posRel := r.posRel && decide (miss < 3), fcode := if miss = 3 ∧ gr.xMiss = 2 then 0x45 else r.fcode })
      if miss = 3 then
        forAll ms (fun a s =>
          let s := setCause a 0x45 true s
          if gr.xMiss = 2 then faultAx a 0x45 (Cfg.GRREACT_C45 s (grW g)) s else s) s2
      else s2
    | (r0, _) :: _ =>
      let w := quals.foldl (fun acc q => acc + q.2) 0
      let m := openDiv (quals.foldl (fun acc q => acc + nearTo loop r0 q.1 * q.2) 0) w
      let nx := if 0 < loop then m % loop else m
      let s2 := modGr s1 g (fun r => { r with x := nx, x1 := if gr.fusedAt.isSome then gr.x else nx, xMiss := 0
                                              fusedAt := some n, posRel := true
                                              xHist := ((n, nx) :: r.xHist).take 20 })
      forAll ms (fun a => setCause a 0x45 false) s2

/-- The current weights of R196: overlaps, weights, the lead, and fault 0x43 where no segment is usable. The mover is read as
computing while one of its members is in RUN or QSTOP (DEDUCED, log 21): s is 0 without such a member, and a fault that s = 0
raised in READY would let no mover ever reach RUN. -/
def weigh (g : Nat) (n : Word) (s : State) : State :=
  let ms := curMembers s g
  let x := rearEdge s g n
  let loop := loopLen s g
  let hwin : Int := ((Cfg.HWIN s (grW g)).toNat : Int) * 65536
  let ovs := ms.map (fun a => overlapOf loop x (moverLen s g) (segOfAxis s g a))
  let uses := List.zipWith (fun a (o : Int) => decide (hwin ≤ o) && inMotionState s a) ms ovs
  let sum := (List.zip uses ovs).foldl (fun acc u => if u.1 then acc + u.2 * u.2 else acc) 0
  let cs := List.zipWith (fun (u : Bool) (o : Int) =>
    if u && decide (sum ≠ 0) then fDiv (fOfInt (o * moverLen s g)) (fOfInt sum) else (0 : F32)) uses ovs
  let lead := (List.range ms.length).foldl (fun best i => if nth 0 ovs best < nth 0 ovs i then i else best) 0
  let none_ := decide (sum = 0)
  let was := (getGr s g).noThrust
  let s1 := modGr s g (fun r => { r with weights := cs, overlaps := ovs.map Int.toNat, weighed := ms, leadMem := lead, noThrust := none_ })
  let live := ms.any (inMotionState s)
  if none_ && live then
    let s2 := modGr s1 g (fun r => { r with fcode := 0x43 })
    forAll ms (fun a s => faultAx a 0x43 (Cfg.GRREACT_C43 s (grW g)) (setCause a 0x43 true s)) s2
  else if was then forAll ms (fun a => setCause a 0x43 false) s1
  else s1

/-- What the group unit does for mover g before its members compute on sample round n: the weights at T0, then the fused
position, with the overlaps of the same rear edge (R196, R197). -/
def moverRound (g : Nat) (n : Word) (s : State) : State :=
  if (getGr s g).fusedAt = some n then s else fuse g n (weigh g n s)

/-- Place of axis a among the members. -/
def memberIdx (s : State) (g a : Nat) : Nat := (curMembers s g).findIdx (fun b => b = a)

/-- The lead of mover g: its axis (R198). -/
def leadAxis (s : State) (g : Nat) : Nat := nth 0 (getGr s g).weighed (getGr s g).leadMem

/-- The angle of a segment axis on mover g (R198). -/
def moverAngle (s : State) (g a angofs : Nat) : Nat :=
  let seg := segOfAxis s g a
  let d := wrapInt 64 ((getGr s g).x - seg.org)
  (angofs + intMod 16 ((d * ((Cfg.EPC s (axW a)).toNat : Int)).fdiv (2 ^ 32))) % 65536

/-- The mover's totals of the previous round, taken at T0 (R198). -/
def moverTotals (g : Nat) (s : State) : State :=
  let gr := getGr s g
  let ms := gr.weighed
  let m := fOfInt (moverLen s g)
  let part := fun (f : AxPred → F32) => (List.zip ms gr.overlaps).foldl (fun acc q =>
    fAdd acc (fMul (fDiv (fOfInt q.2) m) (f (getAx s q.1).pred))) (0 : F32)
  let pdc := ms.foldl (fun acc a => fAdd acc (getAx s a).pred.pdc) (0 : F32)
  modGr s g (fun r => { r with totId := part AxPred.id, totIq := part AxPred.iq, totPdc := pdc
                               cells := r.cellsNew.getD r.cells, cellsNew := none })

end Sys2Proof.Machine
end

