-- ==== Sys2Proof/Machine/Pred.lean ====
section
/-! DEFINITION. Central current control (R57 to R80): the angle, the predictive controller, the duty words and their
post-processing, and the coil control of stepper axes. FP32 is rounded after every elementary operation in the order
of the rules' formulas (DEDUCED, notes/assumptions/8.md). -/

namespace Sys2Proof.Machine

/-! ### Constants -/

/-- √3. -/
def kSqrt3 : F32 := 0x3fddb3d7#32
/-- √3/2. -/
def kHalfSqrt3 : F32 := 0x3f5db3d7#32
/-- T = 7.8125 µs (R61). -/
def kT : F32 := 0x3703126f#32
/-- 2π/(65,536 × T): angle units per round to rad/s (R70). -/
def kOmega : F32 := 0x4144597c#32
/-- 0.5. -/
def kHalf : F32 := 0x3F000000#32
/-- 2.0. -/
def kTwo : F32 := 0x40000000#32
/-- 65,536. -/
def k65536 : F32 := 0x47800000#32

/-- A vector in the dq or αβ plane. -/
structure Vec where
  x : F32
  y : F32
  deriving DecidableEq, Repr

/-- The zero vector. -/
def vZero : Vec := ⟨0, 0⟩

/-- Clarke transform of R60: i_α = i_a, i_β = (i_a + 2·i_b)/√3. -/
def clarke (ia ib : F32) : Vec := ⟨ia, fDiv (fAdd ia (fMul kTwo ib)) kSqrt3⟩

/-- Park transform of R60 at an angle in angle units. -/
def park (v : Vec) (th : F32) : Vec :=
  let c := fCos th
  let s := fSin th
  ⟨fAdd (fMul v.x c) (fMul v.y s), fAdd (fMul (fNeg v.x) s) (fMul v.y c)⟩

/-- Inverse Park transform. -/
def invPark (v : Vec) (th : F32) : Vec :=
  let c := fCos th
  let s := fSin th
  ⟨fSub (fMul v.x c) (fMul v.y s), fAdd (fMul v.x s) (fMul v.y c)⟩

/-- Phase values of an αβ vector (R60). -/
def phases (v : Vec) : F32 × F32 × F32 :=
  let h := fDiv (fNeg v.x) kTwo
  let q := fMul kHalfSqrt3 v.y
  (v.x, fAdd h q, fSub h q)

/-! ### The angle (R67 to R70) -/

/-- ANGOFS of the active bank (R82). -/
def angOfs (s : State) (a : Nat) : Nat := bits (coef s a 0 5) 15 0

/-- The counter angle of R67. -/
def counterAngle (angofs cnt base epc : Nat) : Nat :=
  (angofs + ((((cnt + 2 ^ 32 - base % 2 ^ 32) % 2 ^ 32) * epc) >>> 16) % 65536) % 65536

/-- Sector boundary offset round(k × 65,536/6) (R69). -/
def sectorOfs (k : Nat) : Nat :=
  match k % 6 with
  | 0 => 0
  | 1 => 10923
  | 2 => 21845
  | 3 => 32768
  | 4 => 43691
  | _ => 54613

/-- B_k of R69. -/
def sectorB (angofs k : Nat) : Nat := (angofs + sectorOfs k) % 65536

/-- Core clocks from edge e to T0 of round n. -/
def sinceEdge (n : Word) (e : HallEdge) : Int := (n - e.round).toInt * 3125 - e.ofs

/-- The Hall angle of R69 in sector k with the edges kept, newest first: the angle and whether it is interpolated. -/
def hallAngle (angofs htmax k : Nat) (n : Word) (es : List HallEdge) : Nat × Bool :=
  match es with
  | e1 :: e0 :: _ =>
    let gap := sinceEdge n e0 - sinceEdge n e1
    if e1.dir = e0.dir ∧ e1.dir ≠ 0 ∧ 0 < gap ∧ gap ≤ (htmax * 400000 : Nat) then
      let off := truncDiv (10923 * sinceEdge n e1) gap
      let width : Int := ((sectorOfs (k + 1) + 65536 - sectorOfs k) % 65536 : Nat)
      let off' := clampInt 0 (width - 1) off
      if 0 < e1.dir then (intMod 16 (sectorB angofs k + off'), true)
      else (intMod 16 (sectorB angofs (k + 1) - off'), true)
    else ((sectorB angofs k + 5461) % 65536, false)
  | _ => ((sectorB angofs k + 5461) % 65536, false)

/-- An axis with COMSRC 0 and incremental feedback commutates from Hall sectors up to the computation that takes its first
index, and shows IDXWAIT (R68). -/
def waitsIndex (s : State) (a : Nat) : Bool :=
  Cfg.CCFG_COMSRC s (axW a) = 0 && Cfg.CCFG_HALLAID s (axW a) && incremental s a && (getAx s a).pred.hallWait

/-- Hall commutation is in use: COMSRC 1, or HALLAID up to the computation that takes the first index (R67, R68). -/
def hallCommut (s : State) (a : Nat) : Bool := Cfg.CCFG_COMSRC s (axW a) = 1 || waitsIndex s a

/-- Take the Hall state and timestamp of an FUP (R69): an edge where the sector changed to a neighbour; any other
change of sector leaves no edge to interpolate from, and neither does a test step's report, which carries no HTS (R218). -/
def takeHall (s : State) (a : Nat) (n : Word) (fup : List Byte) (p : AxPred) : AxPred :=
  let h := (beNat fup 6 2 >>> 5) % 8
  let hts := beNat fup 14 2 >>> 2
  let test := (beNat fup 6 2).testBit 13
  match hallSector s a p.hall, hallSector s a h with
  | some k0, some k1 =>
    match hallMove k0 k1 with
    | some 0 => { p with hall := h }
    | some d => if test then { p with hall := h, edges := [] } else { p with hall := h, edges := ({ round := n, ofs := -(4 * hts : Nat), dir := d, sec := k1 } :: p.edges).take 2 }
    | none => { p with hall := h, edges := [] }
  | none, some _ => { p with hall := h, edges := [] }
  | _, none => p

/-- θ(n) and whether it was formed from Hall interpolation, from a valid sample (R67 to R69, R78). gth is the angle the
group unit supplies (R195). In a loop round without a feedback sample the counter of the last sample stands, without
extrapolation: the spec gives no counter there (DESIGN CHOICE, log 27). -/
def formAngle (s : State) (a : Nat) (n : Word) (sp : Int) (gth : Nat) (hallOk : Bool) (p : AxPred) : Nat × Bool × Nat :=
  let w := axW a
  let f := (getAx s a).fb
  let ang := angOfs s a
  if Cfg.CCFG_COMSRC s w = 2 then (gth, false, 7)
  else if Cfg.CCFG_COMSRC s w = 3 then
    ((ang + intMod 16 ((sp * ((Cfg.EPC s w).toNat : Int)).fdiv (2 ^ 32))) % 65536, false, 7)
  else if hallCommut s a then
    match hallSector s a p.hall with
    | some k =>
      if hallOk then
        let r := hallAngle ang (bits (cfgReg s (w + 0x208)) 25 18) k n p.edges
        (r.1, r.2, k)
      else (p.theta, p.hallInt, k)
    | none => (p.theta, p.hallInt, 7)
  else (counterAngle ang f.ccnt (f.cntBase.getD 0) (Cfg.EPC s w).toNat, false, 7)

/-- θ of sample round r, where it was formed. -/
def thetaAt (p : AxPred) (r : Word) : Option Nat := (p.thetas.find? (fun x => x.1 = r)).map Prod.snd

/-- The output of the axis's OBS cell (R70). -/
def obsOut (s : State) (a : Nat) : F32 :=
  match (List.range 16).find? (fun k => cellType s a k = 9) with
  | some k => (getCell (getAx s a) k).o0
  | none => 0

/-- ω_r in angle units per round as FP32, and ω in rad/s (R70). -/
def speedOf (s : State) (a per : Nat) (n : Word) (th : Nat) (p : AxPred) : F32 × F32 :=
  if Cfg.CCFG_WSRC s (axW a) then
    let w := obsOut s a
    (fDiv w kOmega, w)
  else
    match thetaAt p (n - BitVec.ofNat 32 per) with
    | some t0 =>
      let r := fDiv (fOfInt (signedN 16 (th + 65536 - t0))) (fOfInt per)
      (r, fMul r kOmega)
    | none => (0, 0)

/-- ω_r as DTHETA shows it (R81). -/
def dthetaOf (s : State) (a per : Nat) (n : Word) (th : Nat) (wr : F32) (p : AxPred) : Int :=
  if Cfg.CCFG_WSRC s (axW a) then wrapInt 16 (openFloat wr)
  else
    match thetaAt p (n - BitVec.ofNat 32 per) with
    | some t0 => openDiv (signedN 16 (th + 65536 - t0)) per
    | none => 0

/-! ### The model and the controller (R61 to R65) -/

/-- Coefficients of R82 for SERVO3. -/
structure PredCoef where
  rs : F32
  ld : F32
  lq : F32
  psi : F32
  alpha : F32
  deriving DecidableEq, Repr

/-- The PRED block of the active bank. -/
def predCoef (s : State) (a : Nat) : PredCoef :=
  ⟨coef s a 0 0, coef s a 0 1, coef s a 0 2, coef s a 0 3, coef s a 0 4⟩

/-- step(i, v, w) of R61; the q step reads the d current just stepped, as the procedure is written. -/
def modelStep (c : PredCoef) (w : F32) (v i : Vec) : Vec :=
  let d := fAdd i.x (fMul (fDiv kT c.ld) (fAdd (fSub v.x (fMul c.rs i.x)) (fMul (fMul w c.lq) i.y)))
  let q := fAdd i.y (fMul (fDiv kT c.lq)
    (fSub (fSub (fSub v.y (fMul c.rs i.y)) (fMul (fMul w c.ld) d)) (fMul w c.psi)))
  ⟨d, q⟩

/-- What applied in round r: none while the gates were off (R65). -/
def appliedAt (p : AxPred) (r : Word) : Option Vec :=
  match p.hist.find? (fun h => h.round = r) with
  | some h => if h.off then none else some ⟨h.va, h.vb⟩
  | none => none

/-- The current stepped through k rounds from round r0, with the angle th0 at r0 (R61, R64). -/
def stepRounds (c : PredCoef) (w wr : F32) (p : AxPred) (r0 : Word) (th0 : Nat) (k : Nat) (i : Vec) : Vec :=
  (List.range k).foldl (fun i j =>
    match appliedAt p (r0 + BitVec.ofNat 32 j) with
    | none => vZero
    | some vab =>
      let th := fAdd (fOfInt th0) (fMul wr (fAdd (fOfInt j) kHalf))
      modelStep c w (park vab th) i) i

/-- R62: the limited current set-point and whether the limit acted. -/
def limitCurrent (imax id iq : F32) : Vec × Bool :=
  let d := fClamp id (fNeg imax) imax
  let q0 := fSqrt (fSub (fMul imax imax) (fMul d d))
  let q := fClamp iq (fNeg q0) q0
  (⟨d, q⟩, !(fEq d id && fEq q iq))

/-- Tc in 2.5 ns steps: the span that one word governs, C rounds, or C/2 when P = C/2 (R73, R75), with the period in
force (R77). -/
def wordSpan (s : State) (a : Nat) : Nat :=
  let c := 2 ^ Cfg.CCFG_CARRIER s (axW a)
  let p := loopPeriod s a
  3125 * (if 2 * p = c then p else c)

/-- d_ref of R75. -/
def dRef (tc tref dt : Nat) : Int := (65536 * ((tc : Int) - tref - 2 * dt)).fdiv tc

/-- d_max of R63. -/
def dMax (s : State) (a : Nat) : Int :=
  let w := axW a
  if Cfg.CCFG_BSEN s w && Cfg.BSCFG_K s w = 1 then
    dRef (wordSpan s a) (Cfg.BSCFG_TREF s w) (bits (cfgReg s (w + 0x20C)) 7 0)
  else 65536

/-- The spread of an αβ vector (R63). -/
def spread (v : Vec) : F32 :=
  let p := phases v
  fMax (fMax (fAbs (fSub p.1 p.2.1)) (fAbs (fSub p.2.1 p.2.2))) (fAbs (fSub p.2.2 p.1))

/-- Largest t in [0, 1] that keeps x + t·y within ±S. -/
def lineScale (sp x y : F32) : F32 :=
  if fLt 0 y then fClamp (fDiv (fSub sp x) y) 0 fOne
  else if fLt y 0 then fClamp (fDiv (fAdd sp x) (fNeg y)) 0 fOne
  else fOne

/-- R63: v_dq limited to the span at the angle th, and whether the limit acted. -/
def limitSpan (prio : Bool) (sp : F32) (v : Vec) (th : F32) : Vec × Bool :=
  let full := spread (invPark v th)
  if fLe full sp then (v, false)
  else if fLe sp 0 then (vZero, true)
  else if !prio then
    let f := fDiv sp full
    (⟨fMul v.x f, fMul v.y f⟩, true)
  else
    let dOnly := spread (invPark ⟨v.x, 0⟩ th)
    if fLt sp dOnly then (⟨fMul v.x (fDiv sp dOnly), 0⟩, true)
    else
      let pd := phases (invPark ⟨v.x, 0⟩ th)
      let pq := phases (invPark ⟨0, v.y⟩ th)
      let t := fMin (fMin (lineScale sp (fSub pd.1 pd.2.1) (fSub pq.1 pq.2.1))
        (lineScale sp (fSub pd.2.1 pd.2.2) (fSub pq.2.1 pq.2.2)))
        (lineScale sp (fSub pd.2.2 pd.1) (fSub pq.2.2 pq.1))
      (⟨v.x, fMul v.y t⟩, true)

/-! ### Duty words (R72 to R76) -/

/-- A duty limited to 0 to 65,535. -/
def clampDuty (x : Int) : Nat := (clampInt 0 65535 x).toNat

/-- R72: the duty of a phase. -/
def dutyOf (udc voff v : F32) (dmax : Int) : Option Nat :=
  let base := fDiv (fOfInt dmax) 0x48000000#32
  let u := if fLe udc 0 then base else fAdd (fDiv (fSub v voff) udc) base
  (fRoundHalfUp (fMul u k65536)).map clampDuty

/-- R73: the word after dead-time and propagation compensation. -/
def deadTime (dt : Nat) (tpdiff : Int) (tc : Nat) (band i : F32) (d : Nat) : Nat :=
  let sx := fClamp (fDiv i band) (fNeg fOne) fOne
  let c := fDiv (fMul (fAdd (fMul sx (fOfInt dt)) (fOfInt tpdiff)) k65536) (fOfInt tc)
  match fRoundHalfUp (fAdd (fOfInt d) c) with
  | some x => clampDuty x
  | none => d

/-- ton × 65,536 of a word: 0xFFFF is the whole span (R75). -/
def ton65536 (tc d : Nat) : Nat := if d = 0xFFFF then tc * 65536 else tc * d

/-- tlow(d) ≥ x, in steps (R75). -/
def tlowAtLeast (tc dt d x : Nat) : Bool :=
  let t := tc * 65536 - ton65536 tc d - 2 * dt * 65536
  x * 65536 ≤ t

/-- R74: minimum pulse. -/
def minPulse (tc tminp d : Nat) : Nat :=
  let ton := ton65536 tc d
  let tmin := tminp * 65536
  let toff := tc * 65536 - ton
  if ton < tmin then
    (if 2 * ton < tmin then 0 else min 65535 ((tmin + tc - 1) / tc))
  else if toff < tmin then
    (if 2 * toff < tmin then 0xFFFF else (tc * 65536 - tmin) / tc)
  else d

/-- The bootstrap rule of R75 on three words: words, counts, and whether a refresh was shifted in. -/
def bootstrap (tc tref dt k m bsuv : Nat) (ds cnts : List Nat) : List Nat × Bool :=
  let dr := dRef tc tref dt
  let shift := (List.range 3).foldl (fun sh x =>
    let d := nth 0 ds x
    if !tlowAtLeast tc dt d tref ∧ (bsuv.testBit x ∨ k ≤ nth 0 cnts x + m) then max sh ((d : Int) - dr) else sh) 0
  if 0 < shift then (ds.map (fun (d : Nat) => ((d : Int) - shift).toNat), true) else (ds, false)

/-- The counts of R75 after the final words. -/
def bsCounts (tc tref dt m : Nat) (ds cnts : List Nat) : List Nat :=
  (List.range 3).map (fun x => if tlowAtLeast tc dt (nth 0 ds x) tref then 0 else nth 0 cnts x + m)

/-- R76: the applied voltage from the final words and the surviving compensation. -/
def reconstruct (udc : F32) (ds : List Nat) (dcs : List Int) : Vec :=
  let v := fun x =>
    let d := nth 0 ds x
    let e : Int := (if d = 0xFFFF then 65536 else (d : Int)) - nth 0 dcs x
    if fLe udc 0 then (0 : F32) else fDiv (fMul udc (fOfInt e)) k65536
  ⟨fDiv (fSub (fSub (fMul kTwo (v 0)) (v 1)) (v 2)) 0x40400000#32, fDiv (fSub (v 1) (v 2)) kSqrt3⟩

/-- What one PRED computation on a SERVO3 axis asks for. -/
structure PredOut where
  idq : Vec
  v : Vec
  vab : Vec
  mid : Vec
  thMid : F32
  vlim : Bool
  ilim : Bool
  deriving DecidableEq, Repr

/-- The controller of R61 from the current at n. -/
def controller (s : State) (a per : Nat) (n : Word) (th : Nat) (wr w udc idr iqr : F32) (i0 : Vec) (p : AxPred) : PredOut :=
  let c := predCoef s a
  let d := applyDelay s
  let i := stepRounds c w wr p n th d i0
  let lim := limitCurrent (Cfg.IMAX s (axW a)) idr iqr
  let tgt : Vec := ⟨fAdd i.x (fMul c.alpha (fSub lim.1.x i.x)), fAdd i.y (fMul c.alpha (fSub lim.1.y i.y))⟩
  let m : Vec := ⟨fDiv (fAdd i.x tgt.x) kTwo, fDiv (fAdd i.y tgt.y) kTwo⟩
  let pt := fMul (fOfInt per) kT
  let vd := fSub (fAdd (fMul c.rs m.x) (fDiv (fMul c.ld (fSub tgt.x i.x)) pt)) (fMul (fMul w c.lq) m.y)
  let vq := fAdd (fAdd (fAdd (fMul c.rs m.y) (fDiv (fMul c.lq (fSub tgt.y i.y)) pt)) (fMul (fMul w c.ld) m.x)) (fMul w c.psi)
  let thm := fAdd (fOfInt th) (fMul wr (fAdd (fOfInt d) (fDiv (fOfInt per) kTwo)))
  let sp := if fLe udc 0 then (0 : F32) else fDiv (fMul udc (fOfInt (dMax s a))) k65536
  let l := limitSpan (Cfg.CCFG_VPRIO s (axW a)) sp ⟨vd, vq⟩ thm
  -- A non-positive Udc sets VLIM whatever the vector (R63).
  { idq := i0, v := l.1, vab := invPark l.1 thm, mid := m, thMid := thm, vlim := l.2 || fLe udc 0, ilim := lim.2 }

/-- The words of R72 to R76 for what the controller asks: final words, surviving compensation, BSINJ and the counts. -/
structure DutyOut where
  ds : List Nat
  dcs : List Int
  inj : Bool
  cnts : List Nat
  vab : Vec
  deriving DecidableEq, Repr

/-- Duty post-processing in the order of R76; none where a duty is not finite. -/
def dutyWords (s : State) (a per bsuv : Nat) (udc : F32) (o : PredOut) (cnts : List Nat) : Option DutyOut :=
  let w := axW a
  let pv := phases o.vab
  let voff := fDiv (fAdd (fMax (fMax pv.1 pv.2.1) pv.2.2) (fMin (fMin pv.1 pv.2.1) pv.2.2)) kTwo
  let dm := dMax s a
  let tc := wordSpan s a
  let dt := bits (cfgReg s (w + 0x20C)) 7 0
  let tp := sbits (cfgReg s (w + 0x20C)) 15 8
  let tminp := bits (cfgReg s (w + 0x20C)) 23 16
  let ip := phases (invPark o.mid o.thMid)
  let band := Cfg.IDTBAND s w
  match dutyOf udc voff pv.1 dm, dutyOf udc voff pv.2.1 dm, dutyOf udc voff pv.2.2 dm with
  | some da, some db, some dc =>
    let raw := [da, db, dc]
    let comp := [deadTime dt tp tc band ip.1 da, deadTime dt tp tc band ip.2.1 db, deadTime dt tp tc band ip.2.2 dc]
    let dcs : List Int := List.zipWith (fun (x y : Nat) => (x : Int) - y) comp raw
    let tref := Cfg.BSCFG_TREF s w
    let c := 2 ^ Cfg.CCFG_CARRIER s w
    let m := if c ≤ per then per / c else 1
    let bs := if Cfg.CCFG_BSEN s w then bootstrap tc tref dt (Cfg.BSCFG_K s w) m bsuv comp cnts else (comp, false)
    let fin := bs.1.map (minPulse tc tminp)
    some { ds := fin, dcs := dcs, inj := bs.2,
           cnts := if Cfg.CCFG_BSEN s w then bsCounts tc tref dt m fin cnts else cnts, vab := reconstruct udc fin dcs }
  | _, _, _ => none

/-! ### Stepper axes (R78 to R80) -/

/-- Sign of an FP32 value as −1, 0 or 1. -/
def fSgn (x : F32) : F32 := if fLt 0 x then fOne else if fLt x 0 then fNeg fOne else 0

/-- One coil of R80: new offset, the command and the word, and whether the word was clamped. -/
def coil (ipl koff offmax iminad iset iavg off : F32) (sat hold : Bool) : F32 × Nat × Bool :=
  let sg := fSgn iset
  let off' :=
    if !hold && !sat && fLe iminad (fAbs iset) then
      let e := fSub (fAbs iset) (fMul sg iavg)
      fClamp (fAdd off (fMul koff e)) (fNeg offmax) offmax
    else off
  let cmd := fAdd iset (fMul sg off')
  match fRoundAwayScaled 0 (fDiv cmd ipl) with
  | some r =>
    let x := clampInt (-32768) 32767 r
    (off', intMod 16 x, decide (r ≠ x))
  | none => (off', 0, false)

/-! ### States in which duty words leave (R59) -/

/-- The gates may be on: RUN, QSTOP, and PARK until the brake is reported applied. -/
def gatesOn (c : AxCtl) : Bool := c.st = .run || c.st = .qstop || (c.st = .park && c.wait = .brakePark)

end Sys2Proof.Machine
end

