-- ==== Sys2Proof/Machine/PowerStage.lean ====
section
/-! DEFINITION. The power stage of an axis (R113 to R122): short and bootstrap reports, pre-start and diagnostic
steps, retries; and the head-wide DC-link unit (R123 to R130). -/

namespace Sys2Proof.Machine

/-! ### Gates on and off (R114, R117) -/

/-- Rounds before round n in which the gates were `on` (or off) without interruption, up to a cap. -/
def gateRun (p : AxPred) (on : Bool) (n : Word) (cap : Nat) : Nat :=
  match p.gateLog.find? (fun x => !later x.1 (n - 1)) with
  | some (r, b) => if b = on then min cap (n - r).toNat else 0
  | none => if on then 0 else cap

/-- Record that the gates are on or off from a round on. -/
def gateNote (r : Word) (on : Bool) (p : AxPred) : AxPred :=
  match p.gateLog with
  | [] => if on then { p with gateLog := [(r, on)] } else p
  | (_, b) :: _ => if b = on then p else { p with gateLog := ((r, on) :: p.gateLog).take 64 }

/-! ### Test steps (R118, R119) -/

/-- A test step: code, operands t and u. -/
structure TestStep where
  code : Nat
  t : Nat
  u : Nat
  deriving DecidableEq, Repr

/-- Step k of the sequence of a kind (R119); none beyond the last. -/
def testStep (kind k : Nat) : Option TestStep :=
  if kind = 1 then
    match k with
    | 1 => some ⟨1, 0, 0⟩
    | 2 => some ⟨2, 0, 0⟩
    | 3 => some ⟨3, 0, 1⟩
    | 4 => some ⟨3, 1, 2⟩
    | 5 => some ⟨3, 2, 0⟩
    | _ => none
  else if kind = 2 then
    match k with
    | 1 => some ⟨1, 0, 0⟩
    | 2 => some ⟨2, 0, 0⟩
    | 3 => some ⟨1, 2, 0⟩
    | 4 => some ⟨2, 2, 0⟩
    | 5 => some ⟨3, 0, 1⟩
    | 6 => some ⟨3, 2, 3⟩
    | _ => none
  else none

/-- TCODE, TOPT and TOPU in the FDN flags (R219); CLRTRIP goes with the first step (R114, R116), in every word that carries it
(log 12). -/
def testFlags (kind : Nat) (g : AxStage) : Nat :=
  if g.seq = .idle ∨ g.paused then 0
  else
    match testStep kind g.step with
    | some x => (if g.step = 1 then 0x4000 else 0) + x.code * 64 + x.t * 16 + x.u * 4
    | none => 0

/-- Start a sequence from its first step (R119). -/
def startSeq (k : SeqKind) (g : AxStage) : AxStage :=
  { g with seq := k, step := 1, sendStep := true, opens := [], paused := false }

/-- Enable detectors and their availability (R123, R127). -/
def anaAvail (s : State) : Bool := Cfg.PSOVCFG_ANAEN s && !s.ps.anaFail
/-- The DCSDI detector is available: enabled, its input in use, and no failed self-test (R127). -/
def sdiAvail (s : State) : Bool :=
  Cfg.PSOVCFG_SDIEN s && !s.ps.sdiFail && (getRet s clsSdi (Cfg.PSOVCFG_DCSDI s)).st = .inUse

/-- Axes of PSOVAX (R133). -/
def ovAxes (s : State) : List Nat :=
  (List.range 128).filter (fun a => bit (Cfg.PSOVAX_AXES s (a / 32)) (a % 32))

/-- R127: with no enabled detector available every PSOVAX axis takes fault 0x18, whose cause persists until one is. -/
def checkDetection (s : State) : State :=
  let gone := !(anaAvail s || sdiAvail s)
  let s1 := { s with ps := { s.ps with lost := gone } }
  if gone && !s.ps.lost then
    forAll (ovAxes s1) (fun a s => faultAx a 0x18 3 (setCause a 0x18 true s)) s1
  else if !gone && s.ps.lost then forAll (ovAxes s1) (fun a => setCause a 0x18 false) s1
  else s1

/-! ### The end of a sequence (R114, R115, R120) -/

/-- Result codes of R120. -/
def resPASS : Nat := 0
def resDCP : Nat := 1
def resDCN : Nat := 2
def resPHPH : Nat := 3
def resOPEN : Nat := 4
def resUDC : Nat := 5
def resNORESP : Nat := 6

/-- The fault of a result: its code and class (R120, R122). -/
def resFault (res : Nat) : Option (Nat × Nat) :=
  if res = 0 then none
  else if res ≤ 3 then some (0x14, 4)
  else if res = 4 then some (0x15, 3)
  else some (0x16, 3)

/-- After a diagnostic run that found no short: the retry of R114. -/
def diagRetry (a : Nat) (s : State) : State :=
  match (getAx s a).stage.diagThen with
  | .retry => modStage s a (fun g => { g with retryReady := true })
  | .transientRetry =>
    let s1 := transient clsStage a s
    if (getRet s1 clsStage a).st = .backoff then modStage s1 a (fun g => { g with retryAtEnd := true }) else s1

/-- A pre-start sequence or diagnostic run ends with a result and its PHASE (R120). -/
def seqEnd (a res phase : Nat) (s : State) : State :=
  let k := (getAx s a).stage.seq
  let s1 := raiseAx a caPrestart (modStage s a (fun g =>
    { g with seq := .idle, step := 0, sendStep := false, result := res, phase := phase }))
  let s2 := match resFault res with
    | some (code, cls) => faultAx a code cls s1
    | none => if k = .prestart then modCtl s1 a (fun c => { c with st := .ready }) else s1
  if k = .diag ∧ (res = 0 ∨ 4 ≤ res) then diagRetry a s2 else s2

/-- Put the flags of the step in force into the words staged by a computation of round m, if they have not left. -/
def patchStaged (_a kind : Nat) (lat3 : Bool) (m : Word) (x : Axis) : Axis :=
  match x.pred.staged with
  | some st =>
    if st.leave = (if lat3 then m + 1 else m) ∧ x.stage.sendStep then
      let flg := beNat st.payload 6 2
      let flg' := flg / 256 * 256 % 0x4000 + (if flg.testBit 15 then 0x8000 else 0)
        + testFlags kind x.stage
      { x with
        pred := { x.pred with staged := some { st with payload := st.payload.take 6 ++ beBytes 2 flg' ++ st.payload.drop 8 } }
        stage := { x.stage with sendStep := false, applyAt := m - 1 + (if lat3 then 3 else 2) } }
    else x
  | none => x

/-- The evaluation of the step in progress on FUP payload b (R119, R120): the result that ends the sequence now, with
its PHASE; none to go on. -/
def judgeStep (s : State) (a : Nat) (st : TestStep) (b : List Byte) : Option (Nat × Nat) :=
  let w := axW a
  match axisNode s a with
  | none => none
  | some (nd, _) =>
    let upl := Cfg.UPL s (ndW nd)
    let udc := fMul (fOfInt (signedN 16 (beNat b 4 2))) upl
    let volt := fun o => fMul (fOfInt (signedN 16 (beNat b o 2))) upl
    let vs := if kindOf s a = 1 then [volt 0, volt 2, volt 12] else [volt 0, volt 2]
    if fLt udc (Cfg.UDCMIN s w) then some (resUDC, 7)
    else if st.code = 2 ∧ vs.any (fun v => fLt (fMul 0x3F400000#32 udc) v) then some (resDCP, st.t)
    else if st.code = 1 ∧ vs.any (fun v => fLt v (fMul 0x3E800000#32 udc)) then some (resDCN, st.t)
    else if st.code = 3 then
      let r := fDiv (fMul (fOfInt (signedN 16 (beNat b 0 2))) (Cfg.TVPL s (ndW nd))) (Cfg.ITEST s (ndW nd))
      if fLt r (Cfg.RMIN s w) then some (resPHPH, st.t) else none
    else none

/-- R of a RES step (R119). -/
def stepR (s : State) (a : Nat) (b : List Byte) : F32 :=
  match axisNode s a with
  | none => 0
  | some (nd, _) =>
    fDiv (fMul (fOfInt (signedN 16 (beNat b 0 2))) (Cfg.TVPL s (ndW nd))) (Cfg.ITEST s (ndW nd))

/-- PHASE of an OPEN result from the steps that were open (R120). -/
def openPhase (kind : Nat) (l : List Nat) : Nat :=
  if kind = 1 then
    if l = [3, 4] then 1 else if l = [4, 5] then 2 else if l = [3, 5] then 0 else 7
  else if l = [5] then 0 else if l = [6] then 1 else 7

/-- The echo of a test step in an FUP (R218). -/
def echoOk (st : TestStep) (b : List Byte) : Bool :=
  let flg := beNat b 6 2
  let htw := beNat b 14 2
  flg.testBit 13 && htw >>> 14 = st.code && (htw >>> 12) % 4 = st.t && (htw >>> 10) % 4 = st.u

/-- The sample round whose computation runs now. -/
def sampleNow (s : State) : Word := s.sys.round - 1

/-- The step in progress may be evaluated on the present sample round: it applies, and TSETTLE rounds have passed. -/
def evalDue (s : State) (a : Nat) : Bool :=
  let g := (getAx s a).stage
  let n := sampleNow s
  g.seq ≠ .idle && !g.paused && !g.sendStep && loopDue s a n
    && !later (g.applyAt + BitVec.ofNat 32 (Cfg.PSCFG_TSETTLE s (axW a))) n

/-- Evaluate the step in progress and send the next one, or end the sequence (R119, R120). Without a matching echo
nothing is evaluated. -/
def testEvaluate (a : Nat) (s : State) : State :=
  let g := (getAx s a).stage
  let n := sampleNow s
  if !evalDue s a then s
  else
    match testStep (kindOf s a) g.step, (getIn s a n).fup with
    | some st, some b =>
      if !echoOk st b then s
      else
        let r := stepR s a b
        let s1 := if st.code = 3 then modStage s a (fun g => { g with
              rMeas := r
              opens := if fLt (Cfg.RMAX s (axW a)) r then g.opens ++ [g.step] else g.opens }) else s
        match judgeStep s a st b with
        | some (res, ph) => seqEnd a res ph s1
        | none =>
          match testStep (kindOf s a) (g.step + 1) with
          | some _ =>
            modAx (modStage s1 a (fun g => { g with step := g.step + 1, sendStep := true })) a
              (patchStaged a (kindOf s a) (Cfg.RNDCFG_LAT3 s) s.sys.round)
          | none =>
            let os := (getAx s1 a).stage.opens
            if os.isEmpty then seqEnd a resPASS 7 s1 else seqEnd a resOPEN (openPhase (kindOf s a) os) s1
    | _, _ => s

/-- TEST_STEP_EVALUATION (R119). -/
def execTestStepEvaluation (a : Nat) (s : State) : Host.Outcome State Fault Refusal := .next (testEvaluate a s)

/-- The echo has been missing at the evaluation and for 4 further sample rounds (R120). -/
def noEchoNow (s : State) (a : Nat) : Bool :=
  let g := (getAx s a).stage
  let n := sampleNow s
  let due := g.applyAt + BitVec.ofNat 32 (Cfg.PSCFG_TSETTLE s (axW a))
  evalDue s a && decide (4 * loopPeriod s a ≤ (n - due).toNat) &&
    (match testStep (kindOf s a) g.step, (getIn s a n).fup with
     | some st, some b => !echoOk st b
     | _, _ => true)

/-- NO_RESPONSE (R120). -/
def execNoResponse (a : Nat) (s : State) : Host.Outcome State Fault Refusal :=
  .next (if noEchoNow s a then seqEnd a resNORESP 7 s else s)

/-- RETRY_COMPLETE (R115): the causes of faults 0x10 and 0x11 end, RETRYOK is set, power-stage-ready is raised. -/
def retryComplete (a : Nat) (s : State) : State :=
  raiseAx a caStageReady (setCause a 0x10 false (setCause a 0x11 false
    (modStage s a (fun g => { g with retryOk := true, retryReady := false }))))

/-- RETRY_COMPLETE (R115): acts when a retry stands to complete. -/
def execRetryComplete (a : Nat) (s : State) : Host.Outcome State Fault Refusal :=
  .next (if (getAx s a).stage.retryReady then retryComplete a s else s)

/-! ### Reports in an FUP (R114, R116, R117) -/

/-- A new short-circuit report (R114, R116): in a test sequence the gates have been off. -/
def scReport (a legs : Nat) (blank offBefore : Bool) (s : State) : State :=
  let s1 := modStage s a (fun g => { g with legs := legs, blank := blank, scCnt := inc16 g.scCnt })
  if isRetired s clsStage a then s1
  else
    let s2 := raiseAx a caShort s1
    if 2 ≤ popcount 8 legs ∨ offBefore ∨ (getAx s a).stage.seq ≠ .idle then faultAx a 0x12 4 s2
    else if blank then
      modStage (faultAx a 0x11 3 (setCause a 0x11 true s2)) a
        (fun g => { startSeq .diag g with diagThen := .transientRetry })
    else
      let s3 := transient clsStage a (faultAx a 0x10 3 (setCause a 0x10 true s2))
      if (getRet s3 clsStage a).st = .backoff then
        modStage s3 a (fun g => { g with diagAtEnd := true, diagThen := .retry })
      else s3

/-- Bootstrap undervoltage reports (R117). -/
def bsuvReport (a bsuv : Nat) (onLong : Bool) (s : State) : State :=
  let s1 := if bsuv ≠ 0 then modStage s a (fun g => { g with bsuvCnt := inc16 g.bsuvCnt }) else s
  if !onLong then s1
  else
    let run := if bsuv ≠ 0 then (getAx s1 a).stage.bsRun + 1 else 0
    if 3 ≤ run then
      let s2 := modStage s1 a (fun g => { g with bsRun := 0 })
      transient clsStage a (raiseAx a caBootstrap (faultAx a 0x13 3 (setCause a 0x13 true s2)))
    else modStage s1 a (fun g => { g with bsRun := run })

/-- What the power-stage unit takes from the FUP of sample round n (R114, R117); a missing one changes nothing. -/
def stageReport (a : Nat) (n : Word) (s : State) : State :=
  match (getIn s a n).fup with
  | none => s
  | some b =>
    let w := axW a
    let flg := beNat b 6 2
    let sc := flg.testBit 15
    let per := loopPeriod s a
    let was := (getAx s a).stage.scPrev
    let p := (getAx s a).pred
    let offBefore := decide (per + 2 ≤ gateRun p false n (per + 2))
    let lim := (Cfg.BSCFG_K s w + 2) * 2 ^ Cfg.CCFG_CARRIER s w
    let onLong := decide (lim ≤ gateRun p true n lim)
    let s1 := modStage s a (fun g => { g with scPrev := sc })
    if sc then
      let s2 := if flg % 16 ≠ 0 then modStage s1 a (fun g => { g with bsuvCnt := inc16 g.bsuvCnt, bsRun := 0 })
        else if onLong then modStage s1 a (fun g => { g with bsRun := 0 }) else s1
      if was then s2 else scReport a (beNat b 0 2 % 256) (flg.testBit 14) offBefore s2
    else bsuvReport a (flg % 16) onLong s1

/-! ### The DC link (R123 to R127) -/

/-- Enabled chopper channels as a mask (R133). -/
def chopEnabled (s : State) : Nat := ((List.range 4).filter (fun j => Cfg.PSCHOP_EN s j)).foldl (fun m j => m + 2 ^ j) 0

/-- A detector can trip: it is enabled, whether or not a self-test has failed, its fast comparator is active (R129), and it is
not under test (R124, R130). -/
def canTrip (s : State) : Detector → Bool
  | .analogue => Cfg.PSOVCFG_ANAEN s && !(s.ps.testBusy && s.ps.testTarget = 0)
  | .sigmaDelta => Cfg.PSOVCFG_SDIEN s && decide ((getRet s clsSdi (Cfg.PSOVCFG_DCSDI s)).st = .inUse)
      && !(s.ps.testBusy && s.ps.testTarget = 1 + Cfg.PSOVCFG_DCSDI s)

/-- Every diagnostic run in progress stops (R116). -/
def pauseDiags (s : State) : State :=
  forAll (List.range 128) (fun a s =>
    if (getAx s a).stage.seq = .diag then modStage s a (fun g => { g with paused := true }) else s) s

/-- The stopped diagnostic runs start again from their first step (R116). -/
def resumeDiags (s : State) : State :=
  forAll (List.range 128) (fun a s =>
    if (getAx s a).stage.seq = .diag ∧ (getAx s a).stage.paused then modStage s a (startSeq .diag) else s) s

/-- A trip of an enabled detector (R124). -/
def ovTrip (d : Detector) (s : State) : State :=
  if !canTrip s d then s
  else
    let s1 := { s with ps := { s.ps with
      tripCnt := inc16 s.ps.tripCnt, tripped := true, tripRounds := 0, forced := chopEnabled s,
      srcAna := s.ps.srcAna || d = .analogue, srcSdi := s.ps.srcSdi || d = .sigmaDelta } }
    raise evOverVoltage (pauseDiags (forAll (ovAxes s) (fun a s => faultAx a 0x17 3 (setCause a 0x17 true s)) s1))

/-- OVER_VOLTAGE_TRIP (R124). -/
def execOverVoltageTrip (d : Detector) (s : State) : Host.Outcome State Fault Refusal := .next (ovTrip d s)

/-- The end of the forcing, 1 ms after the last trip at the earliest (R124): the chopper channels return to their
cells, where one that turns off loses OVERLOAD (R126), the cause of 0x17 ends, and a stopped diagnostic run restarts from its first step (R116). -/
def ovForcingEnd (s : State) : State :=
  if s.ps.tripped ∧ Config.roundsPerMs ≤ s.ps.tripRounds then
    let s1 := { s with ps := { s.ps with
      tripped := false, forced := 0, overload := s.ps.overload &&& s.ps.on
      onRounds := (List.range 4).foldl (fun t j => if s.ps.on.testBit j then t else tset t j 0) s.ps.onRounds } }
    resumeDiags (forAll (ovAxes s) (fun a => setCause a 0x17 false) s1)
  else s

/-- OVER_VOLTAGE_FORCING_END (R124): the detectors are below release. -/
def execOverVoltageForcingEnd (s : State) : Host.Outcome State Fault Refusal := .next (ovForcingEnd s)

/-- CHOPPER_OVERLOAD (R126): channel j has been on beyond MAXON. -/
def execChopperOverload (j : Nat) (s : State) : Host.Outcome State Fault Refusal :=
  .next (
    let mx := Cfg.PSCHOP_MAXON s j
    let on := s.ps.on.testBit j || s.ps.forced.testBit j
    if Cfg.PSCHOP_EN s j ∧ mx ≠ 0 ∧ on ∧ Config.roundsPerMs * mx ≤ tget 0 s.ps.onRounds j ∧ !s.ps.overload.testBit j then
      raise evChopper { s with ps := { s.ps with overload := setBit s.ps.overload j true } }
    else s)

/-- Chopper channel j follows out1 of its HYST cell (R125); turning off clears OVERLOAD (R126). -/
def chopUpdate (j : Nat) (on : Bool) (s : State) : State :=
  let onNow := on || s.ps.forced.testBit j
  { s with ps := { s.ps with on := setBit s.ps.on j on
                             overload := if onNow then s.ps.overload else setBit s.ps.overload j false
                             onRounds := if onNow then s.ps.onRounds else tset s.ps.onRounds j 0 } }

/-- BCHOP: the OR of the DEST = 0 channels and of the hardware forcing (R125). -/
def bchop (s : State) : Bool :=
  s.ps.tripped || (List.range 4).any (fun j =>
    Cfg.PSCHOP_EN s j && !Cfg.PSCHOP_DEST s j && (s.ps.on.testBit j || s.ps.forced.testBit j))

/-- The CHOP flag of axis a (R125). -/
def chopFlag (s : State) (a : Nat) : Bool :=
  (List.range 4).any (fun j => Cfg.PSCHOP_EN s j && Cfg.PSCHOP_DEST s j && Cfg.PSCHOP_DAXIS s j = a &&
    (s.ps.on.testBit j || s.ps.forced.testBit j))

/-! ### Sigma-delta inputs and the self-test (R128 to R130) -/

/-- SDI_FAST (R128): the fast filter of an input in use reaches FCLEVEL. -/
def execSdiFast (k : Nat) (s : State) : Host.Outcome State Fault Refusal :=
  .next (if Cfg.SDCFG_EN s k && (getRet s clsSdi k).st = .inUse then raise evSdiFast s else s)

/-- SDI_FAULT (R129): clock loss or a stuck bitstream on an enabled input: a class-7 transient and the event; R127 is
judged again. A retired input counts nothing more, but every transient raises the event. -/
def execSdiFault (k : Nat) (s : State) : Host.Outcome State Fault Refusal :=
  .next (if Cfg.SDCFG_EN s k then
      checkDetection (raise evSdiFault (transient clsSdi k s))
    else s)

/-- SDVAL as a master or a cell reads it: the quiet NaN during BACKOFF or RETIRED (R129). -/
def sdVal (s : State) (k : Nat) : F32 :=
  if (getRet s clsSdi k).st = .inUse then (tget {} s.ps.sdi k).val else fNaN

/-- SDVAL latched at T0 and its mirror word (R128). The filter output itself is a physical quantity of the bitstream
that no command carries: a free value from −1 to +1. -/
def sdLatch (k : Nat) (s : State) : State :=
  if !Cfg.SDCFG_EN s k then s
  else
    let x := if fLe (fAbs (freeW s)) fOne then freeW s else 0
    let v := fAdd (fMul (Cfg.SDSCALE s k) x) (Cfg.SDOFS s k)
    let s1 := { s.tick with ps := { s.ps with sdi := tset s.ps.sdi k { val := v } } }
    if Cfg.SDCFG_MIREN s k then memPutW (partBase s ptLADLE + 4 * Cfg.SDCFG_MIRROR s k) (sdVal s1 k) s1 else s1

/-- The comparator a PSCTEST target names is enabled and its input available (R130). -/
def testTargetOk (s : State) (t : Nat) : Bool :=
  if t = 0 then Cfg.PSOVCFG_ANAEN s
  else if t ≤ 8 then Cfg.SDCFG_EN s (t - 1) && (getRet s clsSdi (t - 1)).st = .inUse
  else t = 9

/-- The target is the only available DC-link detector while a PSOVAX axis is in PRESTART, RUN or QSTOP (R130). -/
def testWouldBlind (s : State) (t : Nat) : Bool :=
  let busy := (ovAxes s).any (fun a =>
    let st := (getAx s a).ctl.st
    st = .prestart || st = .run || st = .qstop)
  busy && ((t = 0 && anaAvail s && !sdiAvail s) || (t = 1 + Cfg.PSOVCFG_DCSDI s && sdiAvail s && !anaAvail s))

/-- PSCTEST_GO (R130): starts a comparator self-test or refuses it with RESULT 4. -/
def psctestGo (t : Nat) (s : State) : State :=
  if s.ps.testBusy then { s with ps := { s.ps with testResult := 4 } }
  else if !testTargetOk s t || testWouldBlind s t then { s with ps := { s.ps with testTarget := t, testResult := 4 } }
  else { s with ps := { s.ps with testBusy := true, testTarget := t, testResult := 0 } }

/-- PSCTEST_GO (R130). -/
def execPsctestGo (target : Nat) (s : State) : Host.Outcome State Fault Refusal := .next (psctestGo target s)

/-- The end of a comparator self-test (R130): 1 PASS, 2 NOTRIP, 3 NORELEASE. A DC-link detector that fails stays unavailable. -/
def comparatorEnd (tripped released : Bool) (s : State) : State :=
  if !s.ps.testBusy then s
  else
    let res := if !tripped then 2 else if !released then 3 else 1
    let t := s.ps.testTarget
    let s1 := { s with ps := { s.ps with
      testBusy := false, testResult := res,
      anaFail := s.ps.anaFail || (res ≠ 1 && t = 0),
      sdiFail := s.ps.sdiFail || (res ≠ 1 && t = 1 + Cfg.PSOVCFG_DCSDI s) } }
    checkDetection (raise evComparator s1)

end Sys2Proof.Machine
end

