-- ==== Sys2Proof/Machine/Cells.lean ====
section
/-! DEFINITION. The loop cells (R83 to R99): selectors, quantities and one computation of each cell type. FP32 is
rounded after every elementary operation in the order of the rules' text (DEDUCED, notes/assumptions/8.md). -/

namespace Sys2Proof.Machine

/-- What the cells of a computation read beside each other (R85, R86). -/
structure CellEnv where
  a : Nat
  n : Word
  /-- the axis whose active bank gives the coefficients (R198) -/
  lead : Nat
  pos : Int
  hist : List (Word × Int)
  sp : Entry
  id : F32
  iq : F32
  udc : F32
  pdc : F32
  isq : F32
  wel : F32
  nodePdc : F32
  totPdc : F32
  /-- for a position that no round has yet given (VELACT of the first computations) -/
  open_ : F32

/-- A cell's sample time Ts (R87). -/
def cellTs (s : State) (a k : Nat) : F32 := fMul (fOfInt (cellPeriod s a k)) kT

/-- Quantity i of class AXIS (R86) for a reader of period pc. T is 1/128,000 s, so the scale factors are dyadic times
125 and each conversion rounds once. -/
def axisQuantity (e : CellEnv) (pc i : Nat) : F32 :=
  match i with
  | 0 => fOfDyadic false (wrapInt 64 (e.sp.p - e.pos)) (-16)
  | 1 => fOfDyadic false (e.sp.v * 125) (-6)
  | 2 => fOfDyadic false (e.sp.a * 15625) (-12)
  | 3 =>
    match e.hist.find? (fun x => x.1 = e.n - BitVec.ofNat 32 pc) with
    | some x => fOfDyadic false (wrapInt 64 (e.pos - x.2) * 125) (-6 - (pc.log2 : Int))
    | none => e.open_
  | 4 => e.id
  | 5 => e.iq
  | 6 => e.udc
  | 7 => e.pdc
  | 8 => e.isq
  | 9 => e.wel
  | 10 => e.nodePdc
  | 11 => e.totPdc
  | _ => 0

/-- Selector j of cell k (R85, R111). -/
def cellSel (s : State) (a k j : Nat) : Nat :=
  let w := cellW a k
  match j with
  | 0 => Cfg.INSEL01_IN0 s w
  | 1 => Cfg.INSEL01_IN1 s w
  | 2 => Cfg.INSEL23_IN2 s w
  | _ => Cfg.INSEL23_IN3 s w

/-- The value a selector reads (R85). -/
def readSel (s : State) (e : CellEnv) (pc : Nat) (cs : Tab Cell) (sel : Nat) : F32 :=
  match sel / 4096 with
  | 1 =>
    let c : Cell := tget {} cs (sel % 16)
    if sel.testBit 4 then c.o1 else c.o0
  | 2 => axisQuantity e pc (sel % 4096)
  | 3 => memWord s (partBase s ptLADLE + 4 * (sel % 4096))
  | _ => 0

/-- 1.0 or 0.0. -/
def fBool (b : Bool) : F32 := if b then fOne else 0

/-- State word i of a cell. -/
def cellWord (c : Cell) (i : Nat) : F32 := nth 0 c.s i

/-- PIDF (R90). -/
def pidf (kf : Nat → F32) (dmeas : Bool) (ts : F32) (v : Nat → F32) (c : Cell) : Cell :=
  let e := fSub (fAdd (v 0) (kf 9)) (v 1)
  let x := if dmeas then fNeg (v 1) else e
  let xp := if c.inited then cellWord c 2 else x
  let i0 := if c.inited then cellWord c 0 else 0
  let d0 := if c.inited then cellWord c 1 else 0
  let p := fMul (kf 0) e
  let i := fAdd i0 (fMul (fMul (kf 1) ts) e)
  let d := fDiv (fAdd (fMul (kf 3) d0) (fMul (kf 2) (fSub x xp))) (fAdd (kf 3) ts)
  let raw := fAdd (fAdd (fAdd (fAdd p i) d) (fMul (kf 4) (v 2))) (fMul (kf 5) (v 3))
  let o := fClamp raw (kf 6) (kf 7)
  { c with o0 := o, o1 := fBool (!fEq o raw), s := [fAdd i (fMul (kf 8) (fSub o raw)), d, x], inited := true }

/-- Coefficient word of FILT section s: B1, B2, A1, A2 (R100). -/
def filtK (kf : Nat → F32) (sec i : Nat) : F32 := kf (4 * sec + i)

/-- The steady state of section `sec` for input x: its output and w1, w2 (R89). -/
def filtSteady (kf : Nat → F32) (sec : Nat) (x : F32) : F32 × F32 × F32 :=
  let b1 := filtK kf sec 0
  let b2 := filtK kf sec 1
  let a1 := filtK kf sec 2
  let a2 := filtK kf sec 3
  let y := fMul (fDiv (fAdd (fAdd fOne b1) b2) (fAdd (fAdd fOne a1) a2)) x
  (y, fSub y x, fSub (fMul b2 x) (fMul a2 y))

/-- FILT (R91): sections in order, from the input. -/
def filt (kf : Nat → F32) (nsec : Nat) (gain x0 : F32) (c : Cell) : Cell :=
  let r := (List.range (nsec + 1)).foldl (fun (acc : F32 × F32 × List F32) sec =>
    let stdy := filtSteady kf sec acc.2.1
    let w1 := if c.inited then cellWord c (2 * sec) else stdy.2.1
    let w2 := if c.inited then cellWord c (2 * sec + 1) else stdy.2.2
    let x := acc.1
    let y := fAdd w1 x
    let n1 := fAdd (fSub (fMul (filtK kf sec 0) x) (fMul (filtK kf sec 2) y)) w2
    let n2 := fSub (fMul (filtK kf sec 1) x) (fMul (filtK kf sec 3) y)
    (y, stdy.1, acc.2.2 ++ [n1, n2])) (x0, x0, [])
  { c with o0 := fMul gain r.1, o1 := 0, s := r.2.2, inited := true }

/-- HYST (R92); DWELL is an integer word. -/
def hyst (kf : Nat → F32) (period : Nat) (v : Nat → F32) (c : Cell) : Cell :=
  let e := fSub (fSub (v 0) (v 1)) (kf 0)
  let hi0 := c.inited && c.high
  let dw0 := if c.inited then min (c.dwell + period) 65535 else 65535
  let ok := (kf 4).toNat ≤ dw0
  let up := !hi0 && fLt (kf 1) e && ok
  let dw1 := if up then 0 else dw0
  let down := (hi0 || up) && fLt e (fNeg (kf 1)) && decide ((kf 4).toNat ≤ dw1)
  let hi := (hi0 || up) && !down
  { c with o0 := if hi then kf 3 else kf 2, o1 := fBool hi, high := hi, dwell := if up || down then 0 else dw0,
           s := [], inited := true }

/-- sgn of R93: +1 for 0. -/
def sgnOne (x : F32) : F32 := if fLt x 0 then fNeg fOne else fOne

/-- The winner of MIN among the used inputs (R93): the lowest number on a tie. -/
def minWinner (v : Nat → F32) (mag : Bool) (used : List Nat) : Nat :=
  let key := fun k => if mag then fAbs (v k) else v k
  match used with
  | [] => 0
  | k0 :: t => t.foldl (fun w k => if fLt (key k) (key w) then k else w) k0

/-- MIN (R93) on the whole cell table: outputs of cell k and the integrators of the losing PIDF cells, and whether one of these
was held. An integrator that is not finite is held, and NUMF is set in its cell (R99; DEDUCED, log 27). -/
def minCell (s : State) (a k : Nat) (coefOf : Nat → Nat → F32) (v : Nat → F32) (cs : Tab Cell) : Tab Cell × Bool :=
  let mag := Cfg.CELCFG_MAG s (cellW a k)
  let used := [0, 1, 2, 3].filter (fun j => cellSel s a k j ≠ 0)
  let w := minWinner v mag used
  let o0 := if mag then fMul (sgnOne (v 0)) (fAbs (v w)) else v w
  let me : Cell := tget {} cs k
  let cs1 := tset cs k { me with o0 := o0, o1 := fOfInt w, inited := true }
  used.foldl (fun r j =>
    let cs := r.1
    let sel := cellSel s a k j
    let src := sel % 16
    if j ≠ w ∧ sel / 4096 = 1 ∧ !sel.testBit 4 ∧ cellType s a src = 2 ∧ cellPeriod s a src = cellPeriod s a k then
      let c : Cell := tget {} cs src
      let goal := if mag then fMul (sgnOne (v j)) (fAbs o0) else o0
      let i := fClamp (fAdd (cellWord c 0) (fMul (coefOf k 0) (fSub goal (v j)))) (coefOf src 6) (coefOf src 7)
      if fFinite i then (tset cs src { c with s := setNth 0 c.s 0 i }, r.2) else (tset cs src { c with numf := true }, true)
    else r) (cs1, false)

/-- RAMP (R94). -/
def ramp (kf : Nat → F32) (enabled : Bool) (ts : F32) (v : Nat → F32) (c : Cell) : Cell :=
  let o := if !c.inited || !enabled then v 1
    else fAdd c.o0 (fClamp (fSub (v 0) c.o0) (fMul (fNeg (kf 1)) ts) (fMul (kf 0) ts))
  { c with o0 := o, o1 := fBool (fEq o (v 0)), s := [], inited := true }

/-- LIM (R95). -/
def lim (kf : Nat → F32) (narrow : Bool) (v : Nat → F32) (c : Cell) : Cell :=
  let m := fAbs (v 1)
  let lo := if narrow then fMax (kf 0) (fNeg m) else kf 0
  let hi := if narrow then fMin (kf 1) m else kf 1
  let o := fMin (fMax (v 0) lo) hi
  { c with o0 := o, o1 := fBool (!fEq o (v 0)), s := [], inited := true }

/-- SUM (R96). -/
def sumCell (kf : Nat → F32) (v : Nat → F32) (c : Cell) : Cell :=
  { c with o0 := fAdd (fAdd (fAdd (fAdd (fMul (kf 0) (v 0)) (fMul (kf 1) (v 1))) (fMul (kf 2) (v 2))) (fMul (kf 3) (v 3))) (kf 4)
           o1 := 0, s := [], inited := true }

/-- OBS (R97): the position estimate in 2^-32 fine counts. The difference wraps in its 64 bits of fine counts and keeps its
fraction (DEDUCED, log 27). -/
def obs (kf : Nat → F32) (pos : Int) (ts x : F32) (c : Cell) : Cell :=
  let ph := if c.inited then c.phat else pos * 2 ^ 32
  let vh := if c.inited then cellWord c 0 else 0
  let ah := if c.inited then cellWord c 1 else 0
  let e := fOfDyadic false (wrapInt 96 (pos * 2 ^ 32 - ph)) (-48)
  let inc := fMul (fMul k65536 ts) (fAdd vh (fMul (kf 0) e))
  let di := match fRoundAwayScaled 32 inc with
    | some d => clampInt (-(2 ^ 95)) (2 ^ 95 - 1) d
    | none => 0
  let v' := fAdd vh (fMul ts (fAdd (fAdd (fMul (kf 3) x) ah) (fMul (kf 1) e)))
  let a' := fAdd ah (fMul (fMul ts (kf 2)) e)
  -- A non-finite increment makes the state non-finite (R99).
  { c with o0 := if fFinite inc then fMul (kf 4) v' else inc, o1 := a', s := [v', a'],
           phat := clampInt (-(2 ^ 95)) (2 ^ 95 - 1) (ph + di), inited := true }

/-- Every output and state word is finite (R99). -/
def cellFinite (c : Cell) : Bool := fFinite c.o0 && fFinite c.o1 && c.s.all fFinite

/-- A selector reads the mirror word of a sigma-delta input that holds the quiet NaN (R128, R129). -/
def readsSdNaN (s : State) (sel : Nat) : Bool :=
  decide (sel / 4096 = 3) && (List.range 8).any (fun i => Cfg.SDCFG_MIREN s i && Cfg.SDCFG_MIRROR s i = sel % 4096 &&
    memWord s (partBase s ptLADLE + 4 * (sel % 4096)) = fNaN)

/-- One computation of cell k, slots 1 to 15: the cell table after it and whether a non-finite result was held (R99). -/
def cellRun (s : State) (e : CellEnv) (k : Nat) (cs : Tab Cell) : Tab Cell × Bool :=
  let a := e.a
  let w := cellW a k
  let pc := cellPeriod s a k
  let ts := cellTs s a k
  let coefOf := fun slot i => coef s e.lead slot i
  let kf := coefOf k
  let v := fun j => readSel s e pc cs (cellSel s a k j)
  let used := fun j => cellSel s a k j ≠ 0
  let c : Cell := tget {} cs k
  let mn := minCell s a k coefOf v cs
  let res : Tab Cell :=
    match cellType s a k with
    | 2 => tset cs k (pidf kf (Cfg.CELCFG_DMEAS s w) ts v c)
    | 3 => tset cs k (filt kf (Cfg.CELCFG_NSEC s w) (Cfg.FGAIN s w) (v 0) c)
    | 4 => tset cs k (hyst kf pc v c)
    | 5 => mn.1
    | 6 => tset cs k (ramp kf (!used 2 || !fLe (v 2) 0) ts v c)
    | 7 => tset cs k (lim kf (used 1) v c)
    | 8 => tset cs k (sumCell kf v c)
    | 9 => tset cs k (obs kf e.pos ts (v 0) c)
    | _ => cs
  let c' : Cell := tget {} res k
  let nan := [0, 1, 2, 3].any (fun j => readsSdNaN s (cellSel s a k j))
  if cellFinite c' && !nan then (res, decide (cellType s a k = 5) && mn.2) else (tset cs k { c with numf := true }, true)

/-- The cells of slots 1 to 15 that are due, in ascending order (R84): the table, and whether any result was held. -/
def cellsRun (s : State) (e : CellEnv) (due : List Nat) (cs : Tab Cell) : Tab Cell × Bool :=
  due.foldl (fun acc k =>
    let r := cellRun s e k acc.1
    (r.1, acc.2 || r.2)) (cs, false)

/-- Cells as R89 initialises them on the entry to RUN: integrators and estimates 0, HYST low with its dwell elapsed; what
a first input decides is taken at the next computation. Of the elapsed dwell the spec gives no number: 65,535, its largest
(DESIGN CHOICE, log 27). NUMF clears (R111). -/
def cellsInit (cs : Tab Cell) : Tab Cell :=
  cs.map (fun c => (c.1, { c.2 with inited := false, numf := false, s := [], high := false, dwell := 65535 }))

end Sys2Proof.Machine
end

