-- ==== Sys2Proof/Machine/Compute.lean ====
section
/-! DEFINITION. One computation of an axis (R84, R437): feedback, power-stage reports, following error, the cells, PRED,
and the words it stages (R59, R61, R76, R80, R104). -/

namespace Sys2Proof.Machine

/-! ### Following error (R104) -/

/-- The following error of a set-point and a position, in 64 bits. -/
def followErr (sp pos : Int) : Int := wrapInt 64 (sp - pos)

/-- The evaluation of R104 on axis a with following error fe in sample round n. -/
def feEval (a : Nat) (n : Word) (fe : Int) (s : State) : State :=
  let w := axW a
  let mag := fe.natAbs
  let lim := (Cfg.FELIM s w).toNat
  let hard := (Cfg.FEHARD s w).toNat
  let c := (getAx s a).ctl
  let k := match c.feLast with
    | some r => (n - r).toNat
    | none => 1
  let beyond := decide (lim ≠ 0) && decide (lim * 65536 < mag)
  let acc := if beyond then min (c.feAcc + k) 65535 else 0
  let now := sat32 (truncDiv fe 65536)
  let hitHard := decide (hard ≠ 0) && decide (hard * 65536 < mag)
  let hitLim := beyond && decide (Cfg.FETIME_FETIME s w ≤ acc)
  let s1 := modCtl s a (fun c => { c with feLast := some n, feAcc := acc, feOver := beyond, feNow := now, feFine := fe,
                                          fePeak := max c.fePeak now.natAbs })
  let s2 := setCause a 0x02 hitHard s1
  let s3 := if hitHard then faultAx a 0x02 (Cfg.AXREACT_FEHREACT s w) s2 else s2
  let s4 := setCause a 0x01 hitLim s3
  if hitLim then faultAx a 0x01 (Cfg.AXREACT_FEREACT s w) s4 else s4

/-- Chopper channels whose HYST cell is cell k of axis a (R125). -/
def chopOf (s : State) (a k : Nat) : List Nat :=
  (List.range 4).filter (fun j => Cfg.PSCHOP_EN s j && Cfg.PSCHOP_AXIS s j = a && Cfg.PSCHOP_SLOT s j = k)

/-- The axis rests in PARK with its brake applied, so that only chopper cells compute (R437). -/
def parkedAxis (s : State) (a : Nat) : Bool :=
  let c := (getAx s a).ctl
  c.st = .park && c.wait ≠ .brakePark

/-- The due cells that compute: all, or the HYST cells of chopper channels alone (R437). -/
def dueCells (s : State) (a : Nat) (n : Word) : List Nat :=
  let due := (List.range 16).filter (fun k => cellDue s a k n)
  if s.sys.pwr = .run && !parkedAxis s a then due else due.filter (fun k => decide (k ≠ 0) && !(chopOf s a k).isEmpty)

/-! ### PRED (R58 to R80) -/

/-- A sample at full scale (R58). -/
def fullScale (x : Int) : Bool := x = -32768 || x = 32767

/-- The samples of an FUP payload: S_a, S_b, S_u. -/
def sampleOf (b : List Byte) (i : Nat) : Int := signedN 16 (beNat b (2 * i) 2)

/-- Amperes per LSB of the node of axis a. -/
def iplOf (s : State) (a : Nat) : F32 :=
  match axisNode s a with
  | some (nd, _) => Cfg.IPL s (ndW nd)
  | none => 0
/-- Volts per LSB of the node of axis a. -/
def uplOf (s : State) (a : Nat) : F32 :=
  match axisNode s a with
  | some (nd, _) => Cfg.UPL s (ndW nd)
  | none => 0

/-- What a PRED computation of either kind starts from. -/
structure PredIn where
  fup : Option (List Byte)
  /-- the FUP carries SC, so IA and IB are no currents (R218) -/
  sc : Bool
  th : Nat
  hallInt : Bool
  hallSec : Nat
  wr : F32
  w : F32
  dth : Int
  udc : F32
  sat : Bool
  p : AxPred

/-- The angle, speed and Udc of sample round n (R58, R64, R67 to R70, R78). `gth` is the angle of the group unit; none on
a segment that is a member of no mover, whose angle is not formed. -/
def predIn (s : State) (a per : Nat) (n : Word) (sp : Int) (gth : Option Nat) : PredIn :=
  let w := axW a
  let p0 := (getAx s a).pred
  let fup := (getIn s a n).fup
  let p1 := match fup with
    | some b => takeHall s a n b p0
    | none => p0
  let com := Cfg.CCFG_COMSRC s w
  let tr := match fup with
    | some b => formAngle s a n sp (gth.getD p1.theta) ((hallSector s a ((beNat b 6 2 >>> 5) % 8)).isSome) p1
    | none =>
      if com = 3 then formAngle s a n sp 0 false p1
      else
        let t0 := (thetaAt p1 (n - BitVec.ofNat 32 per)).getD p1.theta
        (intMod 16 ((t0 : Int) + openFloat (fMul (fOfInt per) p1.wr)), p1.hallInt, p1.hallSec)
  let spd := speedOf s a per n tr.1 p1
  let keep := com ≠ 2 || gth.isSome
  let p2 := if keep then { p1 with thetas := ((n, tr.1) :: p1.thetas).take 20 } else p1
  let flg := match fup with
    | some b => beNat b 6 2
    | none => 0
  let sc := flg.testBit 15
  let udc := match fup with
    | some b => fMul (fOfInt (sampleOf b 2)) (uplOf s a)
    | none => p0.udc
  let sat := match fup with
    | some b => fullScale (sampleOf b 2) || (!sc && (fullScale (sampleOf b 0) || fullScale (sampleOf b 1)))
    | none => false
  { fup := fup, sc := sc, th := tr.1, hallInt := tr.2.1, hallSec := tr.2.2, wr := spd.1, w := spd.2,
    dth := dthetaOf s a per n tr.1 spd.1 p1, udc := udc, sat := sat, p := p2 }

/-- The status a PRED computation shows whatever its result (R64, R81). -/
def predStat (s : State) (a : Nat) (i : PredIn) : AxPred :=
  let p := i.p
  { p with
    missRun := if i.fup.isSome then 0 else incSat 15 p.missRun
    missCnt := if i.fup.isSome then p.missCnt else inc16 p.missCnt
    sat := i.sat
    hallSec := if hallCommut s a then i.hallSec else 7
    hallInt := i.hallInt, idxShown := waitsIndex s a
    theta := i.th, thShown := i.th, dtheta := i.dth, wr := i.wr, omega := i.w, udc := i.udc }

/-- What a PRED computation without a finite result leaves (R99): outputs and state as they were, its counts and the sample
status as they have come to be. -/
def predKept (s : State) (a : Nat) (i : PredIn) : AxPred :=
  let q := predStat s a i
  let p := (getAx s a).pred
  { p with missRun := q.missRun, missCnt := q.missCnt, sat := q.sat, hall := q.hall, edges := q.edges, hallSec := q.hallSec
           hallInt := q.hallInt, idxShown := q.idxShown }

/-- SERVO3 (R61 to R76): the record after the computation; none when a result is not finite (R99). A missing current is
substituted with the speed that WSRC gives in the model, and with that of the last computation in the angles: with WSRC = 1 the
spec does not say which speed a substitution takes (DESIGN CHOICE, log 27). -/
def predServo (s : State) (a per : Nat) (n : Word) (idr iqr : F32) (i : PredIn) : Option AxPred :=
  let p := i.p
  let c := predCoef s a
  let i0 := match i.fup with
    | some b =>
      if i.sc then vZero
      else park (clarke (fMul (fOfInt (sampleOf b 0)) (iplOf s a)) (fMul (fOfInt (sampleOf b 1)) (iplOf s a))) (fOfInt i.th)
    | none =>
      let r0 := n - BitVec.ofNat 32 per
      match thetaAt p r0 with
      | some t0 => stepRounds c i.w p.wr p r0 t0 per ⟨p.id, p.iq⟩
      | none => vZero
  let o := controller s a per n i.th i.wr i.w i.udc idr iqr i0 p
  let bsuv := match i.fup with
    | some b => beNat b 6 2 % 16
    | none => 0
  match dutyWords s a per bsuv i.udc o p.bs with
  | none => none
  | some d =>
    let pdc := fMul 0x3FC00000#32 (fAdd (fMul o.v.x i0.x) (fMul o.v.y i0.y))
    let isq := fAdd (fMul i0.x i0.x) (fMul i0.y i0.y)
    if [i0.x, i0.y, o.v.x, o.v.y, pdc, isq, i.udc, d.vab.x, d.vab.y].all fFinite then
      some { predStat s a i with
        id := i0.x, iq := i0.y, vd := o.v.x, vq := o.v.y, pdc := pdc, isq := isq
        vlim := o.vlim, ilim := o.ilim, bsinj := d.inj
        vlimCnt := if o.vlim then inc16 p.vlimCnt else p.vlimCnt
        dutyA := nth 0 d.ds 0, dutyB := nth 0 d.ds 1, dutyC := nth 0 d.ds 2
        words := d.ds, bs := d.cnts, wabA := d.vab.x, wabB := d.vab.y }
    else none

/-- STEPPER2 (R78 to R80). With COMSRC 3 the frame angle is θ − 16,384; in closed loop the coils stand 16,384 ahead of
the rotor angle in the direction of i_q*. With the sample missing CIMD and CIMQ hold their values, as the spec names no others
(DESIGN CHOICE, log 27). -/
def predStepper (s : State) (a per : Nat) (sp : Int) (iqr : F32) (i : PredIn) : Option AxPred :=
  let w := axW a
  let p := i.p
  let open_ := Cfg.CCFG_COMSRC s w = 3
  let imax := Cfg.IMAX s w
  let hold := if p.lastSp = some sp then sat16 (p.hold + per) else 0
  let moved := decide (p.lastSp ≠ some sp)
  let irun := coef s a 0 6
  let ihold := coef s a 0 7
  let amp := if open_ then (if !moved && decide (Cfg.STEPCFG_HOLDDLY s w ≤ hold) then ihold else irun)
    else fMin (fAbs iqr) imax
  let sg : Int := if fLt 0 iqr then 1 else if fLt iqr 0 then -1 else 0
  let th := if open_ then i.th else intMod 16 ((i.th : Int) + 16384 * sg)
  let rotor := if open_ then intMod 16 ((i.th : Int) - 16384) else i.th
  let ia := fMul amp (fCos (fOfInt th))
  let ib := fMul amp (fSin (fOfInt th))
  let ipl := iplOf s a
  let none_ := i.fup.isNone || i.sc
  let smp := fun k => match i.fup with
    | some b => sampleOf b k
    | none => 0
  let avg : Vec := ⟨fMul (fOfInt (smp 0)) ipl, fMul (fOfInt (smp 1)) ipl⟩
  let kc := fun j => coef s a 0 j
  let ca := coil ipl (kc 8) (kc 9) (kc 10) ia avg.x p.offA (p.satA || fullScale (smp 0)) none_
  let cb := coil ipl (kc 8) (kc 9) (kc 10) ib avg.y p.offB (p.satB || fullScale (smp 1)) none_
  let idq := if i.fup.isNone then ⟨p.id, p.iq⟩ else if i.sc then vZero else park avg (fOfInt rotor)
  let isq := fAdd (fMul idq.x idq.x) (fMul idq.y idq.y)
  if [idq.x, idq.y, isq, i.udc, ca.1, cb.1, ia, ib].all fFinite then
    some { predStat s a i with
      id := idq.x, iq := idq.y, vd := 0, vq := 0, pdc := 0, isq := isq
      vlim := false, ilim := !open_ && fLt imax (fAbs iqr), bsinj := false
      dutyA := ca.2.1, dutyB := cb.2.1, dutyC := 0, words := [ca.2.1, cb.2.1, 0]
      offA := ca.1, offB := cb.1, satA := ca.2.2, satB := cb.2.2, hold := hold, lastSp := some sp }
  else none

/-- One PRED computation (slot 0): the outputs, fault 0x04 of R64 and fault 0x03 of R99. -/
def predRun (a : Nat) (n : Word) (idr iqr : F32) (sp : Int) (gth : Option Nat) (s : State) : State :=
  let w := axW a
  let per := loopPeriod s a
  let i := predIn s a per n sp gth
  let res := if kindOf s a = 1 then predServo s a per n idr iqr i else predStepper s a per sp iqr i
  let s1 := match res with
    | some p =>
      modAx s a (fun x => setCell { x with pred := p } 0 { getCell x 0 with o0 := p.vd, o1 := p.vq, inited := true })
    | none =>
      modAx s a (fun x => setCell { x with pred := predKept s a i } 0 { getCell x 0 with numf := true })
  let s2 := if i.sat then raiseAx a caSampleSat s1 else s1
  let run := (getAx s2 a).pred.missRun
  let lim := Cfg.CCFG_SMISSMAX s w
  let s3 := setCause a 0x04 (decide (lim ≤ run)) s2
  let s4 := if run = lim ∧ i.fup.isNone then faultAx a 0x04 (Cfg.CCFG_MISSREACT s w) s3 else s3
  let held := (dueCells s a n).any (fun k => decide (k ≠ 0)) && (getAx s4 a).ctl.causes.testBit 0x03
  let s5 := setCause a 0x03 (res.isNone || held) s4
  if res.isNone then faultAx a 0x03 (Cfg.AXREACT_NUMREACT s w) s5 else s5

/-- A round in which PRED does not compute still forms the angle (R70, R437); what CSTAT and CANGLE show stands (R81). -/
def predTrack (a : Nat) (n : Word) (sp : Int) (gth : Option Nat) (s : State) : State :=
  let i := predIn s a (loopPeriod s a) n sp gth
  modPred s a (fun _ => { i.p with theta := i.th, wr := i.wr })

/-! ### Staging (R48, R59, R65, R219) -/

/-- CARCFG of the FDN, with the period in force (R71, R77, R219). -/
def carCfg (s : State) (a : Nat) : Nat :=
  let w := axW a
  let c := 2 ^ Cfg.CCFG_CARRIER s w
  (if 2 * loopPeriod s a = c then 256 else 0) + Cfg.CCFG_CARPH s w * 16 + Cfg.CCFG_CARRIER s w

/-- HBAND of the FDN: the descriptor's half-band on a stepper (R219, R233). -/
def hBand (s : State) (a : Nat) : Nat :=
  if kindOf s a = 2 then
    match axisNode s a with
    | some (nd, i) => if i < 8 then bits (Cfg.NDHB s (ndW nd)) 15 0 else 0
    | none => 0
  else 0

/-- The FDN payload without the flags that are taken at its departure (R219). -/
def fdnPayload (words : List Nat) (flg hband carcfg : Nat) : List Byte :=
  beBytes 2 (nth 0 words 0) ++ beBytes 2 (nth 0 words 1) ++ beBytes 2 (nth 0 words 2) ++ beBytes 2 flg
    ++ beBytes 2 hband ++ beBytes 2 0 ++ beBytes 2 carcfg ++ beBytes 2 0

/-- Over-voltage forces the gates of axis a off (R124). -/
def ovForced (s : State) (a : Nat) : Bool := s.ps.tripped && (ovAxes s).contains a

/-- The computation of round m on sample round n = m − 1 has chosen its words: stage them, or the gates-off flag with
the test step in force, and record what will have applied (R59, R61, R65, R80, R118). -/
def stageWords (a : Nat) (m : Word) (allowed : Bool) (s : State) : State :=
  let x := getAx s a
  let on := gatesOn x.ctl && allowed && !ovForced s a
  let d := applyDelay s
  let n := m - 1
  let from_ := n + BitVec.ofNat 32 d
  let per := loopPeriod s a
  let leave := if Cfg.RNDCFG_LAT3 s then m + 1 else m
  let flg := if on then 0
    else 0x8000 + testFlags (kindOf s a) x.stage
  let pay := fdnPayload (if on then x.pred.words else [0, 0, 0]) flg (hBand s a) (carCfg s a)
  let rows := (List.range per).map (fun j =>
    ({ round := from_ + BitVec.ofNat 32 j, off := !on, va := x.pred.wabA, vb := x.pred.wabB } : Applied))
  let p1 := gateNote from_ on x.pred
  let p2 := { p1 with
    goff := !on
    hist := (rows.reverse ++ p1.hist).take 64
    staged := some { leave := leave, payload := pay }, stagedPrev := p1.staged
    offA := if on then p1.offA else 0, offB := if on then p1.offB else 0 }
  let g1 := if x.stage.sendStep then { x.stage with sendStep := false, applyAt := from_ } else x.stage
  setAx s a { x with pred := p2, stage := if on then x.stage else g1 }

/-! ### The cells of an axis -/

/-- The set-point entry a computation on sample round n uses: the axis's own, or its mover's (R185, R198). -/
def entryFor (s : State) (a : Nat) (n : Word) : Entry :=
  match moverOf s a with
  | some g => spEntry (getGr s g).prof n
  | none => spEntry (getAx s a).prof n

/-- NODEPDC and TOTPDC (R86), in a shadow entry the active unit's (R275). -/
def pdcSums (s : State) (a : Nat) : F32 × F32 :=
  let nd := match axisNode s a with
    | some (n, _) => n
    | none => 64
  match s.twin.txq with
  | some (t, l) => (nth 0 l nd, t)
  | none => (if nd = 64 then 0 else tget 0 s.pdc nd, tget 0 s.pdc 64)

/-- The environment of the cells of axis a for sample round n (R86, R198). Quantities 4 and 5 are what CIMD and CIMQ show when
the cells compute, those of the last completed PRED computation (DEDUCED, log 27). -/
def cellEnv (s : State) (a : Nat) (n : Word) : CellEnv :=
  let x := getAx s a
  let sums := pdcSums s a
  let e := entryFor s a n
  match moverOf s a with
  | some g =>
    let gr := getGr s g
    let l := leadAxis s g
    let p := (getAx s l).pred
    { a := a, n := n, lead := l, pos := gr.x, hist := gr.xHist, sp := e, id := gr.totId, iq := gr.totIq, udc := p.udc,
      pdc := gr.totPdc, isq := p.isq, wel := p.omega, nodePdc := sums.1, totPdc := sums.2, open_ := freeW s }
  | none =>
    let p := x.pred
    { a := a, n := n, lead := a, pos := x.fb.pos, hist := x.fb.hist, sp := e, id := p.id, iq := p.iq, udc := p.udc,
      pdc := p.pdc, isq := p.isq, wel := p.omega, nodePdc := sums.1, totPdc := sums.2, open_ := freeW s }

/-- The chopper channels follow the HYST cells that have computed (R125). -/
def chopFollow (a : Nat) (due : List Nat) (s : State) : State :=
  forAll due (fun k s =>
    forAll (chopOf s a k) (fun j s => chopUpdate j (fLt 0 (getCell (getAx s a) k).o1) s) s) s

/-- Slots 1 to 15 of axis a; on a mover's member from the mover's cell state, whose new value the lead gives (R198). -/
def runCells (a : Nat) (n : Word) (due : List Nat) (s : State) : State :=
  let e := cellEnv s a n
  let ks := due.filter (fun k => k ≠ 0)
  let s0 := s.tick
  match moverOf s a with
  | some g =>
    let own := getCell (getAx s a) 0
    let r := cellsRun s e ks (tset (getGr s g).cells 0 own)
    let s1 := modAx s0 a (fun x => { x with cells := r.1 })
    let s2 := if a = e.lead then modGr s1 g (fun q => { q with cellsNew := some r.1 }) else s1
    let s3 := setCause a 0x03 r.2 s2
    if r.2 then faultAx a 0x03 (Cfg.AXREACT_NUMREACT s (axW a)) s3 else s3
  | none =>
    let r := cellsRun s e ks (getAx s a).cells
    let s1 := modAx s0 a (fun x => { x with cells := r.1 })
    let s2 := if ks.isEmpty then s1 else setCause a 0x03 r.2 s1
    if r.2 then faultAx a 0x03 (Cfg.AXREACT_NUMREACT s (axW a)) s2 else s2

/-- in0 and in1 of PRED, as the group unit weighs them (R98, R196), and a brake test's current (R301). -/
def predRefs (s : State) (a : Nat) (n : Word) : F32 × F32 :=
  let e := cellEnv s a n
  let cs := (getAx s a).cells
  let pc := cellPeriod s a 0
  let i0 := readSel s e pc cs (cellSel s a 0 0)
  let i1 := readSel s e pc cs (cellSel s a 0 1)
  match moverOf s a with
  | some g =>
    let c := nth 0 (getGr s g).weights (memberIdx s g a)
    (fMul c i0, fMul c ((testCurrent s (.group g)).getD i1))
  | none => (i0, (testCurrent s (.axis a)).getD i1)

/-- The group unit supplies the angle of a mover's member (R198); 0 outside COMSRC 2, where it is not used. -/
def suppliedAngle (s : State) (a : Nat) : Option Nat :=
  match moverOf s a with
  | some g => some (moverAngle s g a (angOfs s a))
  | none => none

/-- The axis has a computation on sample round n: its loop, cells or feedback sample, or the following error of an axis
without a current loop (R44, R104). -/
def computesOn (s : State) (a : Nat) (n : Word) : Bool :=
  (kindOf s a ≠ 0 && loopDue s a n) || (List.range 16).any (fun k => cellDue s a k n) || fbDue s a n
    || (kindOf s a = 0 && inMotionState s a)

/-- The axis's part of a computation on sample round n = m − 1, up to its Ladle slice (R84, R104, R437). Writes to its window
take effect first (R24). -/
def computeAxis (a : Nat) (m : Word) (s : State) : State :=
  let n := m - 1
  let loop := decide (kindOf s a ≠ 0) && loopDue s a n
  let cells := (List.range 16).any (fun k => cellDue s a k n)
  if !computesOn s a n then s
  else
    let t := modPred (modCtl s a clearSeen) a (fun p => { p with hallWait := (getAx s a).fb.cntBase.isNone })
    let s0 := match moverOf s a with
      | some g => moverRound g n t
      | none => t
    let q1 := armIdle a m (feedbackFor a n s0)
    let s1 := if loop then hallFup a n q1 else q1
    if s1.sys.pwr = .deep then s1
    else
      let s2 := if loop && s1.sys.pwr = .run then stageReport a n s1 else s1
      let e := entryFor s2 a n
      let pos := (cellEnv s2 a n).pos
      let live := s2.sys.pwr = .run && inMotionState s2 a
      let s3 := if live && (loop || cells || kindOf s2 a = 0) then feEval a n (followErr e.p pos) s2 else s2
      let due := dueCells s3 a n
      let s4 := modProf (chopFollow a due (runCells a n due s3)) (.axis a) (fun p => { p with shown := e })
      if !loop then s4
      else
        let gth := suppliedAngle s4 a
        let allowed := Cfg.CCFG_COMSRC s (axW a) ≠ 2 || (moverOf s4 a).isSome
        if s4.sys.pwr ≠ .run then predTrack a n e.p gth s4
        else if parkedAxis s4 a then stageWords a m allowed (predTrack a n e.p gth s4)
        else
          let r := predRefs s4 a n
          stageWords a m allowed (predRun a n r.1 r.2 e.p gth s4)

end Sys2Proof.Machine
end

