-- ==== Sys2Proof/Machine/AxisCmd.lean ====
section
/-! DEFINITION. Axis commands and transitions (R103, R108 to R110), group commands (R191) and the brake report. A row
named after a command is that command acting (R109): the write that asks for it waits in `ctlq` until the next T0. -/

namespace Sys2Proof.Machine

/-! ### Bank swaps (R66, R101 to R103) -/

/-- lo ≤ x ≤ hi. -/
def fIn (lo hi x : F32) : Bool := fLe lo x && fLe x hi

/-- R66 and R82 on words `w` of a PRED block. -/
def predBankOk (s : State) (a : Nat) (w : Nat → Word) : Bool :=
  let kind := kindOf s a
  let fin := [0, 1, 2, 3, 4, 6, 7, 8, 9, 10].all (fun i => fFinite (w i))
  let res := [11, 12, 13, 14, 15].all (fun i => w i = 0)
  let ang := bits (w 5) 31 16 = 0
  let servo := kind ≠ 1 || (fLe 0 (w 0) && fLt 0 (w 1) && fLt 0 (w 2) && fLe 0 (w 3) && fLt 0 (w 4) && fLe (w 4) fOne)
  let step := kind ≠ 2 || (fLe (w 6) (Cfg.IMAX s (axW a)) && fLe (w 7) (w 6) && fIn 0 fOne (w 8) && fLe 0 (w 9) && fLe 0 (w 10))
  fin && res && ang && servo && step

/-- R101 on words `w` of a cell of type ty: finite words in use, reserved words 0, and the type's own conditions. -/
def cellBankOk (ty nsec : Nat) (w : Nat → Word) : Bool :=
  let used := fun (n : Nat) => (List.range n).all (fun i => fFinite (w i)) && (List.range 16).all (fun i => i < n || w i = 0)
  match ty with
  | 2 => used 10 && fLe 0 (w 3) && fLe (w 6) (w 7) && fIn 0 fOne (w 8)
  | 3 => used (4 * (nsec + 1)) && (List.range (nsec + 1)).all (fun sec =>
      fLt (fAbs (w (4 * sec + 3))) fOne && fLt (fAbs (w (4 * sec + 2))) (fAdd fOne (w (4 * sec + 3))))
  | 4 => [0, 1, 2, 3].all (fun i => fFinite (w i)) && (List.range 16).all (fun i => i < 5 || w i = 0)
      && fLe 0 (w 1) && decide ((w 4).toNat ≤ 65535)
  | 5 => used 1 && fIn 0 fOne (w 0)
  | 6 => used 2 && fLt 0 (w 0) && fLt 0 (w 1)
  | 7 => used 2 && fLe (w 0) (w 1)
  | 8 => used 5
  | 9 => used 5
  | _ => (List.range 16).all (fun i => w i = 0)

/-- A bank of axis a passes R66 and R101. An unused slot holds reserved words only. -/
def bankOk (s : State) (a : Nat) (bank : Bool) : Bool :=
  (List.range 16).all (fun k =>
    let w := fun i => memWord s (coefAddr s a bank k i)
    if cellType s a k = 1 then predBankOk s a w else cellBankOk (cellType s a k) (Cfg.CELCFG_NSEC s (cellW a k)) w)

/-- A swap request is refused: one is pending, or the inactive bank fails (R66, R103). -/
def swapRefused (s : State) (a : Nat) : Bool := (getAx s a).ctl.swapPend || !bankOk s a (!(getAx s a).ctl.bank)

/-- A swap request in this round (R103). -/
def swapRequest (a : Nat) (s : State) : State :=
  if swapRefused s a then
    raiseAx a caCoefRefused (modCtl s a (fun c => { c with refCnt := inc16 c.refCnt }))
  else modCtl s a (fun c => { c with swapPend := true, swapAt := frameBoundary s a s.sys.round + 1 })

/-- SWAP (R103): a write of 1 to AXCTL.SWAP. -/
def execSwap (a : Nat) (s : State) : Host.Outcome State Fault Refusal := .next (swapRequest a s)

/-- At T0 of round swap_at the active bank changes (R103). -/
def bankSwap (a : Nat) (s : State) : State :=
  let c := (getAx s a).ctl
  if c.swapPend ∧ c.swapAt = s.sys.round then
    raiseAx a caSwapDone (modCtl s a (fun c => { c with bank := !c.bank, swapPend := false, swapCnt := inc16 c.swapCnt }))
  else s

/-- BANK_SWAP (R103). -/
def execBankSwap (a : Nat) (s : State) : Host.Outcome State Fault Refusal := .next (bankSwap a s)

/-! ### Entry to RUN (R89, R104, R108, R189) -/

/-- The set-point of an owner stands still at a position: the state, and the entries that computations read. -/
def holdAt (pos : Int) (p : Prof) : Prof :=
  { p with
    kin := { p := pos * 2 ^ 32, v := 0, a := 0 }, cur := none, queue := [], accepted := [], overlaid := none
    entries := p.entries.map (fun _ => { p := pos }), shown := { p := pos }
    nextEntries := p.nextEntries.map (fun x => (x.1, x.2.map (fun _ => { p := pos })))
    rest := true, quick := false, limStop := false, prevTarget := none, refPhase := .idle, refPoint := none
    rev := false, slStop := false, decDef := false }

/-- What every entry to RUN resets (R104). -/
def runEntry (c : AxCtl) : AxCtl :=
  { c with st := .run, qscmd := false, wait := .none, feAcc := 0, feLast := none, firstRun := true }

/-- The GEAR groups above axis a whose STATE has become RUN latch LBASE at their next tick (R186). -/
def relatch (a : Nat) (old s : State) : State :=
  forAll (ancestors s a) (fun g s =>
    if groupState old g ≠ 3 ∧ groupState s g = 3 then modGr s g (fun r => { r with running := false }) else s) s

/-- Axis a enters RUN from READY or PARK (R108): its cells are initialised, its set-point starts at its position, the
brake release is requested. Where its group's STATE becomes RUN by it, the group starts at GFBPOS (R189) and a mover's
cell state is initialised and its car brake's release requested (R198, R294). -/
def enterRun (a : Nat) (s : State) : State :=
  let before := (parentOf s a).map (fun g => topGroup s 8 g)
  let was := match before with
    | some g => groupState s g
    | none => 0
  let s1 := modAx s a (fun x => { x with ctl := runEntry x.ctl, cells := cellsInit x.cells })
  let s2 := relatch a s (requestRelease a s1)
  match before with
  | none => modProf s2 (.axis a) (holdAt (getAx s a).fb.pos)
  | some g =>
    if groupState s2 g = 3 ∧ was ≠ 3 then
      modGr s2 g (fun r => { r with prof := holdAt r.gfbPos r.prof
                                    cells := if isMover s g then cellsInit r.cells else r.cells
                                    brkWant := isMover s g, brkNew := isMover s g && !r.brkWant })
    else s2

/-! ### The commands (R108, R109) -/

/-- The head takes axis commands other than RESET (R109). -/
def headTakes (s : State) : Bool := s.sys.hstate = .active || s.sys.hstate = .standby || s.sys.hstate = .handback

/-- The node of axis a is ADMITTED on its fast channel (R242). -/
def nodeAdmitted (s : State) (a : Nat) : Bool :=
  match axisNode s a with
  | some (n, _) => (getNode s (fastCh s n) n).st = 3
  | none => false

/-- A queue owner is at rest (R172). -/
def atRest (s : State) (o : Owner) : Bool := (getProf s o).rest

/-- The axis has a GANTRY, GEAR or SUM parent whose queue owner moves (R191). -/
def parentMoves (s : State) (a : Nat) : Bool :=
  match parentOf s a with
  | some g => !isMover s g && !atRest s (topOwner s a)
  | none => false

/-- A command that the table of R108 does not allow: the command-refused event and nothing else (R109). -/
def refuseCmd (a : Nat) (s : State) : State := raiseAx a caRefused s

/-- What holds ENABLE back: a node that is not ADMITTED on its fast channel (R49, R242), and fault 0x18 while it persists
(R127). An axis of kind NONE may have no node. -/
def mayEnable (s : State) (a : Nat) : Bool :=
  (nodeAdmitted s a || (kindOf s a = 0 && (axisNode s a).isNone)) && !((getAx s a).ctl.causes.testBit 0x18)

/-- ENABLE (R108, R115, R127, R242). -/
def cmdEnable (a : Nat) (s : State) : Option State :=
  if headTakes s && axSt s a = .off && mayEnable s a then
    if kindOf s a = 0 then some (modCtl s a (fun c => { c with st := .ready }))
    else
      some (modAx s a (fun x => { x with ctl := { x.ctl with st := .prestart },
                                         stage := startSeq .prestart { x.stage with retryOk := false } }))
  else none

/-- RUN (R108, R191). -/
def cmdRun (a : Nat) (s : State) : Option State :=
  if headTakes s && axSt s a = .ready && !parentMoves s a then some (enterRun a s) else none

/-- PARK (R108): with Wheel at rest and its queue empty. Without a brake channel the report counts as given at once. -/
def cmdPark (a : Nat) (s : State) : Option State :=
  let o := topOwner s a
  if headTakes s && axSt s a = .run && atRest s o && (getProf s o).queue.isEmpty then
    let s1 := requestBrake a s
    let app := (getAx s1 a).ctl.brkApp
    some (modCtl s1 a (fun c => { c with st := .park, wait := if app then .none else .brakePark }))
  else none

/-- UNPARK (R108, R191). -/
def cmdUnpark (a : Nat) (s : State) : Option State :=
  if headTakes s && axSt s a = .park && !parentMoves s a then some (enterRun a s) else none

/-- QSTOP (R108, R192). -/
def cmdQstop (a : Nat) (s : State) : Option State :=
  if headTakes s && axSt s a = .run then
    some (treeQuickStop a (modCtl s a (fun c => { c with st := .qstop, qscmd := true, wait := .none })))
  else none

/-- DISABLE (R108). -/
def cmdDisable (a : Nat) (s : State) : Option State :=
  let c := (getAx s a).ctl
  if !headTakes s then none
  else
    match c.st with
    | .run => some (treeQuickStop a (modCtl s a (fun c => { c with st := .qstop, qscmd := true, wait := .restOff })))
    | .qstop => if c.qscmd then some (modCtl s a (fun c => if c.wait = .none then { c with wait := .restOff } else c)) else none
    | .prestart => some (requestBrake a (enterOff .off a s))
    | .ready => some (requestBrake a (enterOff .off a s))
    | .park => some (requestBrake a (enterOff .off a s))
    | _ => none

/-- RESET (R108): in every head state (R109). -/
def cmdReset (a : Nat) (s : State) : Option State :=
  let c := (getAx s a).ctl
  if c.st = .fault && !causeActive s a && c.brkApp then
    some (modCtl s a (fun c => { c with st := .off, react := 0, fcode := 0 }))
  else none

/-- A command code of AXCTL.CMD (R110): none where it is refused. -/
def axisCmd (code a : Nat) (s : State) : Option State :=
  match code with
  | 0 => some s
  | 1 => cmdEnable a s
  | 2 => cmdRun a s
  | 3 => cmdPark a s
  | 4 => cmdUnpark a s
  | 5 => cmdQstop a s
  | 6 => cmdDisable a s
  | _ => cmdReset a s

/-- A command that acts now, or is refused (R109). -/
def axisAct (code a : Nat) (s : State) : State := (axisCmd code a s).getD (refuseCmd a s)

/-- ENABLE (R108). -/
def execEnable (a : Nat) (s : State) : Host.Outcome State Fault Refusal := .next (axisAct 1 a s)
/-- RUN (R108). -/
def execRun (a : Nat) (s : State) : Host.Outcome State Fault Refusal := .next (axisAct 2 a s)
/-- PARK (R108). -/
def execPark (a : Nat) (s : State) : Host.Outcome State Fault Refusal := .next (axisAct 3 a s)
/-- UNPARK (R108). -/
def execUnpark (a : Nat) (s : State) : Host.Outcome State Fault Refusal := .next (axisAct 4 a s)
/-- QSTOP (R108). -/
def execQstop (a : Nat) (s : State) : Host.Outcome State Fault Refusal := .next (axisAct 5 a s)
/-- DISABLE (R108). -/
def execDisable (a : Nat) (s : State) : Host.Outcome State Fault Refusal := .next (axisAct 6 a s)
/-- RESET (R108). -/
def execReset (a : Nat) (s : State) : Host.Outcome State Fault Refusal := .next (axisAct 7 a s)

/-! ### Rest and brake reports (R105, R108, R172) -/

/-- The brake is reported applied, or the axis has none: the waiting transition ends (R105, R108). -/
def brakeDone (a : Nat) (s : State) : State :=
  let c := (getAx s a).ctl
  if !c.brkApp then s
  else
    match c.wait with
    | .brakePark => modCtl s a (fun c => { c with wait := .none })
    | .brakeOff => enterOff .off a s
    | .brakeFault => enterOff .fault a s
    | _ => s

/-- BRAKE_APPLIED_REPORT (R108): a valid report shows FB = applied. -/
def brakeApplied (a : Nat) (s : State) : State :=
  brakeDone a (modCtl s a (fun c => { c with brkApp := true, brkRel := false }))

/-- BRAKE_APPLIED_REPORT (R108). -/
def execBrakeAppliedReport (a : Nat) (s : State) : Host.Outcome State Fault Refusal := .next (brakeApplied a s)

/-- An axis in QSTOP whose owner is at rest (R172): a commanded quick stop ends in RUN, a DISABLE or a fault reaction
requests the brake. -/
def restDone (a : Nat) (s : State) : State :=
  let c := (getAx s a).ctl
  if c.st = .qstop ∧ atRest s (topOwner s a) then
    match c.wait with
    | .none =>
      if c.qscmd then
        let clear := fun (cs : Tab Cell) => cs.map (fun q => (q.1, { q.2 with numf := false }))
        let s1 := modAx s a (fun x => { x with ctl := { runEntry x.ctl with firstRun := x.ctl.firstRun }, cells := clear x.cells })
        let s2 := relatch a s s1
        match moverOf s a with
        | some g => modGr s2 g (fun r => { r with cells := clear r.cells })
        | none => s2
      else s
    | .restOff => brakeDone a (modCtl (requestBrake a s) a (fun c => { c with wait := .brakeOff }))
    | .restFault => brakeDone a (modCtl (requestBrake a s) a (fun c => { c with wait := .brakeFault }))
    | _ => s
  else s

/-! ### Group commands (R191) -/

/-- A group command is forwarded, but for some axes, to every axis of the tree, to the current members of a mover, and judged for each. An
axis that the same quick stop has already taken along under R192 is not asked again. -/
def groupActBut (skip : List Nat) (code g : Nat) (s : State) : State :=
  forAll ((treeAxes s (.group g)).filter (fun a => !skip.contains a)) (fun a t =>
    if code = 5 ∧ axSt s a = .run ∧ axSt t a = .qstop then t else axisAct code a t) s

/-- A group command (R191). -/
def groupAct (code g : Nat) (s : State) : State := groupActBut [] code g s

/-- GROUP_ENABLE (R191). -/
def execGroupEnable (g : Nat) (s : State) : Host.Outcome State Fault Refusal := .next (groupAct 1 g s)
/-- GROUP_RUN (R191). -/
def execGroupRun (g : Nat) (s : State) : Host.Outcome State Fault Refusal := .next (groupAct 2 g s)
/-- GROUP_PARK (R191). -/
def execGroupPark (g : Nat) (s : State) : Host.Outcome State Fault Refusal := .next (groupAct 3 g s)
/-- GROUP_UNPARK (R191). -/
def execGroupUnpark (g : Nat) (s : State) : Host.Outcome State Fault Refusal := .next (groupAct 4 g s)
/-- GROUP_QSTOP (R191). -/
def execGroupQstop (g : Nat) (s : State) : Host.Outcome State Fault Refusal := .next (groupAct 5 g s)
/-- GROUP_DISABLE (R191). -/
def execGroupDisable (g : Nat) (s : State) : Host.Outcome State Fault Refusal := .next (groupAct 6 g s)
/-- GROUP_RESET (R191). -/
def execGroupReset (g : Nat) (s : State) : Host.Outcome State Fault Refusal := .next (groupAct 7 g s)

/-- LOCGO acts on group g (R191). -/
def locOk (s : State) (g : Nat) : Bool := isMover s g && (groupState s g = 0 || groupState s g = 6)

/-- A segment joins a mover: its PRED starts from zero history (R65, R194). -/
def joinSegment (a : Nat) (s : State) : State :=
  modPred s a (fun p => { p with hist := [], thetas := [], offA := 0, offB := 0, satA := false, satB := false,
                                 lastSp := none, hold := 0 })

/-- A segment leaves a mover: the causes that the mover's members share end for it (R200). -/
def leaveSegment (a : Nat) (s : State) : State := setCause a 0x43 false (setCause a 0x44 false (setCause a 0x45 false s))

/-- The members of a mover change from `old` to `new`. -/
def changeSegments (old new : List Nat) (s : State) : State :=
  forAll (new.filter (fun a => !old.contains a)) joinSegment (forAll (old.filter (fun a => !new.contains a)) leaveSegment s)

/-- LOCGO (R191): valid only while a mover's STATE is OFF or FAULT; its members become the segment's axis alone. -/
def locGo (g seg : Nat) (s : State) : State :=
  if locOk s g then
    let new := [Cfg.SEGAX_AXIS s (segW seg)]
    changeSegments (curMembers s g) new
      (modGr s g (fun r => { r with members := some new, fusedAt := none, xMiss := 0 }))
  else raiseGr g caRefused s

/-- LOCGO (R191). -/
def execLocgo (g seg : Nat) (s : State) : Host.Outcome State Fault Refusal := .next (locGo g seg s)

/-! ### Commands that wait for the next T0 (R109, R191, R199) -/

/-- A waiting command acts. -/
def ctlAct (c : CtlCmd) (s : State) : State :=
  match c with
  | .axis a cmd => axisAct cmd a s
  | .group g cmd skip => groupActBut skip cmd g s
  | .locgo g seg => locGo g seg s

/-- A RUN command. -/
def isRunCmd (c : CtlCmd) : Bool :=
  match c with
  | .axis _ cmd => cmd = 2
  | .group _ cmd _ => cmd = 2
  | .locgo _ _ => false

/-- A command takes its place: the order of arrival, but a LOCGO before the RUN commands of its round (R199). -/
def ctlPlace (q : List CtlCmd) (c : CtlCmd) : List CtlCmd :=
  match c with
  | .locgo _ _ => (q.reverse.dropWhile isRunCmd).reverse ++ [c] ++ (q.reverse.takeWhile isRunCmd).reverse
  | _ => q ++ [c]

/-- The state that waiting commands leave, for the judgement of the next (R109). -/
def ctlAfter (q : List CtlCmd) (s : State) : State := forAll q ctlAct { s with ctlq := [] }

/-- The axes for which a group command is refused, in the state left by each before it. -/
def groupRefused (code g : Nat) (s : State) : List Nat :=
  ((treeAxes s (.group g)).foldl (fun (r : State × List Nat) a =>
    if code = 5 ∧ axSt s a = .run ∧ axSt r.1 a = .qstop then r
    else
      match axisCmd code a r.1 with
      | some t => (t, r.2)
      | none => (r.1, r.2 ++ [a])) (s, [])).2

/-- A written command joins the others, and whether it is refused (R109). It is judged as written, on the state that those
before it leave, and what is refused then raises its event and does not act; what is allowed is judged again when it acts
(DEDUCED, log 19). -/
def ctlSubmit (c : CtlCmd) (s : State) : State × Bool :=
  match c with
  | .axis a cmd =>
    if (axisCmd cmd a (ctlAfter s.ctlq s)).isSome then ({ s with ctlq := ctlPlace s.ctlq c }, false) else (refuseCmd a s, true)
  | .group g cmd _ =>
    let no := groupRefused cmd g (ctlAfter s.ctlq s)
    (forAll no refuseCmd { s with ctlq := ctlPlace s.ctlq (.group g cmd no) }, !no.isEmpty)
  | .locgo g _ =>
    if locOk (ctlAfter ((s.ctlq.reverse.dropWhile isRunCmd).reverse) s) g then ({ s with ctlq := ctlPlace s.ctlq c }, false)
    else (raiseGr g caRefused s, true)

/-- The waiting commands act at the start of a round (R109, R191). -/
def runCtl (s : State) : State := ctlAfter s.ctlq s

/-! ### Releases of a power stage or feedback input (R34, R35, R106, R108, R150) -/

/-- What the release of a channel changes beside the retire block. -/
def releaseEffect (cls idx : Nat) (s : State) : State :=
  if cls = clsStage then
    if axSt s idx = .retired then modCtl s idx (fun c => { c with st := .off, react := 0, fcode := 0 }) else s
  else if cls = clsFeedback then
    forAll (List.range 128) (fun a s => if fbRetIdx s a = idx then setCause a 0x25 false s else s) s
  else if cls = clsSdi then checkDetection s
  else s

end Sys2Proof.Machine
end

