-- ==== Sys2Proof/Machine/Access.lean ====
section
/-! DEFINITION. The address map (R18), the rights of the masters (R21) and the effect of a refused access. -/

namespace Sys2Proof.Machine

/-- The regions of R18. -/
inductive Region where
  | sram | cap | sys | evt | boot | host
  | link (ch : Nat)
  | sched
  | churn (c : Nat)
  | wheel | group | fbk | pstage | twin | casc | saggar | record | ladle | fuse
  | axis (a : Nat)
  | grp (g : Nat)
  deriving DecidableEq, Repr

/-- The region of an address; none outside every region (R18, R19). -/
def regionOf (a : Nat) : Option Region :=
  let page := a / 0x10000
  if a < 0x400000 then some .sram
  else if 0x41000000 ≤ a ∧ a < 0x41080000 then some (.axis (a / 0x1000 % 0x1000))
  else if 0x42000000 ≤ a ∧ a < 0x42020000 then some (.grp ((a - 0x42000000) / 0x400))
  else if 0x4020 ≤ page ∧ page < 0x4030 then some (.churn ((page - 0x4020) / 4))
  else
    match page with
    | 0x4000 => some .cap
    | 0x4001 => some .sys
    | 0x4002 => some .evt
    | 0x4003 => some .boot
    | 0x4004 => some .host
    | 0x4010 => some (.link 0)
    | 0x4011 => some (.link 1)
    | 0x4012 => some .sched
    | 0x4030 => some .wheel
    | 0x4031 => some .group
    | 0x4032 => some .fbk
    | 0x4033 => some .pstage
    | 0x4040 => some .twin
    | 0x4041 => some .casc
    | 0x4050 => some .saggar
    | 0x4060 => some .record
    | 0x4070 => some .ladle
    | 0x4080 => some .fuse
    | _ => none

/-- The compact core's local memory (R5). -/
def inLocal (a : Nat) : Bool := 0x40708000 ≤ a && a < 0x40710000

/-- An access of n bytes is well placed (R5, R27): aligned, and a whole word in a register region. -/
def accessOk (a n : Nat) : Bool :=
  (n = 1 || n = 2 || n = 4) && a % n = 0 && (a < 0x400000 || inLocal a || n = 4)

/-- An address inside partition i of R28. -/
def inPart (s : State) (i a : Nat) : Bool := partBase s i ≤ a && a < partBase s i + partSize s i

/-- Read rights (R21). -/
def mayRead (m : Master) (r : Region) : Bool :=
  match m with
  | .saggar => r = .saggar || r = .sram
  | _ => true

/-- The RWL registers SGPSEL and SGPVAL, the image registers IMGCMD and IMGWBUF, and RTREL: the compact core may not write
them (R21). -/
def compactBarred (a : Nat) : Bool :=
  a = 0x40500040 || a = 0x40500044 || a = 0x40010408 || a = 0x4003000C || (0x40030100 ≤ a && a < 0x40030200)

/-- Write rights, before what R20 lets be written at all (R21). -/
def mayWrite (s : State) (m : Master) (a : Nat) : Bool :=
  match m, regionOf a with
  | _, none => false
  | .host, some r => r ≠ .cap && r ≠ .fuse
  | .compact, some r => r ≠ .cap && r ≠ .fuse && !compactBarred a
  | .wide c, some (.axis x) => x / 32 = c
  | .wide c, some (.churn x) => x = c
  | .wide _, some .sram => inPart s ptLADLE a
  | .wide _, some _ => false
  | .boot, some _ => s.sys.hstate = .boot
  | .saggar, some r => r = .saggar

/-- A refused access raises the bus-error event (R21). -/
def busError (s : State) : State := raise evBusError s

/-- A write that R20 does not allow raises the refused-write event and changes nothing. -/
def refuseWrite (s : State) : State := raise evRefusedWrite s

/-- What becomes of the compact core's writes outside its local memory: lost while the core PLL is stopped (R340), and
discarded in STANDBY (R357). -/
def compactGate (m : Master) (f : State → State) (s : State) : State :=
  if m = .compact ∧ s.sys.pwr = .deep then
    { s with lad := { s.lad with cores := tset s.lad.cores 4 { tget {} s.lad.cores 4 with clkOff := true } } }
  else if m = .compact ∧ s.sys.hstate = .standby then s
  else f s

/-- A command written to a register, under the rights of R21. -/
def withRight (m : Master) (a : Nat) (f : State → State) (s : State) : State :=
  compactGate m (fun s => if mayWrite s m a then f s else busError s) s

/-- A keyed command register (R37, R287, R316, R334, R362, R383, R421): without the key the write acts as nothing and
raises the refused-write event. -/
def keyed (w : Word) (f : State → State) (s : State) : State :=
  if bits w 31 16 = Config.key then f s else refuseWrite s

end Sys2Proof.Machine
end

