-- ==== Sys2Proof/Machine/Hash.lean ====
section
/-! DEFINITION. The checks and hashes the spec names: CRC-32 (R215), the safe CRC (R297), the digest CRC-64 (R271),
CRC-6 and parity of SSI frames (R137), SHA-256 and ECDSA on P-256 (R308, R369, R370). -/

namespace Sys2Proof.Machine

/-- One bit of a reflected CRC. -/
def crcBitR (poly : Nat) : Nat → Nat → Nat
  | 0, c => c
  | k + 1, c => crcBitR poly k (if c % 2 = 1 then (c / 2) ^^^ poly else c / 2)

/-- A reflected CRC over bytes: each byte taken least significant bit first. -/
def crcR (poly : Nat) (init : Nat) (l : List Byte) : Nat :=
  l.foldl (fun c b => crcBitR poly 8 (c ^^^ b.toNat)) init

/-- CRC-32 of R215: generator 0x04C1_1DB7, initial value 0xFFFF_FFFF, complemented. -/
def crc32 (l : List Byte) : Nat := crcR 0xEDB88320 0xFFFFFFFF l ^^^ 0xFFFFFFFF

/-- SCRC of R297: generator 0x1EDC_6F41 with the seed of the copy, complemented. -/
def scrc (seed : Nat) (l : List Byte) : Nat := crcR 0x82F63B78 seed l ^^^ 0xFFFFFFFF

/-- The seed of a copy of a safe frame (R297): channel A or B. -/
def scrcSeed (ch : Nat) : Nat := if ch = 0 then 0xFFFFFFFF else 0x5AA5C33C

/-- One bit of a CRC taken most significant bit first over n bits. -/
def crcBitL (n poly : Nat) : Nat → Nat → Nat
  | 0, c => c
  | k + 1, c => crcBitL n poly k (if c.testBit (n - 1) then ((2 * c) % 2 ^ n) ^^^ poly else 2 * c)

/-- The digest CRC-64 of R271: generator 0x42F0_E1EB_A9EA_3693, initial value 0, no reflection, no complement. -/
def crc64 (l : List Byte) : Nat :=
  l.foldl (fun c b => crcBitL 64 0x42F0E1EBA9EA3693 8 (c ^^^ (b.toNat * 2 ^ 56))) 0

/-- CRC-6 of R137 (x^6 + x + 1, initial value 0) over data bits, most significant first. -/
def crc6 (l : List Bool) : Nat :=
  l.foldl (fun c b =>
    let fb := c.testBit 5 != b
    ((2 * c) % 64) ^^^ (if fb then 3 else 0)) 0

/-- Even parity bit of R137 over data bits. -/
def evenParity (l : List Bool) : Bool := l.foldl (fun p b => p != b) false

/-- The number a list of bits spells, most significant first. -/
def bitsToNat (l : List Bool) : Nat := l.foldl (fun n b => 2 * n + b2n b) 0

/-- Rotate a 32-bit number right. -/
def rotr32 (x k : Nat) : Nat := ((x >>> k) ||| (x * 2 ^ (32 - k))) % 2 ^ 32

/-- The round constants of FIPS 180-4. -/
def sha256K : List Nat :=
  [0x428a2f98, 0x71374491, 0xb5c0fbcf, 0xe9b5dba5, 0x3956c25b, 0x59f111f1, 0x923f82a4, 0xab1c5ed5] ++
  [0xd807aa98, 0x12835b01, 0x243185be, 0x550c7dc3, 0x72be5d74, 0x80deb1fe, 0x9bdc06a7, 0xc19bf174] ++
  [0xe49b69c1, 0xefbe4786, 0x0fc19dc6, 0x240ca1cc, 0x2de92c6f, 0x4a7484aa, 0x5cb0a9dc, 0x76f988da] ++
  [0x983e5152, 0xa831c66d, 0xb00327c8, 0xbf597fc7, 0xc6e00bf3, 0xd5a79147, 0x06ca6351, 0x14292967] ++
  [0x27b70a85, 0x2e1b2138, 0x4d2c6dfc, 0x53380d13, 0x650a7354, 0x766a0abb, 0x81c2c92e, 0x92722c85] ++
  [0xa2bfe8a1, 0xa81a664b, 0xc24b8b70, 0xc76c51a3, 0xd192e819, 0xd6990624, 0xf40e3585, 0x106aa070] ++
  [0x19a4c116, 0x1e376c08, 0x2748774c, 0x34b0bcb5, 0x391c0cb3, 0x4ed8aa4a, 0x5b9cca4f, 0x682e6ff3] ++
  [0x748f82ee, 0x78a5636f, 0x84c87814, 0x8cc70208, 0x90befffa, 0xa4506ceb, 0xbef9a3f7, 0xc67178f2]

/-- The initial hash value of FIPS 180-4. -/
def sha256H0 : List Nat :=
  [0x6a09e667, 0xbb67ae85, 0x3c6ef372, 0xa54ff53a, 0x510e527f, 0x9b05688c, 0x1f83d9ab, 0x5be0cd19]

/-- Message schedule: the newest word first. -/
def sha256Sched : Nat → List Nat → List Nat
  | 0, w => w
  | k + 1, w =>
    let w2 := w.getD 1 0
    let w15 := w.getD 14 0
    let s0 := rotr32 w15 7 ^^^ rotr32 w15 18 ^^^ (w15 >>> 3)
    let s1 := rotr32 w2 17 ^^^ rotr32 w2 19 ^^^ (w2 >>> 10)
    sha256Sched k (((w.getD 15 0 + s0 + w.getD 6 0 + s1) % 2 ^ 32) :: w)

/-- The eight working variables of the compression function. -/
structure ShaVars where
  a : Nat
  b : Nat
  c : Nat
  d : Nat
  e : Nat
  f : Nat
  g : Nat
  h : Nat

/-- One round of the compression function on a schedule word and a constant. -/
def shaRound (v : ShaVars) (wk : Nat × Nat) : ShaVars :=
  let s1 := rotr32 v.e 6 ^^^ rotr32 v.e 11 ^^^ rotr32 v.e 25
  let ch := (v.e &&& v.f) ^^^ ((v.e ^^^ 0xFFFFFFFF) &&& v.g)
  let t1 := (v.h + s1 + ch + wk.2 + wk.1) % 2 ^ 32
  let s0 := rotr32 v.a 2 ^^^ rotr32 v.a 13 ^^^ rotr32 v.a 22
  let mj := (v.a &&& v.b) ^^^ (v.a &&& v.c) ^^^ (v.b &&& v.c)
  let t2 := (s0 + mj) % 2 ^ 32
  { a := (t1 + t2) % 2 ^ 32, b := v.a, c := v.b, d := v.c, e := (v.d + t1) % 2 ^ 32, f := v.e, g := v.f, h := v.g }

/-- One block of 16 words into the hash value. -/
def shaBlock (h : List Nat) (blk : List Nat) : List Nat :=
  let w := (sha256Sched 48 blk.reverse).reverse
  let g := fun i => h.getD i 0
  let v := (w.zip sha256K).foldl shaRound
    { a := g 0, b := g 1, c := g 2, d := g 3, e := g 4, f := g 5, g := g 6, h := g 7 }
  (List.zip h [v.a, v.b, v.c, v.d, v.e, v.f, v.g, v.h]).map (fun p => (p.1 + p.2) % 2 ^ 32)

/-- Blocks of 16 words, in order. -/
def shaBlocks : Nat → List Nat → List Nat → List Nat
  | 0, h, _ => h
  | k + 1, h, ws => shaBlocks k (shaBlock h (ws.take 16)) (ws.drop 16)

/-- SHA-256 of a byte string (FIPS 180-4), as 32 bytes. -/
def sha256 (l : List Byte) : List Byte :=
  let pad := (119 - l.length % 64) % 64
  let m := l ++ [0x80#8] ++ List.replicate pad 0#8 ++ beBytes 8 (8 * l.length)
  let ws := (beWords m).map BitVec.toNat
  (shaBlocks (ws.length / 16) sha256H0 ws).flatMap (beBytes 4)

/-- The field of P-256 (FIPS 186-4). -/
def p256P : Nat := 0xffffffff00000001000000000000000000000000ffffffffffffffffffffffff
/-- The order of the base point. -/
def p256N : Nat := 0xffffffff00000000ffffffffffffffffbce6faada7179e84f3b9cac2fc632551
/-- The coefficient b. -/
def p256B : Nat := 0x5ac635d8aa3a93e7b3ebbd55769886bc651d06b0cc53b0f63bce3c3e27d2604b
/-- The base point. -/
def p256G : Nat × Nat :=
  (0x6b17d1f2e12c4247f8bce6e563a440f277037d812deb33a0f4a13945d898c296,
   0x4fe342e2fe1a7f9b8ee7eb4a7c0f9e162bce33576b315ececbb6406837bf51f5)

/-- Power modulo m, by the bits of the exponent. -/
def powMod (m : Nat) : Nat → Nat → Nat → Nat → Nat
  | 0, _, _, acc => acc
  | k + 1, b, e, acc => powMod m k (b * b % m) (e / 2) (if e % 2 = 1 then acc * b % m else acc)

/-- Inverse modulo a prime. -/
def invMod (m x : Nat) : Nat := powMod m 256 (x % m) (m - 2) 1

/-- Sum of two points of P-256; none is the point at infinity. -/
def ecAdd (a b : Option (Nat × Nat)) : Option (Nat × Nat) :=
  match a, b with
  | none, q => q
  | p, none => p
  | some (x1, y1), some (x2, y2) =>
    let p := p256P
    if x1 = x2 ∧ (y1 + y2) % p = 0 then none
    else
      let l := if x1 = x2 then (3 * x1 * x1 + (p - 3)) * invMod p (2 * y1) % p
        else (y2 + (p - y1)) * invMod p (x2 + (p - x1)) % p
      let x3 := (l * l + (p - x1) + (p - x2)) % p
      let y3 := (l * (x1 + (p - x3)) + (p - y1)) % p
      some (x3, y3)

/-- Multiple of a point, by the bits of the factor. -/
def ecMul : Nat → Nat → Option (Nat × Nat) → Option (Nat × Nat) → Option (Nat × Nat)
  | 0, _, _, acc => acc
  | n + 1, k, q, acc => ecMul n (k / 2) (ecAdd q q) (if k % 2 = 1 then ecAdd acc q else acc)

/-- ECDSA on P-256: is (r, s) a signature of the hash under the public key (R369)? -/
def ecdsaVerify (hash : List Byte) (qx qy r s : Nat) : Bool :=
  let p := p256P
  let n := p256N
  let onCurve := qx < p && qy < p && qy * qy % p == (qx * qx % p * qx + (p - 3) * qx + p256B) % p
  if onCurve && 1 ≤ r && r < n && 1 ≤ s && s < n then
    let z := beNat hash 0 32
    let w := invMod n s
    let pt := ecAdd (ecMul 256 (z * w % n) (some p256G) none) (ecMul 256 (r * w % n) (some (qx, qy)) none)
    match pt with
    | some (x, _) => x % n == r
    | none => false
  else false

end Sys2Proof.Machine
end

