-- ==== Sys2Proof/Machine/Ecc.lean ====
section
/-! DEFINITION. Errors of the SRAM's ECC (R29, R30): correction on a read, the double-bit error and its effect by
partition, and the background scrubber. No command brings an error in; the state may hold some. -/

namespace Sys2Proof.Machine

/-- The wide cores a LADLE word concerns (R30): those whose persistent region holds it. Of a word in no persistent region the
spec does not say whose it is: it concerns every wide core (DESIGN CHOICE, log 32). -/
def ladleConcerned (s : State) (w : Nat) : List Nat :=
  let o := w - partBase s ptLADLE
  let l := (List.range 4).filter (fun c =>
    let b := 1024 * Cfg.LDPERS_BASE s (coW c)
    decide (b ≤ o) && decide (o < b + 1024 * Cfg.LDPERS_SIZE s (coW c)))
  (if l.isEmpty then List.range 4 else l).filter (fun c => decide ((getCore s c).st < 2))

/-- The record of the working copy in which a word lies is marked INVALID (R325). -/
def recInvalid (w : Nat) (s : State) : State :=
  let o := w - partBase s ptRECORD
  let mark := fun (a : Nat) => memPutW a (memWord s a ||| 0x80000000#32) s
  if 0x1000 ≤ o ∧ o < 0x5000 then mark (histAddr s ((o - 0x1000) / 0x100))
  else if 0x5000 ≤ o ∧ o < 0x6000 then mark (coneAddr s ((o - 0x5000) / 0x20))
  else s

/-- The owner whose queue slot holds a word (R180). -/
def queueOwner (s : State) (w : Nat) : Option Owner := (ownersUsed s)[(w - partBase s ptQUEUE) / 1024]?

/-- A double-bit error in QUEUE (R30, R180): fault 0x08 on the owner's axes, and the queue is cleared. -/
def queueError (w : Nat) (s : State) : State :=
  match queueOwner s w with
  | some o =>
    modProf (forAll (treeAxes s o) (fun a => faultAx a 0x08 2) s) o (fun p => { p with queue := [] })
  | none => s

/-- The axes that use a word of the AXIS partition: the axis whose active bank holds it, and the members of a mover that it
leads (R30, R196). -/
def coefUsers (s : State) (w : Nat) : List Nat :=
  let a := (w - partBase s ptAXIS) / 0x800
  let b := coefAddr s a (getAx s a).ctl.bank 0 0
  if a < usableAxes s && decide (b ≤ w) && decide (w < b + 0x400) then
    (match moverOf s a with
     | some g => if (curMembers s g).head? = some a then curMembers s g else [a]
     | none => [a])
  else []

/-- The schedule tables are loaded again from the active image slot (R30). -/
def reloadSched (ch : Nat) (s : State) : State :=
  let lo := partBase s ptSCHED + ch * 0x4000
  let mine := fun (x : Nat) => (decide (lo ≤ x) && decide (x < lo + 0x4000)) || (decide (lo + 0x8000 ≤ x) && decide (x < lo + 0xC000))
  { s with hardErr := s.hardErr.filter (fun x => !(inPart s ptSCHED x && mine x)) }

/-- The effect of a double-bit error by partition (R30). The TABLES partition serves no axis (log 14); which channel a word of
LINKBUF serves the spec does not say (log 32), and there is no frame in it that the model holds. -/
def eccEffect (w : Nat) (s : State) : State :=
  if inPart s ptAXIS w then forAll (coefUsers s w) (fun a s => faultAx a 0x07 3 (setCause a 0x07 true s)) s
  else if inPart s ptSCHED w then
    let ch := (w - partBase s ptSCHED) / 0x4000 % 2
    transient clsChannel ch (reloadSched ch s)
  else if inPart s ptQUEUE w then queueError w s
  else if inPart s ptLADLE w then forAll (ladleConcerned s w) (fun c => haltCore c 4 (BitVec.ofNat 32 w)) s
  else if inPart s ptRECORD w then recInvalid w s
  else if inPart s ptTRACE w then { s with traceBad := w :: s.traceBad.filter (fun x => x ≠ w) }
  else if inPart s ptLINKBUF w then modCh s.tick (b2n (freeB s)) (fun c => { c with crcErr := inc16 c.crcErr })
  else s

/-- A read of word w that is not a Ladle core's own (R29, R30). -/
def eccRead (w : Nat) (s : State) : State := if eccBad s w then eccEffect w (eccReport s) else eccFix w s

/-- A word read by the unit that uses it: through the ECC, and a free value in place of one with a double-bit error. -/
def eccLoad (a : Nat) (s : State) : State × Word :=
  let s1 := eccRead (eccWord a) s
  if eccBad s1 (eccWord a) then (s1.tick, freeW s1) else (s1, memWord s1 a)

/-- Reads of the words of SRAM in [lo, hi) by the unit that uses them: what stands in them of errors is met (R29, R30). -/
def eccRange (lo hi : Nat) (s : State) : State :=
  forAll ((s.softErr ++ s.hardErr.filter (fun w => !s.softErr.contains w)).filter (fun w => decide (lo ≤ w) && decide (w < hi))) eccRead s

/-- The link reads the tables in force at the start of a round. -/
def eccSched (s : State) : State :=
  forAll [0, 1] (fun ch s => if chOn s ch then
    (let b := schedAddr s ch (s.link.skim = some ch)
     eccRange b (b + 0x4000) s) else s) s

/-- The words the scrubber reads in this round: 16 of 524,288, in order (R29). -/
def scrubWords (s : State) : List Nat := (List.range 16).map (fun i => ((s.twin.scrubWord + i) % 524288) * 8)

/-- The scrubber's work of one round (R29). -/
def scrubRound (s : State) : State :=
  let s1 := forAll ((scrubWords s).filter (fun w => s.softErr.contains w || eccBad s w)) eccRead s
  { s1 with twin := { s1.twin with scrubWord := (s1.twin.scrubWord + 16) % 524288 } }

end Sys2Proof.Machine
end

