-- ==== Sys2Proof/Machine/Plan.lean ====
section
/-! DEFINITION. Profiles of one move (R161, R163 to R165, R167): the integer step, what passes a target, and the plan.
Which peaks the head's planning procedure lowers the spec leaves open: the segments are free, but a plan that breaks a
bound of R165 or R173 is none of the head's (notes/assumptions/7.md). -/

namespace Sys2Proof.Machine

/-! ### The step (R161) -/

/-- step(st, j) of R161; p has 96 bits. -/
def kinStep (k : Kin) (j : Int) : Kin :=
  { p := wrapInt 96 (k.p + k.v + floorDiv k.a 2 + floorDiv j 6), v := k.v + k.a + floorDiv j 2, a := k.a + j }

/-- output(st) of R161 in the formats of R9. -/
def kinOut (k : Kin) (j : Int) : Entry :=
  { p := sat64 (floorDiv k.p (2 ^ 32)), v := sat32 (floorDiv k.v (2 ^ 32)), a := sat32 (floorDiv k.a (2 ^ 16)), j := sat32 j }

/-! ### Words of a move (R163) -/

/-- TYPE: 0 ABS, 1 REL, 2 VEL, 3 STOP. -/
def mvType (m : Move) : Nat := bits m.ctl 1 0
/-- JOINT: 0 STOP, 1 CORNER, 2 OVERLAP. -/
def mvJoint (m : Move) : Nat := bits m.ctl 9 8
/-- MODDIR. -/
def mvModdir (m : Move) : Nat := bits m.ctl 13 12
/-- TAG. -/
def mvTag (m : Move) : Nat := bits m.ctl 31 16
/-- TGT as signed 64 bits. -/
def mvTgt (m : Move) : Int := signedN 64 (m.tgtLo.toNat + m.tgtHi.toNat * 2 ^ 32)
/-- Target velocity of a VEL move. -/
def mvVel (m : Move) : Int := signedN 32 m.tgtLo.toNat

/-- Limits of the owner with window w (R182). -/
def ownerLimits (s : State) (w : Nat) : Limits :=
  ⟨(Cfg.PFVLIM s w).toNat, (Cfg.PFALIM s w).toNat, (Cfg.PFALIM s w).toNat, (Cfg.PFJLIM s w).toNat⟩

/-- A 0 means the owner's limit (R163). -/
def orLimit (x d : Nat) : Nat := if x = 0 then d else x

/-- Limits of a move (R163). -/
def mvLimits (s : State) (w : Nat) (m : Move) : Limits :=
  let o := ownerLimits s w
  ⟨orLimit m.vmax.toNat o.v, orLimit m.amax.toNat o.a, orLimit m.dmax.toNat o.d, orLimit m.jmax.toNat o.j⟩

/-! ### Coordinates of an owner (R145, R146, R193) -/

/-- MODULO of an owner in fine counts; 0 without one. A mover on a LOOP track runs modulo the track (R193). -/
def ownerMod (s : State) (o : Owner) : Int :=
  match o with
  | .axis a => if Cfg.FBCFG_MODEN s (axW a) then Cfg.MODULO s (axW a) else 0
  | .group g => if isMover s g then loopLen s g else 0

/-- Soft limits of an owner: an axis's SLMIN and SLMAX, a mover's track ends (R193). -/
def ownerSoft (s : State) (o : Owner) : Option (Int × Int) :=
  match o with
  | .axis a => if Cfg.FBCFG_SLEN s (axW a) then some (Cfg.SLMIN s (axW a), Cfg.SLMAX s (axW a)) else none
  | .group g =>
    if isMover s g && !Cfg.TRKCFG_LOOP s (trackOf s g) then
      match trackSegs s (trackOf s g) with
      | [] => none
      | x :: _ => some (x.org, x.org + trackLen s (trackOf s g) - moverLen s g)
    else none

/-- Position of an owner reliable. -/
def ownerPosRel (s : State) (o : Owner) : Bool :=
  match o with
  | .axis a => (getAx s a).fb.posRel
  | .group g => (getGr s g).posRel

/-- The way to an ABS target from position x on a modulo axis (R164). -/
def absWay (m x t : Int) (dir : Nat) : Int :=
  if 0 < m then
    let d := (t - x) % m
    match dir with
    | 0 => if 2 * d ≤ m then d else d - m
    | 1 => d
    | _ => -((x - t) % m)
  else t - x

/-- The target of an ABS or REL move started at set-point x with previous target prev (R164); none on overflow. -/
def mvTarget (m : Int) (x : Int) (prev : Option Int) (mv : Move) : Option Int :=
  if mvType mv = 0 then some (x + absWay m x (mvTgt mv) (mvModdir mv))
  else
    let t := prev.getD x + mvTgt mv
    if t = sat64 t then some t else none

/-! ### What passes a target (R165, R169) -/

/-- The continuous profile from velocity v and acceleration a (both along the direction of travel) to end speed ve
needs more than distance r at peak acceleration d and jerk j: exact comparison of the S-curve's length, with the
acceleration brought to its peak at jerk j, held, and brought back to 0. -/
def tooLong (r v a ve d j : Int) : Bool :=
  let down := decide (2 * j * ve ≤ 2 * j * v + (if 0 ≤ a then a * a else -(a * a)) ∨ ve ≤ v)
  -- V is the speed at the virtual instant at which the acceleration is 0, scaled by 2j.
  let x := if down then a else -a
  let v2 := 2 * j * v + (if down then 1 else -1) * x * x
  let pre := if 0 ≤ x then 6 * v * x * j + (if down then 2 else -2) * x * x * x
    else -(3 * v2 * (-x) - (if down then 1 else -1) * (-x) * (-x) * (-x))
  let ve2 := 2 * j * ve
  let sum := v2 + ve2
  let dif := if down then v2 - ve2 else ve2 - v2
  if 2 * d * d ≤ dif then decide (r * 24 * j * j * d < pre * 4 * d + 3 * sum * (dif + 2 * d * d))
  else
    let rest := 6 * j * j * r - pre
    decide (rest < 0) || decide (2 * rest * rest < 9 * sum * sum * dif)

/-- plan(state, c, lim) passes the target, or moves away from it at the start (R165): the set-point must reverse. -/
def passes (k : Kin) (target : Int) (endV : Int) (l : Limits) : Bool :=
  let r := target * 2 ^ 32 - k.p
  let dir := if r ≠ 0 then signInt r else if k.v ≠ 0 then signInt k.v else signInt k.a
  let v := dir * k.v
  let a := dir * k.a
  let ve := max 0 (dir * endV) * 2 ^ 32
  if k.v = 0 ∧ k.a = 0 then false
  else if v < 0 ∨ (v = 0 ∧ a < 0) then true
  else tooLong (r.natAbs : Int) v a ve ((if ve ≤ v then l.d else l.a) * 65536) (max 1 (l.j : Int))

/-- Largest n < 2^k with p n, for a p that holds below it: bits from the top. -/
def largest (p : Nat → Bool) : Nat → Nat → Nat
  | 0, acc => acc
  | k + 1, acc => largest p k (if p (acc + 2 ^ k) then acc + 2 ^ k else acc)

/-- Distance in which v and a along the direction of travel come to rest, 2^-32 fine counts. -/
def stopDist (v a d j : Int) : Nat := largest (fun n => tooLong n v a 0 d j) 100 0 + 1

/-- Way to the target, speed and acceleration along the direction of arrival of a move of R165: from the state itself,
or from rest where the set-point reverses. -/
def arrival (k : Kin) (target : Int) (l : Limits) : Int × Int × Int :=
  let r := target * 2 ^ 32 - k.p
  let dir := if r ≠ 0 then signInt r else if k.v ≠ 0 then signInt k.v else signInt k.a
  if passes k target 0 l then
    let away := dir * k.v < 0 || (k.v = 0 && dir * k.a < 0)
    let s := signInt (if k.v ≠ 0 then k.v else k.a)
    let d := (stopDist (s * k.v) (s * k.a) (l.d * 65536) (max 1 (l.j : Int)) : Int)
    (if away then r.natAbs + d else d - r.natAbs, 0, 0)
  else (r.natAbs, dir * k.v, dir * k.a)

/-- The corner speed of R167 in whole fine counts per round: dist is the next move's way, k the state and target of the
present one. -/
def cornerSpeed (aux : Nat) (k : Kin) (target : Int) (l l2 : Limits) (dist : Int) : Nat :=
  let r := arrival k target l
  let stopOk := fun (n : Nat) => !passes { p := 0, v := (n : Int) * 2 ^ 32, a := 0 } dist.natAbs 0 l2
  let reachOk := fun (n : Nat) => decide ((n : Int) * 2 ^ 32 ≤ r.2.1) ||
    !tooLong r.1 r.2.1 r.2.2 ((n : Int) * 2 ^ 32) (l.a * 65536) (max 1 (l.j : Int))
  min (min aux (min l.v l2.v)) (min (largest stopOk 32 0) (largest reachOk 32 0))

/-! ### The continuous profile, with each duration rounded up (R165, R173) -/

/-- Quotient rounded up. -/
def ceilDiv (x d : Int) : Int := -floorDiv (-x) d

/-- Least whole number whose square is at least n. -/
def sqrtUp (n : Nat) : Nat := if n = 0 then 0 else largest (fun x => decide (x * x < n)) 90 0 + 1

/-- A change of velocity of the continuous profile: its direction, and the times in 2^-16 rounds in which the acceleration
reaches its peak, is held, and returns to 0. -/
structure Leg where
  s : Int
  t1 : Int
  t2 : Int
  t3 : Int
  deriving DecidableEq, Repr

/-- The shortest change from velocity v with acceleration a to velocity ve, with acceleration at most d and jerk j. An
acceleration above d that already acts in its direction is kept. -/
def legOf (v a ve d j : Int) : Leg :=
  let s0 := signInt (2 * j * (ve - v) - a * a.natAbs)
  let s := if s0 = 0 then signInt a else s0
  let x := s * a
  let dv := s * (ve - v) * 2 * j + x * x
  let top := max d x
  let pk := min top (sqrtUp (dv.toNat / 2))
  { s := s, t1 := max 0 (ceilDiv ((pk - x) * 65536) j), t3 := ceilDiv (pk * 65536) j
    t2 := if 2 * top * top < dv then ceilDiv ((dv - 2 * top * top) * 65536) (2 * j * top) else 0 }

/-- Its time in 2^-16 rounds. -/
def Leg.time (g : Leg) : Int := g.t1 + g.t2 + g.t3

/-- The distance it covers. -/
def legDist (v a ve j : Int) (g : Leg) : Int :=
  let x := g.s * a
  let v0 := v - g.s * floorDiv (x * x) (2 * j)
  floorDiv ((v0 + ve) * (g.time + floorDiv (x * 65536) j)) 131072 - (floorDiv (v0 * x) j + g.s * floorDiv (x * x * x) (6 * j * j))

/-- State after n rounds of jerk j. -/
def segMove (k : Kin) (n j : Int) : Kin :=
  { p := k.p + n * k.v + floorDiv (n * n * k.a) 2 + floorDiv (j * n * n * n) 6, v := k.v + n * k.a + floorDiv (j * n * n) 2
    a := k.a + n * j }

/-- Quotient rounded away from 0. -/
def divOut (x d : Int) : Int := if 0 ≤ x then ceilDiv x d else floorDiv x d

/-- A change of velocity in whole rounds, with its peak lowered. -/
def legSegs (v a ve : Int) (g : Leg) : List (Nat × Int) :=
  let up := fun (t : Int) => ceilDiv t 65536
  let n1 := up g.t1
  let n2 := up g.t2
  let n3 := up g.t3
  let den := n1 + 2 * n2 + n3
  let pk := if den = 0 then 0 else truncDiv (2 * (ve - v) - a * n1) den
  let j1 := if n1 = 0 then 0 else truncDiv (pk - a) n1
  [(n1.toNat, j1), (n2.toNat, 0), (n3.toNat, if n3 = 0 then 0 else -divOut (a + n1 * j1) n3)]

/-- State after some segments. -/
def runSegs (l : List (Nat × Int)) (k : Kin) : Kin := l.foldl (fun k x => segMove k x.1 x.2) k

/-- Plan of a motion that lies ahead: distance r, velocity v, acceleration a, end speed ve, all along the way. -/
def aheadPlan (l : Limits) (r v a ve : Int) : List (Nat × Int) × Int :=
  let j := max 1 (l.j : Int)
  let lim := fun (x y : Int) => (if y < x then (l.d : Int) else l.a) * 65536
  let g1 := fun (vp : Int) => legOf v a vp (lim v vp) j
  let g2 := fun (vp : Int) => legOf vp 0 ve (lim vp ve) j
  let dist := fun (vp : Int) => legDist v a vp j (g1 vp) + legDist vp 0 ve j (g2 vp)
  let top : Int := l.v * 2 ^ 32
  let vp := max ve (largest (fun x => decide ((x : Int) ≤ top) && decide (dist x ≤ r)) 64 0)
  let t4 := if vp < top then 0 else ceilDiv ((r - dist vp) * 65536) (max 1 vp)
  let segs := fun (y : Nat) => legSegs v a y (g1 vp) ++ [((ceilDiv t4 65536).toNat, 0)] ++ legSegs y 0 ve (g2 vp)
  (segs (largest (fun y => decide ((y : Int) ≤ top) && decide ((runSegs (segs y) { p := 0, v := v, a := a }).p ≤ r)) 64 0), (g1 vp).time + t4 + (g2 vp).time)

/-- Plan to a target with an end velocity, without a reversal. -/
def targetPlan (l : Limits) (k : Kin) (t endV : Int) : List (Nat × Int) × Int :=
  let r := t * 2 ^ 32 - k.p
  let dir := if r ≠ 0 then signInt r else if k.v ≠ 0 then signInt k.v else signInt k.a
  let x := aheadPlan l r.natAbs (dir * k.v) (dir * k.a) (max 0 (dir * endV) * 2 ^ 32)
  (x.1.map (fun y => (y.1, dir * y.2)), x.2)

/-- Plan to a velocity. Where the acceleration is brought to 0 too late to keep the set-point from reversing on the way to
rest, v reaches 0 first and takes it along (R173). -/
def velPlan (l : Limits) (k : Kin) (vt : Int) : List (Nat × Int) × Int :=
  let j := max 1 (l.j : Int)
  let ve := vt * 2 ^ 32
  if vt = 0 ∧ signInt k.v * (2 * j * k.v + k.a * k.a.natAbs) < 0 then
    let n := largest (fun n => decide ((n : Int) * j ≤ k.a.natAbs) && decide (0 ≤ signInt k.v * (segMove k n (-signInt k.a * j)).v)) 64 0
    ([(0, 0), (0, 0), (n, -signInt k.a * j)], (n + 1) * 65536)
  else
    let d := (if k.v * ve < 0 then min (l.a : Int) l.d else if k.v.natAbs < ve.natAbs then l.a else l.d) * 65536
    let g := legOf k.v k.a ve d j
    (legSegs k.v k.a ve g, g.time)

/-- Plan of a profile (R165): with a reversal, first to rest at DMAX and JMAX, and then to the target. -/
def wholePlan (rev : Bool) (l : Limits) (k : Kin) (tgt : Option Int) (endV : Int) : List (Nat × Int) × Int :=
  match tgt with
  | some t =>
    if rev then
      let x := velPlan ⟨0, 0, l.d, l.j⟩ k 0
      let y := targetPlan l (runSegs x.1 k) t endV
      (x.1 ++ y.1, x.2 + y.2)
    else targetPlan l k t endV
  | none => velPlan l k endV

/-! ### The head's plan and its bounds (R165, R173) -/

/-- One round within the limits: an excess of acceleration at the start is only taken back, vt is the bound of |v|, and a
stop does not reverse. -/
def roundWithin (l : Limits) (vt : Int) (stop : Bool) (k : Kin) (j : Int) (k' : Kin) : Bool :=
  decide (j.natAbs ≤ l.j) &&
    (decide (k'.a.natAbs ≤ (if 0 < k'.a * k'.v then l.a else l.d) * 65536) || decide (k'.a.natAbs ≤ k.a.natAbs)) &&
    decide ((k'.v.natAbs : Int) ≤ vt) && !(stop && decide (k.v * k'.v < 0))

/-- n rounds of jerk j hold p, and the state they leave. -/
def eachRound (p : Kin → Int → Kin → Bool) : Nat → Int → Kin → Bool × Kin
  | 0, _, k => (true, k)
  | n + 1, j, k =>
    let k' := kinStep k j
    let r := eachRound p n j k'
    (p k j k' && r.1, r.2)

/-- Every round of some segments holds p, and the state they leave. -/
def eachSeg (p : Kin → Int → Kin → Bool) : List (Nat × Int) → Kin → Bool × Kin
  | [], k => (true, k)
  | (n, j) :: t, k =>
    let r := eachRound p n j k
    let q := eachSeg p t r.2
    (r.1 && q.1, q.2)

/-- A plan keeps what software may rely on (R165): the segments of the continuous profile in its order and no jerk of the
opposite sign, the limits in every round, at most 7 rounds more, and an end within one fine count, one per round and one
per round²; a stop never reverses the set-point (R173). -/
def planOk (raw : List (Nat × Int)) (rev : Bool) (l : Limits) (k : Kin) (tgt : Option Int) (endV : Int) : Bool :=
  let c := wholePlan rev l k tgt endV
  let j := max 1 (l.j : Int)
  let vt : Int := max (l.v * 2 ^ 32) (max k.v.natAbs (k.v + floorDiv (k.a * k.a.natAbs) (2 * j)).natAbs) + k.a.natAbs
  let e := eachSeg (roundWithin l vt (tgt.isNone && decide (endV = 0))) raw k
  decide (raw.length = c.1.length) && (raw.zip c.1).all (fun x => decide (x.1.2 = 0) || decide (0 < x.1.2 * x.2.2)) &&
    decide ((raw.foldl (fun n x => n + x.1) 0 : Int) * 65536 ≤ c.2 + 7 * 65536) && e.1 &&
    (match tgt with
     | some t => decide ((e.2.p - t * 2 ^ 32).natAbs < 2 ^ 32)
     | none => true) &&
    decide ((e.2.v - endV * 2 ^ 32).natAbs < 2 ^ 32) && decide (e.2.a.natAbs < 2 ^ 32)

/-- Segment numbers of a plan (R165): after a reversal 5 to 7 run before; a change of velocity runs 1 to 3 where |v| rises
and 5 to 7 where it falls. -/
def segNumbers (rev : Bool) (k : Kin) (tgt : Option Int) (endV : Int) : List Nat :=
  if tgt.isNone then (if k.v.natAbs < (endV * 2 ^ 32).natAbs then [1, 2, 3] else [5, 6, 7])
  else if rev then [5, 6, 7, 1, 2, 3, 4, 5, 6, 7] else [1, 2, 3, 4, 5, 6, 7]

/-- The segments of a profile: those the head's planning procedure gives, which keep the bounds; in place of any that
broke one, the rounded continuous profile (log 7). Those of no length are skipped. -/
def planSegs (kind : Int) (rev : Bool) (k : Kin) (tgt : Option Int) (endV : Int) (l : Limits) : List (Nat × Nat × Int) :=
  let free := Config.freePlan [kind, k.p, k.v, k.a, tgt.getD 0, endV, l.v, l.a, l.d, l.j]
  let raw := if planOk free rev l k tgt endV then free else (wholePlan rev l k tgt endV).1
  (List.zipWith (fun n (x : Nat × Int) => (n, x.1, x.2)) (segNumbers rev k tgt endV) raw).filter (fun x => x.2.1 ≠ 0)

/-- Plan profile c from state k (R165): the profile with its segments, and whether it reverses. -/
def planMove (k : Kin) (c : CurMove) : CurMove × Bool :=
  match c.target with
  | some t =>
    if k.p = t * 2 ^ 32 ∧ k.v = 0 ∧ k.a = 0 then ({ c with segs := [], holding := false, late := false }, false)
    else
      let rev := passes k t c.endV c.lim
      ({ c with segs := planSegs 0 rev k (some t) c.endV c.lim, holding := false, late := false,
                arr := let d := signInt (t * 2 ^ 32 - k.p); if rev && decide (0 ≤ d * k.v) then -d else d }, rev)
  | none =>
    if k.v = c.vt * 2 ^ 32 ∧ k.a = 0 then ({ c with segs := [], holding := false, late := false }, false)
    else
      let tag : Int := match c.kind with
        | .quick => 2
        | _ => 1
      ({ c with segs := planSegs tag false k none c.vt c.lim, holding := false, late := false }, false)

/-- Rounds to the planned end. -/
def planLen (c : CurMove) : Nat := c.segs.foldl (fun acc x => acc + x.2.1) 0

/-- The last segments 5 to 7 of a plan. -/
def lastSegs (c : CurMove) : List (Nat × Nat × Int) := (c.segs.reverse.takeWhile (fun x => 5 ≤ x.1)).reverse

/-- Rounds of the last segments 5 to 7. -/
def tailLen (c : CurMove) : Nat := (lastSegs c).foldl (fun acc x => acc + x.2.1) 0

/-- Rounds until segment 5 of the approach begins. -/
def roundsTo5 (c : CurMove) : Nat := planLen c - tailLen c

/-- PFSTAT.SEG of a profile (R182): 0 where it is no move's. -/
def segNow (c : CurMove) : Nat :=
  if c.kind ≠ .move then 0
  else if c.holding then 4
  else
    match c.segs with
    | [] => 0
    | x :: _ => x.1

/-- Jerk of the present round, and the profile one round later. -/
def segAdvance (c : CurMove) : Int × CurMove :=
  if c.holding then (0, c)
  else
    match c.segs with
    | [] => (0, c)
    | (n, r, j) :: t => (clampInt (-(c.lim.j : Int)) c.lim.j j, { c with segs := if r ≤ 1 then t else (n, r - 1, j) :: t, late := c.late || decide (roundsTo5 c = 0) })

/-- Rounds to the planned end of the current move (R182): 0xFFFF_FFFF while a VEL move holds, 0 without a move. -/
def remNow (p : Prof) : Nat :=
  match p.cur with
  | some c => if c.kind ≠ .move then 0 else if c.holding then 0xFFFFFFFF else min (c.segs.foldl (fun n q => n + q.2.1) 0) 0xFFFFFFFF
  | none => 0

end Sys2Proof.Machine
end

