-- ==== Sys2Proof/Machine/Slot.lean ====
section
/-! DEFINITION. The envelope of a slot (R213, R215, R264, R284): the bytes behind SOF, built and taken apart. -/

namespace Sys2Proof.Machine

/-- The bytes of a slot behind SOF: HDR, SEQ, EPL, payload and CRC (R213, R215). -/
def slotBytes (hdr seq epl : Nat) (payload : List Byte) : List Byte :=
  let b := beBytes 2 hdr ++ beBytes 1 seq ++ beBytes 1 epl ++ payload
  b ++ beBytes 4 (crc32 b)

/-- The unit is the alternate: TWIN_PREF was low at reset release (R262). -/
def isAlt (s : State) : Bool := !s.sys.pref

/-- The head belongs to the master pair of its cascade: the strap or the image says so (R282). -/
def masterPair (s : State) : Bool := s.sys.casc || Cfg.CSCFG_MASTER s

/-- HDR of received bytes. -/
def rxHdr (b : List Byte) : Nat := beNat b 0 2
/-- SEQ of received bytes. -/
def rxSeq (b : List Byte) : Nat := beNat b 2 1
/-- EPL of received bytes. -/
def rxEpl (b : List Byte) : Nat := beNat b 3 1
/-- The payload of received bytes. -/
def rxPayload (b : List Byte) : List Byte := (b.drop 4).take (b.length - 8)
/-- The CRC of received bytes is good and their number is that of a payload of n bytes. -/
def rxCrcOk (n : Nat) (b : List Byte) : Bool :=
  b.length = n + 8 && beNat b (n + 4) 4 = crc32 (b.take (n + 4))

end Sys2Proof.Machine
end

