-- ==== Sys2Proof/Machine/Wheel.lean ====
section
/-! DEFINITION. Wheel (R160 to R182, R436): profile commands and their checks, limit switches, referencing, quick stops,
joints and the four set-point entries of a tick. -/

namespace Sys2Proof.Machine

/-! ### Limit switches (R174) -/

/-- Level of a switch or reference input: a local probe pin at T0, or a node input of the last sample. -/
def inputLevel (s : State) (a : Nat) (loc : Bool) (input : Nat) : Bool :=
  if loc then s.fbk.levelT0.getLsbD input else (getAx s a).fb.plev.testBit input

/-- The positive and the negative limit switch of axis a are active (R174). -/
def switches (s : State) (a : Nat) : Bool × Bool :=
  let w := axW a
  (Cfg.LIMCFG_PEN s w && inputLevel s a (Cfg.LIMCFG_PLOCAL s w) (Cfg.LIMCFG_PINPUT s w) == Cfg.LIMCFG_PACT s w,
   Cfg.LIMCFG_NEN s w && inputLevel s a (Cfg.LIMCFG_NLOCAL s w) (Cfg.LIMCFG_NINPUT s w) == Cfg.LIMCFG_NACT s w)

/-- The search of R176, up to the rest after a failure. -/
def searching (p : Prof) : Bool := p.refPhase ≠ .idle && p.refPhase ≠ .finish

/-- Direction of the next motion of the current move (R174). -/
def nextMotion (p : Prof) : Int :=
  match p.cur with
  | some c =>
    if c.kind = .move then
      match c.target with
      | some t => signInt (t * 2 ^ 32 - p.kin.p)
      | none => signInt c.vt
    else 0
  | none => 0

/-- Fault of a limit switch (R174): the fault where its condition has become true, the stop of the owner's set-point,
and the persisting cause. -/
def limitFault (a code cls : Nat) (o : Owner) (hit : Bool) (s : State) : State :=
  let was := (getAx s a).ctl.causes.testBit code
  let s1 := setCause a code hit s
  if hit && !was then faultAx a code cls (modProf s1 o (fun p => { p with limStop := true })) else s1

/-- The limit switches of axis a, judged at T0 and when a sample has brought new levels (R174). During the search a
switch that becomes active ends it (R176) and raises no fault 0x30 or 0x31. -/
def limitJudge (a : Nat) (s : State) : State :=
  let w := axW a
  let sw := switches s a
  let o := topOwner s a
  let p := getProf s o
  let s1 := limitFault a 0x34 (Cfg.PFREACT_C34 s w) o (sw.1 && sw.2) s
  if searching p then
    let hit := p.refPhase ≠ .failed && ((sw.1 && !p.refSw.1) || (sw.2 && !p.refSw.2))
    modProf s1 o (fun p => { p with limStop := p.limStop || hit, refSw := sw })
  else
    let v := (spEntry (getAx s a).prof (s.sys.round - 1)).v
    let d := nextMotion p
    let s2 := limitFault a 0x30 (Cfg.PFREACT_C30 s w) o (sw.1 && (decide (0 < v) || decide (0 < d))) s1
    limitFault a 0x31 (Cfg.PFREACT_C31 s w) o (sw.2 && (decide (v < 0) || decide (d < 0))) s2

/-- The axes that have a limit switch. -/
def limitAxes (s : State) : List Nat :=
  (List.range 128).filter (fun a => Cfg.LIMCFG_PEN s (axW a) || Cfg.LIMCFG_NEN s (axW a))

/-! ### Checks of a command (R168, R170, R181, R190, R193) -/

/-- GRSTAT.BRKREL of R190, or AXSTAT.BRKREL of R110. -/
def ownerBrkRel (s : State) (o : Owner) : Bool :=
  match o with
  | .axis a => (getAx s a).ctl.brkRel
  | .group g => if isMover s g then (getGr s g).brkRel else (treeAxes s o).all (fun a => (getAx s a).ctl.brkRel)

/-- The window of group g shows what its computation has left (R24). -/
def snapGroup (g : Nat) (s : State) : State :=
  { s with seenGr := tset s.seenGr g { getGr s g with stShown := groupState s g, brkShown := ownerBrkRel s (.group g) } }

/-- The owner is in RUN. -/
def ownerInRun (s : State) (o : Owner) : Bool :=
  match o with
  | .axis a => axSt s a = .run
  | .group g => groupState s g = 3

/-- Axis a is a segment of a track (R193). -/
def isSegment (s : State) (a : Nat) : Bool :=
  (List.range 8).any (fun t => (trackSegs s t).any (fun x => x.axis = a))

/-- The axis or group has a parent (R17, R193). -/
def hasParent (s : State) (o : Owner) : Bool :=
  match o with
  | .axis a => (parentOf s a).isSome || isSegment s a
  | .group g => Cfg.GRMCNT_PAREN s (grW g)

/-- A quick stop is in progress or asked for (R173). -/
def quickNow (p : Prof) : Bool :=
  p.quick || (p.limStop && !searching p) || (match p.cur with
    | some c => c.kind = .quick
    | none => false)

/-- Moves queued, as the accepted commands leave them, and whether a REPLACE is among those: its move starts from the
set-point. -/
def queueNext (p : Prof) : Bool × List Move :=
  p.accepted.foldl (fun n c =>
    match c.2 with
    | .append m => (n.1, n.2 ++ [m])
    | .replace m _ => (true, [m])
    | .clear => (n.1, [])
    | _ => n) (false, p.queue)

/-- Moves queued behind the current one, as the accepted commands leave them. -/
def queueLen (p : Prof) : Nat :=
  let q := queueNext p
  if q.1 then q.2.length - 1 else q.2.length

/-- A limit of the staged words above the owner's (R163). -/
def overLimits (s : State) (w : Nat) (m : Move) : Bool :=
  let o := ownerLimits s w
  decide (o.v < m.vmax.toNat) || decide (o.a < m.amax.toNat) || decide (o.d < m.dmax.toNat) || decide (o.j < m.jmax.toNat)

/-- The descriptor is invalid (code 4 of R170, R163, R164, R182). -/
def invalidMove (s : State) (o : Owner) (m : Move) : Bool :=
  let c := m.ctl
  let aux := m.aux.toNat
  let vel := mvType m = 2
  let stop := mvType m = 3
  bits c 15 14 ≠ 0 || bits c 11 10 ≠ 0 || bits c 7 2 ≠ 0 || mvModdir m = 3 || mvJoint m = 3 || overLimits s (ownW o) m
    || (mvModdir m ≠ 0 && ownerMod s o = 0) || ((vel || stop) && mvJoint m ≠ 0) || (mvJoint m = 0 && aux ≠ 0)
    || (mvJoint m = 2 && decide (65535 < aux))
    || (vel && (m.tgtHi ≠ 0 || decide (orLimit m.vmax.toNat (ownerLimits s (ownW o)).v < (mvVel m).natAbs)))
    || (stop && (m.tgtLo ≠ 0 || m.tgtHi ≠ 0))

/-- An ABS target outside the range of code 5 (R170). -/
def targetOutside (s : State) (o : Owner) (m : Move) : Bool :=
  let t := mvTgt m
  mvType m = 0 &&
    ((decide (0 < ownerMod s o) && (decide (t < 0) || decide (ownerMod s o ≤ t))) ||
     (match ownerSoft s o with
      | some (lo, hi) => decide (t < lo) || decide (hi < t)
      | none => false))

/-- Direction of the first motion of a move started at set-point x with previous target prev (R164, R170). -/
def firstMotion (s : State) (o : Owner) (x : Int) (prev : Option Int) (m : Move) : Int :=
  match mvType m with
  | 0 => signInt (absWay (ownerMod s o) x (mvTgt m) (mvModdir m))
  | 1 => signInt (prev.getD x + mvTgt m - x)
  | 2 => signInt (mvVel m)
  | _ => 0

/-- Code 7 of R170: the first motion runs towards an active limit switch, or both switches are active. -/
def towardsSwitch (s : State) (o : Owner) (x : Int) (prev : Option Int) (m : Move) : Bool :=
  match o with
  | .axis a =>
    let sw := switches s a
    let d := firstMotion s o x prev m
    (sw.1 && sw.2) || (decide (0 < d) && sw.1) || (decide (d < 0) && sw.2)
  | .group _ => false

/-- Set-point of an owner in whole fine counts. -/
def setPoint (p : Prof) : Int :=
  floorDiv (match p.overlaid with
    | some (k, _) => p.kin.p + k.p
    | none => p.kin.p) (2 ^ 32)

/-- The set-point and the previous target from which an appended move would start: the targets of the moves before it, as
far as these have any. -/
def startAfter (s : State) (o : Owner) : Int × Option Int :=
  let p := getProf s o
  let q := queueNext p
  let x := setPoint p
  let z : Int × Option Int :=
    if q.1 then (x, p.prevTarget)
    else match p.cur.bind CurMove.target with
      | some t => (t, some t)
      | none => (x, p.prevTarget)
  q.2.foldl (fun y m =>
    if mvType m ≤ 1 then
      match mvTarget (ownerMod s o) y.1 y.2 m with
      | some t => (t, some t)
      | none => y
    else (y.1, none)) z

/-- Code 7 of R170 as a command is judged: an APPEND starts where the moves before it end, a REPLACE from the set-point. -/
def commandTowards (s : State) (o : Owner) (op : Nat) (m : Move) : Bool :=
  let z := if op = 1 then startAfter s o else (setPoint (getProf s o), (getProf s o).prevTarget)
  towardsSwitch s o z.1 z.2 m

/-- A limit-switch fault is in force on axis a. -/
def limitFaultNow (s : State) (a : Nat) : Bool :=
  let c := (getAx s a).ctl.causes
  c.testBit 0x30 || c.testBit 0x31 || c.testBit 0x34

/-- Code 8 of R170. -/
def refRefused (s : State) (o : Owner) : Bool :=
  match o with
  | .axis a => cfgReg s (axW a + 0x384) = 0 || !(getProf s o).rest || queueLen (getProf s o) ≠ 0 || limitFaultNow s a
  | .group _ => true

/-- The lowest code of R170 that a command fails, 0 where it passes. -/
def pfCheck (o : Owner) (op : Nat) (m : Move) (s : State) : Nat :=
  let p := getProf s o
  let move := op = 1 || op = 2
  if op = 1 && decide (32 ≤ queueLen p) then 1
  else if !ownerInRun s o || !ownerBrkRel s o || quickNow p || p.refPhase ≠ .idle || p.accepted.any (fun c => c.2 = .ref)
    || !headTakes s then 2
  else if hasParent s o then 3
  else if decide (5 < op) || (move && invalidMove s o m) || (op = 3 && overLimits s (ownW o) m) then 4
  else if move && targetOutside s o m then 5
  else if move && mvType m = 0 && !ownerPosRel s o then 6
  else if move && commandTowards s o op m then 7
  else if op = 5 && refRefused s o then 8
  else 0

/-- A refusal of R170: code, count and event. -/
def pfRefuse (o : Owner) (code : Nat) (s : State) : State :=
  raiseOw o caMoveRefused (modProf s o (fun p => { p with errCode := code, refused := inc16 p.refused }))

/-- The entry of profile round n, planned at its tick (R160). -/
def entryAt (p : Prof) (n : Word) : Entry :=
  match p.nextEntries with
  | some (b, e :: _) => if b = n then e else spEntry p n
  | _ => spEntry p n

/-- The move that is in its segments 5 to 7 in the present round (R169). -/
def lateMove (s : State) (p : Prof) : Option Nat :=
  let e := entryAt p s.sys.round
  if 5 ≤ e.seg then some e.nr else none

/-- The command of an operation number (R168). -/
def pfCmdOf (op : Nat) (m : Move) (late : Option Nat) : PfCmd :=
  match op with
  | 1 => .append m
  | 2 => .replace m late
  | 3 => .chglim m
  | 4 => .clear
  | _ => .ref

/-- A write of PFCMD.OP with staged words m (R168, R170): 0 does nothing; a command that passes acts in the tick of the first
tick round after the present one (R162). -/
def pfCommand (o : Owner) (op : Nat) (m : Move) (s : State) : State :=
  if op = 0 then s
  else
    let c := pfCheck o op m s
    if c ≠ 0 then pfRefuse o c s
    else modProf s o (fun p => { p with accepted := p.accepted ++ [(s.sys.round, pfCmdOf op m (lateMove s p))] })

/-- Key of a queue owner in the tables of a master. -/
def ownKey : Owner → Nat
  | .axis a => a
  | .group g => 128 + g

/-- The words a master has staged for an owner (R168). -/
def stagedMove (s : State) (m : Master) (o : Owner) : Move := tget {} (getMs s m).stag (ownKey o)

/-- A write of PFCMD by master m (R168), under the rights of R21. -/
def pfWrite (o : Owner) (op : Nat) (m : Master) (s : State) : State :=
  withRight m (ownW o + 0x300) (fun s => pfCommand o op (stagedMove s m o) s) s

/-- APPEND (R168). -/
def execAppend (o : Owner) (m : Master) (s : State) : Host.Outcome State Fault Refusal := .next (pfWrite o 1 m s)
/-- REPLACE (R168). -/
def execReplace (o : Owner) (m : Master) (s : State) : Host.Outcome State Fault Refusal := .next (pfWrite o 2 m s)
/-- CHGLIM (R168). -/
def execChglim (o : Owner) (m : Master) (s : State) : Host.Outcome State Fault Refusal := .next (pfWrite o 3 m s)
/-- CLEAR (R168). -/
def execClear (o : Owner) (m : Master) (s : State) : Host.Outcome State Fault Refusal := .next (pfWrite o 4 m s)
/-- REF (R168). -/
def execRef (o : Owner) (m : Master) (s : State) : Host.Outcome State Fault Refusal := .next (pfWrite o 5 m s)

/-! ### Arming words (R153, R154, R156) -/

/-- Probe channel 0 cannot be armed during referencing (R176). -/
def probeRefused (s : State) (a : Nat) (w : Word) : Bool := !bit w 8 && (getAx s a).prof.refPhase ≠ .idle

/-- PROBE_ARMING (R153): the word acts in the next computation; channel 0 is refused during referencing (R176). -/
def armProbe (a : Nat) (w : Word) (s : State) : State :=
  if probeRefused s a w then pfRefuse (.axis a) 8 s
  else modFb s a (fun f => { f with arming := f.arming ++ [.probe w] })

/-- PROBE_ARMING (R153). -/
def execProbeArming (a : Nat) (w : Word) (s : State) : Host.Outcome State Fault Refusal := .next (armProbe a w s)

/-- COMPARE_ARMING (R154): the words act in the next computation. -/
def armCompare (a : Nat) (w0 w1 w2 w3 : Word) (s : State) : State :=
  modFb s a (fun f => { f with arming := f.arming ++ [.compare w0 w1 w2 w3] })

/-- COMPARE_ARMING (R154). -/
def execCompareArming (a : Nat) (w0 w1 w2 w3 : Word) (s : State) : Host.Outcome State Fault Refusal :=
  .next (armCompare a w0 w1 w2 w3 s)

/-! ### The profile in force -/

/-- State of the set-point: the present profile, and the one that an OVERLAP joint adds (R167). -/
def kinTotal (p : Prof) : Kin :=
  match p.overlaid with
  | some (k, _) => { p := p.kin.p + k.p, v := p.kin.v + k.v, a := p.kin.a + k.a }
  | none => p.kin

/-- A profile that ends at velocity v, with limits l. -/
def velProfile (kind : MvKind) (l : Limits) (v : Int) : CurMove := { kind := kind, lim := l, vt := v, jdec := true }

/-- A profile replaces the present one, planned from the state of the set-point. -/
def startProfile (c : CurMove) (p : Prof) : Prof :=
  let k := kinTotal p
  let r := planMove k c
  { p with kin := k, cur := some r.1, overlaid := none, rev := r.2 }

/-- The present move is planned again, and the one an OVERLAP joint has started (R165, R166). -/
def replan (c : CurMove) (p : Prof) : Prof :=
  let r := planMove p.kin c
  { p with cur := some r.1, rev := p.rev || r.2, overlaid := p.overlaid.map (fun x => (x.1, (planMove x.1 x.2).1)) }

/-- All positions of an owner's plans move by d fine counts. -/
def shiftPlans (d : Int) (p : Prof) : Prof :=
  { p with
    kin := { p.kin with p := p.kin.p + d * 2 ^ 32 }
    cur := p.cur.map (fun c => { c with target := c.target.map (fun t => t + d) })
    prevTarget := p.prevTarget.map (fun t => t + d) }

/-- On a modulo axis p is reduced into [0, MODULO × 2^32) (R161). -/
def wrapPlans (m : Int) (p : Prof) : Prof :=
  if 0 < m then
    let n := floorDiv (kinTotal p).p (m * 2 ^ 32)
    if n = 0 then p else shiftPlans (-n * m) p
  else p

/-! ### Activation (R164, R167, R170, R171) -/

/-- A target that the soft limit in the direction of travel from x bounds (R171). -/
def softTarget (s : State) (o : Owner) (x t : Int) : Int :=
  match ownerSoft s o with
  | some (lo, hi) => if x ≤ t then min hi t else max lo t
  | none => t

/-- Target of a move from set-point k and whether a soft limit shortens it, or the code under which it fails at
activation. -/
def prepareMove (s : State) (o : Owner) (k : Kin) (prev : Option Int) (m : Move) : Except Nat (Option Int × Bool) :=
  let x := floorDiv k.p (2 ^ 32)
  if mvType m = 0 ∨ mvType m = 1 then
    match mvTarget (ownerMod s o) x prev m with
    | none => .error 4
    | some t =>
      if mvType m = 0 ∧ !ownerPosRel s o then .error 6
      else if towardsSwitch s o x prev m then .error 7
      else if mvType m = 1 ∧ softTarget s o x t ≠ t then .ok (some (softTarget s o x t), true)
      else .ok (some t, false)
  else if towardsSwitch s o x prev m then .error 7
  else .ok (none, false)

/-- The joint-missed event: the joint acts as STOP (R167). -/
def jointMissed (o : Owner) (s : State) : State :=
  raiseOw o caJointMissed (modProf s o (fun p => { p with
    jntMiss := true
    cur := p.cur.map (fun c => { c with jdec := true, endV := 0, window := none }) }))

/-- Target of the next move, counted from the present target (R167) and shortened at a soft limit (R171); none where it is
neither ABS nor REL. -/
def nextTarget (s : State) (o : Owner) (t : Int) (m : Move) : Option Int :=
  if mvType m = 0 then mvTarget (ownerMod s o) t (some t) m
  else if mvType m = 1 then (mvTarget (ownerMod s o) t (some t) m).map (softTarget s o t)
  else none

/-- A CORNER with next move m (R167): the joint speed, and the profile planned again. -/
def cornerJoint (o : Owner) (c : CurMove) (t : Int) (m : Move) (s : State) : State :=
  let p := getProf s o
  match nextTarget s o t m with
  | some t2 =>
    let l2 := mvLimits s (ownW o) m
    let v := cornerSpeed c.mv.aux.toNat p.kin t c.lim l2 (t2 - t)
    if signInt (t2 - t) = c.arr ∧ c.arr ≠ 0 ∧ v ≠ 0 then
      modProf s o (fun p =>
        { replan { c with jdec := true, jnext := some m, endV := c.arr * v } p with jntMiss := false })
    else jointMissed o s
  | none => jointMissed o s

/-- State of a profile after n more rounds of its plan. -/
def runPlan : Nat → Kin → CurMove → Kin
  | 0, k, _ => k
  | n + 1, k, c =>
    let r := segAdvance c
    runPlan n (kinStep k r.1) r.2

/-- The profile of an OVERLAP's next move, from rest to rest over its distance (R167). -/
def overProfile (s : State) (o : Owner) (t t2 : Int) (m : Move) : CurMove :=
  (planMove {} { mv := m, lim := mvLimits s (ownW o) m, target := some (t2 - t), jdec := decide (mvJoint m = 0) }).1

/-- A window of w rounds keeps the summed |v| and |a| within PFVLIM and PFALIM (R167). -/
def windowOk (lim : Limits) (k : Kin) (c n : CurMove) (w : Nat) : Bool :=
  (List.range (w + 1)).all (fun i =>
    let x := runPlan (planLen c - w + i) k c
    let y := runPlan i {} n
    decide ((x.v + y.v).natAbs ≤ lim.v * 2 ^ 32) && decide ((x.a + y.a).natAbs ≤ lim.a * 65536))

/-- An OVERLAP with next move m (R167): the present move is planned again where the next one arrives after its start, and
the window follows. -/
def overlapJoint (o : Owner) (c0 : CurMove) (t : Int) (m : Move) (s : State) : State :=
  match nextTarget s o t m with
  | some t2 =>
    let p := replan c0 (getProf s o)
    let c := p.cur.getD c0
    let n := overProfile s o t t2 m
    let w0 := min c.mv.aux.toNat (tailLen c)
    let w := ((List.range (w0 + 1)).reverse.find? (windowOk (ownerLimits s (ownW o)) p.kin c n)).getD 0
    modProf s o (fun _ => { p with jntMiss := false, ovrCut := decide (w < c.mv.aux.toNat),
                                   cur := some { c with jdec := true, jnext := some m, window := some w } })
  | none => jointMissed o s

/-- The joint of the current move with the move at the head of the queue, if it is still to be decided (R167). -/
def decideJoint (o : Owner) (s : State) : State :=
  let p := getProf s o
  match p.cur, p.queue with
  | some c, m :: _ =>
    match c.target with
    | some t =>
      if c.jdec then s
      else if mvJoint c.mv = 1 then cornerJoint o c t m s
      else overlapJoint o c t m s
    | none => s
  | _, _ => s

/-- A VEL move that could not come to rest before the soft limit in its direction ends there (R171). -/
def velSoftStop (o : Owner) (s : State) : State :=
  let p := getProf s o
  match p.cur, ownerSoft s o with
  | some c, some (lo, hi) =>
    if c.kind = .move ∧ c.target = none ∧ mvType c.mv = 2 ∧ c.vt ≠ 0 then
      let lim := if 0 < c.vt then hi else lo
      if passes (runPlan 4 p.kin c) lim 0 c.lim then
        raiseOw o caSoftLimit (modProf s o (fun p =>
          { replan { c with target := some lim, holding := false } p with slStop := true }))
      else s
    else s
  | _, _ => s

/-- The profile that brings the set-point to rest with deceleration d and jerk j. -/
def stopProfile (kind : MvKind) (d j : Nat) : CurMove := velProfile kind ⟨0, 0, d, j⟩ 0

/-- A move fails at activation (R170): it and the queue are discarded, and the set-point comes to rest at limits l. -/
def moveFails (o : Owner) (code : Nat) (l : Limits) (s : State) : State :=
  let s1 := pfRefuse o code s
  let s2 := if code = 6 then forAll (treeAxes s o) (fun a s => faultAx a 0x33 (Cfg.PFREACT_C33 s (axW a)) s) s1 else s1
  modProf s2 o (fun p => { startProfile (stopProfile .stop l.d l.j) p with queue := [], prevTarget := none })

/-- Limits of the move just ended, or the owner's. -/
def lastLimits (s : State) (o : Owner) : Limits := (getProf s o).lastLim.getD (ownerLimits s (ownW o))

/-- Move m becomes the current one (R164, R165, R170). -/
def activate (o : Owner) (m : Move) (l : Limits) (s : State) : State :=
  let p := getProf s o
  match prepareMove s o (kinTotal p) p.prevTarget m with
  | .error code => moveFails o code l s
  | .ok (t, sl) =>
    let lim := mvLimits s (ownW o) m
    let c : CurMove := { mv := m, lim := lim, target := t, vt := if mvType m = 2 then clampInt (-lim.v) lim.v (mvVel m) else 0,
                         jdec := decide (mvJoint m = 0) }
    let s1 := modProf s o (fun p =>
      { startProfile { c with nr := p.nr + 1 } p with prevTarget := t, slStop := p.slStop || sl, tag := mvTag m, nr := p.nr + 1 })
    let s2 := if sl then raiseOw o caSoftLimit s1 else s1
    velSoftStop o (decideJoint o s2)

/-! ### The end of a profile (R164, R165, R167) -/

/-- A profile that holds its velocity when it has reached it: a VEL move, a search (R164, R176). -/
def holdsAtEnd (c : CurMove) : Bool :=
  c.target.isNone && ((c.kind = .move && mvType c.mv = 2) || (c.kind = .ref && decide (c.vt ≠ 0)))

/-- What the end of the last segment sets (R165). -/
def endState (c : CurMove) (k : Kin) : Kin :=
  match c.target with
  | some t => { p := t * 2 ^ 32, v := c.endV * 2 ^ 32, a := 0 }
  | none => { p := k.p, v := c.vt * 2 ^ 32, a := 0 }

/-- The current move ends: count, flags of the move, its limits. -/
def endMove (c : CurMove) (p : Prof) : Prof :=
  if c.kind = .move then
    { p with cur := none, done := inc16 p.done, decDef := false, rev := false, slStop := false, lastLim := some c.lim, tag := 0 }
  else { p with cur := none }

/-- The next move of an OVERLAP becomes the current one at the planned end of the present move (R167). -/
def mergeOver (c : CurMove) (k : Kin) (n : CurMove) (p : Prof) : Prof :=
  let t := c.target.getD 0
  let e := endState c p.kin
  { endMove c p with
    kin := { p := e.p + k.p, v := e.v + k.v, a := e.a + k.a }
    cur := some { n with target := n.target.map (fun d => t + d) }
    prevTarget := n.target.map (fun d => t + d)
    overlaid := none, tag := mvTag n.mv }

/-- The next move of an OVERLAP starts (R167), if it passes the checks of an activation. -/
def startOver (o : Owner) (c : CurMove) (s : State) : State :=
  let p := getProf s o
  match p.queue, c.target with
  | m :: rest, some t =>
    match prepareMove s o { p := t * 2 ^ 32 } (some t) m with
    | .ok (some t2, sl) =>
      let s1 := modProf s o (fun p => { p with
        queue := rest, overlaid := some ({}, { overProfile s o t t2 m with nr := p.nr + 1 }), slStop := p.slStop || sl, nr := p.nr + 1
        cur := some { c with window := none } })
      if sl then raiseOw o caSoftLimit s1 else s1
    | _ => modProf s o (fun p => { p with cur := some { c with window := none } })
  | _, _ => modProf s o (fun p => { p with cur := some { c with window := none } })

/-- The joint of the current move in a tick of which n rounds are left (R167): with a queued move it is decided; without
one it is missed in the tick that contains the first round of segment 5, or of the window. -/
def jointStep (o : Owner) (n : Nat) (s : State) : State :=
  let p := getProf s o
  match p.cur with
  | some c =>
    if c.kind ≠ .move ∨ c.jdec ∨ c.target = none then s
    else
      let first := if mvJoint c.mv = 2 then planLen c - min c.mv.aux.toNat (tailLen c) else roundsTo5 c
      if !p.queue.isEmpty ∧ !c.late then decideJoint o s
      else if c.late ∨ first < n then jointMissed o s
      else s
  | none => s

/-- advance of R162 at entry i: profiles that have ended give way to the next (fuel: queued moves of no length). -/
def advance (o : Owner) (i : Nat) : Nat → State → State
  | 0, s => s
  | f + 1, s =>
    let p := getProf s o
    match p.cur with
    | none =>
      match p.queue with
      | [] => s
      | m :: rest =>
        advance o i f (jointStep o (4 - i) (activate o m (lastLimits s o) (modProf s o (fun p => { p with queue := rest }))))
    | some c =>
      if c.holding then
        if i = 0 ∧ c.kind = .move ∧ !p.queue.isEmpty then advance o i f (modProf s o (endMove c)) else s
      else if planLen c ≠ 0 then
        (if c.window = some (planLen c) then startOver o c s else s)
      else
        match p.overlaid with
        | some (k, n) => advance o i f (jointStep o (4 - i) (modProf s o (mergeOver c k n)))
        | none =>
          let s1 := modProf s o (fun p => { p with kin := endState c p.kin })
          if holdsAtEnd c ∧ (c.kind = .ref ∨ p.queue.isEmpty) then
            modProf s1 o (fun p => { p with cur := some { c with holding := true } })
          else advance o i f (modProf s1 o (endMove c))

/-- One round of a profile: the jerk, the state a round later, and the rest of the plan. -/
def runRound (k : Kin) (c : CurMove) : Int × Kin × CurMove :=
  let r := segAdvance c
  (r.1, kinStep k r.1, r.2)

/-- The profile beside the present one after a round; at its own end it rests at its distance. Its joint can still come
to stand while a move waits behind it (R167). -/
def runOver (waits : Bool) (x : Kin × CurMove) : Int × (Kin × CurMove) :=
  let r := runRound x.1 x.2
  let c := { r.2.2 with late := x.2.late || (r.2.2.late && !waits) }
  (r.1, if c.segs.isEmpty then endState c r.2.1 else r.2.1, c)

/-- One entry: the output of the state, and the state a round later (R161, R162). -/
def entryStep (m : Int) (p : Prof) : Entry × Prof :=
  let k := kinTotal p
  let r1 : Int × Kin × Option CurMove := match p.cur with
    | some c => let r := runRound p.kin c; (r.1, r.2.1, some r.2.2)
    | none => (0, kinStep p.kin 0, none)
  let r2 := p.overlaid.map (runOver (!p.queue.isEmpty))
  let j2 := match r2 with
    | some x => x.1
    | none => 0
  let t := (p.cur.bind CurMove.target).getD 0
  let p' : Prof := { p with kin := r1.2.1, cur := r1.2.2, overlaid := r2.map (fun x => x.2) }
  ({ kinOut k (r1.1 + j2) with tgt := if 0 < m then t % m else t, rem := remNow p, seg := (p.cur.map segNow).getD 0,
                               nr := (p.cur.map CurMove.nr).getD 0 },
   wrapPlans m { p' with refPath := if searching p then p.refPath + ((kinTotal p').p - k.p).natAbs else p.refPath })

/-- Entries i to 3 of a tick, with n = 4 − i left. -/
def tickEntries (o : Owner) : Nat → List Entry → State → List Entry × State
  | 0, es, s => (es, s)
  | n + 1, es, s =>
    let m := ownerMod s o
    let s1 := modProf (advance o (3 - n) 200 s) o (wrapPlans m)
    let r := entryStep m (getProf s1 o)
    tickEntries o n (es ++ [r.1]) (modProf s1 o (fun _ => r.2))

/-! ### Profile commands at the tick (R168, R169) -/

/-- The decel-deferred event (R169). -/
def deferDecel (o : Owner) (s : State) : State :=
  raiseOw o caDecelDeferred (modProf s o (fun p => { p with decDef := true, deferred := inc16 p.deferred }))

/-- The non-zero fields of new limits put into a move (R169). -/
def withLimits (n m : Move) : Move :=
  { m with
    vmax := if n.vmax = 0 then m.vmax else n.vmax, amax := if n.amax = 0 then m.amax else n.amax
    dmax := if n.dmax = 0 then m.dmax else n.dmax, jmax := if n.jmax = 0 then m.jmax else n.jmax }

/-- The non-zero fields of new limits put into limits in force (R169). -/
def mixLimits (n : Move) (l : Limits) : Limits :=
  ⟨orLimit n.vmax.toNat l.v, orLimit n.amax.toNat l.a, orLimit n.dmax.toNat l.d, orLimit n.jmax.toNat l.j⟩

/-- CHGLIM at a tick (R169). -/
def takeChglim (o : Owner) (n : Move) (s : State) : State :=
  let s1 := modProf s o (fun p => { p with
    queue := p.queue.map (withLimits n)
    overlaid := p.overlaid.map (fun x => (x.1, { x.2 with mv := withLimits n x.2.mv, lim := mixLimits n x.2.lim })) })
  let p := getProf s1 o
  match p.cur with
  | some c =>
    if c.kind ≠ .move then s1
    else
      let l := mixLimits n c.lim
      let lowers := decide (l.d < c.lim.d) || decide (l.j < c.lim.j)
      let pass := match c.target with
        | some t => passes p.kin t c.endV l
        | none => false
      let late := lowers && (decide (5 ≤ segNow c) || pass)
      let l' := if late then { l with d := max l.d c.lim.d, j := max l.j c.lim.j } else l
      let vt := if mvType c.mv = 2 ∧ c.target = none then clampInt (-l'.v) l'.v (mvVel c.mv) else c.vt
      let c' := { c with lim := l', vt := vt, holding := c.holding && vt = c.vt }
      let s2 := if late then deferDecel o s1 else s1
      if c'.holding then modProf s2 o (fun p => { p with cur := some c' })
      else modProf s2 o (replan c')
  | none => s1

/-- REPLACE at a tick (R168, R169); `lateNr` is the move that was in its segments 5 to 7 at acceptance. -/
def takeReplace (o : Owner) (m : Move) (lateNr : Option Nat) (s : State) : State :=
  let p := getProf s o
  let old : Option CurMove := match p.cur with
    | some c => if c.kind = .move then some c else none
    | none => none
  let l := match p.cur with
    | some c => c.lim
    | none => lastLimits s o
  let late : Bool := match old with
    | some c => decide (lateNr = some c.nr)
    | none => false
  let s1 := modProf s o (fun p => { p with
    kin := kinTotal p, overlaid := none, cur := none, queue := [], rev := false, slStop := false, decDef := false, tag := 0 })
  let s2 := activate o m l s1
  match old, (getProf s2 o).cur with
  | some c0, some c =>
    if late ∧ c.kind = .move ∧ (c.lim.d < c0.lim.d ∨ c.lim.j < c0.lim.j) then
      modProf (deferDecel o s2) o (replan { c with lim := { c.lim with d := max c.lim.d c0.lim.d, j := max c.lim.j c0.lim.j } })
    else s2
  | _, _ => s2

/-! ### Referencing (R175 to R178) -/

/-- The level of the reference input is the one that follows the selected edge (R176). -/
def refLevel (s : State) (a : Nat) : Bool :=
  let w := axW a
  inputLevel s a (Cfg.REFCFG_LOCAL s w) (Cfg.REFCFG_INPUT s w) == decide (Cfg.REFCFG_EDGE s w = 1)

/-- Running at REFVS, in direction DIR for sg = 1 (R176). -/
def refRun (s : State) (a : Nat) (sg : Int) : CurMove :=
  let w := axW a
  velProfile .ref (ownerLimits s w) (sg * (if Cfg.REFCFG_DIR s w then -1 else 1) * (Cfg.REFVS s w).toNat)

/-- Coming to rest at PFALIM and PFJLIM (R176). -/
def refStop (s : State) (a : Nat) : CurMove := velProfile .ref (ownerLimits s (axW a)) 0

/-- A profile of the referencing starts. -/
def refProfile (a : Nat) (ph : RefPhase) (c : CurMove) (s : State) : State :=
  modProf s (.axis a) (fun p => { startProfile c p with refPhase := ph, rev := false })

/-- Probe channel 0 is disarmed, and a captured reference edge forgotten. -/
def refDisarm (a : Nat) (s : State) : State :=
  modFb s a (fun f => { f with
    prb := tset f.prb 0 (let c : Probe := tget {} f.prb 0; { c with armed := false }), refCap := none, refIdx := none })

/-- REF at a tick (R175, R176). -/
def takeRef (a : Nat) (s : State) : State :=
  let w := axW a
  let s0 := modProf s (.axis a) (fun p => { p with refPath := 0, refSw := switches s a, refPoint := none, limStop := false })
  if Cfg.REFCFG_MODE s w = 2 then
    modProf s0 (.axis a) (fun p => { p with refPhase := .finish, refPoint := some (getAx s a).fb.pos })
  else
    let s1 := modFb s0 a (fun f => { f with
      refCap := none, refIdx := none
      prb := tset f.prb 0 (let c : Probe := tget {} f.prb 0
        { c with armed := true, cont := false, edgeSel := Cfg.REFCFG_EDGE s w, loc := Cfg.REFCFG_LOCAL s w,
                 input := Cfg.REFCFG_INPUT s w, done := false, caps := 0, since := s.sys.round }) })
    if refLevel s a then refProfile a .away (refRun s a (-1)) s1 else refProfile a .search (refRun s a 1) s1

/-- Referencing fails (R176): fault 0x32, no shift; the set-point comes to rest, by the reaction where that governs. -/
def refFail (a : Nat) (s : State) : State :=
  let cls := Cfg.PFREACT_C32 s (axW a)
  let sw := switches s a
  let s1 := modProf (refDisarm a s) (.axis a) (fun p => { p with refPhase := .failed, limStop := p.limStop && sw.1 && sw.2 })
  let s2 := faultAx a 0x32 cls s1
  if cls < 2 then refProfile a .failed (refStop s2 a) s2 else s2

/-- The shift by d fine counts (R177): TRK and the set-point move together, compares go to IDLE, POSREL is 1. -/
def refShift (a : Nat) (d : Int) (s : State) : State :=
  let m := ownerMod s (.axis a)
  let red := fun (x : Int) => if 0 < m then x % m else sat64 x
  let e := fun (x : Entry) => { x with p := red (x.p + d), tgt := if x.rem = 0 then x.tgt else red (x.tgt + d) }
  let smp := fun (x : FbSample) => { x with pos := red (x.pos + d) }
  let s1 := modFb s a (fun f => { f with
    trk := red (f.trk + d), posRel := true, started := true
    s1 := f.s1.map smp, s2 := f.s2.map smp, hist := f.hist.map (fun h => (h.1, red (h.2 + d)))
    cmp := f.cmp.map (fun c => (c.1, { c.2 with st := 0 })) })
  let s2 := modProf s1 (.axis a) (fun p =>
    { wrapPlans m (shiftPlans d p) with
      entries := p.entries.map e, nextEntries := p.nextEntries.map (fun x => (x.1, x.2.map e)), shown := e p.shown
      refPoint := none })
  raiseAx a caReference (applyLimits a s2)

/-- What Wheel does for a referencing in progress at a tick (R176 to R178). -/
def refStep (a : Nat) (s : State) : State :=
  let o := Owner.axis a
  let p := getProf s o
  let f := (getAx s a).fb
  let resting := p.cur.isNone && p.kin.v = 0 && p.kin.a = 0
  let toIdle := modProf s o (fun p => { p with refPhase := .idle })
  match p.refPhase with
  | .idle => s
  | .failed => if resting then toIdle else s
  | .finish =>
    match p.refPoint with
    | some x =>
      if p.quick || p.limStop then modProf (refDisarm a s) o (fun p => { p with refPhase := .idle, refPoint := none })
      else
        let d := Cfg.HOMEOFS s (axW a) - x
        let m := ownerMod s o
        let s1 := refShift a (if 0 < m then d % m else d) s
        if resting then modProf s1 o (fun p => { p with refPhase := .idle }) else s1
    | none => if resting then toIdle else s
  | ph =>
    let max := (Cfg.REFMAX s (axW a)).toNat * 65536 * 2 ^ 32
    let unrel := match f.refCap with
      | some c => c.2
      | none => false
    if p.quick then modProf (refDisarm a s) o (fun p => { p with refPhase := .idle })
    else if decide (max < p.refPath) || p.limStop || unrel then refFail a s
    else
      let point := match f.refCap with
        | some c => if Cfg.REFCFG_MODE s (axW a) = 0 then some c.1 else f.refIdx
        | none => none
      match point with
      | some x =>
        let s1 := refProfile a .finish (refStop s a) s
        let d := Cfg.HOMEOFS s (axW a) - x
        let m := ownerMod s o
        refShift a (if 0 < m then d % m else d) s1
      | none =>
        if f.refCap.isSome then modProf s o (fun p => { p with refPhase := .index })
        else if ph = .away ∧ !refLevel s a then refProfile a .awayStop (refStop s a) s
        else if ph = .awayStop ∧ p.cur.isNone then refProfile a .search (refRun s a 1) s
        else s

/-! ### The tick (R162) -/

/-- One accepted command. -/
def takeCmd (o : Owner) (c : PfCmd) (s : State) : State :=
  match c with
  | .append m => modProf s o (fun p => { p with queue := p.queue ++ [m] })
  | .replace m late => takeReplace o m late s
  | .chglim n => takeChglim o n s
  | .clear => modProf s o (fun p => { p with queue := [] })
  | .ref =>
    match o with
    | .axis a => takeRef a s
    | .group _ => s

/-- A quick stop or limit-switch stop in force (R173, R174, R178). -/
def takeQuick (o : Owner) (s : State) : State :=
  let p := getProf s o
  if p.quick || p.limStop then
    let stopping : Bool := match p.cur with
      | some c => decide (c.kind = .quick)
      | none => false
    if stopping then modProf s o (fun p => { p with quick := false, limStop := false })
    else
      let q := stopProfile .quick (Cfg.PFQSDEC s (ownW o)).toNat (Cfg.PFQSJERK s (ownW o)).toNat
      modProf s o (fun p => { startProfile q p with
        quick := false, limStop := false, queue := [], prevTarget := none, rev := false, slStop := false, decDef := false, tag := 0 })
  else s

/-- Two descriptors differ in no more than the limits that a CHGLIM changes (R169). -/
def sameMove (x y : Move) : Bool :=
  decide ({ x with vmax := 0, amax := 0, dmax := 0, jmax := 0 } = ({ y with vmax := 0, amax := 0, dmax := 0, jmax := 0 } : Move))

/-- The next move that gave the joint has changed: the joint is judged again, before segment 5 or where only the limits of
that move have changed, and the present move planned again (R166, R167). -/
def rejoin (o : Owner) (s : State) : State :=
  let p := getProf s o
  match p.cur with
  | some c =>
    if c.kind ≠ .move ∨ (c.endV = 0 ∧ c.window = none) ∨ p.queue.head? = c.jnext then s
    else
      let c0 := { c with jdec := false, jnext := none, endV := 0, window := none }
      let s1 := modProf s o (fun p => { p with cur := some c0 })
      let same := match p.queue.head?, c.jnext with
        | some m, some n => sameMove m n
        | _, _ => false
      let s2 := if same || (!c.late && !p.queue.isEmpty) then decideJoint o s1
        else if c.late then jointMissed o s1
        else s1
      modProf s2 o (fun p =>
        match p.cur with
        | some c => replan c p
        | none => p)
  | none => s

/-- The owner may move: an axis in RUN or QSTOP, a group in no state of R436. -/
def ownerLive (s : State) (o : Owner) : Bool :=
  match o with
  | .axis a => inMotionState s a
  | .group g => let t := groupState s g; t ≠ 0 && t ≠ 6 && t ≠ 7

/-- R436: move, queue and referencing are discarded, and P of the last entry is held. -/
def discardOwner (o : Owner) (s : State) : State :=
  let s1 := match o with
    | .axis a => if (getProf s o).refPhase = .idle then s else refDisarm a s
    | .group _ => s
  modProf s1 o (fun p => { p with
    kin := { p := (spEntry p (s.sys.round - 1)).p * 2 ^ 32 }, cur := none, queue := [], accepted := [], overlaid := none
    quick := false, limStop := false, prevTarget := none, refPhase := .idle, refPoint := none
    rev := false, slStop := false, decDef := false, tag := 0 })

/-- REFACT falls when the set-point has come to rest (R172, R176, R177). -/
def refSettle (p : Prof) : Prof :=
  if p.rest ∧ p.refPoint = none ∧ (p.refPhase = .finish ∨ p.refPhase = .failed) then { p with refPhase := .idle } else p

/-- The owner's slot of the QUEUE partition (R180). -/
def queueSlot (s : State) (o : Owner) : Nat := partBase s ptQUEUE + 1024 * (ownersUsed s).findIdx (fun x => x = o)

/-- A queue entry: the eight words of a move in little-endian order (R180). -/
def moveBytes (m : Move) : List Byte :=
  [m.ctl, m.tgtLo, m.tgtHi, m.vmax, m.amax, m.dmax, m.jmax, m.aux].flatMap (fun w => leBytes 4 w.toNat)

/-- Wheel reads the entries of the queue, and meets what errors stand in them (R30, R178). -/
def readQueue (o : Owner) (s : State) : State :=
  match (getProf s o).queue with
  | [] => s
  | m :: t => eccRange (queueSlot s o) (queueSlot s o + 32 * (m :: t).length) s

/-- A queue that differs from `old` is stored in the owner's slot, the next move first (DESIGN CHOICE, log 20: the spec fixes
the entries and not their place). Words written whole hold no error any more. -/
def storeQueue (o : Owner) (old : List Move) (s : State) : State :=
  let q := (getProf s o).queue
  if q = old then s
  else
    let b := queueSlot s o
    let bs := q.flatMap moveBytes
    let keep := fun (w : Nat) => decide (w < b) || decide (b + bs.length ≤ w)
    { memPut b bs s with softErr := s.softErr.filter keep, hardErr := s.hardErr.filter keep }

/-- The commands accepted before the present round, and those that wait for a later tick (R162). -/
def dueCmds (s : State) (p : Prof) : List PfCmd × List (Word × PfCmd) :=
  ((p.accepted.filter (fun c => c.1 ≠ s.sys.round)).map Prod.snd, p.accepted.filter (fun c => c.1 = s.sys.round))

/-- What of the owners is in force at T0 of a tick round (R162). -/
def latchWheel (l : List Owner) (s : State) : State :=
  { s with sys := { s.sys with
      wheelLive := l.filter (ownerLive s), wheelQuick := l.filter (fun o => (getProf s o).quick || (getProf s o).limStop) } }

/-- The plans of an owner that may move (R162): its commands, its referencing, and the stop in force at T0; a stop asked for
since then waits for the next tick. -/
def planOwner (o : Owner) (s : State) : State :=
  let p := getProf s o
  let waits := !s.sys.wheelQuick.contains o
  let c := dueCmds s p
  let s0 := modProf s o (fun p => { p with accepted := c.2, quick := p.quick && !waits, limStop := p.limStop && !waits })
  let s1 := forAll c.1 (takeCmd o) s0
  let s2 := match o with
    | .axis a => refStep a s1
    | .group _ => s1
  modProf (velSoftStop o (jointStep o 4 (rejoin o (takeQuick o s2)))) o (fun q =>
    { q with quick := q.quick || (p.quick && waits), limStop := q.limStop || (p.limStop && waits) })

/-- The tick of one owner (R162). -/
def tickOwner (o : Owner) (s : State) : State :=
  let old := (getProf s o).queue
  let s1 := if s.sys.wheelLive.contains o then planOwner o (readQueue o s) else discardOwner o s
  let r := tickEntries o 4 [] s1
  storeQueue o old (modProf r.2 o (fun p =>
    let e := r.1.getLastD {}
    refSettle { p with nextEntries := some (s.sys.round, r.1), rest := p.cur.isNone && e.v = 0 && e.a = 0 }))

/-- The queue owners in order of planning: axes, then groups, that the image gives limits and no parent (R160, R181). -/
def queueOwners (s : State) : List Owner :=
  ((List.range 128).filter (fun a => cfgReg s (axW a + 0x370) ≠ 0 && !hasParent s (.axis a))).map Owner.axis ++
  ((List.range 128).filter (fun g => Cfg.GRMCNT_COUNT s (grW g) ≠ 0 && !Cfg.GRMCNT_PAREN s (grW g))).map Owner.group

end Sys2Proof.Machine
end

