-- ==== Sys2Proof/Machine/Groups.lean ====
section
/-! DEFINITION. The group unit in a tick (R185 to R189, R194): membership of movers, member entries, merged feedback,
exports (R285) and the derivation of remote GEAR groups. -/

namespace Sys2Proof.Machine

/-! ### Membership of movers (R194) -/

/-- The movers of the image. -/
def movers (s : State) : List Nat := (List.range 128).filter (fun g => Cfg.GRMCNT_COUNT s (grW g) ≠ 0 && isMover s g)

/-- Rear edges that decide the members of mover g: the four entries in RUN and QSTOP, else the fused position. -/
def memberEdges (s : State) (g : Nat) : List Int :=
  let st := groupState s g
  if st = 3 ∨ st = 5 then
    match (getGr s g).prof.nextEntries with
    | some (_, es) => es.map Entry.p
    | none => [(getGr s g).x]
  else [(getGr s g).x]

/-- The segments mover g overlaps, in track order; before any position is known, its present members. -/
def wantedMembers (s : State) (g : Nat) : List Nat :=
  let st := groupState s g
  if (getGr s g).fusedAt.isNone ∧ st ≠ 3 ∧ st ≠ 5 then curMembers s g
  else
    let xs := memberEdges s g
    ((trackSegs s (trackOf s g)).filter (fun q =>
      xs.any (fun x => decide (0 < overlapOf (loopLen s g) x (moverLen s g) q)))).map Segment.axis

/-- Two lists have an element in common. -/
def meets (a b : List Nat) : Bool := a.any (fun x => b.contains x)

/-- Movers whose list meets another's keep their present members; repeated, since what one keeps another may want. -/
def settleClaims (s : State) : Nat → List (Nat × List Nat × Bool) → List (Nat × List Nat × Bool)
  | 0, l => l
  | k + 1, l =>
    settleClaims s k (l.map (fun q =>
      if q.2.2 || l.any (fun r => r.1 ≠ q.1 && meets r.2.1 q.2.1) then (q.1, curMembers s q.1, true) else q))

/-- New members and claim of mover g, with fault 0x44 where a claim has come up (R194, R200). -/
def setMembers (q : Nat × List Nat × Bool) (s : State) : State :=
  let g := q.1
  let old := curMembers s g
  let was := (getGr s g).claim
  let s1 := modGr s g (fun r => { r with members := some q.2.1, claim := q.2.2 })
  let s2 := changeSegments old q.2.1 s1
  let s3 := forAll q.2.1 (fun a => setCause a 0x44 q.2.2) s2
  if q.2.2 && !was then
    forAll q.2.1 (fun a s => faultAx a 0x44 (Cfg.GRREACT_C44 s (grW g)) s) (modGr s3 g (fun r => { r with fcode := 0x44 }))
  else s3

/-- The members of every mover, once its entries stand (R194). -/
def moverMembership (s : State) : State :=
  forAll (settleClaims s 48 ((movers s).map (fun g => (g, wantedMembers s g, false)))) setMembers s

/-! ### Derivation (R185 to R187) -/

/-- The group above an owner. -/
def groupAbove (s : State) (o : Owner) : Option Nat :=
  match o with
  | .axis a => parentOf s a
  | .group g => if Cfg.GRMCNT_PAREN s (grW g) then some (Cfg.GRMCNT_PARENT s (grW g)) else none

/-- The local leader of a GEAR group or addend of a SUM group (R202). -/
def leaderOf (s : State) (g : Nat) : Owner :=
  if Cfg.GEARSRC_LGRP s (grW g) then .group (Cfg.GEARSRC_LNUM s (grW g)) else .axis (Cfg.GEARSRC_LNUM s (grW g))

/-- Group g is a GEAR group with a remote leader (R187). -/
def isRemote (s : State) (g : Nat) : Bool := Cfg.GRCFG_TYPE s (grW g) = 1 && Cfg.GEARSRC_REMOTE s (grW g)

/-- The entries of an owner depend on a remote leader (fuel: the depth of the image's references). -/
def onRemote (s : State) : Nat → Owner → Bool
  | 0, _ => false
  | k + 1, o =>
    match groupAbove s o with
    | none => false
    | some g => isRemote s g || onRemote s k (.group g)
        || ((Cfg.GRCFG_TYPE s (grW g) = 1 || Cfg.GRCFG_TYPE s (grW g) = 2) && onRemote s k (leaderOf s g))

/-- A value held to a signed format, and whether it had to be. -/
def satFlag (n : Nat) (x : Int) : Int × Bool :=
  let y := clampInt (-(2 ^ (n - 1))) (2 ^ (n - 1) - 1) x
  (y, y ≠ x)

/-- An entry from exact fields: formats of R9, and whether one saturated. P of a modulo member is reduced first. -/
def satEntry (m p v a j : Int) : Entry × Bool :=
  let p' := satFlag 64 (if 0 < m then p % m else p)
  let v' := satFlag 32 v
  let a' := satFlag 32 a
  let j' := satFlag 32 j
  ({ p := p'.1, v := v'.1, a := a'.1, j := j'.1 }, p'.2 || v'.2 || a'.2 || j'.2)

/-- One member entry (R185): group entry e, leader or addend entry l, offset in counts, member's MODULO. -/
def memberEntry (s : State) (g : Nat) (lbase m ofs : Int) (e l : Entry) : Entry × Bool :=
  let o := ofs * 65536
  match Cfg.GRCFG_TYPE s (grW g) with
  | 0 => satEntry m (e.p + o) e.v e.a e.j
  | 2 => satEntry m (e.p + l.p + o) (e.v + l.v) (e.a + l.a) (e.j + l.j)
  | 1 =>
    let num := cfgInt (Cfg.GEARNUM s (grW g))
    let den : Int := (Cfg.GEARDEN s (grW g)).toNat
    let f := fun (x : Int) => floorDiv (num * x) den
    satEntry m (e.p + f (l.p - lbase) + o) (e.v + f l.v) (e.a + f l.a) (e.j + f l.j)
  | _ =>
    let r := satEntry m e.p e.v e.a e.j
    ({ e with p := r.1.p }, r.2)

/-- Four equal entries of an owner that Wheel does not plan. -/
def heldEntries (p : Prof) : List Entry := List.replicate 4 { p := floorDiv p.kin.p (2 ^ 32) }

/-- The entries Wheel has formed for a queue owner in this tick. -/
def tickOf (s : State) (o : Owner) : List Entry :=
  match (getProf s o).nextEntries with
  | some (_, es) => es
  | none => heldEntries (getProf s o)

/-- Place of an owner in the member table of group g. -/
def memberPlace (s : State) (g : Nat) (o : Owner) : Nat := (memberList s g).findIdx (fun x => x = o)

/-- The entries of an owner in this tick and whether one saturated, from the top of its tree down (R17, R185). `lead`
gives the entries r − 1 to r + 2 of a remote leader. -/
def deriveEntries (s : State) (lead : Nat → List Entry) : Nat → Owner → List Entry × Bool
  | 0, o => (tickOf s o, false)
  | k + 1, o =>
    match groupAbove s o with
    | none => (tickOf s o, false)
    | some g =>
      let es := (deriveEntries s lead k (.group g)).1
      let ty := Cfg.GRCFG_TYPE s (grW g)
      let ls := if isRemote s g then lead g
        else if ty = 1 ∨ ty = 2 then (deriveEntries s lead k (leaderOf s g)).1 else es
      let gr := getGr s g
      let lbase := if groupState s g = 3 ∧ !gr.running then (ls.headD {}).p else gr.lbase
      let ofs := mofsOf s g (memberPlace s g o)
      let r := List.zipWith (memberEntry s g lbase (ownerMod s o) ofs) es ls
      (r.map Prod.fst, r.any Prod.snd)

/-- Depth to which an image's references of parents and leaders can reach. -/
def deriveFuel : Nat := 256

/-- The entries of every member of group g, and GRSTAT.SAT (R185). -/
def deriveMembers (lead : Nat → List Entry) (g : Nat) (s : State) : State :=
  let ms := memberList s g
  let rs := ms.map (fun o => (o, deriveEntries s lead deriveFuel o))
  let s1 := forAll rs (fun q s => modProf s q.1 (fun p => { p with
    nextEntries := some (s.sys.round, q.2.1)
    kin := { p := (q.2.1.getLastD {}).p * 2 ^ 32 }
    rest := true })) s
  modGr s1 g (fun r => { r with sat := rs.any (fun q => q.2.2) })

/-- LBASE at the tick in which a GEAR group's state becomes RUN (R186), for groups in `l`. -/
def latchBases (lead : Nat → List Entry) (l : List Nat) (s : State) : State :=
  let bases := l.map (fun g =>
    let ls := if isRemote s g then lead g else (deriveEntries s lead deriveFuel (leaderOf s g)).1
    (g, if groupState s g = 3 ∧ !(getGr s g).running then (ls.headD {}).p else (getGr s g).lbase, decide (groupState s g = 3)))
  forAll bases (fun q s => modGr s q.1 (fun r => { r with lbase := q.2.1, running := q.2.2 })) s

/-- Groups of the image. -/
def groupsOf (s : State) : List Nat := (List.range 128).filter (fun g => Cfg.GRMCNT_COUNT s (grW g) ≠ 0)

/-- Level of a group (R15). -/
def groupLevel (s : State) : Nat → Nat → Nat
  | 0, _ => 1
  | k + 1, g => (membersOf s g).foldl (fun n o =>
      match o with
      | .axis _ => n
      | .group h => max n (groupLevel s k h + 1)) 1

/-- A group's members depend on a remote leader. -/
def groupOnRemote (s : State) (g : Nat) : Bool :=
  isRemote s g || onRemote s deriveFuel (.group g) ||
    ((Cfg.GRCFG_TYPE s (grW g) = 1 || Cfg.GRCFG_TYPE s (grW g) = 2) && onRemote s deriveFuel (leaderOf s g))

/-- The derivation of the groups in `l` (R185, R186). -/
def deriveGroups (lead : Nat → List Entry) (l : List Nat) (s : State) : State :=
  let s1 := forAll l (deriveMembers lead) s
  latchBases lead (l.filter (fun g => Cfg.GRCFG_TYPE s (grW g) = 1)) s1

/-! ### Merged feedback (R189) -/

/-- FE of a member in fine counts: an axis's own of R104, or GFE × 65,536 of a group's last tick. -/
def memberFe (s : State) (o : Owner) : Int :=
  match o with
  | .axis a => (getAx s a).ctl.feFine
  | .group g => (getGr s g).gfe * 65536

/-- Position of a member for GSKEW. -/
def memberPos (s : State) (o : Owner) : Int :=
  match o with
  | .axis a => (getAx s a).fb.pos
  | .group g => (getGr s g).gfbPos

/-- Position of a member reliable. -/
def memberRel (s : State) (o : Owner) : Bool := ownerPosRel s o

/-- GFBVEL: a quarter of the change of GFBPOS; how an inexact quotient is shown is left open (log 1). -/
def gfbVelOf (new old : Int) : Int := sat32 (openDiv (new - old) 4)

/-- Skew of a GANTRY in fine counts: max − min over the members (R189). -/
def skewOf (s : State) (g : Nat) : Int :=
  let ps := (List.range (memberList s g).length).map (fun i =>
    memberPos s (nth (.axis 0) (memberList s g) i) - mofsOf s g i * 65536)
  match ps with
  | [] => 0
  | p :: t => t.foldl max p - t.foldl min p

/-- GSKEW and fault 0x41 (R189, R200). -/
def gantrySkew (g : Nat) (s : State) : State :=
  let sk := skewOf s g
  let lim : Int := (Cfg.SKEWLIM s (grW g)).toNat
  let out := decide (lim ≠ 0) && decide (lim * 65536 < sk)
  let s1 := modGr s g (fun r => { r with gskew := min (openDiv sk 65536).toNat 0xFFFFFFFF })
  let axs := treeAxes s (.group g)
  let fresh := out && axs.any (fun a => !(getAx s a).ctl.causes.testBit 0x41)
  let s2 := forAll axs (fun a => setCause a 0x41 out) s1
  if fresh then
    forAll axs (fun a s => faultAx a 0x41 (Cfg.GRREACT_C41 s (grW g)) s) (modGr s2 g (fun r => { r with fcode := 0x41 }))
  else s2

/-- The merged feedback of group g (R189). -/
def mergeFeedback (g : Nat) (s : State) : State :=
  let gr := getGr s g
  let e := gr.prof.shown
  if isMover s g then
    modGr s g (fun r => { r with gfbPos := r.x, gfe := sat32 (truncDiv (e.p - r.x) 65536), gfbVel := gfbVelOf r.x gr.gfbPos })
  else
    let ms := memberList s g
    let sum := ms.foldl (fun acc o => acc + memberFe s o) 0
    let n : Int := ms.length
    let pos := sat64 (e.p - floorDiv sum n)
    let s1 := modGr s g (fun r => { r with
      gfbPos := pos, gfe := sat32 (truncDiv sum (n * 65536)), gfbVel := gfbVelOf pos gr.gfbPos, posRel := ms.all (memberRel s) })
    if Cfg.GRCFG_TYPE s (grW g) = 0 then gantrySkew g s1 else s1

/-- Merged feedback from level 1 upwards (R17). -/
def mergeAll (s : State) : State :=
  forAll [1, 2, 3, 4, 5, 6, 7] (fun lv s =>
    forAll ((groupsOf s).filter (fun g => groupLevel s 8 g = lv)) mergeFeedback s) s

/-! ### Exports (R188, R285) -/

/-- The owner exported in slot k (R188). -/
def exportOwner (s : State) (k : Nat) : Owner :=
  if Cfg.GXPORT_GRP s k then .group (Cfg.GXPORT_NUM s k) else .axis (Cfg.GXPORT_NUM s k)

/-- Epoch of the master pair as this unit knows it: its own in the master pair, else the last CMARK's (R284). -/
def cascEpoch (s : State) : Nat := if masterPair s then s.sys.epoch else s.casc.cepoch

/-- The CXP of export slot k (R284, R285), for Wheel's state before the tick. -/
def cxpSlot (s : State) (k : Nat) (kin : Kin) (es : List Entry) : Tx :=
  let j := fun i => beBytes 4 (intMod 32 (nth ({} : Entry) es i).j)
  let pay := beBytes 12 (intMod 96 kin.p) ++ beBytes 8 (intMod 64 kin.v) ++ beBytes 8 (intMod 64 kin.a)
    ++ (j 0 ++ j 1 ++ j 2) ++ beBytes 4 s.sys.round.toNat ++ beBytes 4 0
  let hdr := (Cfg.CSCFG_CHEAD s * 512 + b2n (isAlt s) * 256 + k) * 16 + 2
  .cascade (16 + 64 * Cfg.CXPOS_IDX s k) (slotBytes hdr s.sys.round.toNat (cascEpoch s) pay)

/-- CXP_SEND: one CXP for each enabled export of a driving unit (R188, R285). `old` is the state before the tick. -/
def cxpSend (old s : State) : State :=
  if driving s then
    forAll (List.range 8) (fun k s =>
      if Cfg.GXPORT_EN s k then
        let o := exportOwner s k
        send (cxpSlot s k (kinTotal (getProf old o)) (tickOf s o)) s
      else s) s
  else s

/-! ### The tick and the remote groups -/

/-- WHEEL_TICK (R46, R162): owners, membership, member entries, merged feedback, exports, rest. -/
def wheelTick (s : State) : State :=
  if s.sys.round.toNat % 4 = 3 ∧ s.sys.pwr = .run then
    let s1 := forAll (queueOwners s) tickOwner s
    let s2 := moverMembership s1
    let s3 := deriveGroups (fun _ => []) ((groupsOf s2).filter (fun g => !groupOnRemote s2 g)) s2
    let s4 := cxpSend s (mergeAll s3)
    forAll (groupsOf s) snapGroup (forAll (List.range 128) restDone s4)
  else s

/-- WHEEL_TICK (R162). -/
def execWheelTick (s : State) : Host.Outcome State Fault Refusal := .next (wheelTick s)

/-- The export a remote GEAR group follows. -/
def exportKey (s : State) (g : Nat) : Nat := Cfg.GEARSRC_CHEAD s (grW g) * 8 + Cfg.GEARSRC_XSLOT s (grW g)

/-- State of a profile n rounds on with jerk 0 (R187). -/
def coast : Nat → Kin → Kin
  | 0, k => k
  | n + 1, k => coast n (kinStep k 0)

/-- A tick's export has been accepted by its derivation. -/
def exportHere (s : State) (g : Nat) : Bool :=
  let x := tget {} s.casc.exports (exportKey s g)
  x.valid && x.tick = s.sys.round

/-- The leader's entries r − 1 to r + 2 (R187): one kept, three of this tick; without them the last is extended. The
jerk of the kept entry is what the states on both sides of it leave. -/
def remoteLead (s : State) (g : Nat) : List Entry :=
  let gr := getGr s g
  let x := tget ({} : Export) s.casc.exports (exportKey s g)
  if exportHere s g then
    { gr.lead with j := if gr.missRun = 0 then sat32 (x.kin0.a - gr.leadKin.a) else gr.lead.j } :: x.entries
  else gr.lead :: [1, 2, 3].map (fun n => kinOut (coast n gr.leadKin) 0)

/-- What a remote group keeps for the next tick, and fault 0x42 (R187, R200). -/
def remoteKeep (g : Nat) (s : State) : State :=
  let x := tget ({} : Export) s.casc.exports (exportKey s g)
  let here := exportHere s g
  let gr := getGr s g
  let run := if here then 0 else incSat 255 gr.missRun
  let k := if here then x.kin else coast 4 gr.leadKin
  let hold := Cfg.GEARCTR_GEARHOLD s (grW g)
  let s1 := modGr s g (fun r => { r with missRun := run, leadKin := k, lead := kinOut k 0 })
  let axs := treeAxes s (.group g)
  let s2 := forAll axs (fun a => setCause a 0x42 (decide (hold < run))) s1
  if hold < run ∧ gr.missRun ≤ hold then
    forAll axs (fun a s => faultAx a 0x42 (Cfg.GRREACT_C42 s (grW g)) s) (modGr s2 g (fun r => { r with fcode := 0x42 }))
  else s2

/-- REMOTE_GEAR_DERIVATION (R187) at core clock 2,500 of a tick round. -/
def remoteDerive (s : State) : State :=
  if s.sys.round.toNat % 4 = 3 ∧ s.sys.pwr = .run then
    let s1 := deriveGroups (remoteLead s) ((groupsOf s).filter (groupOnRemote s)) s
    forAll ((groupsOf s).filter (groupOnRemote s)) snapGroup (forAll ((groupsOf s).filter (isRemote s)) remoteKeep s1)
  else s

/-- REMOTE_GEAR_DERIVATION (R187). -/
def execRemoteGearDerivation (s : State) : Host.Outcome State Fault Refusal := .next (remoteDerive s)

end Sys2Proof.Machine
end

