-- ==== Sys2Proof/Machine/Link.lean ====
section
/-! DEFINITION. The link controller (R204 to R261): slots accepted and sent, nodes and their admission, delays, heals,
the skim schedule, and the head states that the rings decide (R235 to R237, R263). -/

namespace Sys2Proof.Machine

/-! ### Channels and roles -/

/-- Channels in use. -/
def chansOn (s : State) : List Nat := [0, 1].filter (chOn s)

/-- The unit generates markers and the schedule (R235, R263): COLDSTART, ACTIVE, HANDBACK, or LOCKED entered from one of
them. -/
def generates (s : State) : Bool :=
  pairRole s || s.sys.hstate = .coldstart || (s.sys.hstate = .locked && s.sys.lockedFrom = .coldstart)

/-- The unit sends in the present round: a cold start sends from its next T0 (R236), and a unit that steps down before a
later epoch to its next T0 (R263). -/
def sendsNow (s : State) : Bool :=
  (generates s && !(s.sys.hstate = .coldstart && s.sys.stateRounds = 0)) || s.sys.lastSend = some s.sys.round

/-- Node-facing port: preferred port 0, alternate port 1 (R207). -/
def facePort (s : State) : Nat := b2n (isAlt s)
/-- The port at which the lane normally returns. -/
def backPort (s : State) : Nat := 1 - facePort s

/-- Hyperperiod of a channel (R226). -/
def hyperOf (s : State) (ch : Nat) : Nat := 2 ^ Cfg.LKCFG_HP s (lkW ch)

/-- The unit takes upstream content: it generates the schedule, or computes in shadow (R235, R270). -/
def takesUp (s : State) : Bool :=
  generates s || shadows s

/-- The configured nodes attached to a channel. -/
def nodesOn (s : State) (ch : Nat) : List Nat :=
  (List.range 64).filter (fun n => Cfg.NDCFG_EN s (ndW n) && nodeOn s n ch)

/-! ### Measured delays (R244, R49) -/

/-- LKCAB of a segment (R261). -/
def cabOf (s : State) (ch seg : Nat) : Nat := bits (cfgReg s (lkW ch + 0x400 + seg * 4)) 15 0

/-- Sum of LKCAB over segments a to b − 1. -/
def cabSum (s : State) (ch a b : Nat) : Nat :=
  (List.range (b - a)).foldl (fun acc i => acc + cabOf s ch (a + i)) 0

/-- Ring position of node n on channel ch. -/
def ringPos (s : State) (n ch : Nat) : Nat := if ch = 0 then Cfg.NDCFG_RPOSA s (ndW n) else Cfg.NDCFG_RPOSB s (ndW n)

/-- What a way is made of (R244): the nominal delay of its cables, and that of the nodes and units it passes, in ns. -/
structure Way where
  cab : Nat
  fix : Nat
  deriving DecidableEq, Repr

/-- One way after another. -/
def Way.add (a b : Way) : Way := ⟨a.cab + b.cab, a.fix + b.fix⟩

/-- The way to a node (R244) and the whole way of which it is a part, and the receive port; near end of the node. -/
structure Path where
  part : Way
  total : Way
  port : Nat
  near : Bool
  deriving DecidableEq, Repr

/-- A way out from the preferred unit's side or the far side: `cab` and `nod` give cables and nodes up to the element,
`end_` where the ring turns back or returns. -/
def pathOf (s : State) (ch i : Nat) : Path :=
  let n := Cfg.LKCFG_NNODE s (lkW ch)
  let lat := Cfg.LKTCFG_NLAT s (lkW ch)
  let tw := b2n (Cfg.TWCFG_EN s)
  let c := getCh s ch
  -- from the preferred side: segments 0 to i, and i nodes before it
  let near : Way := ⟨cabSum s ch 0 (i + 1), lat * i⟩
  -- from the far side of the chain: segment 32, then segments n − 1 down to i + 1
  let far : Way := ⟨cabOf s ch 32 + cabSum s ch (i + 1) n, lat * (n - 1 - i)⟩
  let loop : Way := ⟨cabSum s ch 0 n + cabOf s ch 32 + tw * cabOf s ch 33, lat * n + tw * 48⟩
  match (if c.heal then c.hseg else none) with
  | none =>
    if isAlt s then ⟨far, loop, 0, false⟩ else ⟨near, loop, 1, true⟩
  | some b =>
    let side : Way := ⟨cabOf s ch 33, 48⟩
    if i < b then
      -- reached from the preferred side: at once, or behind the repeating preferred unit
      let turn : Way := if b = 33 then ⟨2 * (cabSum s ch 0 n + cabOf s ch 32), lat * (2 * n) + 48⟩
        else ⟨2 * cabSum s ch 0 (min b n), lat * (2 * min b n - 1)⟩
      if isAlt s then (if b = 33 then ⟨far, turn, 1, false⟩ else ⟨side.add near, side.add (side.add turn), 0, true⟩) else ⟨near, turn, 0, true⟩
    else
      let turn : Way := ⟨2 * (cabOf s ch 32 + cabSum s ch (b + 1) n), lat * (2 * (n - b) - 1)⟩
      if isAlt s then ⟨far, turn, 1, false⟩ else ⟨side.add far, side.add (side.add turn), 1, false⟩

/-- RING measured at a port, 312.5 ps. -/
def ringAt (s : State) (ch p : Nat) : Option Nat := if p = 0 then (getCh s ch).ring0 else (getCh s ch).ring1

/-- What of RING the cables of a way take, in 16ths of a ns (R244). -/
def cabShare (ring : Nat) (w : Way) : Int := 5 * (ring : Int) - 16 * (w.fix : Int)

/-- Measured DDN of a node as a fraction of ns, and RING of its port in 312.5 ps (R244); none while unreachable: σ scales
the cables alone. -/
def measured (s : State) (ch n : Nat) : Option (Int × Int × Nat) :=
  let p := pathOf s ch (ringPos s n ch)
  match ringAt s ch p.port with
  | some r =>
    let c : Int := p.total.cab
    if c = 0 then some (p.part.fix, 1, r) else some (16 * c * p.part.fix + p.part.cab * cabShare r p.total, 16 * c, r)
  | none => none

/-- σ of a whole way lies outside 0.8 to 1.25 (R244). -/
def sigmaBad (ring : Nat) (w : Way) : Bool :=
  let c : Int := 16 * (w.cab : Int)
  decide (10 * cabShare ring w < 8 * c) || decide (5 * c < 4 * cabShare ring w)

/-- A measured delay lies outside its bounds (R49). -/
def delayBad (s : State) (ch n : Nat) : Bool :=
  match measured s ch n with
  | none => false
  | some (num, den, r) =>
    let w := ndW n
    decide ((Cfg.NDDLY_DDN s w : Int) * den < num) || decide (num < (Cfg.NDDLYMIN_DDNMIN s w : Int) * den) ||
      decide ((Cfg.NDDLY_DUP s w : Int) * 16 * den < 5 * r * den - 16 * num)

/-- LATSTAT.VIOL and its event (R49). -/
def latViolate (s : State) : State := raise evLatency { s with sys := { s.sys with latViol := true } }

/-- R49 after a heal, a reversal or a change of schedule: fault 0x06 on the axes of a node outside its bounds. -/
def checkDelays (ch : Nat) (s : State) : State :=
  forAll (nodesOn s ch) (fun n s =>
    let bad := (getNode s ch n).st ≠ 0 && (getNode s ch n).st ≠ 5 && delayBad s ch n
    let s1 := if fastCh s n = ch || inSkim s then forAll (nodeAxes s n) (fun a => setCause a 0x06 bad) s else s
    if bad then latViolate (faultAxes (nodeAxes s1 n) 0x06 3 s1) else s1) s

/-- The delays a node's LKNDLY shows, taken anew from the last RING (R244, R261). -/
def noteDelays (ch : Nat) (s : State) : State :=
  forAll (nodesOn s ch) (fun n s =>
    let m := measured s ch n
    modNode s ch n (fun d => { d with
      ddn := m.map (fun x => (openDiv x.1 x.2.1).toNat)
      dup := m.map (fun x => (openDiv (5 * (x.2.2 : Int) * x.2.1 - 16 * x.1) (16 * x.2.1)).toNat) })) s

/-- Slack of R48's arrival condition for node n, in ns, and whether there is one (R55). -/
def nodeSlack (s : State) (n : Nat) : Option Int :=
  let ch := nodeCh s n
  if (getNode s ch n).st = 3 then
    match measured s ch n, (nodeAxes s n).filterMap (fdnStart s) with
    | some (num, den, _), f :: fs =>
      -- 7,812.5 − (3.125 F + 300) − DDN in 16ths of a ns over den
      let x : Int := (7512 * 16 + 8 - 50 * ((fs.foldl max f : Nat) : Int)) * den - 16 * num
      some (openDiv x (16 * den))
    | _, _ => none
  else none

/-- LATSTAT.MARGIN_NS and NODE (R55). -/
def noteMargin (s : State) : State :=
  let best := (List.range 64).foldl (fun (b : Option (Int × Nat)) n =>
    match nodeSlack s n, b with
    | some x, some (y, m) => if x < y then some (x, n) else some (y, m)
    | some x, none => some (x, n)
    | none, b => b) none
  match best with
  | some (x, n) => { s with sys := { s.sys with latMargin := min x.toNat 65535, latNode := n } }
  | none => { s with sys := { s.sys with latMargin := 65535, latNode := 0 } }

/-! ### Sending -/

/-- A slot leaves on channel ch: from the node-facing port, and from both ports while a heal is in force (R207, R251). -/
def sendSlot (ch start : Nat) (bytes : List Byte) (s : State) : State :=
  let s1 := send (.toelle ch (facePort s) start bytes) s
  if (getCh s ch).heal then send (.toelle ch (backPort s) start bytes) s1 else s1

/-- HDR of a scheduled slot (R214). -/
def slotHdr (ch idx ty : Nat) : Nat := (ch * 2048 + idx) * 16 + ty

/-- A scheduled slot of the present round. -/
def sendEntry (ch : Nat) (e : SEntry) (pay : List Byte) (s : State) : State :=
  sendSlot ch e.start (slotBytes (slotHdr ch e.idx e.type) s.sys.round.toNat s.sys.epoch pay) s

/-- The MARK of the present round (R216, R217). -/
def markSlot (s : State) (ch : Nat) : List Byte :=
  let id := Cfg.CSCFG_CHEAD s * 512 + b2n (isAlt s) * 256 + b2n (inSkim s) * 128 + Cfg.LKCFG_HP s (lkW ch) * 16
  slotBytes (id * 16 + tyMARK) s.sys.round.toNat s.sys.epoch (beBytes 4 s.sys.round.toNat ++ beBytes 2 s.sys.epoch)

/-- An SVC payload (R223). -/
def svcPayload (op tag addr : Nat) (data : List Word) : List Byte :=
  beBytes 1 op ++ beBytes 1 tag ++ beBytes 1 data.length ++ beBytes 1 0 ++ beBytes 4 addr
    ++ beBytes 4 (nth 0#32 data 0).toNat ++ beBytes 4 (nth 0#32 data 1).toNat

/-- Nodes at the ends of the segment of the heal in force (R208, R253). -/
def segEnds (s : State) (ch : Nat) : List Nat :=
  match (getCh s ch).hseg with
  | some b =>
    (nodesOn s ch).filter (fun n => let i := ringPos s n ch; if b < 32 then i = b || i + 1 = b
      else b = 32 && i + 1 = Cfg.LKCFG_NNODE s (lkW ch))
  | none => []

/-- The offset in use for the node's port of arrival, in 2^-6 ns (R245). -/
def nofsOf (s : State) (ch n : Nat) : Int :=
  let d := getNode s ch n
  if (pathOf s ch (ringPos s n ch)).near then d.nofsN else d.nofsF

/-- 64 × (DDN − NOFS), rounded, before the clamp (R245). -/
def corrOf (s : State) (ch n : Nat) : Option Int :=
  (measured s ch n).map (fun x => roundAway (64 * x.1) x.2.1 - nofsOf s ch n)

/-- The SYNC word of a node (R224, R239, R245, R253, R260). -/
def syncWord (s : State) (ch n : Nat) : Nat :=
  let d := getNode s ch n
  if !(nodesOn s ch).contains n || d.st = 0 then 0
  else if d.reint || d.st = 5 then 0x8000
  else if (getCh s ch).unwrapping && (segEnds s ch).contains n then 0x8001
  else
    match corrOf s ch n with
    | some c => intMod 16 (clampInt (-32766) 32766 c)
    | none => 0

/-- After a SYNC word has left: an order is given once, and a clamped value makes the head write a new offset (R245). -/
def syncSent (ch n : Nat) (s : State) : State :=
  let d := getNode s ch n
  if !(nodesOn s ch).contains n || d.st = 0 then s
  else if d.reint then modNode s ch n (fun d => { d with reint := false })
  else
    match corrOf s ch n with
    | some c =>
      if c ≠ clampInt (-32766) 32766 c ∧ d.nofsNew.isNone ∧ d.st ≠ 5 then
        let new := nofsOf s ch n + c
        let addr := if (pathOf s ch (ringPos s n ch)).near then 0x1808 else 0x180C
        modNode s ch n (fun d => { d with nofsNew := some new, svcq := d.svcq ++ [(2, addr, [wordOfInt new])] })
      else s
    | none => s

/-- One SYNC entry (R224). -/
def sendSync (ch : Nat) (e : SEntry) (s : State) : State :=
  let ns := (List.range 8).map (fun w => 8 * (e.aux % 8) + w)
  forAll ns (syncSent ch) (sendEntry ch e (ns.flatMap (fun n => beBytes 2 (syncWord s ch n))) s)

/-- One SVC entry (R223, R239, R240): the next write of a load sequence in the node's entry of 1,984 upwards, the next
request for its node, or OP 0. A retired node gets nothing. -/
def sendSvc (ch : Nat) (e : SEntry) (s : State) : State :=
  let d := getNode s ch e.node
  if d.st = 5 then s
  else if d.st = 1 then
    match (if e.idx = 1984 + e.node then d.loadq else []) with
    | (addr, data) :: rest =>
      sendEntry ch e (svcPayload 2 0 addr data) (modNode s ch e.node (fun d => { d with
        loadq := rest, loaded := rest.isEmpty, countAt := s.sys.round }))
    | [] => sendEntry ch e (svcPayload 0 0 0 []) s
  else
    match d.svcq with
    | (op, addr, data) :: rest =>
      let s1 := modNode s ch e.node (fun d => { d with svcq := rest, tag := (d.tag + 1) % 256, asked := (d.tag, addr) :: d.asked.take 7 })
      let len := if op = 1 then [0#32] else data
      sendEntry ch e (svcPayload op d.tag addr len) s1
    | [] => sendEntry ch e (svcPayload 0 0 0 []) s

/-- The marker, SYNC and SVC slots of the present round on a channel (R207, R213). FDN and SAFE slots leave with the
commands that build them. -/
def sendSchedule (ch : Nat) (s : State) : State :=
  let s1 := sendSlot ch 0 (markSlot s ch) s
  forAll ((schedAt s ch s.sys.round).filter (fun e => !e.up)) (fun e =>
    if e.type = tySYNC then sendSync ch e else if e.type = tySVC then sendSvc ch e else id) s1

/-! ### Accepting upstream slots (R216, R247) -/

/-- Re-integration order (R245, R247): counted, sent in the next SYNC; the node is REINTEGRATING. -/
def orderReint (ch n : Nat) (s : State) : State :=
  let s1 := modCh s ch (fun c => { c with reint := inc16 c.reint })
  let s2 := modNode s1 ch n (fun d => { d with
    reint := true, st := if d.st = 5 then 5 else 4, seen := [], ident := none, nclass := none, asked := [], svcq := []
    loadq := [], silent := 0 })
  transient clsNode n s2

/-- RING of a receive port in 312.5 ps (R247): as the own MARK of the present round has shown it, else as last measured (DESIGN
CHOICE, log 11: the spec does not say what a round without a returned MARK takes). -/
def ringNow (s : State) (ch p : Nat) : Option Nat :=
  match (if p = 0 then (getCh s ch).now0 else (getCh s ch).now1) with
  | some g => some g
  | none => ringAt s ch p

/-- The arrival offset e of a slot in 16ths of a ns (R247): 3.125 ns per byte time, and RING of its port. -/
def arrivalOfs (s : State) (r : RxSlot) : Option Int :=
  (ringNow s r.ch r.port).map (fun g => r.arrival - (50 * (r.start : Int) + 5 * (g : Int)))

/-- The window of R247 on an upstream slot of node n: the state, and whether the slot lies inside. Only the unit that
measures RING judges it; a slot at a port without any RING lies outside. -/
def window (r : RxSlot) (n : Nat) (s : State) : State × Bool :=
  if !pairRole s then (s, true)
  else
    let e := arrivalOfs s r
    let ok := match e with
      | some x => decide (x.natAbs ≤ 192)
      | none => false
    let s1 := modNode s r.ch n (fun d => { d with
      eofs := match e with
        | some x => clampInt (-128) 127 (openDiv x 4)
        | none => d.eofs
      oowRun := if ok then 0 else if 8 ≤ d.oowRun then 1 else d.oowRun + 1 })
    if ok then (s1, true)
    else
      let s2 := modCh s1 r.ch (fun c => { c with oow := inc16 c.oow })
      if (getNode s2 r.ch n).oowRun = 8 then (orderReint r.ch n s2, false) else (s2, false)

/-- The upstream entry a slot's position carries in this round. -/
def expected (s : State) (r : RxSlot) : Option SEntry :=
  (schedAt s r.ch s.sys.round).find? (fun e => e.up && e.start = r.start)

/-- Upstream content of the node is ignored: its slot is in BACKOFF (R239). -/
def contentIgnored (s : State) (ch n : Nat) : Bool := (getNode s ch n).st = 4 && (getRet s clsNode n).st = .backoff

/-- Node n takes part: its content counts (R239). -/
def nodeHeard (s : State) (ch n : Nat) : Bool :=
  let d := getNode s ch n
  d.st ≠ 5 && d.st ≠ 0 && !contentIgnored s ch n

/-- Upstream content of a node has been accepted (R239, R242): its state, and the positions seen in the hyperperiod. -/
def noteContent (r : RxSlot) (e : SEntry) (s : State) : State :=
  let h := hyperOf s r.ch
  let start := s.sys.round - BitVec.ofNat 32 (s.sys.round.toNat % h)
  modNode s r.ch e.node (fun d => { d with
    st := if d.st = 1 then 2 else d.st
    port := r.port, heard := true, silent := 0
    hyper := start
    seen := (e.idx, s.sys.round.toNat % h) :: (if d.hyper = start then d.seen else []) })

/-- A unit that repeats the lanes passes a slot on at its other port within 48 ns, as a node does (R207, R235); one that wraps
returns what comes in at its good port out of that port (R250). -/
def repeatSlot (r : RxSlot) (s : State) : State :=
  if !repeatsLanes s || !chOn s r.ch then s
  else
    match (getCh s r.ch).wrapPort with
    | none => send (.toelle r.ch (1 - r.port) r.start r.bytes) s
    | some p => if r.port = p then s else send (.toelle r.ch r.port r.start r.bytes) s

/-- A wrapped unit that has received the MARK twice in this round merely repeats what follows (R250). -/
def secondPass (s : State) (ch : Nat) : Bool := (getCh s ch).wrapPort.isSome && decide (2 ≤ (getCh s ch).marks)

/-- Low bytes of ROUND and EPOCH of the MARK of the present round (R216): of its own where the unit sends it, else of the one
that it has accepted. -/
def roundMark (s : State) (ch : Nat) : Option (Nat × Nat) :=
  if generates s then some (s.sys.round.toNat % 256, s.sys.epoch % 256)
  else (getCh s ch).mark.map (fun m => (m.1.toNat % 256, m.2 % 256))

/-- A whole slot of the round before, which arrives after its round has ended (R231). -/
def overdue (s : State) (r : RxSlot) : Bool :=
  !r.codeErr && rxCrcOk 16 r.bytes && decide (rxSeq r.bytes = (s.sys.round - 1).toNat % 256)

/-- A slot of type ty (R216, R231, R247): the state with what is counted, and the entry it is accepted for. -/
def acceptUp (r : RxSlot) (ty : Nat) (s' : State) : State × Option SEntry :=
  let s := repeatSlot r s'
  if !takesUp s || !chOn s r.ch || secondPass s r.ch then (s, none)
  else if overdue s r then (modCh s r.ch (fun c => { c with stale := inc16 c.stale }), none)
  else
    match expected s r with
    | none =>
      (modCh s r.ch (fun c =>
        if r.codeErr then { c with codeErr := inc16 c.codeErr }
        else if !rxCrcOk 16 r.bytes then { c with crcErr := inc16 c.crcErr }
        else { c with mismatch := inc16 c.mismatch }), none)
    | some e =>
      let w := window r e.node s
      let s1 := w.1
      if !w.2 then (s1, none)
      else if r.codeErr then (modCh s1 r.ch (fun c => { c with codeErr := inc16 c.codeErr }), none)
      else if !rxCrcOk 16 r.bytes then (modCh s1 r.ch (fun c => { c with crcErr := inc16 c.crcErr }), none)
      else if e.type ≠ ty ∨ rxHdr r.bytes ≠ slotHdr r.ch e.idx ty then
        (modCh s1 r.ch (fun c => { c with mismatch := inc16 c.mismatch }), none)
      else if roundMark s1 r.ch ≠ some (rxSeq r.bytes, rxEpl r.bytes) then
        (modCh s1 r.ch (fun c => { c with stale := inc16 c.stale }), none)
      else if ty = tySAFE ∧ !contentIgnored s1 r.ch e.node then
        ((if nodeHeard s1 r.ch e.node then noteContent r e s1 else s1), some e)
      else if !nodeHeard s1 r.ch e.node then (s1, none)
      else (noteContent r e s1, some e)

/-- Change the input entry of an axis for the present sample round (R51). -/
def modIn (s : State) (a : Nat) (f : InEntry → InEntry) : State :=
  { s with inbuf := tset s.inbuf (inKey a s.sys.round) (f (getIn s a s.sys.round)) }

/-- FUP_RECEIVED (R51); in DEEP PARK fast content is checked and dropped (R410). -/
def fupReceived (r : RxSlot) (s : State) : State :=
  match acceptUp r tyFUP s with
  | (s1, some e) => if s.sys.pwr = .deep then s1 else modIn s1 e.axis (fun i => { i with fup := some (rxPayload r.bytes) })
  | (s1, none) => s1

/-- FUP_RECEIVED (R51). -/
def execFupReceived (r : RxSlot) (s : State) : Host.Outcome State Fault Refusal := .next (fupReceived r s)

/-- POS_RECEIVED (R221). -/
def posReceived (r : RxSlot) (s : State) : State :=
  match acceptUp r tyPOS s with
  | (s1, some e) => if s.sys.pwr = .deep then s1 else modIn s1 e.axis (fun i => { i with pos := some (rxPayload r.bytes) })
  | (s1, none) => s1

/-- POS_RECEIVED (R221). -/
def execPosReceived (r : RxSlot) (s : State) : Host.Outcome State Fault Refusal := .next (posReceived r s)

/-- DIAG_RECEIVED (R224, R233). -/
def diagReceived (r : RxSlot) (s : State) : State :=
  match acceptUp r tyDIAG s with
  | (s1, some e) =>
    let p := rxPayload r.bytes
    let w := fun i => BitVec.ofNat 32 (beNat p i 4)
    { s1 with link := { s1.link with
        diags := tset s1.link.diags e.node { d0 := w 0, d1 := w 4, d2 := w 8, rnd := s.sys.round } } }
  | (s1, none) => s1

/-- DIAG_RECEIVED (R224). -/
def execDiagReceived (r : RxSlot) (s : State) : Host.Outcome State Fault Refusal := .next (diagReceived r s)

/-- NDCFG as NIDENT and NCLASS report it (R223, R233). -/
def identOk (s : State) (n : Nat) (w : Word) : Bool := w = Cfg.NDIDENT s (ndW n)
/-- Class and axis count agree. -/
def classOk (s : State) (n : Nat) (w : Word) : Bool :=
  bits w 9 8 = Cfg.NDCFG_CLASS s (ndW n) && bits w 3 0 = Cfg.NDCFG_NAX s (ndW n)

/-- NODE_IDENTITY_MISMATCH (R242): the node slot is retired for good. -/
def identityMismatch (n : Nat) (s : State) : State := raise evNodeIdentity (permanent clsNode n s)

/-- A reply of node n to a request for address addr (R223, R242, R245). -/
def takeReply (ch n addr : Nat) (w : Word) (s : State) : State :=
  if addr = 0 then
    if identOk s n w then modNode s ch n (fun d => { d with ident := some w }) else identityMismatch n s
  else if addr = 4 then
    if classOk s n w then modNode s ch n (fun d => { d with nclass := some w }) else identityMismatch n s
  else if addr = 0x1808 then modNode s ch n (fun d => { d with nofsN := d.nofsNew.getD d.nofsN, nofsNew := none })
  else if addr = 0x180C then modNode s ch n (fun d => { d with nofsF := d.nofsNew.getD d.nofsF, nofsNew := none })
  else s

/-- SVC_REPLY (R223): the answer to the request of its tag. A refused request is no longer out. -/
def svcReply (r : RxSlot) (s : State) : State :=
  match acceptUp r tySVC s with
  | (s1, some e) =>
    let p := rxPayload r.bytes
    let op := beNat p 0 1
    let tag := beNat p 1 1
    match (getNode s1 r.ch e.node).asked.find? (fun q => q.1 = tag) with
    | some (_, addr) =>
      if op = 3 ∨ op = 4 then
        let s2 := modNode s1 r.ch e.node (fun d => { d with
          asked := d.asked.filter (fun q => q.1 ≠ tag), nofsNew := if op = 4 then none else d.nofsNew })
        if op = 3 ∧ beNat p 3 1 = 0 then takeReply r.ch e.node addr (BitVec.ofNat 32 (beNat p 8 4))
          (modNode s2 r.ch e.node (fun d => { d with nofsNew := (getNode s1 r.ch e.node).nofsNew })) else s2
      else s1
    | none => s1
  | (s1, none) => s1

/-- SVC_REPLY (R223). -/
def execSvcReply (r : RxSlot) (s : State) : Host.Outcome State Fault Refusal := .next (svcReply r s)

/-- UPSTREAM_SILENCE (R247): as for eight slots outside the window. A node that is loaded or re-integrates is silent under R241
for up to 2H rounds, so this holds for INTEGRATING and ADMITTED nodes (DEDUCED, log 11). -/
def upstreamSilence (ch n : Nat) (s : State) : State :=
  let d := getNode s ch n
  if pairRole s && chOn s ch && !(getCh s ch).lost && (d.st = 2 || d.st = 3) && decide (2 * hyperOf s ch ≤ d.silent) then
    orderReint ch n s
  else s

/-- UPSTREAM_SILENCE (R247). -/
def execUpstreamSilence (ch node : Nat) (s : State) : Host.Outcome State Fault Refusal := .next (upstreamSilence ch node s)

/-! ### Joining a node (R239 to R242) -/

/-- Every configured node starts in LOADING (R239). -/
def startLoading (s : State) : State :=
  forAll (chansOn s) (fun ch s => forAll (nodesOn s ch) (fun n s =>
    if isRetired s clsNode n then modNode s ch n (fun d => { d with st := 5 })
    else modNode s ch n (fun _ => { st := 1, countAt := s.sys.round })) s) s

/-- The entries of a table that a node must know: those that name it, and the SYNC entries of its block (DEDUCED, log
11). -/
def nodeEntries (s : State) (n ch : Nat) (skim : Bool) : List SEntry :=
  ((schedTable s ch skim).filter (fun e => (e.type ≠ tyMARK && e.type ≠ tySYNC && e.node = n) ||
    (e.type = tySYNC && e.aux % 8 = n / 8))).take 256

/-- The two words of an entry (R225). -/
def entryWords (e : SEntry) : List Word :=
  [packWord [(31, 31, 1), (30, 24, e.axis), (23, 23, b2n e.up), (22, 17, e.node), (15, 12, e.type), (11, 0, e.start)],
   packWord [(20, 16, e.aux), (15, 0, e.rmask)]]

/-- The writes that load one set. -/
def setWrites (base : Nat) (es : List SEntry) : List (Nat × List Word) :=
  (List.range es.length).map (fun i => (base + i * 8, entryWords (nth ⟨0, 0, false, 0, 0, 0, 0, 0⟩ es i)))

/-- The load sequence of R240, with the offsets the head writes. -/
def loadWrites (s : State) (n : Nat) (ofsN ofsF : Word) : List (Nat × List Word) :=
  let f := fastCh s n
  let set0 := nodeEntries s n f false
  let set1 := if nodeOn s n (1 - f) then nodeEntries s n (1 - f) false else []
  let set2 := if nodeOn s n 0 && Cfg.LKTCFG_SKEN s (lkW 0) then nodeEntries s n 0 true else []
  let set3 := if nodeOn s n 1 && Cfg.LKTCFG_SKEN s (lkW 1) then nodeEntries s n 1 true else []
  let cnt := fun (l : List SEntry) => [BitVec.ofNat 32 l.length]
  [(0x1804, [BitVec.ofNat 32 (Cfg.LKTCFG_HOLD s (lkW f))]), (0x1808, [ofsN]), (0x180C, [ofsF])]
    ++ setWrites 0x4000 set3 ++ setWrites 0x3000 set2 ++ setWrites 0x2000 set1 ++ setWrites 0x1000 set0
    ++ [(0x4800, cnt set3), (0x3800, cnt set2), (0x2800, cnt set1), (0x1800, cnt set0)]

/-- LOAD_SEQUENCE (R240): its writes leave one by one in the positions of entry 1,984 + node, from the next round on. The
offsets that the head writes first the spec leaves open (log 1). -/
def loadSequence (ch n : Nat) (s : State) : State :=
  if !pairRole s || (getNode s ch n).st ≠ 1 then s
  else
    let oN := freeW s
    let oF := freeW s.tick
    modNode s.tick.tick ch n (fun d => { d with
      nofsN := signedN 32 oN.toNat, nofsF := signedN 32 oF.toNat, loaded := false, loadq := loadWrites s n oN oF })

/-- LOAD_SEQUENCE (R240). -/
def execLoadSequence (ch node : Nat) (s : State) : Host.Outcome State Fault Refusal := .next (loadSequence ch node s)

/-- LOAD_TIMEOUT (R239): the load sequence again. -/
def loadTimeout (ch n : Nat) (s : State) : State :=
  let d := getNode s ch n
  if d.st = 1 && d.loaded && later s.sys.round (d.countAt + BitVec.ofNat 32 (2 * hyperOf s ch - 1)) then loadSequence ch n s
  else s

/-- LOAD_TIMEOUT (R239). -/
def execLoadTimeout (ch node : Nat) (s : State) : Host.Outcome State Fault Refusal := .next (loadTimeout ch node s)

/-- Every upstream position of the node over the hyperperiod has been accepted (R242). -/
def hyperFull (s : State) (ch n : Nat) : Bool :=
  let h := hyperOf s ch
  let d := getNode s ch n
  let es := (schedNow s ch).filter (fun e => e.up && e.node = n)
  !es.isEmpty && es.all (fun e => (List.range h).all (fun r => !e.acts (d.hyper + BitVec.ofNat 32 r) ||
    d.seen.contains (e.idx, (d.hyper.toNat + r) % h)))

/-- After a node's integration its brake channels await a new basis (R298). -/
def newBasis (n : Nat) (s : State) : State :=
  forAll ((List.range 32).filter (fun b => Cfg.SGBRK_EN s b && Cfg.SGBRK_NODE s b = n)) (fun b s =>
    modBrk s b (fun k => { k with basis := false, misses := 0, copyA := none, copyB := none })) s

/-- NODE_ADMISSION (R242, R49): identity, then delays. The standby, which may not write, takes an identity it has not
seen as read by the active unit (DEDUCED, log 11). -/
def nodeAdmission (ch n : Nat) (s : State) : State :=
  let d := getNode s ch n
  if !(takesUp s && (d.st = 2 || d.st = 4) && nodeHeard s ch n && hyperFull s ch n) then s
  else
    let taken := raise evNodeAdmitted (newBasis n (modNode s ch n (fun d => { d with st := 3, oowRun := 0 })))
    if !pairRole s then taken
    else
      match d.ident, d.nclass with
      | some i, some c =>
        if !(identOk s n i && classOk s n c) then identityMismatch n s
        else if delayBad s ch n then latViolate s
        else taken
      | _, _ => if d.svcq.isEmpty then modNode s ch n (fun d => { d with svcq := [(1, 0, []), (1, 4, [])] }) else s

/-- NODE_ADMISSION (R242). -/
def execNodeAdmission (ch node : Nat) (s : State) : Host.Outcome State Fault Refusal := .next (nodeAdmission ch node s)

/-! ### Judgement, heals and skim (R250 to R258, R268) -/

/-- The port observations of byte time 2,448 (R244, R251). -/
def notePorts (o : ChanObs) (c : Chan) : Chan :=
  { c with lock0 := o.lock0, lock1 := o.lock1, align0 := o.align0, align1 := o.align1, los0 := o.los0, los1 := o.los1, ring0 := o.ring0, ring1 := o.ring1
           noReturn := if o.ring0.isNone && o.ring1.isNone then c.noReturn + 1 else 0
           returned := if o.ring0.isNone && o.ring1.isNone then 0 else c.returned + 1 }

/-- The channel needs the heal (R251). -/
def healNeeded (s : State) (o : ChanObs) : Bool :=
  let back := backPort s
  let ring := if back = 0 then o.ring0 else o.ring1
  let lock := if back = 0 then o.lock0 else o.lock1
  let los := if back = 0 then o.los0 else o.los1
  ring.isNone || !lock || los || o.wrapped

/-- The broken segment (R208, R251). -/
def brokenSeg (s : State) (ch : Nat) (o : ChanObs) : Nat :=
  let n := Cfg.LKCFG_NNODE s (lkW ch)
  if isAlt s then
    (if o.reach = 0 then s.link.segReport.getD 32
     else if o.reach < n then n - o.reach
     else if s.link.segReport = some 33 then 33 else 0)
  else if o.reach < n then o.reach else s.link.segReport.getD 32

/-- The nodes that wrap while a heal is in force: those at the ends of its segment (R250, R251). -/
def noteWraps (ch : Nat) (s : State) : State :=
  let ends := if (getCh s ch).heal then segEnds s ch else []
  forAll ((nodesOn s ch).filter (fun n => (getNode s ch n).wrap ≠ ends.contains n)) (fun n s =>
    modNode s ch n (fun d => { d with wrap := ends.contains n })) s

/-- A MARK that came back during a heal comes back no more while the unwrap order is out: one of the two elements alone has
unwrapped (R253). -/
def ringBroken (old new : Chan) : Bool :=
  old.unwrapping && ((old.ring0.isSome && new.ring0.isNone) || (old.ring1.isSome && new.ring1.isNone))

/-- A heal that its judgement keeps (R251): segment, transient, count, event and delays. -/
def healCounted (ch seg : Nat) (s : State) : State :=
  let s1 := modCh s ch (fun c => { c with hseg := some seg, heals := inc16 c.heals })
  checkDelays ch (noteDelays ch (raise (evRingHeal + ch) (transient clsSegment (ch * 64 + seg) s1)))

/-- The heal of a channel at its judgement (R251, R253, R267): it comes into force; the next judgement counts it, but for the
heal of a takeover that is not needed; it ends when all content returns at its normal port; a ring that fails again is healed
anew. -/
def judgeHeal (ch : Nat) (o : ChanObs) (old : Chan) (s : State) : State :=
  let c := getCh s ch
  let stop := fun (s : State) => modCh s ch (fun c => { c with heal := false, hseg := none, unwrapping := false, checkNext := true })
  if !c.heal then
    (if healNeeded s o then modCh s ch (fun c => { c with heal := true, healTake := false, hseg := none }) else s)
  else if healNeeded s o then
    (if c.hseg.isNone then healCounted ch (brokenSeg s ch o) s
     else if ringBroken old c then modCh s ch (fun c => { c with hseg := none, healTake := false, unwrapping := false })
     else s)
  else if c.hseg.isNone then stop (if c.healTake then s else healCounted ch (brokenSeg s ch o) s)
  else if o.reach = 0 then stop s
  else s

/-- CHANNEL_LOST (R254): transient, event, and the skim schedule on the other channel where it has one. -/
def channelLost (ch : Nat) (s : State) : State :=
  let o := 1 - ch
  let s1 := raise (evChannelLost + ch) (transient clsChannel ch (modCh s ch (fun c => { c with lost := true, returned := 0 })))
  if s1.link.skim.isNone && chOn s1 o && !(getCh s1 o).lost && Cfg.LKTCFG_SKEN s1 (lkW o) then
    checkDelays o { s1 with link := { s1.link with skim := some o } }
  else s1

/-- LEASE_RELEASE (R268): an active unit whose MARK returns nowhere for 2 rounds, while the peer can take over. -/
def leaseRelease (s : State) : State :=
  if driving s && !(chansOn s).isEmpty && (chansOn s).all (fun ch => decide (2 ≤ (getCh s ch).noReturn)) && bit s.twin.peerHealth 31 then
    setHead .isolated { s with twin := { s.twin with cause := 6 }, sys := { s.sys with quietRounds := 0 } }
  else s

/-- CHANNEL_JUDGEMENT (R251 to R254), with the check of R49 after a reversal or a heal that has ended. A unit that does not hold the pair role only notes its ports. -/
def channelJudgement (ch : Nat) (o : ChanObs) (s : State) : State :=
  let s1 := modCh s ch (notePorts o)
  if !pairRole s || !chOn s ch then s1
  else
    let n := Cfg.LKCFG_NNODE s (lkW ch)
    let odd := (List.range n).any (fun i =>
      let p := pathOf s1 ch i
      match ringAt s1 ch p.port with
      | some r => sigmaBad r p.total
      | none => false)
    let s2 := if odd && !(getCh s1 ch).dlyImpl then raise evDelayImplausible (modCh s1 ch (fun c => { c with dlyImpl := true }))
      else s1
    let s3 := noteDelays ch s2
    let c := getCh s3 ch
    let gone := decide (2 ≤ c.noReturn) || isRetired s3 clsChannel ch
    let s4 :=
      if gone && !c.lost then channelLost ch s3
      else if c.lost then
        (if s3.link.skim.isNone && decide (c.noReturn = 0) && decide ((getRet s3 clsChannel ch).st = .inUse) then
          modCh s3 ch (fun c => { c with lost := false }) else s3)
      else judgeHeal ch o (getCh s ch) s3
    let s5 :=
      if (getCh s4 ch).checkNext && ((getCh s4 ch).ring0.isSome || (getCh s4 ch).ring1.isSome) then
        checkDelays ch (noteDelays ch (modCh s4 ch (fun c => { c with checkNext := false })))
      else s4
    leaseRelease (noteMargin (noteWraps ch s5))

/-- CHANNEL_JUDGEMENT (R251). -/
def execChannelJudgement (ch : Nat) (o : ChanObs) (s : State) : Host.Outcome State Fault Refusal :=
  .next (channelJudgement ch o s)

/-- SKIM_ENDED (R258): after 16 rounds of returned markers, delays in bounds, at a round that is a multiple of 16. -/
def skimEnded (s : State) : State :=
  match s.link.skim with
  | none => s
  | some o =>
    let ch := 1 - o
    let ok := decide (16 ≤ (getCh s ch).returned) && s.sys.round.toNat % 16 = 0 && !isRetired s clsChannel ch
      && (nodesOn s ch).all (fun n => !delayBad s ch n)
    if ok then
      let s1 := modCh s ch (fun c => { c with lost := false })
      checkDelays 1 (checkDelays 0 (raise evSkimEnded { s1 with link := { s1.link with skim := none } }))
    else s

/-- SKIM_ENDED (R258). -/
def execSkimEnded (s : State) : Host.Outcome State Fault Refusal := .next (skimEnded s)

/-- What PORT_LOSS says is lost (R234, R250): receive lock, comma alignment, or the light, which raises _LOS. -/
def noteLoss (port how : Nat) (c : Chan) : Chan :=
  if port = 0 then
    (match how with
     | 0 => { c with lock0 := false }
     | 1 => { c with align0 := false }
     | _ => { c with los0 := true })
  else
    (match how with
     | 0 => { c with lock1 := false }
     | 1 => { c with align1 := false }
     | _ => { c with los1 := true })

/-- PORT_LOSS (R250): the port is lost; a unit in STANDBY, LISTEN or ISOLATED, or in LOCKED entered from one of them, wraps,
with the lost port's transmitter off for 10 µs. -/
def portLoss (ch port how : Nat) (s : State) : State :=
  let s1 := modCh s ch (noteLoss port how)
  if repeatsLanes s && (getCh s ch).wrapPort.isNone then
    modCh s1 ch (fun c =>
      let c1 := { c with wrapPort := some port, wrapRounds := 0, lockRounds := 0, unwrapping := false }
      if port = 0 then { c1 with txdis0 := true } else { c1 with txdis1 := true })
  else s1

/-- PORT_LOSS (R250). -/
def execPortLoss (ch : Nat) (f : PortFault) (s : State) : Host.Outcome State Fault Refusal := .next (portLoss ch f.port f.how s)

/-- UNWRAP_ORDER (R253): with the backoff of the healed segment over, both its ends are ordered to unwrap. -/
def unwrapOrder (ch : Nat) (s : State) : State :=
  match (getCh s ch).hseg with
  | some b =>
    if pairRole s && (getRet s clsSegment (ch * 64 + b)).st = .inUse then modCh s ch (fun c => { c with unwrapping := true }) else s
  | none => s

/-- UNWRAP_ORDER (R253). -/
def execUnwrapOrder (ch : Nat) (s : State) : Host.Outcome State Fault Refusal := .next (unwrapOrder ch s)

/-- UNWRAP (R250, R253): this unit, once ordered and with its lost port locked for 1 ms, at a round that is a multiple of
16. -/
def unwrap (ch : Nat) (s : State) : State :=
  let c := getCh s ch
  match c.wrapPort with
  | some p =>
    if !pairRole s && c.unwrapping && s.sys.round.toNat % 16 = 0 && (if p = 0 then c.lock0 && c.align0 else c.lock1 && c.align1)
        && decide (Config.roundsPerMs ≤ c.lockRounds) then
      modCh s ch (fun c => { c with wrapPort := none, unwrapping := false, txdis0 := false, txdis1 := false })
    else s
  | none => s

/-- UNWRAP (R253). -/
def execUnwrap (ch : Nat) (s : State) : Host.Outcome State Fault Refusal := .next (unwrap ch s)

/-! ### Head states the rings decide (R235 to R237, R263) -/

/-- The unit enters LISTEN with a timer (R236, R237). -/
def enterListen (pref alt : Nat) (s : State) : State :=
  setHead .listen { s with sys := { s.sys with listenTimer := if isAlt s then alt else pref, stateRounds := 0, quietRounds := 0 } }

/-- An epoch comes into force: SSEQ of every brake channel starts at 0 in its next safe period (R297), and SEQ of the
notifications restarts (R402). -/
def setEpoch (e : Nat) (s : State) : State :=
  if e = s.sys.epoch then s
  else
    { s with
      sys := { s.sys with epoch := e, lastEpoch := e }
      sag := { s.sag with brakes := s.sag.brakes.map (fun q => (q.1, { q.2 with fresh := true })) }
      host := { s.host with subs := s.host.subs.map (fun q => (q.1, q.2.map (fun b => { b with seq := 0 }))) } }

/-- The twin lane is up (R268, R272): locked, in use, and 2 rounds have not passed without a TLEASE. -/
def laneUp (s : State) : Bool :=
  s.twin.locked && (getRet s clsTwin 0).st = .inUse && decide (s.twin.sinceLease < 3)

/-- A stored lock-out takes effect when the head first enters ACTIVE or STANDBY (R306). A cause of the codes 7 to 11 has
been cleared by the power cycle and its self-tests (R303). -/
def storedLock (s : State) : State :=
  match s.sag.stored with
  | some (c, i) =>
    if s.sag.st = 1 then
      let cleared := decide (7 ≤ c) && decide (c ≤ 11)
      raise evLockOut { s with
        sag := { s.sag with st := if cleared then 3 else 2, clearedAt := s.sys.round, cause := c, index := i, others := c ≠ 12
                            standing := if cleared then [] else [(c, i)], outOn := 0, outCmd := 0 }
        sys := { s.sys with lockAt := some s.sys.round } }
    else s
  | none => s

/-- A cold start begins with every axis in OFF, the brake requested and every queue empty (R263). A retired power stage
keeps its axis in RETIRED. -/
def coldAxes (s : State) : State :=
  forAll (List.range (usableAxes s)) (fun a s =>
    if axSt s a = .retired then s
    else
      let s1 := if axSt s a = .off then s
        else modCtl (requestBrake a (enterOff .off a s)) a (fun c => { c with react := 0, fcode := 0 })
      if (getAx s1 a).prof = {} then s1 else discardOwner (.axis a) s1) s

/-- Every group's queue is empty. -/
def coldGroups (s : State) : State :=
  forAll ((groupsOf s).filter (fun g => (getGr s g).prof ≠ {})) (fun g => discardOwner (.group g)) s

/-- LISTEN_TIMER_EXPIRY (R236). A cascade slave without its time base goes on waiting. -/
def listenExpiry (s : State) : State :=
  if s.sys.hstate ≠ .listen ∨ s.sys.listenTimer ≠ 0 then s
  else if s.casc.st = 1 then s
  else
    let s0 := coldGroups (coldAxes s)
    let s1 := setEpoch ((s0.sys.lastEpoch + 1) % 65536) s0
    setHead .coldstart { s1 with sys := { s1.sys with
      stateRounds := 0, listenTimer := 0 } }

/-- LISTEN_TIMER_EXPIRY (R236). -/
def execListenTimerExpiry (s : State) : Host.Outcome State Fault Refusal := .next (listenExpiry s)

/-- The unit takes over from the other one: TWLASTRND and the event (R287, R398). -/
def becomeActive (h : HeadState) (s : State) : State :=
  raise evActiveChanged (setHead h { s with sys := { s.sys with stateRounds := 0 }, twin := { s.twin with lastRnd := s.sys.round } })

/-- COLDSTART_END (R236, R239, R306): 16 rounds without collision. No unit was active before, so no change of the active
unit is reported (log 16). -/
def coldstartEnd (s : State) : State :=
  if s.sys.hstate = .coldstart && decide (Config.startRounds ≤ s.sys.stateRounds) then
    storedLock (startLoading (setHead .active { s with sys := { s.sys with stateRounds := 0 } }))
  else s

/-- COLDSTART_END (R236). -/
def execColdstartEnd (s : State) : Host.Outcome State Fault Refusal := .next (coldstartEnd s)

/-- Epoch e is later than epoch b by 1 to 32,767 modulo 2^16 (R243, R263). -/
def epochLater (e b : Nat) : Bool := let d := (e + 65536 - b) % 65536; decide (1 ≤ d) && decide (d ≤ 32767)

/-- What a received MARK says (R217). -/
def markOf (b : List Byte) : MarkInfo :=
  let id := rxHdr b / 16
  let p := rxPayload b
  { round := BitVec.ofNat 32 (beNat p 0 4), epoch := beNat p 4 2, chead := id / 512 % 8, alt := id.testBit 8,
    skim := id.testBit 7 }

/-- The rest of the round carries idle on all ports of the link (R237): of what was to leave, the MARK alone has left (DESIGN
CHOICE, log 11: the instant of a collision within the round is not modelled). -/
def idleRest (s : State) : State :=
  { s with tx := s.tx.filter (fun x => match x with
      | .toelle _ _ start _ => start = 0
      | _ => true) }

/-- COLLISION (R237). -/
def collision (ch : Nat) (s : State) : State :=
  let s1 := raise evCollision (modCh (idleRest s) ch (fun c => { c with coll := inc16 c.coll }))
  enterListen 8 32 { s1 with sys := { s1.sys with collAt := some s.sys.round } }

/-- A unit in LISTEN meets its partner's marker, or its own (R236, R263). Whether grade and configuration digest are
equal the twin lane tells; the spec does not say in which slot (log 1). -/
def joinPair (m : MarkInfo) (s : State) : State :=
  let grade := freeB s
  let dig := freeB s.tick
  let s1 := setEpoch m.epoch { s.tick.tick with
    sys := { s.sys with round := m.round, roundRan := true, quietRounds := 0, stateRounds := 0 } }
  let iso := fun (c : Nat) => setHead .isolated { s1 with twin := { s1.twin with
    cause := c, cfgEq := if c = 2 || c = 3 then dig else s1.twin.cfgEq, gradeEq := if c = 2 || c = 3 then grade else s1.twin.gradeEq } }
  if m.alt = isAlt s then iso 4
  else if !(Cfg.TWCFG_EN s && laneUp s) then iso 1
  else if !grade then iso 3
  else if !dig then iso 2
  else
    storedLock (startLoading (setHead .standby { s1 with twin := { s1.twin with
      entry := true, entries := inc16 s1.twin.entries, matched := 0, progress := 0, units := [], digRun := 0, cause := 0, stored := [], arrived := [], past := []
      cfgEq := true, gradeEq := true, silent := 0 } }))

/-- A unit in ACTIVE or HANDBACK gives way to a later epoch (R263): LISTEN, and nothing sent from the next T0. -/
def stepDown (s : State) : State := enterListen 64 88 { s with sys := { s.sys with lastSend := some s.sys.round } }

/-- A standby runs the skim schedule while the markers carry SKIM (R254, R258, R270); the surviving channel is the one on
which it accepts such a marker (DEDUCED, log 11). -/
def followSkim (ch : Nat) (on : Bool) (s : State) : State :=
  if !shadows s then s
  else if !on then { s with link := { s.link with skim := none } }
  else if s.link.skim.isNone && Cfg.LKTCFG_SKEN s (lkW ch) then { s with link := { s.link with skim := some ch } }
  else s

/-- An accepted MARK is the round's (R216); the unit's own shows RING of the port at which it returns (R244). -/
def noteMark (r : RxSlot) (m : MarkInfo) (s : State) : State :=
  let own := m.alt = isAlt s && generates s
  let ring := if own then some (r.arrival / 5).toNat else none
  modCh s r.ch (fun c => { c with
    mark := some (m.round, m.epoch), marks := c.marks + 1
    now0 := if own && r.port = 0 then ring else c.now0, now1 := if own && r.port = 1 then ring else c.now1 })

/-- MARK_ACCEPTED (R216, R236, R237, R263). A second pass is only repeated (R250), and a partner's marker in the round of a
collision is part of that collision (R237, R260). -/
def markAccepted (r : RxSlot) (s' : State) : State :=
  let s := repeatSlot r s'
  if s.sys.hstate = .boot || !chOn s r.ch then s
  else if r.codeErr then modCh s r.ch (fun c => { c with codeErr := inc16 c.codeErr })
  else if !rxCrcOk 6 r.bytes then modCh s r.ch (fun c => { c with crcErr := inc16 c.crcErr })
  else if rxHdr r.bytes % 16 ≠ tyMARK ∨ r.start ≠ 0 then modCh s r.ch (fun c => { c with mismatch := inc16 c.mismatch })
  else
    let m := markOf r.bytes
    if rxSeq r.bytes ≠ m.round.toNat % 256 ∨ rxEpl r.bytes ≠ m.epoch % 256 then
      modCh s r.ch (fun c => { c with stale := inc16 c.stale })
    else if m.chead ≠ Cfg.CSCFG_CHEAD s then modCh s r.ch (fun c => { c with mismatch := inc16 c.mismatch })
    else
      let s0 := noteMark r m s
      let s1 := { s0 with
        sys := { s0.sys with markSeen := true, quietRounds := 0, lastEpoch := if m.alt = isAlt s && generates s then s.sys.lastEpoch else m.epoch } }
      if secondPass s0 r.ch then s1
      else
      match s.sys.hstate with
      | .listen =>
        if s.sys.collAt = some s.sys.round then { s1 with sys := { s1.sys with lastEpoch := s.sys.lastEpoch } }
        else followSkim r.ch m.skim (joinPair m { s1 with sys := { s1.sys with lastEpoch := m.epoch } })
      | .coldstart => if m.alt ≠ isAlt s then collision r.ch { s1 with sys := { s1.sys with lastEpoch := s.sys.epoch } } else s1
      | .active => if m.alt ≠ isAlt s && epochLater m.epoch s.sys.epoch then stepDown s1 else s1
      | .handback => if m.alt ≠ isAlt s && epochLater m.epoch s.sys.epoch then stepDown s1 else s1
      | .standby => followSkim r.ch m.skim (setEpoch m.epoch s1)
      | .locked => if shadows s then followSkim r.ch m.skim (setEpoch m.epoch s1) else s1
      | _ => s1

/-- MARK_ACCEPTED (R263). -/
def execMarkAccepted (r : RxSlot) (s : State) : Host.Outcome State Fault Refusal := .next (markAccepted r s)

end Sys2Proof.Machine
end

