-- ==== Sys2Proof/Machine/Timing.lean ====
section
/-! DEFINITION. The compute order, the cost and the end clocks of a cluster's computations and slices (R52 to R54, R83,
R350, R351). -/

namespace Sys2Proof.Machine

/-- Cost of cell k of axis a in lane-clocks (R83). -/
def cellCost (s : State) (a k : Nat) : Nat :=
  match cellType s a k with
  | 1 => if kindOf s a = 1 then 160 else 64
  | 2 => 40
  | 3 => 8 + 16 * (Cfg.CELCFG_NSEC s (cellW a k) + 1)
  | 4 => 16
  | 5 => 48
  | 6 => 16
  | 7 => 12
  | 8 => 16
  | 9 => 56
  | _ => 0

/-- Cost of some cells of axis a. -/
def cellsCost (s : State) (a : Nat) (ks : List Nat) : Nat := ks.foldl (fun n k => n + cellCost s a k) 0

/-- The slice of axis a runs in the computation on sample round n; under the skim schedule a shorter period gives way to
the current-loop period in force (R350). -/
def sliceDue (s : State) (a : Nat) (n : Word) : Bool :=
  let p := 2 ^ Cfg.SLCFG_PERIOD s (slW a)
  Cfg.SLCFG_EN s (slW a) && (if skimServed s a && p ≤ loopPeriod s a then loopDue s a n else dueAt s a p n)

/-- The compute order of R52: ascending F, then ascending axis; no FDN position last. -/
def orderBefore (x y : Option Nat × Nat) : Bool :=
  match x.1, y.1 with
  | some f, some g => f < g || (f = g && x.2 < y.2)
  | some _, none => true
  | none, some _ => false
  | none, none => x.2 < y.2

/-- Insert by an order. -/
def insertBy {α : Type} (before : α → α → Bool) (x : α) : List α → List α
  | [] => [x]
  | y :: t => if before x y then x :: y :: t else y :: insertBy before x t

/-- The axes of cluster c in compute order (R52). -/
def computeOrder (s : State) (c : Nat) : List Nat :=
  ((List.range 32).foldl (fun l j => insertBy orderBefore (fdnStart s (32 * c + j), 32 * c + j) l) []).map Prod.snd

/-- An axis's turn in a round: its load, the end C of its cells, the start S of its slice slot if a slice is due, and
its end E (R351). -/
structure Turn where
  axis : Nat
  load : Nat
  c : Nat
  slice : Option Nat
  e : Nat
  deriving DecidableEq, Repr

/-- The turns from lane clock t and slice clock q on. -/
def turnsFrom (s : State) (n : Word) (due : Nat → List Nat) : Nat → Nat → List Nat → List Turn
  | _, _, [] => []
  | t, q, a :: l =>
    let ks := due a
    if ks.isEmpty then turnsFrom s n due t q l
    else
      let load := cellsCost s a ks
      let c := t + (load + 7) / 8
      if sliceDue s a n then
        let st := max c q
        let e := st + Cfg.SLCFG_BUDGET s (slW a)
        { axis := a, load, c, slice := some st, e } :: turnsFrom s n due c e l
      else { axis := a, load, c, slice := none, e := c } :: turnsFrom s n due c q l

/-- The turns of cluster c for sample round n; computing begins 40 core clocks after the wake (R52). -/
def clusterTurns (s : State) (c : Nat) (n : Word) (due : Nat → List Nat) (order : List Nat) : List Turn :=
  turnsFrom s n due (Cfg.CLWAKE_WAKE s (clW c) + 40) 0 order

/-- Load of a round in lane-clocks (R54). -/
def turnsLoad (l : List Turn) : Nat := l.foldl (fun n t => n + t.load) 0

/-- All due cells of axis a in sample round n, whatever its state. -/
def imageDue (s : State) (n : Word) (a : Nat) : List Nat := (List.range 16).filter (fun k => cellDue s a k n)

/-- The turns that the image plans for sample rounds 0 to 15 (R54). -/
def imageTurns (s : State) (c : Nat) : List (List Turn) :=
  let order := computeOrder s c
  (List.range 16).map (fun r => clusterTurns s c (BitVec.ofNat 32 r) (imageDue s (BitVec.ofNat 32 r)) order)

end Sys2Proof.Machine
end

