-- ==== Sys2Proof/Machine/Verify.lean ====
section
/-! DEFINITION. Step 7 of image verification (R371): every rule under which an image fails, on the loaded state. -/

namespace Sys2Proof.Machine

/-! ### What the image uses -/

/-- The schedule tables present: channel, and whether it is the skim table (R255). -/
def tablesPresent (s : State) : List (Nat × Bool) :=
  (chansOn s).map (fun ch => (ch, false)) ++ ((chansOn s).filter (fun ch => Cfg.LKTCFG_SKEN s (lkW ch))).map (fun ch => (ch, true))
/-- The state with the skim schedule of a channel in force, or the full one. -/
def withSkim (s : State) (ch : Option Nat) : State := { s with link := { s.link with skim := ch } }
/-- No two elements are equal. -/
def distinct {α : Type} [DecidableEq α] : List α → Bool
  | [] => true
  | x :: t => !t.contains x && distinct t
/-- A reaction class field of R105. -/
def classOkN (n : Nat) : Bool := n ≤ 4
/-- A field of three bits of a register is a class. -/
def reactsOk (w : Word) (lows : List Nat) : Bool := lows.all (fun l => classOkN (bits w (l + 2) l))

/-! ### Memory and grade (R2, R15, R16, R28, R33) -/

/-- R28, with the minimum sizes of R180, R232, R255, R325, R355 and R362. -/
def partitionsOk (s : State) : Bool :=
  let ps := (List.range 9).map (fun i => (partBase s i, partSize s i))
  let skim := [0, 1].any (fun ch => Cfg.LKTCFG_SKEN s (lkW ch))
  let lad := partSize s ptLADLE
  let code := Cfg.LDCODE s
  ps.all (fun p => p.1 % 4096 = 0 && p.2 % 4096 = 0 && p.1 + p.2 ≤ 0x400000) &&
  (List.range 9).all (fun i => (List.range i).all (fun j =>
    let p := nth (0, 0) ps i
    let q := nth (0, 0) ps j
    p.2 = 0 || q.2 = 0 || p.1 + p.2 ≤ q.1 || q.1 + q.2 ≤ p.1)) &&
  decide (2048 * usableAxes s ≤ partSize s ptAXIS) && decide ((if skim then 0x10000 else 0x8000) ≤ partSize s ptSCHED) &&
  decide (1024 * (ownersUsed s).length ≤ partSize s ptQUEUE) && decide (0x10000 ≤ partSize s ptRECORD) &&
  decide (0x10000 ≤ partSize s ptLINKBUF) &&
  (bits code 31 16 = 0 || decide (4096 * (bits code 15 0 + bits code 31 16) ≤ lad)) &&
  (List.range 4).all (fun c => Cfg.LDPERS_SIZE s (coW c) = 0 ||
    decide (1024 * (Cfg.LDPERS_BASE s (coW c) + Cfg.LDPERS_SIZE s (coW c)) ≤ lad))

/-- R2: nothing is assigned to an axis beyond the grade. -/
def gradeOk (s : State) : Bool :=
  let lim := usableAxes s
  (List.range 128).all (fun a => a < lim || (List.range 16).all (fun k => cellType s a k = 0)) &&
  (tablesPresent s).all (fun t => (schedTable s t.1 t.2).all (fun e =>
    !(e.type = tyFUP || e.type = tyFDN || e.type = tyPOS) || e.axis < lim)) &&
  (definedGroups s).all (fun g => (membersOf s g).all (fun o =>
    match o with
    | .axis a => a < lim
    | .group _ => true))

/-- The level of group g is at most k (R15): a cycle has none. -/
def levelWithin (s : State) : Nat → Nat → Bool
  | 0, _ => false
  | k + 1, g => Cfg.GRMCNT_COUNT s (grW g) ≠ 0 && (membersOf s g).all (fun o =>
      match o with
      | .axis _ => true
      | .group h => levelWithin s k h)

/-- R15, R16, R183: levels, and one parent at most, as its own PARENT field names it. -/
def treesOk (s : State) : Bool :=
  let gs := definedGroups s
  let named := gs.flatMap (fun g => membersOf s g)
  gs.all (fun g => levelWithin s 7 g && Cfg.GRCFG_TYPE s (grW g) < 4) && distinct named &&
  gs.all (fun g =>
    let above := gs.filter (fun h => (membersOf s h).contains (.group g))
    if Cfg.GRMCNT_PAREN s (grW g) then decide (above = [Cfg.GRMCNT_PARENT s (grW g)]) else above.isEmpty)

/-- R33: the retire parameters the image sets, by class. -/
def retireOk (s : State) : Bool :=
  s.ret.cfg.all (fun p =>
    let d := retDefault p.1
    p.1 < 8 && 1 ≤ p.2.threshold && p.2.threshold ≤ d.threshold && d.window ≤ p.2.window && p.2.window ≤ 3600000 &&
      d.backoff ≤ p.2.backoff && p.2.backoff ≤ 4000)

/-! ### Cells (R57, R66, R83 to R88, R98, R101) -/

/-- A selector of axis a (R85, R86, R88). -/
def selectorOk (s : State) (a sel : Nat) : Bool :=
  let low := sel % 4096
  match sel / 4096 with
  | 0 => low = 0
  | 1 => low / 32 = 0 && cellType s a (low % 16) ≠ 0
  | 2 => low ≤ 11
  | 3 => 4 * low < partSize s ptLADLE
  | _ => false

/-- Cell k of axis a. -/
def cellOk (s : State) (a k : Nat) : Bool :=
  let ty := cellType s a k
  let sel := cellSel s a k
  let per := Cfg.CELCFG_PERIOD s (cellW a k)
  ty = 0 || (ty ≤ 9 && per ≤ 4 && (List.range 4).all (fun j => selectorOk s a (sel j)) &&
    (ty ≠ 1 || (k = 0 && kindOf s a ≠ 0 && per = Cfg.CCFG_PERIOD s (axW a) && sel 2 = 0 && sel 3 = 0 &&
      (!(kindOf s a = 2 && Cfg.CCFG_COMSRC s (axW a) = 3) || (sel 0 = 0 && sel 1 = 0)))) &&
    (ty ≠ 5 || decide (2 ≤ ((List.range 4).filter (fun j => sel j ≠ 0)).length)) &&
    (!(ty = 3 || ty = 4 || ty = 6 || ty = 7) || sel 0 ≠ 0))

/-- The cells and banks of axis a. -/
def cellsOk (s : State) (a : Nat) : Bool :=
  (List.range 16).all (cellOk s a) && (kindOf s a = 0 || cellType s a 0 = 1) && bankOk s a false && bankOk s a true

/-! ### Current control and power stage (R62, R68, R71, R73, R75, R81, R104, R105, R121, R269) -/

/-- R71 for a current-loop period p whose sample rounds start at phase ph. -/
def carrierOk (s : State) (a p ph : Nat) : Bool :=
  let c := 2 ^ Cfg.CCFG_CARRIER s (axW a)
  let ofs : Int := (ph : Int) + applyDelay s - Cfg.CCFG_CARPH s (axW a)
  (c ≤ p && ofs % (c : Int) = 0) || (2 * p = c && ofs % (p : Int) = 0)

/-- HALLCFG of an axis with Hall commutation (R81). -/
def hallCfgOk (s : State) (a : Nat) : Bool :=
  let m := Cfg.HALLCFG_MAP s (axW a)
  let ks := (List.range 6).map (fun i => (m >>> (3 * i)) % 8)
  ks.all (fun k => k ≤ 5) && distinct ks && 1 ≤ Cfg.HALLCFG_HTMAX s (axW a)

/-- The current-control block of axis a. -/
def controlOk (s : State) (a : Nat) : Bool :=
  let w := axW a
  let kind := kindOf s a
  let hall := Cfg.CCFG_COMSRC s w = 1 || Cfg.CCFG_HALLAID s w
  let src := Cfg.FBCFG_SRC s w
  let inc := Cfg.FBCFG_TYPE s w = 0 || Cfg.FBCFG_TYPE s w = 2
  kind ≤ 2 && 1 ≤ Cfg.CCFG_SMISSMAX s w && Cfg.CCFG_SMISSMAX s w ≤ 8 && Cfg.CCFG_CARRIER s w ≤ 4 &&
  1 ≤ Cfg.BSCFG_K s w && Cfg.BSCFG_K s w ≤ 16 && 1 ≤ Cfg.PSCFG_TSETTLE s w &&
  fLe (Cfg.IMAX s w) (fDiv (fOfInt (imaxFuse s)) (fOfInt 10)) &&
  (kind = 0 ||
    (carrierOk s a (basePeriod s a) (phaseOf s a) &&
      fLt 0 (Cfg.RMIN s w) && fLt (Cfg.RMIN s w) (Cfg.RMAX s w) && fLt 0 (Cfg.UDCMIN s w) &&
      (!(Cfg.CCFG_COMSRC s w = 0 && src ≠ 3 && inc) || Cfg.CCFG_HALLAID s w) && (!hall || hallCfgOk s a))) &&
  (!Cfg.TWCFG_EN s || Cfg.TWCFG_LEASE s + 1 ≤ Cfg.CCFG_SMISSMAX s w) && (kind ≠ 1 || fLt 0 (Cfg.IDTBAND s w)) &&
  (kind ≠ 1 || !Cfg.CCFG_BSEN s w || Cfg.DTCFG_TMINP s w ≤ Cfg.BSCFG_TREF s w + 2 * Cfg.DTCFG_DT s w) &&
  (Cfg.FELIM s w = 0#32 || 1 ≤ Cfg.FETIME_FETIME s w) &&
  (Cfg.FELIM s w = 0#32 || Cfg.FEHARD s w = 0#32 || (Cfg.FELIM s w).toNat ≤ (Cfg.FEHARD s w).toNat) &&
  reactsOk (cfgReg s (w + 0x00C)) [0, 4, 8] && classOkN (Cfg.CCFG_MISSREACT s w) &&
  reactsOk (cfgReg s (w + 0x114)) [0, 4, 8, 12, 16, 20, 24] && reactsOk (cfgReg s (w + 0x39C)) [0, 4, 8, 12, 16]

/-- DC link and choppers (R123, R125, R128, R133). -/
def stageOk (s : State) : Bool :=
  let det := bits (fuseWord s 0x10) 13 12
  let ov := Cfg.PSOVCFG_OVLEVEL s
  33 ≤ ov && ov ≤ ovTripFuse s && (!det.testBit 0 || Cfg.PSOVCFG_ANAEN s) && (!det.testBit 1 || Cfg.PSOVCFG_SDIEN s) &&
  (Cfg.PSOVCFG_ANAEN s || Cfg.PSOVCFG_SDIEN s) &&
  20 ≤ Cfg.SDCLKCFG_DIV0 s && Cfg.SDCLKCFG_DIV0 s ≤ 80 && 20 ≤ Cfg.SDCLKCFG_DIV1 s && Cfg.SDCLKCFG_DIV1 s ≤ 80 &&
  (List.range 4).all (fun j => !Cfg.PSCHOP_EN s j ||
    (cellType s (Cfg.PSCHOP_AXIS s j) (Cfg.PSCHOP_SLOT s j) = 4 &&
      (!Cfg.PSCHOP_DEST s j || kindOf s (Cfg.PSCHOP_DAXIS s j) ≠ 0))) &&
  (List.range 8).all (fun k => Cfg.SDCFG_OSR s k ≠ 3 &&
    (!Cfg.SDCFG_MIREN s k || 4 * Cfg.SDCFG_MIRROR s k < partSize s ptLADLE))

/-! ### Feedback, local ports and profiles (R134, R137, R141, R145, R146, R159, R174, R175, R181, R221) -/

/-- Pf of an axis that takes its feedback from POS slots or a local port is 1 (R134). -/
def everyRound (s : State) (a : Nat) : Bool := (List.range 16).all (fun r => fbDue s a (BitVec.ofNat 32 r))

/-- The feedback block of axis a. -/
def feedbackOk (s : State) (a : Nat) : Bool :=
  let w := axW a
  let src := Cfg.FBCFG_SRC s w
  let ty := Cfg.FBCFG_TYPE s w
  let k := Cfg.FBCFG_PORT s w
  let hall := Cfg.CCFG_COMSRC s w = 1 || Cfg.CCFG_HALLAID s w
  ty ≤ 3 && !(ty = 2 && (src = 2 || src = 0)) &&
  (src ≠ 2 || (Cfg.LENCCFG_EN s k && Cfg.LENCCFG_TYPE s k = ty && (!hall || ty = 3))) &&
  (kindOf s a ≠ 0 || src = 3 || (src ≠ 0 && everyRound s a)) &&
  (ty ≠ 2 || src = 3 || (2 ≤ Cfg.FBSCCFG_SCRES s w && Cfg.FBSCCFG_SCRES s w ≤ 12 &&
    Cfg.FBSCCFG_AMPMIN s w < Cfg.FBSCCFG_AMPMAX s w)) &&
  (ty ≠ 1 || src = 2 || src = 3 || (8 ≤ Cfg.FBSSICFG_BITS s w && Cfg.FBSSICFG_BITS s w ≤ 32)) &&
  (!Cfg.FBCFG_SLEN s w || Cfg.SLMIN s w < Cfg.SLMAX s w) && !(Cfg.FBCFG_SLEN s w && Cfg.FBCFG_MODEN s w) &&
  (!Cfg.FBCFG_MODEN s w || (65536 ≤ Cfg.MODULO s w && Cfg.MODULO s w ≤ 2 ^ 62))

/-- Local port k (R137, R159). -/
def portOk (s : State) (k : Nat) : Bool :=
  let ty := Cfg.LENCCFG_TYPE s k
  let chk := Cfg.LENCCFG_CHK s k
  let n := Cfg.LENCCFG_BITS s k + (if chk = 1 then 1 else if chk = 2 then 6 else 0) + 2
  ty ≠ 2 && chk ≠ 3 &&
  (!Cfg.LENCCFG_EN s k || ty ≠ 1 ||
    (8 ≤ Cfg.LENCCFG_BITS s k && Cfg.LENCCFG_BITS s k ≤ 32 && 40 ≤ Cfg.LENCCFG_DIV s k && Cfg.LENCCFG_DIV s k ≤ 400 &&
      Cfg.LENCCFG_SSIPER s k ≤ 4 &&
      n * Cfg.LENCCFG_DIV s k * 5 + 2 * Cfg.LENCTMO_TMONO s k ≤ 2 ^ Cfg.LENCCFG_SSIPER s k * 15625))

/-- The limits of a queue owner (R181). -/
def ownerOk (s : State) (o : Owner) : Bool :=
  let w := ownW o
  [Cfg.PFVLIM s w, Cfg.PFALIM s w, Cfg.PFJLIM s w, Cfg.PFQSDEC s w, Cfg.PFQSJERK s w].all (fun x => x ≠ 0#32) &&
    (Cfg.PFVLIM s w).toNat < 2 ^ 31

/-- Limit switches and referencing of axis a (R174, R175, R181, R221). -/
def refOk (s : State) (a : Nat) : Bool :=
  let w := axW a
  let mode := Cfg.REFCFG_MODE s w
  (!Cfg.LIMCFG_PEN s w || Cfg.LIMCFG_PLOCAL s w || Cfg.LIMCFG_PINPUT s w ≤ 1) &&
  (!Cfg.LIMCFG_NEN s w || Cfg.LIMCFG_NLOCAL s w || Cfg.LIMCFG_NINPUT s w ≤ 1) &&
  mode ≠ 3 &&
  (cfgReg s (w + 0x384) = 0#32 || mode = 2 ||
    ((Cfg.REFCFG_EDGE s w = 1 || Cfg.REFCFG_EDGE s w = 2) && 1 ≤ (Cfg.REFVS s w).toNat &&
      (Cfg.REFVS s w).toNat ≤ (Cfg.PFVLIM s w).toNat && 1 ≤ (Cfg.REFMAX s w).toNat &&
      (Cfg.REFCFG_LOCAL s w || (Cfg.REFCFG_INPUT s w ≤ 1 && !posGap s a))))

/-! ### Groups and tracks (R184, R193) -/

/-- Tracks in use. -/
def tracks (s : State) : List Nat := (List.range 8).filter (Cfg.TRKCFG_EN s)
/-- The axes of track t in travel order. -/
def trackAxes (s : State) (t : Nat) : List Nat := (trackSegs s t).map Segment.axis
/-- The axes of all tracks. -/
def segmentAxes (s : State) : List Nat := (tracks s).flatMap (trackAxes s)

/-- The groups whose entries the derivation of group g reads: its parent's, and its local leader's or addend's (R184). -/
def readsGroups (s : State) (g : Nat) : List Nat :=
  let above := fun (o : Owner) => (groupAbove s o).toList
  let ty := Cfg.GRCFG_TYPE s (grW g)
  above (.group g) ++
    (if (ty = 1 && !isRemote s g) || ty = 2 then
      (match leaderOf s g with
       | .group h => [h]
       | o => above o)
     else [])

/-- Of some groups, those that stay when k times each group that reads none of them is taken out: what reads in a cycle. -/
def inCycles (s : State) : Nat → List Nat → List Nat
  | 0, l => l
  | k + 1, l => inCycles s k (l.filter (fun g => (readsGroups s g).any (fun h => l.contains h)))

/-- A GEAR or SUM group's leader lies outside its own tree (R184): a group in it would read in a cycle. -/
def leaderOk (s : State) (g : Nat) : Bool :=
  let ty := Cfg.GRCFG_TYPE s (grW g)
  if (ty = 1 && !isRemote s g) || ty = 2 then
    match leaderOf s g with
    | .axis a => !(groupAxes s 8 g).contains a
    | .group h => h ≠ g
  else true

/-- Leader and addend references form no cycle (R184). -/
def leadersOk (s : State) : Bool := (inCycles s 128 (List.range 128)).isEmpty

/-- The members of a mover: one to three consecutive segments of its track (R184). -/
def consecutive (s : State) (g : Nat) : Bool :=
  let t := trackOf s g
  let ax := trackAxes s t
  let n := ax.length
  let ms := membersOf s g
  let k := ms.length
  1 ≤ k && k ≤ 3 && k ≤ n && (List.range n).any (fun i => (Cfg.TRKCFG_LOOP s t || i + k ≤ n) &&
    ms == (List.range k).map (fun j => Owner.axis (nth 0 ax ((i + j) % n))))

/-- Group g (R184, R202). -/
def groupOk (s : State) (g : Nat) : Bool :=
  let w := grW g
  let ty := Cfg.GRCFG_TYPE s w
  let seg := segmentAxes s
  let w200 := cfgReg s (w + 0x200)
  reactsOk (cfgReg s (w + 0x010)) [0, 4, 8, 12, 16, 20] && decide (Cfg.GRMCNT_COUNT s w ≤ 32) && leaderOk s g &&
  (if ty = 3 then
      !Cfg.GRMCNT_PAREN s w && Cfg.TRKCFG_EN s (trackOf s g) && consecutive s g && bits w200 30 29 = 0 &&
        bits w200 23 19 = 0 && bits w200 15 0 = 0 && !windowSet s (w + 0x20C) 4 && !windowSet s (w + 0x280) 0x80
    else
      (membersOf s g).all (fun o =>
        match o with
        | .axis a => !seg.contains a
        | .group h => Cfg.GRCFG_TYPE s (grW h) ≠ 3)) &&
  (!(ty = 1 || ty = 2) || (bits w200 30 27 = 0 && bits w200 23 19 = 0 && bits w200 15 8 = 0)) &&
  (ty = 1 || ty = 3 || !windowSet s (w + 0x204) 12) && (ty ≠ 2 || !bit w200 31) && (ty ≠ 1 || Cfg.GEARDEN s w ≠ 0#32)

/-- A segment agrees with the first of its track (R184). -/
def segmentOk (s : State) (first a : Nat) : Bool :=
  kindOf s a = 1 && Cfg.CCFG_COMSRC s (axW a) = 2 && phaseOf s a = phaseOf s first &&
  Cfg.CCFG_PERIOD s (axW a) = Cfg.CCFG_PERIOD s (axW first) &&
  (List.range 16).all (fun k => k = 0 ||
    (cellType s a k = cellType s first k && Cfg.CELCFG_PERIOD s (cellW a k) = Cfg.CELCFG_PERIOD s (cellW first k) &&
      (List.range 4).all (fun j => cellSel s a k j = cellSel s first k j)))

/-- ORG of each entry follows from the one before it (R193). -/
def chained : List Segment → Bool
  | x :: y :: t => y.org = x.org + (x.len : Int) * 65536 && chained (y :: t)
  | _ => true

/-- Neighbouring segments are long enough for a mover (R193). -/
def spansOk (mlen vlim : Nat) : List Segment → Bool
  | x :: y :: t => mlen * 65536 + 3 * vlim ≤ (x.len + y.len) * 65536 && spansOk mlen vlim (y :: t)
  | _ => true

/-- Tracks and movers (R184, R193). A mover on a closed track runs modulo the track: no register of a group window holds
MODEN or MODULO (log 14). -/
def tracksOk (s : State) : Bool :=
  let seg := segmentAxes s
  let ms := (definedGroups s).filter (isMover s)
  distinct seg && ms.length ≤ 48 &&
  (usedAxes s).all (fun a => Cfg.CCFG_COMSRC s (axW a) ≠ 2 || seg.contains a) &&
  (tracks s).all (fun t =>
    let l := trackSegs s t
    chained l && 1 ≤ l.length && (match l with
      | f :: _ => l.all (fun x => segmentOk s f.axis x.axis)
      | [] => true)) &&
  ms.all (fun g =>
    let l := trackSegs s (trackOf s g)
    let loop := Cfg.TRKCFG_LOOP s (trackOf s g)
    spansOk (Cfg.MLEN s (grW g)).toNat (Cfg.PFVLIM s (grW g)).toNat (if loop then l ++ l.take 1 else l))

/-! ### Nodes and schedules (R45, R48, R209 to R212, R225 to R228, R233, R240, R246, R255) -/

/-- Nodes in use. -/
def nodesUsed (s : State) : List Nat := (List.range 64).filter (fun n => Cfg.NDCFG_EN s (ndW n))

/-- Node descriptors and channels (R209, R228, R233, R249, R261). -/
def nodesOk (s : State) : Bool :=
  (nodesUsed s).all (fun n => Cfg.NDCFG_CLASS s (ndW n) ≠ 3 && nodeOn s n (fastCh s n) && Cfg.NDCFG_NAX s (ndW n) ≤ 8) &&
  distinct ((nodesUsed s).flatMap (nodeAxes s)) &&
  (chansOn s).all (fun ch => (nodesOn s ch).length ≤ 32 && 2 ≤ Cfg.LKTCFG_HOLD s (lkW ch) && Cfg.LKTCFG_HOLD s (lkW ch) ≤ 16 &&
    Cfg.LKTCFG_NLAT s (lkW ch) ≤ 48 && (!Cfg.TWCFG_EN s || Cfg.TWCFG_LEASE s + 2 ≤ Cfg.LKTCFG_HOLD s (lkW ch)))

/-- Length of a position in byte times (R212). -/
def slotLen (e : SEntry) : Nat := if e.type = tyMARK then 16 else 32
/-- Category of R212: 0 marker, 1 fast, 2 safe, 3 service, 4 none. -/
def category (e : SEntry) : Nat :=
  if e.type = tyMARK then 0
  else if e.type = tyFDN || e.type = tyFUP || e.type = tyPOS then 1
  else if e.type = tySAFE then 2
  else if e.type = tySVC || e.type = tyDIAG || e.type = tySYNC then 3
  else 4
/-- The direction a type can have (R216 to R224). -/
def dirOk (e : SEntry) : Bool :=
  if e.type = tyMARK || e.type = tyFDN || e.type = tySYNC then !e.up
  else if e.type = tyFUP || e.type = tyPOS || e.type = tyDIAG then e.up
  else e.type = tySAFE || e.type = tySVC
/-- Two positions overlap. -/
def overlap (x y : SEntry) : Bool := x.start < y.start + slotLen y && y.start < x.start + slotLen x
/-- No two entries of a list overlap. -/
def noOverlap : List SEntry → Bool
  | [] => true
  | x :: t => t.all (fun y => !overlap x y) && noOverlap t
/-- Number of positions of a category: an entry of each direction may share one. -/
def positions (l : List SEntry) (c : Nat) : Nat :=
  ((l.filter (fun e => category e = c)).map SEntry.start).eraseDups.length

/-- The entries that act in one round (R210, R212, R227). -/
def roundOk (service : Nat) (l : List SEntry) : Bool :=
  let down := l.filter (fun e => !e.up)
  let up := l.filter (fun e => e.up)
  let marks := l.filter (fun e => e.type = tyMARK)
  l.all (fun e => category e ≤ 3 && dirOk e && e.start + slotLen e ≤ 2448) &&
  marks.length = 1 && marks.all (fun e => e.start = 0 && e.rmask = 0xFFFF) && noOverlap down && noOverlap up &&
  down.all (fun d => up.all (fun u => !overlap d u ||
    (d.start = u.start && category d = category u && d.node = u.node && d.type ≠ tyMARK && d.type ≠ tySYNC))) &&
  positions l 1 ≤ 64 && positions l 2 ≤ 4 && positions l 3 ≤ service &&
  distinct ((l.filter (fun e => e.type = tySYNC)).map (fun e => e.aux % 8))

/-- One schedule table (R209, R225 to R227, R246, R255): a node's SYNC words, requests and diagnoses run on its fast channel,
but for the entry that loads it (R240). -/
def tableOk (s : State) (ch : Nat) (skim : Bool) : Bool :=
  let es := schedTable s ch skim
  (List.range 16).all (fun r => roundOk (if skim then 4 else 8) (es.filter (fun e => e.rmask.testBit r))) &&
  es.all (fun e => category e ≠ 1 ||
    ((axisNode s e.axis).map Prod.fst = some e.node && (if skim then nodeOn s e.node ch else fastCh s e.node = ch) &&
      ((e.type ≠ tyFDN && e.type ≠ tyFUP) || kindOf s e.axis ≠ 0))) &&
  (nodesOn s ch).all (fun n => (!skim && fastCh s n ≠ ch) || es.any (fun e => e.type = tySYNC && e.aux % 8 = n / 8 && e.rmask ≠ 0)) &&
  es.all (fun e => skim || (e.type ≠ tyDIAG && e.type ≠ tySVC) || e.idx = 1984 + e.node || fastCh s e.node = ch) &&
  (skim || (nodesOn s ch).all (fun n => es.any (fun e => e.idx = 1984 + n && e.type = tySVC && !e.up && e.node = n)))

/-- Reserved bits of a table's valid words are 0, and a MARK or SYNC entry names no node (R225). -/
def tableReserved (s : State) (ch : Nat) (skim : Bool) : Bool :=
  (List.range 2048).all (fun i =>
    let w0 := memWord s (schedAddr s ch skim + 8 * i)
    let w1 := memWord s (schedAddr s ch skim + 8 * i + 4)
    !bit w0 31 || (!bit w0 16 && bits w1 31 21 = 0))

/-- All RMASKs repeat with period p. -/
def repeats (es : List SEntry) (p : Nat) : Bool :=
  es.all (fun e => (List.range 16).all (fun r => e.rmask.testBit r = e.rmask.testBit ((r + p) % 16)))
/-- The hyperperiod code of a channel (R226). -/
def hyperCode (es : List SEntry) : Nat := ((List.range 5).find? (fun k => repeats es (2 ^ k))).getD 4

/-- The rounds 0 to 15 in which entries act. -/
def actsIn (es : List SEntry) : List Nat := (List.range 16).filter (fun r => es.any (fun e => e.rmask.testBit r))
/-- Entries of one type for an axis: in each of its rounds one, and all at one START (R45). -/
def oneStart (es : List SEntry) : Bool :=
  (match es with
   | e :: t => t.all (fun x => x.start = e.start)
   | [] => true) &&
  (List.range 16).all (fun r => (es.filter (fun e => e.rmask.testBit r)).length ≤ 1)

/-- FUP and FDN positions of a loop axis in a table: their rounds for period p from phase ph (R45). Under LAT3 the words leave a
round after the computation (R14, R47), so the FDN positions are taken one round after the computation rounds that R45 names
(DEDUCED, log 33). -/
def loopSlots (s : State) (es : List SEntry) (a p ph : Nat) : Bool :=
  let fup := es.filter (fun e => e.type = tyFUP && e.axis = a)
  let fdn := es.filter (fun e => e.type = tyFDN && e.axis = a)
  let at_ := fun (o : Nat) => (List.range 16).filter (fun r => (r + 32 - ph - o) % p = 0)
  oneStart fup && oneStart fdn && actsIn fup == at_ 0 && actsIn fdn == at_ (applyDelay s - 1)

/-- R48 for one axis of node n with its positions B and F. -/
def delaysOk (s : State) (n b f : Nat) : Bool :=
  let w := ndW n
  let up := Cfg.NDDLY_DUP s w
  let dn := Cfg.NDDLY_DDN s w
  -- whole byte times of 3.125 ns, rounded up: ceil(8 × (dn + up)/25)
  let u := b + (8 * (dn + up) + 24) / 25
  4000 ≤ 25 * b + 8 * Cfg.NDDLYMIN_DDNMIN s w && u + 32 ≤ 2500 && 25 * f + 8 * (300 + dn) ≤ 62500

/-- An axis with a current loop in the normal table (R45, R48). -/
def axisSlotsOk (s : State) (a : Nat) : Bool :=
  if kindOf s a = 0 then true
  else
    match axisNode s a with
    | none => false
    | some (n, _) =>
      let ch := fastCh s n
      let es := schedTable s ch false
      chOn s ch && 2 ^ Cfg.LKCFG_HP s (lkW ch) % basePeriod s a = 0 && loopSlots s es a (basePeriod s a) (phaseOf s a) &&
      (match (es.filter (fun e => e.type = tyFUP && e.axis = a)).head?, (es.filter (fun e => e.type = tyFDN && e.axis = a)).head? with
       | some b, some f => delaysOk s n b.start f.start
       | _, _ => false)

/-- A served axis in the skim table of a channel: FUP and FDN every 2P rounds, in rounds of the normal schedule (R255); an axis
without a current loop that has POS positions in the normal schedule has some in the skim table. -/
def axisSkimOk (s : State) (ch a : Nat) : Bool :=
  match axisNode s a with
  | none => true
  | some (n, _) =>
    let pos := fun (c : Nat) (k : Bool) => (schedTable s c k).any (fun e => e.type = tyPOS && e.axis = a)
    if !nodeOn s n ch then true
    else if kindOf s a = 0 then !pos (fastCh s n) false || pos ch true
    else
      let es := schedTable s ch true
      let p := 2 * basePeriod s a
      let fup := es.filter (fun e => e.type = tyFUP && e.axis = a)
      match fup.head?, (es.filter (fun e => e.type = tyFDN && e.axis = a)).head?, (actsIn fup).head? with
      | some b, some f, some r =>
        p ≤ 16 && loopSlots s es a p r && (r + 32 - phaseOf s a) % basePeriod s a = 0 && delaysOk s n b.start f.start &&
          carrierOk s a p r
      | _, _, _ => false

/-- The safe entries of a table. -/
def safeRows (es : List SEntry) : List (Bool × Nat × Nat × Nat × Nat) :=
  (es.filter (fun e => e.type = tySAFE)).map (fun e => (e.up, e.node, e.start, e.aux, e.rmask))

/-- Brake channel b has its entries on both channels, in one round of 16 (R226). -/
def brakeSlotsOk (s : State) (b : Nat) : Bool :=
  let of_ := fun (ch : Nat) (up : Bool) => (schedTable s ch false).filter (fun e => e.type = tySAFE && e.aux = b && e.up = up)
  let all4 := [of_ 0 false, of_ 0 true, of_ 1 false, of_ 1 true]
  all4.all (fun l => l.length = 1 && l.all (fun e => e.node = Cfg.SGBRK_NODE s b && popcount 16 e.rmask = 1)) &&
    ((all4.flatMap id).map SEntry.rmask).eraseDups.length = 1

/-- All schedules of the image. -/
def schedulesOk (s : State) : Bool :=
  (tablesPresent s).all (fun t => tableOk s t.1 t.2 && tableReserved s t.1 t.2) &&
  (chansOn s).all (fun ch => hyperCode (schedTable s ch false) = Cfg.LKCFG_HP s (lkW ch)) &&
  (usedAxes s).all (axisSlotsOk s) &&
  ((chansOn s).filter (fun ch => Cfg.LKTCFG_SKEN s (lkW ch))).all (fun ch =>
    (usedAxes s).all (axisSkimOk s ch) && safeRows (schedTable s ch true) == safeRows (schedTable s ch false))

/-! ### Clusters and slices (R48, R54, R56, R350) -/

/-- The slice of axis a (R350, R363). -/
def sliceOk (s : State) (a : Nat) : Bool :=
  let w := slW a
  let ks := (List.range 16).filter (fun k => cellType s a k ≠ 0)
  let code := Cfg.LDCODE s
  let lo := partBase s ptLADLE + bits code 15 0 * 4096
  let e := (Cfg.SLENTRY s w).toNat
  Cfg.SLCFG_PERIOD s w ≤ 4 && classOkN (Cfg.SLCFG_HREACT s w) && classOkN (Cfg.SLCFG_OREACT s w) &&
  (!Cfg.SLCFG_EN s w || (!ks.isEmpty && ks.any (fun k => Cfg.CELCFG_PERIOD s (cellW a k) ≤ Cfg.SLCFG_PERIOD s w) &&
    e % 4 = 0 && lo ≤ e && e < lo + bits code 31 16 * 4096 && 8 ≤ Cfg.SLCFG_BUDGET s w))

/-- The turns for sample round n keep R48, R54 and R350 under the schedule in force: with LAT2 in the rounds whose words
leave. -/
def turnsOk (s : State) (n : Word) (l : List Turn) : Bool :=
  turnsLoad l ≤ 17500 && l.all (fun t => t.e ≤ 3124 &&
    (if Cfg.RNDCFG_LAT3 s then t.e + 48 ≤ 3125
     else if kindOf s t.axis = 0 || !loopDue s t.axis n then true
     else
      match fdnStart s t.axis with
      | some f => 4 * (t.e + 48) ≤ 5 * f
      | none => true))

/-- Every cluster under the full schedule and under each skim schedule present. -/
def clustersOk (s : State) : Bool :=
  ([none] ++ ((chansOn s).filter (fun ch => Cfg.LKTCFG_SKEN s (lkW ch))).map some).all (fun k =>
    let q := withSkim s k
    ((List.range 4).filter (clusterOn s)).all (fun c =>
      Cfg.CLWAKE_WAKE s (clW c) ≤ 3084 && (imageTurns q c).zipIdx.all (fun p => turnsOk q (BitVec.ofNat 32 p.2) p.1))) &&
  (List.range 128).all (sliceOk s)

/-! ### Twin, cascade, Saggar, recorder, system and network (R285, R293, R302, R311, R318 to R323, R365, R387, R421) -/

/-- Twin and cascade (R285, R287). -/
def pairCfgOk (s : State) : Bool :=
  2 ≤ Cfg.TWCFG_LEASE s && Cfg.TWCFG_LEASE s ≤ 64 && 1 ≤ Cfg.TWCFG_DIGMAX s && 1 ≤ Cfg.TWHOLDOFF_HOLDOFF s &&
  Cfg.TWHOLDOFF_HOLDOFF s ≤ 3600 &&
  (List.range 8).all (fun k => Cfg.CXPOS_IDX s k ≤ 21 && (!Cfg.GXPORT_EN s k ||
    25 * (80 + 64 * Cfg.CXPOS_IDX s k) + 8 * Cfg.CSCFG_CRDLY s ≤ 50000))

/-- Brake channels and outputs (R293, R302), and the bound of BTINT (R311). -/
def saggarOk (s : State) : Bool :=
  let bs := (List.range 32).filter (Cfg.SGBRK_EN s)
  bs.all (fun b => nodeOn s (Cfg.SGBRK_NODE s b) 0 && nodeOn s (Cfg.SGBRK_NODE s b) 1 && brakeSlotsOk s b &&
    (!Cfg.SGBRK_GRP s b || isMover s (Cfg.SGBRK_NUM s b))) &&
  distinct (bs.map (fun b => (Cfg.SGBRK_NODE s b, Cfg.SGBRK_OUT s b))) && distinct (bs.map (brakeOwner s)) &&
  (definedGroups s).all (fun g => !isMover s g || !Cfg.HOCFG_BRKEN s (grW g) ||
    (Cfg.SGBRK_EN s (Cfg.HOCFG_BRKCH s (grW g)) && brakeOwner s (Cfg.HOCFG_BRKCH s (grW g)) = .group g)) &&
  (List.range 4).all (fun k => Cfg.SGOUT_FUNC s k ≠ 3 && (Cfg.SGOUT_FUNC s k ≠ 1 ||
    (brakeOf s (if Cfg.SGOUT_GRP s k then .group (Cfg.SGOUT_NUM s k) else .axis (Cfg.SGOUT_NUM s k))).isNone)) &&
  (tget 0#32 s.cfg 0x40500404).toNat ≤ btiMax s

/-- A recorder source word (R318). -/
def sourceOk (s : State) (hist : Bool) (w : Word) : Bool :=
  let cls := bits w 23 20
  let i := bits w 11 0
  bits w 27 24 ≤ 14 && (!bit w 31 || (1 ≤ cls && cls ≤ 3 && (cls = 1 || !bit w 30) && !(hist && bit w 29) &&
    bit w 28 == false && bit w 19 == false &&
    (cls ≠ 1 || (i ≤ 11 && bits w 18 12 < usableAxes s)) && (cls ≠ 2 || i ≤ 15) && (cls ≠ 3 || 4 * i < partSize s ptLADLE)))

/-- Recorder channels and area (R318, R320, R323, R365). -/
def recorderOk (s : State) (density : Nat) : Bool :=
  let fl := (Cfg.RCFLASH s).toNat
  (List.range 64).all (fun q => sourceOk s true (cfgReg s (0x40601000 + 16 * q)) && (!Cfg.RHSRC_EN s q ||
    (fFinite (Cfg.RHLO s q) && fFinite (Cfg.RHHI s q) && fLt (Cfg.RHLO s q) (Cfg.RHHI s q)))) &&
  (List.range 128).all (fun c => sourceOk s false (cfgReg s (0x40602000 + 16 * c)) &&
    (!Cfg.RCSRC_EN s c || !Cfg.RCSRC_XEN s c || fLt (Cfg.RCXLO s c) (Cfg.RCXHI s c))) &&
  fl % 0x10000 = 0 && 0x410000 ≤ fl && fl + 0x29000 ≤ min density 0x1000000

/-- An IPv4 address that a unit may hold (R387). -/
def ipOk (w : Word) : Bool := w ≠ 0#32 && w ≠ 0xFFFFFFFF#32 && bits w 31 28 ≠ 14

/-- The NETWORK record (R387). -/
def networkOk (net : List Word) : Bool :=
  let w := nth 0#32 net
  net.length = 6 && ipOk (w 0) && ipOk (w 1) && ipOk (w 2) && distinct [w 0, w 1, w 2] && bits (w 5) 31 7 = 0

/-- System unit and compact core (R362, R421). -/
def systemOk (s : State) : Bool := 1 ≤ Cfg.PWRCFG_PARKDLY s && Cfg.LDCIRQ_TPER s ≤ 14 &&
  (List.range 5).all (fun c => Cfg.LDPERS_SIZE s (coW c) ≤ 16)

/-- The image without what it writes to an axis window beyond the grade, which ignores it (R2). -/
def dropBeyond (s : State) : State :=
  { s with cfg := s.cfg.filter (fun p => decide (p.1 < axW (usableAxes s)) || decide (axW 128 ≤ p.1)) }

/-- Step 7 of R371 but for R2's check (gradeOk), on the loaded state, with the flash's density and the NETWORK record. -/
def imageRulesOk (s : State) (density : Nat) (net : List Word) : Bool :=
  networkOk net && partitionsOk s && treesOk s && retireOk s &&
  (usedAxes s).all (fun a => cellsOk s a && controlOk s a && feedbackOk s a && refOk s a) &&
  (ownersUsed s).all (ownerOk s) && (List.range 8).all (portOk s) && stageOk s &&
  (definedGroups s).all (groupOk s) && leadersOk s && tracksOk s && nodesOk s && schedulesOk s && clustersOk s && pairCfgOk s &&
  saggarOk s && recorderOk s density && systemOk s

end Sys2Proof.Machine
end

