-- ==== Sys2Proof/Machine/Image.lean ====
section
/-! DEFINITION. The configuration image (R366 to R371): header, records, the targets a record may store to,
authentication and the digest. A slot is read through a function, so that VERIFY can read the held header. -/

namespace Sys2Proof.Machine

/-! ### The defined bits of every configuration register (R368) -/

/-- Defined bits of the configuration registers of an axis window, by offset (R81, R110, R132, R158, R182). -/
def maskAxis : List (Nat × Nat) :=
  [(0xC, 0x777), (0x10, 0xFFFFFFFF), (0x14, 0xFFFFFFFF), (0x18, 0xFFFF), (0x100, 0xFF0F1BE7), (0x104, 0xFFFFFFFF),
   (0x108, 0xFFFFFFFF), (0x10C, 0xFFFF0FFF), (0x110, 0x13F), (0x114, 0x7777777), (0x118, 0xFFFFFFFF),
   (0x11C, 0xFFFFFFFF), (0x120, 0xFFFFFFFF), (0x124, 0xFFFFFFFF), (0x128, 0xFFFFFFFF), (0x12C, 0xFFFFFFFF),
   (0x130, 0xFFFFFFFF), (0x134, 0xFFFFFFFF), (0x200, 0x1FFF73F3), (0x204, 0xFFFFFFFF), (0x208, 0x3FFFFFF),
   (0x20C, 0xFFFFFF), (0x210, 0x1F03FF), (0x214, 0xFFFFFFFF), (0x218, 0xFFFFFFFF), (0x21C, 0xFFFF), (0x280, 0xFF),
   (0x284, 0xFFFFFFFF), (0x288, 0xFFFFFFFF), (0x28C, 0xFFFFFFFF), (0x370, 0xFFFFFFFF), (0x374, 0xFFFFFFFF),
   (0x378, 0xFFFFFFFF), (0x37C, 0xFFFFFFFF), (0x380, 0xFFFFFFFF), (0x384, 0x777), (0x388, 0xFFFFFFFF),
   (0x38C, 0xFFFFFFFF), (0x390, 0xFFFFFFFF), (0x394, 0xFFFFFFFF), (0x398, 0xE7E7), (0x39C, 0x77777)]

/-- Those of a cell slot block (R111). -/
def maskCell : List (Nat × Nat) := [(0x0, 0x637F), (0x4, 0xFFFFFFFF), (0x8, 0xFFFFFFFF), (0xC, 0xFFFFFFFF)]

/-- Those of a group window outside the member and offset tables (R182, R201, R202). -/
def maskGroup : List (Nat × Nat) :=
  [(0x8, 0xFFFF), (0xC, 0x7), (0x10, 0x777777), (0x200, 0xFFFFFFFF), (0x204, 0xFFFFFFFF), (0x208, 0xFFFFFFFF),
   (0x20C, 0xFF), (0x370, 0xFFFFFFFF), (0x374, 0xFFFFFFFF), (0x378, 0xFFFFFFFF), (0x37C, 0xFFFFFFFF),
   (0x380, 0xFFFFFFFF)]

/-- Those of a node descriptor (R233). -/
def maskNode : List (Nat × Nat) :=
  [(0x0, 0xF31F1F0F), (0x4, 0xFFFFFFFF), (0x8, 0xFFFFFFFF), (0xC, 0xFFFFFFFF), (0x10, 0xFFFFFFFF),
   (0x14, 0xFFFFFFFF), (0x18, 0xFFFFFFFF), (0x1C, 0xFFFF), (0x20, 0xFFFFFFFF), (0x24, 0xFFFFFFFF), (0x28, 0xFFFF)]

/-- Those of the single registers (R55, R133, R159, R287, R288, R334, R362, R421). -/
def maskAbs : List (Nat × Nat) :=
  [(0x40010008, 0x8001FFFF), (0x40010108, 0x100), (0x40010204, 0xFFFF), (0x40320084, 0xF), (0x40330000, 0xC703FF),
   (0x40330080, 0xFFFF), (0x40400000, 0x807F0F00), (0x40400004, 0xFFFF), (0x40410000, 0xC7FFFFFF),
   (0x40410004, 0xFFFF), (0x40600028, 0xFFFFFFFF), (0x40700104, 0xFFFFFFFF), (0x40700108, 0xFFFFFFFF),
   (0x4070010C, 0xFFFFFFFF), (0x40700110, 0xF07)]

/-- A run of registers: first address, distance, number, and the defined bits of the words of one element. -/
structure MaskRun where
  base : Nat
  step : Nat
  count : Nat
  masks : List Nat
  deriving DecidableEq, Repr

/-- The numbered registers (R133, R159, R203, R287, R288, R309, R316, R318, R334, R361, R363). -/
def maskRuns : List MaskRun :=
  [⟨0x40330008, 4, 4, [0xFFFFFFFF]⟩, ⟨0x40330020, 4, 4, [0xFFFF7F7F]⟩, ⟨0x40310000, 4, 8, [0xC07F00FF]⟩,
   ⟨0x40310040, 4, 8, [0x800000FF]⟩, ⟨0x40410010, 4, 8, [0x1F]⟩, ⟨0x40500100, 4, 32, [0x8FF800FF]⟩,
   ⟨0x40500200, 4, 4, [0xC00000FF]⟩, ⟨0x40330100, 16, 8, [0xFCFFF3FF, 0xFFFFFFFF, 0xFFFFFFFF]⟩,
   ⟨0x40320000, 16, 8, [0x8FFBF1FF, 0xFFFF]⟩, ⟨0x40601000, 16, 64, [0xEFF7FFFF, 0xFFFFFFFF, 0xFFFFFFFF]⟩,
   ⟨0x40602000, 16, 128, [0xEFF7FFFF, 0xFFFFFFFF, 0xFFFFFFFF]⟩,
   ⟨0x40311000, 16, 128, [0x7F, 0xFFFFFFFF, 0xFFFFFFFF, 0xFFFFFFFF]⟩,
   ⟨0x40700400, 16, 128, [0x87770FFF, 0xFFFFFFFF, 0xFFFFFFFF]⟩, ⟨0x40700010, 0x20, 4, [0x3FF001F]⟩]

/-- The defined bits that a run gives an address; none outside it. -/
def runMask (r : MaskRun) (a : Nat) : Option Nat :=
  if r.base ≤ a ∧ a < r.base + r.step * r.count then (r.masks)[(a - r.base) % r.step / 4]? else none

/-- The defined bits an association list gives an offset. -/
def listMask (l : List (Nat × Nat)) (o : Nat) : Option Nat := (l.find? (fun p => p.1 = o)).map Prod.snd

/-- The defined bits of the configuration register at an address; none where there is no configuration register
(R20, R368). The safety parameters are at their places of R309. -/
def cfgMask (a : Nat) : Option Nat :=
  if a % 4 ≠ 0 then none
  else if 0x41000000 ≤ a ∧ a < 0x41080000 then
    let o := a % 0x1000
    if 0x400 ≤ o ∧ o < 0x800 then listMask maskCell (o % 0x40) else listMask maskAxis o
  else if 0x42000000 ≤ a ∧ a < 0x42020000 then
    let o := a % 0x400
    if (0x80 ≤ o ∧ o < 0x100) ∨ (0x280 ≤ o ∧ o < 0x300) then some 0xFFFFFFFF else listMask maskGroup o
  else if 0x40100000 ≤ a ∧ a < 0x40120000 then
    let o := a % 0x10000
    if o = 0 then some 0x8000073F
    else if o = 0x108 then some 0x1FF1F
    else if 0x400 ≤ o ∧ o < 0x400 + 4 * 34 then some 0xFFFF
    else none
  else if 0x40128000 ≤ a ∧ a < 0x40129000 then listMask maskNode (a % 0x40)
  else if 0x40200000 ≤ a ∧ a < 0x40300000 then
    let o := a % 0x40000
    if o = 0x3F000 then some 0xFFF
    else if 0x3F100 ≤ o ∧ o < 0x3F180 then some 0xF0000
    else none
  else if 0x40500400 ≤ a ∧ a < 0x40500600 then
    if sagIdOk ((a - 0x40500400) / 4) then some 0xFFFFFFFF else none
  else
    match listMask maskAbs a with
    | some m => some m
    | none => maskRuns.findSome? (fun r => runMask r a)

/-! ### Records (R367, R368) -/

/-- What a verification has loaded so far. -/
structure Load where
  st : State
  net : List Word := []
  pwd : List Byte := []
  /-- the stored bytes of the records with LOCAL = 0, in order (R370) -/
  dig : List Byte := []
  deriving DecidableEq, Repr

/-- Store a word of the image: a configuration field, SRAM inside a partition (also through the SCHED view), or the
compact core's local memory; none for any other target or a 1 in a reserved bit (R368). -/
def imageStore (a : Nat) (w : Word) (s : State) : Option State :=
  if a < 0x400000 then (if (List.range 9).any (fun i => inPart s i a) then some (memPutW a w s) else none)
  else if inLocal a then some (memPutW a w s)
  else if 0x40120000 ≤ a ∧ a < 0x40128000 then
    let b := partBase s ptSCHED + (a - 0x40120000)
    if inPart s ptSCHED b then some (memPutW b w s) else none
  else
    match cfgMask a with
    | some m => if w.toNat &&& m = w.toNat then some { s with cfg := tset s.cfg a w } else none
    | none => none

/-- Store words from an address upwards. -/
def imageStores : Nat → List Word → State → Option State
  | _, [], s => some s
  | a, w :: ws, s => (imageStore a w s).bind (imageStores (a + 4) ws)

/-- The little-endian words of a byte string. -/
def leWords (l : List Byte) : List Word := (List.range (l.length / 4)).map (fun i => BitVec.ofNat 32 (leNat l (4 * i) 4))

/-- Apply the value of record number i (R368): none where TYPE, order, LOCAL, the value's length or a target fails. -/
def applyRecord (i ty : Nat) (isLocal : Bool) (v : List Byte) (l : Load) : Option Load :=
  let ws := leWords v
  let w := fun k => nth 0#32 ws k
  if (i = 0) ≠ (ty = 1) ∨ (i = 1) ≠ (ty = 2) ∨ (isLocal = true) ≠ (ty = 1) then none
  else
    match ty with
    | 1 => if v.length = 24 then some { l with net := ws } else none
    | 2 => if v.length = 72 then
        some { l with st := forAll (List.range 18) (fun k s => { s with cfg := tset s.cfg (0x80000000 + 4 * k) (w k) }) l.st }
      else none
    | 3 => if v.length % 4 = 0 ∧ 4 ≤ v.length ∧ (w 0).toNat % 4 = 0 then
        (imageStores (w 0).toNat (ws.drop 1) l.st).map (fun s => { l with st := s })
      else none
    | 4 => if v.length = 12 ∧ (w 0).toNat % 4 = 0 then
        (imageStores (w 0).toNat (List.replicate (w 1).toNat (w 2)) l.st).map (fun s => { l with st := s })
      else none
    | 5 => if v.length = 64 then some { l with pwd := v } else none
    | _ => none

/-- Bytes of a slot through its reader. -/
def readSlot (rd : Nat → Byte) (o n : Nat) : List Byte := (List.range n).map (fun i => rd (o + i))

/-- The outcome of a verification: a failure code of R371 with the record it concerns, or what was loaded. -/
inductive Verdict (α : Type) where
  | bad (code record : Nat)
  | good (x : α)
  deriving DecidableEq, Repr

/-- Records i to NREC − 1 from offset o, to end exactly at LENGTH (R366, R371 steps 4 and 5). -/
def readRecords (rd : Nat → Byte) (len : Nat) : Nat → Nat → Nat → Load → Verdict Load
  | 0, i, o, l => if o = len then .good l else .bad 5 i
  | k + 1, i, o, l =>
    let head := readSlot rd o 8
    let vlen := leNat head 4 4
    let n := 8 + (vlen + 3) / 4 * 4 + 4
    if len < o + n then .bad 5 i
    else
      let body := readSlot rd o (n - 4)
      let crc := readSlot rd (o + n - 4) 4
      let w0 := BitVec.ofNat 32 (leNat head 0 4)
      if crc32 body ≠ leNat crc 0 4 then .bad 4 i
      else if bits w0 14 0 ≠ 0 then .bad 5 i
      else
        match applyRecord i (bits w0 31 16) (bit w0 15) ((body.drop 8).take vlen) l with
        | none => .bad 5 i
        | some m =>
          readRecords rd len k (i + 1) (o + n) (if bit w0 15 then m else { m with dig := m.dig ++ body ++ crc })

/-! ### Header, authentication and the whole check (R366, R369, R371) -/

/-- The fields of a header that steps 1 to 3 let pass. -/
structure Header where
  len : Nat
  seq : Word
  signed : Bool
  nrec : Nat
  deriving DecidableEq, Repr

/-- Steps 1 to 3 of R371. -/
def checkHeader (rd : Nat → Byte) : Verdict Header :=
  let h := readSlot rd 0 64
  let w := fun i => BitVec.ofNat 32 (leNat h (4 * i) 4)
  let len := (w 2).toNat
  let sgn := bit (w 4) 0
  if w 0 ≠ 0x4559494D#32 then .bad 1 0
  else if crc32 (h.take 60) ≠ (w 15).toNat then .bad 2 0
  else if w 1 = 0x00010000#32 ∧ len % 4 = 0 ∧ 64 ≤ len ∧ len + (if sgn then 128 else 0) ≤ 0x200000 ∧ bits (w 4) 31 1 = 0 ∧
      2 ≤ (w 5).toNat ∧ (w 5).toNat ≤ 65535 ∧ (List.range 9).all (fun i => w (6 + i) = 0#32) then
    .good ⟨len, w 3, sgn, (w 5).toNat⟩
  else .bad 3 0

/-- The fuse KEYHASH as bytes (R378). -/
def keyHash (s : State) : List Byte := (List.range 8).flatMap (fun i => leBytes 4 (fuseWord s (0x20 + 4 * i)).toNat)

/-- Authentication (R369): AUTH, or the failure code. -/
def authenticate (s : State) (rd : Nat → Byte) (h : Header) : Verdict Nat :=
  let prog := (keyHash s).any (fun b => b ≠ 0)
  if !h.signed then (if prog && bit (fuseWord s 0x10) 9 then .bad 6 0 else .good 0)
  else
    let blk := readSlot rd h.len 128
    let n := fun i => beNat blk (32 * i) 32
    if prog && sha256 (blk.take 64) ≠ keyHash s then .bad 7 0
    else if ecdsaVerify (sha256 (readSlot rd 0 h.len)) (n 0) (n 1) (n 2) (n 3) then .good (if prog then 1 else 2)
    else .bad 8 0

/-- A verified image. -/
structure Verified where
  load : Load
  header : Header
  auth : Nat
  deriving DecidableEq, Repr

/-- Verification of a slot under R371, on a state with nothing loaded; `err` is a read error of the flash. -/
def verifySlot (base : State) (rd : Nat → Byte) (density : Nat) (err : Bool) : Verdict Verified :=
  if err then .bad 10 0
  else
    match checkHeader rd with
    | .bad c r => .bad c r
    | .good h =>
      match readRecords rd h.len h.nrec 0 64 { st := base } with
      | .bad c r => .bad c r
      | .good l =>
        match authenticate base rd h with
        | .bad c r => .bad c r
        | .good a =>
          let q := dropBeyond l.st
          if gradeOk l.st && imageRulesOk q density l.net then .good ⟨{ l with st := q }, h, a⟩ else .bad 9 0

/-- The configuration digest (R370). -/
def imageDigest (v : Verified) : List Byte := sha256 v.load.dig

/-- The bytes of slot k in the flash (R365); an erased byte reads 0xFF (log 5). -/
def slotByte (s : State) (k o : Nat) : Byte := mget 0xFF s.boot.flash (k * 0x200000 + o)

/-- A state with every configuration field at its reset value and SRAM zero, for the fuses and retire parameters given
(R33, R372). -/
def loadBase (s : State) (rc : Tab RetCfg) : State :=
  { State.reset with boot := { (State.reset).boot with fuses := s.boot.fuses }, ret := { (State.reset).ret with cfg := rc } }

end Sys2Proof.Machine
end

