-- ==== Sys2Proof/Machine/Saggar.lean ====
section
/-! DEFINITION. The safety island (R289 to R316, R435): brake channels and safe frames, local outputs, the brake test,
the lock-out and its reset, the seal, the password, the parameters and the change log. -/

namespace Sys2Proof.Machine

/-- Change the safety record. -/
def modSag (f : Saggar → Saggar) (s : State) : State := { s with sag := f s.sag }

/-- Enabled brake channels (R293). -/
def brakesOn (s : State) : List Nat := (List.range 32).filter (Cfg.SGBRK_EN s)

/-! ### Brake reports as axes and movers see them (R294, R190, R302) -/

/-- A report of the brake of an owner: released, or applied. -/
def brakeReport (o : Owner) (released : Bool) (s : State) : State :=
  match o with
  | .axis a =>
    if released then modCtl s a (fun c => { c with brkRel := true, brkApp := false })
    else if (getAx s a).ctl.brkWant then modCtl s a (fun c => { c with brkRel := false })
    else brakeApplied a s
  | .group g => modGr s g (fun r => { r with brkRel := released })

/-- The owner requests the release of its brake (R294). -/
def wantsRelease (s : State) (o : Owner) : Bool :=
  match o with
  | .axis a => (getAx s a).ctl.brkWant
  | .group g => (getGr s g).brkWant

/-! ### Local safe outputs (R302) -/

/-- Saggar holds no lock-out, not even a stored one, and is past its self-tests (R304, R306, R307). -/
def sagClear (s : State) : Bool := s.sag.st = 1 && s.sag.stored.isNone && !s.sag.stopped

/-- Owner of pair k (R316). -/
def pairOwner (s : State) (k : Nat) : Owner :=
  if Cfg.SGOUT_GRP s k then .group (Cfg.SGOUT_NUM s k) else .axis (Cfg.SGOUT_NUM s k)

/-- The unit decides commands: it drives, or shadows (R294, R312). -/
def decides (s : State) : Bool := driving s || s.sys.hstate = .standby

/-- Pair k is to be energised (R302), as a unit that shadows derives it too (R312). -/
def pairOn (s : State) (k : Nat) : Bool :=
  decides s && sagClear s &&
    (match Cfg.SGOUT_FUNC s k with
     | 1 => wantsRelease s (pairOwner s k)
     | 2 => s.sag.outset.testBit k
     | _ => false)

/-- Pair k is commanded; only a unit in ACTIVE or HANDBACK drives its pins (R302). SFBk follows the command of the active unit
unless a row says otherwise (log 12), and the owner of a brake pair has its feedback from it. -/
def switchPair (k : Nat) (on : Bool) (s : State) : State :=
  let s0 := if s.sag.outOn.testBit k = (on && driving s) then s
    else modSag (fun g => { g with outOn := setBit g.outOn k (on && driving s) }) s
  if s.sag.outCmd.testBit k = on then s0
  else
    let s1 := modSag (fun g => { g with outCmd := setBit g.outCmd k on, sfb := setBit g.sfb k on }) s0
    if Cfg.SGOUT_FUNC s k = 1 then brakeReport (pairOwner s k) on s1 else s1

/-- Every pair takes the state R302 gives it. -/
def outputs (s : State) : State := forAll (List.range 4) (fun k s => switchPair k (pairOn s k) s) s

/-! ### Lock-out causes (R303, R304, R306, R313) -/

/-- Saggar finds a cause: during its self-tests it stands until they end; the first cause of a lock-out is recorded and
stored, the head locks two rounds later (for the peer's lock-out at the next T0), and the local outputs are off at once.
A later cause raises the event only, and one that stands already none. -/
def foundCause (c i : Nat) (s : State) : State :=
  let g := s.sag
  let g1 := { g with standing := if g.standing.contains (c, i) then g.standing else g.standing ++ [(c, i)]
                     others := g.others || c ≠ 12 }
  if g.st = 0 then { s with sag := g1 }
  else if g.st = 1 then
    outputs (raise evLockOut { s with
      sag := { g1 with st := 2, cause := c, index := i, others := c ≠ 12, stored := some (c, i) }
      sys := { s.sys with lockAt := some (s.sys.round + if c = 12 then 1 else 2) } })
  else onlyIf (!g.standing.contains (c, i)) (raise evLockOut) { s with sag := { g1 with st := 2 } }

/-- The causes that satisfy p have cleared; with none left the lock-out can be reset (R303, R305), and one that came from
the peer alone ends at the next T0 (R313). -/
def clearCause (p : Nat × Nat → Bool) (s : State) : State :=
  let left := s.sag.standing.filter (fun q => !p q)
  if left.length = s.sag.standing.length then s
  else
    let s1 := modSag (fun g => { g with standing := left }) s
    if left = [] ∧ s.sag.st = 2 then
      if s.sag.others then modSag (fun g => { g with st := 3, clearedAt := s.sys.round }) s1
      else { modSag (fun g => { g with st := 1, cause := 0, index := 0, stored := none }) s1 with
             sys := { s.sys with unlockAt := some (s.sys.round + 1), lockAt := none } }
    else s1

/-- LOCKOUT_CAUSE (R304). -/
def execLockoutCause (cause idx : Nat) (s : State) : Host.Outcome State Fault Refusal := .next (foundCause cause idx s)

/-- Cause 4 clears with the outputs off and SFB low on every pair (R303). -/
def clearOutputs (s : State) : State :=
  if s.sag.outOn = 0 ∧ s.sag.sfb = 0 then clearCause (fun q => q.1 = 4) s else s

/-! ### The brake test (R300, R301) -/

/-- Position of a brake owner (R301). -/
def ownerPos (s : State) (o : Owner) : Int :=
  match o with
  | .axis a => (getAx s a).fb.pos
  | .group g => (getGr s g).gfbPos

/-- A brake test ends with a result. -/
def testEnd (res : Nat) (s : State) : State :=
  match s.sag.test with
  | some t =>
    let s1 := modBrk s t.ch (fun b =>
      if res = 1 then { b with tres := 1, hrs := 0, due := false, blocked := false } else { b with tres := res, blocked := true })
    raise evBrakeTest (modSag (fun g => { g with test := none }) s1)
  | none => s

/-- Rounds of one ramp, hold and ramp of channel b (R301). -/
def testLength (s : State) (b : Nat) : Nat := 2 * 2560 + 128 * (sagParam s (0x40 + b)).toNat

/-- The test has moved its owner further than BTMOVE. -/
def testMoved (s : State) (t : BTest) : Bool := decide ((sagParam s (0x60 + t.ch)).toNat * 65536 < t.dev)

/-- The owner stays in a brake test: in RUN, or in a quick stop that a command alone has started (R301). -/
def ownerStays (s : State) (o : Owner) : Bool :=
  ownerInRun s o || (!(treeAxes s o).isEmpty && (treeAxes s o).all (fun a =>
    let c := (getAx s a).ctl
    c.st = .run || (c.st = .qstop && c.qscmd && c.wait = .none)))

/-- One round of a running test: the deviation during the hold, the change from the positive current to the negative
one, and the abort when the owner has faulted, is disabled or parked (R301; PARK is DEDUCED, log 18). -/
def testRound (s : State) : State :=
  match s.sag.test with
  | some t =>
    let o := brakeOwner s t.ch
    if !ownerStays s o || !driving s then testEnd 3 s
    else if t.phase = 0 then s
    else
      let d := (ownerPos s o - t.p0).natAbs
      let inHold := decide (2560 ≤ t.rounds) && decide (t.rounds < testLength s t.ch - 2560)
      let t1 := { t with rounds := t.rounds + 1, dev := if inHold then max t.dev d else t.dev }
      let t2 := if t1.phase = 1 && decide (testLength s t.ch ≤ t1.rounds) && !testMoved s t1 then { t1 with phase := 2, rounds := 0 } else t1
      modSag (fun g => { g with test := some t2 }) s
  | none => s

/-- BTEST_END (R301): the second current is down again, or the first with the owner moved. -/
def btestEnd (s : State) : State :=
  match s.sag.test with
  | some t =>
    if t.phase = 0 || decide (t.rounds < testLength s t.ch) then s
    else if testMoved s t then testEnd 2 s
    else if t.phase = 2 then testEnd 1 s
    else s
  | none => s

/-- BTEST_END (R301). -/
def execBtestEnd (s : State) : Host.Outcome State Fault Refusal := .next (btestEnd s)

/-- The channel's powered hours have reached BTINT: DUE and its event (R300). -/
def dueCheck (b : Nat) (s : State) : State :=
  let k := getBrk s b
  if Cfg.SGBRK_EN s b && !k.due && decide ((sagParam s 1).toNat ≤ k.hrs) then
    raise evBrakeTestDue (modBrk s b (fun k => { k with due := true }))
  else s

/-! ### Safe frames (R296 to R299) -/

/-- SDATA from its low half (R296). -/
def sdataOf (low : Nat) : Nat := (0xFFFF - low % 0x10000) * 0x10000 + low % 0x10000

/-- The SAFE payload (R222, R297). -/
def safePayload (s : State) (up ch b sseq low : Nat) : List Byte :=
  let p := beBytes 1 (up * 128 + ch * 64 + b) ++ beBytes 1 0 ++ beBytes 2 sseq ++ beBytes 4 (sdataOf low) ++ beBytes 4 0
  p ++ beBytes 4 (scrc (scrcSeed ch) (beBytes 4 s.sys.round.toNat ++ beBytes 2 s.sys.epoch ++ p))

/-- DEGTIME in ms (R309). -/
def degTime (s : State) : Nat := 1000 * (sagParam s 2).toNat

/-- Every enabled channel has its pair (R299, R303). -/
def allPairs (s : State) : Bool := (brakesOn s).all (fun b => (getBrk s b).link = 0)

/-- After a valid pair: the degraded time ends with pairs on every enabled channel, and the causes 1, 2 and 13 clear. -/
def pairsBack (s : State) : State :=
  if allPairs s then
    let s1 := clearCause (fun q => q.1 = 1 || q.1 = 2 || q.1 = 13) s
    if s.sag.deg then raise evDegraded (modSag (fun g => { g with deg := false, degMs := 0 }) s1) else s1
  else s

/-- The first valid degraded copy starts the degraded time (R299). -/
def degStart (s : State) : State :=
  if s.sag.deg then s else raise evDegraded (modSag (fun g => { g with deg := true, degMs := 0 }) s)

/-- A valid report of channel b (R294, R296, R301, R303): node fault and echo, feedback against the command, and the
owner's BRKREL. -/
def takeReport (b low : Nat) (s : State) : State :=
  let k := getBrk s b
  let fb := (low / 4) % 4
  let bad := decide (low / 256 ≠ 0) || decide (low % 4 ≠ k.prevCmd)
  let s1 := if bad then foundCause 14 b s else clearCause (fun q => q = (14, b)) s
  if fb = 0 ∨ fb = 3 then foundCause 3 b s1
  else
    let s2 := modBrk s1 b (fun k => { k with fb := fb, changeRounds := if fb = k.cmd then none else k.changeRounds })
    let s3 := if fb = k.cmd then clearCause (fun q => q = (3, b)) s2 else s2
    let s4 := brakeReport (brakeOwner s b) (fb = 2) s3
    match s4.sag.test with
    | some t =>
      if t.ch = b ∧ t.phase = 0 ∧ fb = 1 then
        modSag (fun g => { g with test := some { t with phase := 1, rounds := 0, dev := 0, p0 := ownerPos s4 (brakeOwner s b) } }) s4
      else s4
    | none => s4

/-- A valid pair or degraded copy has been formed. -/
def formed (b link low : Nat) (s : State) : State :=
  let s1 := takeReport b low (modBrk s b (fun k => { k with link := link, got := true, misses := 0, basis := true }))
  if link = 0 then pairsBack s1 else degStart s1

/-- What the copies of a channel's period give so far (R298, R299). -/
def judgeCopies (b : Nat) (s : State) : State :=
  let k := getBrk s b
  if k.got then s
  else
    match k.copyA, k.copyB with
    | some (qa, a), some (qb, c) =>
      if qa ≠ qb then s
      else if a = c then formed b 0 a s
      else foundCause 1 b (modBrk s b (fun k => { k with basis := true }))
    | some (_, a), none => if a.testBit 5 && inSkim s && decide (degTime s ≠ 0) && k.basis then formed b 1 a s else s
    | none, some (_, a) => if a.testBit 5 && inSkim s && decide (degTime s ≠ 0) && k.basis then formed b 1 a s else s
    | none, none => s

/-- A copy is accepted (R298); before the basis the first two copies with equal SSEQ set it. -/
def copyOk (s : State) (b : Nat) (r : RxSlot) : Bool :=
  let p := rxPayload r.bytes
  let k := getBrk s b
  let sd := beNat p 4 4
  let q := beNat p 2 2
  beNat p 12 4 = scrc (scrcSeed r.ch) (beBytes 4 s.sys.round.toNat ++ beBytes 2 s.sys.epoch ++ p.take 12) &&
    beNat p 0 1 = 128 + r.ch * 64 + b && sd / 65536 + sd % 65536 = 65535 &&
    (!k.basis || (if k.first then q = 0 else q = (k.sseqUp + 1) % 65536))

/-- SAFE_RECEIVED (R298): the SAFE entry's AUX names the channel (R225). -/
def safeReceived (r : RxSlot) (s : State) : State :=
  match acceptUp r tySAFE s with
  | (s1, some e) =>
    let b := e.aux
    if !Cfg.SGBRK_EN s b then s1
    else if copyOk s1 b r then
      let p := rxPayload r.bytes
      let c := (beNat p 2 2, beNat p 6 2)
      judgeCopies b (modBrk s1 b (fun k => if r.ch = 0 then { k with copyA := some c } else { k with copyB := some c }))
    else modSag (fun g => { g with refusedCopies := sat16 (g.refusedCopies + 1) }) s1
  | (s1, none) => s1

/-- SAFE_RECEIVED (R298). -/
def execSafeReceived (r : RxSlot) (s : State) : Host.Outcome State Fault Refusal := .next (safeReceived r s)

/-! ### The safe period (R294, R297, R299, R312) -/

/-- The channel's last period ends: without a pair or degraded copy it is missing, and eight in a row are cause 2. The
last accepted SSEQ is the one that the next copies continue. -/
def closePeriod (b : Nat) (s : State) : State :=
  let k := getBrk s b
  let seq := match k.copyA, k.copyB with
    | some (q, _), _ => q
    | none, some (q, _) => q
    | none, none => k.sseqUp
  let s1 := modBrk s b (fun k => { k with
    sseqUp := seq, copyA := none, copyB := none, got := false, link := if k.got then k.link else 2
    misses := if k.got || !k.basis then 0 else k.misses + 1 })
  if k.got || !k.began then s1
  else
    let s2 := modSag (fun g => { g with missPeriods := sat16 (g.missPeriods + 1) }) s1
    if k.basis && decide (8 ≤ k.misses + 1) then
      onlyIf (decide (k.misses < 8)) (foundCause 2 b) (modBrk s2 b (fun k => { k with misses := 8 }))
    else s2

/-- R294 grants the release of channel b. -/
def granted (s : State) (b : Nat) : Bool :=
  let k := getBrk s b
  wantsRelease s (brakeOwner s b) && decides s && sagClear s && !k.blocked && (!k.due || k.cmd = 2) && decide (k.link ≤ 1)
    && !(s.sag.test.map BTest.ch = some b)

/-- The owner's request has come since the last safe period (R294). -/
def newRequest (s : State) (o : Owner) : Bool :=
  match o with
  | .axis a => (getAx s a).ctl.brkNew
  | .group g => (getGr s g).brkNew

/-- A safe period has judged the owner's request. -/
def requestSeen (o : Owner) (s : State) : State :=
  if !newRequest s o then s
  else
    match o with
    | .axis a => modCtl s a (fun c => { c with brkNew := false })
    | .group g => modGr s g (fun r => { r with brkNew := false })

/-- The command of channel b for its new period, with the brake-release-refused event: once for each request, and again when
one that was granted is refused (R294). -/
def decideBrake (b : Nat) (s : State) : State :=
  let k := getBrk s b
  let want := wantsRelease s (brakeOwner s b)
  let ok := granted s b
  let cmd := if ok then 2 else 1
  let testing := decide (s.sag.test.map BTest.ch = some b)
  let s1 := modBrk s b (fun k => { k with
    prevCmd := k.sent, sent := cmd, cmd := cmd, changeRounds := if cmd = k.cmd then k.changeRounds else some 0
    refusedNow := if testing then k.refusedNow else want && !ok })
  let s2 := onlyIf (!testing) (requestSeen (brakeOwner s b)) s1
  if want && !ok && (!k.refusedNow || newRequest s (brakeOwner s b)) && !testing then raise evBrakeRefused s2 else s2

/-- SSEQ of the new period: 0 in the first of an epoch (R297). -/
def nextSseq (b : Nat) (s : State) : State :=
  modBrk s b (fun k => { k with began := true, first := k.fresh, fresh := false, sseqDn := if k.fresh then 0 else (k.sseqDn + 1) % 65536 })

/-- The two copies, or the degraded one (R296, R297, R299). -/
def sendSafe (b : Nat) (es : List (Nat × SEntry)) (s : State) : State :=
  if !sendsNow s || s.sag.stopped then s
  else
    let k := getBrk s b
    let deg := inSkim s && decide (degTime s ≠ 0)
    let low := b2n deg * 8 + b2n (s.sag.test.map BTest.ch = some b) * 4 + k.cmd
    forAll (es.filter (fun q => (!deg || s.link.skim = some q.1) && decide ((getNode s q.1 q.2.node).st ≠ 5))) (fun q s => sendEntry q.1 q.2 (safePayload s 0 q.1 b k.sseqDn low) s) s

/-- The SAFE downstream entries of channel b that act in this round, by Toelle channel. -/
def safeEntries (s : State) (b : Nat) : List (Nat × SEntry) :=
  (chansOn s).filterMap (fun ch =>
    ((schedAt s ch s.sys.round).find? (fun e => !e.up && e.type = tySAFE && e.aux = b)).map (fun e => (ch, e)))

/-- SAFE_PERIOD (R294): every enabled channel whose SAFE position acts in this round. -/
def safePeriod (s : State) : State :=
  clearOutputs <| outputs (forAll (brakesOn s) (fun b s =>
    let es := safeEntries s b
    if es.isEmpty then s else sendSafe b es (nextSseq b (decideBrake b (closePeriod b s)))) s)

/-- SAFE_PERIOD (R294). -/
def execSafePeriod (s : State) : Host.Outcome State Fault Refusal := .next (safePeriod s)

/-- BRAKE_FEEDBACK_TIMEOUT (R294): FB has not matched the command within BRKTMO of its change. A test that waits for its
applied report ends with NOFB (R301). -/
def brakeTimeout (b : Nat) (s : State) : State :=
  let k := getBrk s b
  match k.changeRounds with
  | some t =>
    if Config.roundsPerMs * (sagParam s 3).toNat ≤ t ∧ k.fb ≠ k.cmd then
      let s1 := match s.sag.test with
        | some x => if x.ch = b ∧ x.phase = 0 then testEnd 4 s else s
        | none => s
      foundCause 3 b s1
    else s
  | none => s

/-- BRAKE_FEEDBACK_TIMEOUT (R294). -/
def execBrakeFeedbackTimeout (b : Nat) (s : State) : Host.Outcome State Fault Refusal := .next (brakeTimeout b s)

/-- DEGTIME_EXCEEDED (R299). -/
def degExceeded (s : State) : State := if s.sag.deg ∧ degTime s ≤ s.sag.degMs then foundCause 13 0 s else s

/-- DEGTIME_EXCEEDED (R299). -/
def execDegtimeExceeded (s : State) : Host.Outcome State Fault Refusal := .next (degExceeded s)

/-! ### Entering and leaving LOCKED (R304, R305) -/

/-- LOCKOUT (R304): at T0 of the round that the cause set, the head enters LOCKED. -/
def lockout (s : State) : State :=
  match s.sys.lockAt with
  | some m =>
    if s.sys.hstate = .boot ∨ s.sys.hstate = .locked ∨ later m s.sys.round then s
    else
      let s1 := setHead .locked { s with sys := { s.sys with lockedFrom := s.sys.hstate, lockAt := none }
                                         sag := { s.sag with lockRnd := s.sys.round } }
      let s2 := testEnd 3 s1
      let s3 := forAll (brakesOn s2) (fun b s => modBrk s b (fun k =>
        if k.cmd = 1 then k else { k with cmd := 1, changeRounds := some 0 })) s2
      outputs (forAll (List.range (usableAxes s)) (fun a s => faultAx a 0x0A 3 (setCause a 0x0A true s)) s3)
  | none => s

/-- LOCKOUT (R304). -/
def execLockout (s : State) : Host.Outcome State Fault Refusal := .next (lockout s)

/-- The head leaves LOCKED at this T0 for the state it left (R305, R313). -/
def leaveLocked (s : State) : State :=
  match s.sys.unlockAt with
  | some m =>
    if later m s.sys.round then s
    else
      let s0 := { s with sys := { s.sys with unlockAt := none } }
      if s.sys.hstate ≠ .locked then s0
      else
        forAll (List.range (usableAxes s)) (fun a s => if (getAx s a).ctl.causes.testBit 0x0A then setCause a 0x0A false s else s)
          (setHead s.sys.lockedFrom s0)
  | none => s

/-- The pulse is long enough, and not too long, on this unit's oscillator (R305): between the bounds that are always
and never taken the spec leaves it open (log 1). -/
def pulseTaken (s : State) (us : Nat) : Bool :=
  if 527000 ≤ us ∧ us ≤ 2857000 then true
  else if us < 476000 ∨ 3158000 < us then false
  else freeB s

/-- SAFE_RESET (R305): the rising edge of the pulse that began in round `start`. Each brake channel then awaits a new
basis (R298). -/
def safeReset (start : Word) (us : Nat) (s : State) : State :=
  if s.sag.st ≠ 3 ∨ later s.sag.clearedAt start then s
  else
    let s0 := s.tick
    if !pulseTaken s us then s0
    else
      let s1 := modSag (fun g => { g with st := 1, cause := 0, index := 0, others := false, stored := none }) s0
      let s2 := forAll (brakesOn s1) (fun b s => modBrk s b (fun k => { k with basis := false, misses := 0, copyA := none, copyB := none })) s1
      raise evLockOutReset { s2 with sys := { s2.sys with unlockAt := some (s.sys.round + 1), lockAt := none } }

/-- SAFE_RESET (R305). -/
def execSafeReset (startRound : Word) (us : Nat) (s : State) : Host.Outcome State Fault Refusal :=
  .next (safeReset startRound us s)

/-! ### Diagnostic measures (R290, R292, R302, R307) -/

/-- TEST_PULSE (R292): a line that stays low through the pulse is shorted. Pulses seen for 1 s clear cause 5. -/
def testPulse (sealHigh resetHigh : Bool) (s : State) : State :=
  if sealHigh && resetHigh then
    let s1 := modSag (fun g => { g with pulseOkMs := min (g.pulseOkMs + 50) 1000 }) s
    if s1.sag.pulseOkMs = 1000 then clearCause (fun q => q.1 = 5) s1 else s1
  else foundCause 5 0 (modSag (fun g => { g with pulseOkMs := 0 }) s)

/-- TEST_PULSE (R292). -/
def execTestPulse (sealHigh resetHigh : Bool) (s : State) : Host.Outcome State Fault Refusal :=
  .next (testPulse sealHigh resetHigh s)

/-- DARK_PULSE (R302): SFBk must fall and rise again while the pair is energised. -/
def execDarkPulse (k : Nat) (fell rose : Bool) (s : State) : Host.Outcome State Fault Refusal :=
  .next (if s.sag.outOn.testBit k && !(fell && rose) then foundCause 4 k s else s)

/-- SFB_MATCH_TIMEOUT (R302): SFBk differs from the commanded state. -/
def execSfbMatchTimeout (k : Nat) (s : State) : Host.Outcome State Fault Refusal :=
  .next (foundCause 4 k (modSag (fun g => { g with sfb := setBit g.sfb k (!g.outCmd.testBit k) }) s))

/-- The hardware switches every SOUT pin off and stops the SAFE frames (R290). -/
def hardStop (s : State) : State := outputs (modSag (fun g => { g with stopped := true }) s)

/-- SAGGAR_WATCHDOG_EXPIRY (R290). -/
def execSaggarWatchdogExpiry (s : State) : Host.Outcome State Fault Refusal := .next (foundCause 7 0 (hardStop s))
/-- SAGGAR_SUPPLY_TRIP (R290). -/
def execSaggarSupplyTrip (s : State) : Host.Outcome State Fault Refusal := .next (foundCause 10 0 (hardStop s))

/-- A self-test: its result counts towards the end of TEST, and a failure is a cause (R290, R307). -/
def selfTest (c : Nat) (ok : Bool) (note : Saggar → Saggar) (s : State) : State :=
  if ok then modSag note s else foundCause c 0 (modSag note s)

/-- CPU_SELF_TEST (R290). -/
def execCpuSelfTest (ok : Bool) (s : State) : Host.Outcome State Fault Refusal :=
  .next (selfTest 11 ok (fun g => { g with selfCpu := some ok }) s)
/-- RAM_SCRUB (R290). -/
def execRamScrub (ok : Bool) (s : State) : Host.Outcome State Fault Refusal := .next (selfTest 9 ok id s)
/-- ROM_CRC (R290). -/
def execRomCrc (ok : Bool) (s : State) : Host.Outcome State Fault Refusal :=
  .next (selfTest 9 ok (fun g => { g with selfRom := some ok }) s)
/-- CLOCK_COMPARISON (R290). -/
def execClockComparison (ok : Bool) (s : State) : Host.Outcome State Fault Refusal := .next (selfTest 8 ok id s)
/-- The self-test of the input comparators: a failure is cause 6, and a pass clears it (R290, R303). -/
def comparatorTest (ok : Bool) (s : State) : State :=
  let s1 := selfTest 6 ok (fun g => { g with selfCmp := some ok }) s
  if ok then clearCause (fun q => q.1 = 6) s1 else s1

/-- INPUT_COMPARATOR_SELF_TEST (R290, R303). -/
def execInputComparatorSelfTest (ok : Bool) (s : State) : Host.Outcome State Fault Refusal := .next (comparatorTest ok s)

/-- COMPARATOR_SELF_TEST_END (R130): target 9 is Saggar's own self-test, whose result is Saggar's as well. -/
def execComparatorSelfTestEnd (tripped released : Bool) (s : State) : Host.Outcome State Fault Refusal :=
  .next (onlyIf (s.ps.testBusy && decide (s.ps.testTarget = 9)) (comparatorTest (tripped && released)) (comparatorEnd tripped released s))

/-- MARCH_TEST (R290). -/
def execMarchTest (ok : Bool) (s : State) : Host.Outcome State Fault Refusal :=
  .next (selfTest 9 ok (fun g => { g with selfRam := some ok }) s)

/-- SAGGAR_SELF_TEST_END (R307): NORMAL, or LOCKED with the cause found. -/
def selfTestEnd (s : State) : State :=
  let g := s.sag
  if g.st ≠ 0 ∨ g.selfCpu.isNone ∨ g.selfRam.isNone ∨ g.selfRom.isNone ∨ g.selfCmp.isNone then s
  else
    let found := if g.regionBad && !g.standing.contains (15, 0) then g.standing ++ [(15, 0)] else g.standing
    match found with
    | [] => modSag (fun g => { g with st := 1 }) s
    | (c, i) :: _ =>
      raise evLockOut { s with
        sag := { g with st := 2, cause := c, index := i, standing := found, others := true, stored := some (c, i) }
        sys := { s.sys with lockAt := some s.sys.round } }

/-- SAGGAR_SELF_TEST_END (R307). -/
def execSaggarSelfTestEnd (s : State) : Host.Outcome State Fault Refusal := .next (selfTestEnd s)

/-! ### Seal, password and parameters (R308 to R310) -/

/-- The seal is open (R308). -/
def sealOpen (s : State) : Bool := !s.sag.sealPin && s.sag.pwdOk

/-- A safety command is refused (R301, R307 to R310). -/
def sagRefuse (s : State) : State := raise evSafetyRefused s

/-- LEN bytes of the eight password words, low byte first (R308). -/
def pwdBytes (p : Tab Word) (len : Nat) : List Byte :=
  ((List.range 8).flatMap (fun i => leBytes 4 (tget 0#32 p i).toNat)).take len

/-- Clear SGPWD0 to SGPWD7 (R308). -/
def clearPwd (s : State) : State := modSag (fun g => { g with pwd := [] }) s

/-- Word i of log entry e as read: words that nothing has written read 0 (R310). -/
def logWord (s : State) (e i : Nat) : Word := nth 0#32 (tget [] s.sag.log e) i

/-- Make a change-log entry (R310). -/
def changeLog (kind id : Nat) (old new : Word) (s : State) : State :=
  let g := s.sag
  let ws := [packWord [(31, 24, kind), (23, 8, g.logTotal), (7, 0, id)], old, new, s.rcd.pc, s.rcd.sec, s.sys.round, 0#32]
  let crc := BitVec.ofNat 32 (crc32 (ws.flatMap (fun w => leBytes 4 w.toNat)))
  { s with sag := { g with log := tset g.log g.logCount (ws ++ [crc]), logCount := g.logCount + 1, logTotal := (g.logTotal + 1) % 65536 } }

/-- The first 4 bytes of a hash as a word. -/
def hashWord (h : List Byte) : Word := BitVec.ofNat 32 (leNat h 0 4)

/-- PWD (R308). -/
def pwdCmd (len : Nat) (s : State) : State :=
  if s.sag.st = 0 ∨ s.sag.blkMs.isSome ∨ len < 8 ∨ 32 < len then sagRefuse (clearPwd s)
  else if sha256 (pwdBytes s.sag.pwd len) = s.sag.pwdHash then
    modSag (fun g => { g with pwdOk := !g.sealPin, pwdMs := 0, wrong := 0 }) (clearPwd s)
  else if s.sag.wrong + 1 < 3 then modSag (fun g => { g with wrong := g.wrong + 1 }) (clearPwd s)
  else raise evPwdBlocked (modSag (fun g => { g with wrong := 0, blkMs := some 60000 }) (clearPwd s))

/-- PWDSET (R308, R310). -/
def pwdsetCmd (len : Nat) (s : State) : State :=
  if s.sag.st = 0 || !sealOpen s || decide (64 ≤ s.sag.logCount) || decide (len < 8) || decide (32 < len) then
    sagRefuse (clearPwd s)
  else
    let h := sha256 (pwdBytes s.sag.pwd len)
    modSag (fun g => { g with pwdHash := h, pwdSet := true }) (clearPwd (changeLog 2 0 (hashWord s.sag.pwdHash) (hashWord h) s))

/-- Axes whose IMAX bounds BTI of channel b (R309): the owner, or every segment of a mover's track. -/
def btiAxes (s : State) (b : Nat) : List Nat :=
  match brakeOwner s b with
  | .axis a => [a]
  | .group g =>
    let t := Cfg.HOCFG_TRACK s (grW g)
    (List.range (Cfg.TRKCFG_COUNT s t)).map (fun i => Cfg.SEGAX_AXIS s (segW (Cfg.TRKCFG_FIRST s t + i)))

/-- The value lies in the range of its parameter, and relaxes no fuse bound (R309, R311). -/
def paramOk (s : State) (id : Nat) (v : Word) : Bool :=
  let n := v.toNat
  if id = 1 then decide (1 ≤ n) && decide (n ≤ btiMax s)
  else if id = 2 then decide (n ≤ 600)
  else if id = 3 then decide (10 ≤ n) && decide (n ≤ 2000)
  else if 0x20 ≤ id ∧ id < 0x40 then fLt 0 v && (btiAxes s (id - 0x20)).all (fun a => fLe v (Cfg.IMAX s (axW a)))
  else if 0x40 ≤ id ∧ id < 0x60 then decide (100 ≤ n) && decide (n ≤ 10000)
  else if 0x60 ≤ id ∧ id < 0x80 then decide (1 ≤ n) && decide (n ≤ 65535)
  else false

/-- The region holds the whole set: the first PARAM while it is blank writes every parameter in force (R435). -/
def wholeSet (s : State) : Tab Word :=
  ((List.range 0x80).filter sagIdOk).map (fun id => (id, sagParam s id))

/-- PARAM (R309): from SGPSEL and SGPVAL. The value applies from the next T0; a region that was invalid is rewritten. -/
def paramCmd (s : State) : State :=
  let id := s.sag.sel.toNat
  let v := s.sag.val
  if s.sag.st = 0 || !sealOpen s || decide (64 ≤ s.sag.logCount) || !paramOk s id v then sagRefuse s
  else
    let s1 := changeLog 1 id (sagParam s id) v s
    let s2 := modSag (fun g => { g with
      params := if s.sag.regionBlank || s.sag.regionBad then wholeSet s else g.params
      pend := g.pend ++ [(id, v)], regionBlank := false, regionBad := false }) s1
    clearCause (fun q => q.1 = 15) s2

/-- At T0 the parameters written in the last round take effect (R309), and BTINT may make channels DUE (R315). -/
def applyParams (s : State) : State :=
  if s.sag.pend.isEmpty then s
  else
    let s1 := modSag (fun g => { g with params := g.pend.foldl (fun t q => tset t q.1 q.2) g.params, pend := [] }) s
    forAll (brakesOn s1) dueCheck s1

/-- SEALCLOSE (R308). -/
def sealcloseCmd (s : State) : State :=
  if s.sag.st = 0 then sagRefuse s else modSag (fun g => { g with pwdOk := false }) s

/-- The 2,048 bytes of the change log as read (R310). -/
def logBytes (s : State) : List Byte :=
  (List.range 64).flatMap (fun e => (List.range 8).flatMap (fun i => leBytes 4 (logWord s e i).toNat))

/-- LOGCLEAR (R310). -/
def logclearCmd (s : State) : State :=
  let crc := BitVec.ofNat 32 (crc32 (logBytes s))
  if s.sag.st = 0 || !sealOpen s || s.sag.val ≠ crc then sagRefuse s
  else changeLog 3 0 (BitVec.ofNat 32 s.sag.logCount) crc (modSag (fun g => { g with log := [], logCount := 0 }) s)

/-- BTEST (R301). -/
def btestCmd (b : Nat) (s : State) : State :=
  let o := brakeOwner s b
  if s.sag.st = 0 || !Cfg.SGBRK_EN s b || !(driving s || s.sys.hstate = .standby) || !ownerInRun s o || !atRest s o
      || !(getProf s o).queue.isEmpty || (getProf s o).cur.isSome || s.sag.test.isSome
      || sagParam s (0x20 + b) = 0#32 then sagRefuse s
  else modSag (fun g => { g with test := some { ch := b, phase := 0, p0 := 0, rounds := 0, dev := 0 } }) s

/-- BTABORT (R301). -/
def btabortCmd (s : State) : State :=
  if s.sag.st = 0 ∨ s.sag.test.isNone then sagRefuse s else testEnd 3 s

/-- OUTSET (R302). -/
def outsetCmd (mask : Nat) (s : State) : State :=
  if s.sag.st = 0 then sagRefuse s else outputs (modSag (fun g => { g with outset := mask % 16 }) s)

/-- The address of SGCMD. -/
def aSGCMD : Nat := 0x40500010

/-- PWD (R308). -/
def execPwd (m : Master) (len : Nat) (s : State) : Host.Outcome State Fault Refusal := .next (withRight m aSGCMD (pwdCmd len) s)
/-- PWDSET (R308). -/
def execPwdset (m : Master) (len : Nat) (s : State) : Host.Outcome State Fault Refusal := .next (withRight m aSGCMD (pwdsetCmd len) s)
/-- PARAM (R309). -/
def execParam (m : Master) (s : State) : Host.Outcome State Fault Refusal := .next (withRight m aSGCMD paramCmd s)
/-- SEALCLOSE (R308). -/
def execSealclose (m : Master) (s : State) : Host.Outcome State Fault Refusal := .next (withRight m aSGCMD sealcloseCmd s)
/-- LOGCLEAR (R310). -/
def execLogclear (m : Master) (s : State) : Host.Outcome State Fault Refusal := .next (withRight m aSGCMD logclearCmd s)
/-- BTEST (R301). -/
def execBtest (m : Master) (b : Nat) (s : State) : Host.Outcome State Fault Refusal := .next (withRight m aSGCMD (btestCmd b) s)
/-- BTABORT (R301). -/
def execBtabort (m : Master) (s : State) : Host.Outcome State Fault Refusal := .next (withRight m aSGCMD btabortCmd s)
/-- OUTSET (R302). -/
def execOutset (m : Master) (mask : Nat) (s : State) : Host.Outcome State Fault Refusal := .next (withRight m aSGCMD (outsetCmd mask) s)

/-- A write of SGCMD with the right key (R316): other values are refused. -/
def sagCommand (w : Word) (s : State) : State :=
  let op := bits w 15 8
  match bits w 3 0 with
  | 1 => pwdCmd op s
  | 2 => pwdsetCmd op s
  | 3 => paramCmd s
  | 4 => sealcloseCmd s
  | 5 => logclearCmd s
  | 6 => btestCmd op s
  | 7 => btabortCmd s
  | 8 => outsetCmd op s
  | _ => sagRefuse s

/-- SEAL_PIN_CHANGE (R308, R331): the seal closes when SEAL_n goes high, which also ends clearing authorisation; a
password counts only from the last falling edge on. -/
def sealPin (level : Bool) (s : State) : State :=
  { s with sag := { s.sag with sealPin := level, pwdOk := s.sag.pwdOk && s.sag.sealPin = level }
           rcd := if level then { s.rcd with auth := false, authMs := 0 } else s.rcd }

/-- SEAL_PIN_CHANGE (R308). -/
def execSealPinChange (level : Bool) (s : State) : Host.Outcome State Fault Refusal := .next (sealPin level s)

/-- SEAL_TIMEOUT (R308): 30 minutes after the password was accepted. -/
def execSealTimeout (s : State) : Host.Outcome State Fault Refusal :=
  .next (if s.sag.pwdOk ∧ 1800000 ≤ s.sag.pwdMs then modSag (fun g => { g with pwdOk := false }) s else s)

/-- PASSWORD_BLOCK_END (R308): 60 s after the block began. -/
def execPasswordBlockEnd (s : State) : Host.Outcome State Fault Refusal :=
  .next (if s.sag.blkMs = some 0 then modSag (fun g => { g with blkMs := none }) s else s)

/-- One millisecond of Saggar's timers. -/
def sagMs (s : State) : State :=
  modSag (fun g => { g with
    pwdMs := if g.pwdOk then g.pwdMs + 1 else 0
    blkMs := g.blkMs.map (fun t => t - 1)
    degMs := if g.deg then g.degMs + 1 else 0 }) s

/-- One round of the brakes' feedback times (R294). -/
def sagRounds (s : State) : State :=
  modSag (fun g => { g with
    brakes := g.brakes.map (fun q => (q.1, { q.2 with changeRounds := q.2.changeRounds.map (· + 1) })) }) s

end Sys2Proof.Machine
end

