-- ==== Sys2Proof/Machine/Twin.lean ====
section
/-! DEFINITION. The twin unit and the cascade unit (R262 to R288): lease, digest, takeover, shadow entry, handback, host
commands across the pair, and the time base of a cascade. -/

namespace Sys2Proof.Machine

/-- Change the twin record. -/
def modTwin (f : Twin → Twin) (s : State) : State := { s with twin := f s.twin }

/-- Change the cascade record. -/
def modCasc (f : Casc → Casc) (s : State) : State := { s with casc := f s.casc }

/-! ### Slots of the twin lane (R264) -/

/-- Types of R264. -/
def twTLEASE : Nat := 1
def twTDIG : Nat := 2
def twTCMD : Nat := 3
def twTCONF : Nat := 4
def twTCOMMIT : Nat := 5
def twTRET : Nat := 6
def twTXQ : Nat := 7
def twTLINK : Nat := 8
def twTCOPY : Nat := 9

/-- Pad bytes with zeros to a multiple of 16, at least 16. -/
def pad16 (l : List Byte) : List Byte := l ++ List.replicate ((16 - l.length % 16) % 16 + if l.isEmpty then 16 else 0) 0#8

/-- Send a slot on the twin lane from a byte time on (R264): the length stands in HDR. -/
def sendTwin (start ty : Nat) (pay : List Byte) (s : State) : State :=
  let p := pad16 (pay.take 256)
  send (.twin start (slotBytes (p.length * 16 + ty) s.sys.round.toNat s.sys.epoch p)) s

/-- The twin lane serves: a twin is configured (R262), and the lane is neither in BACKOFF nor retired (R32, R286). -/
def laneInUse (s : State) : Bool := Cfg.TWCFG_EN s && (getRet s clsTwin 0).st = .inUse

/-- The payload of a lane slot of type ty that passes the checks of R215 and R264; nothing is taken in BOOT. -/
def laneTake (s : State) (ty : Nat) (r : LaneSlot) : Option (List Byte) :=
  let h := rxHdr r.bytes
  let l := h / 16
  if s.sys.hstate ≠ .boot ∧ laneInUse s ∧ !r.codeErr ∧ h % 16 = ty ∧ l % 16 = 0 ∧ 16 ≤ l ∧ l ≤ 256 ∧ rxCrcOk l r.bytes then
    some (rxPayload r.bytes)
  else none

/-! ### Health (R273) -/

/-- A channel in use has a locked port (R273). -/
def channelsLocked (s : State) : Bool := (chansOn s).all (fun ch => (getCh s ch).lock0 || (getCh s ch).lock1)

/-- TKOK (R273). -/
def tkok (s : State) : Bool :=
  !s.twin.entry && decide (s.twin.digRun < Cfg.TWCFG_DIGMAX s) && s.twin.cfgEq && s.twin.gradeEq && s.sag.sagOk
    && decide (s.twin.scrub ≠ 2) && laneUp s && channelsLocked s

/-- The health word: the fields of TWHEALTH (R273, R287). -/
def healthWord (s : State) : Word :=
  packWord [(31, 31, b2n (tkok s)), (30, 30, b2n s.twin.entry), (29, 29, b2n s.sag.sagOk),
    (28, 28, b2n (s.twin.cfgEq && s.twin.gradeEq)), (24, 24, b2n (getCh s 0).lock0), (25, 25, b2n (getCh s 0).lock1),
    (26, 26, b2n (getCh s 1).lock0), (27, 27, b2n (getCh s 1).lock1), (23, 22, s.twin.scrub),
    (15, 8, min s.twin.digRun 255), (7, 0, s.twin.progress)]

/-- Code of a head state (R40). -/
def headCode : HeadState → Nat
  | .boot => 0
  | .listen => 1
  | .coldstart => 2
  | .active => 3
  | .standby => 4
  | .handback => 5
  | .isolated => 6
  | .locked => 7

/-- A grant of this unit stands: it drives and has chosen round h (R276). -/
def granting (s : State) : Bool := driving s && s.twin.hand.isSome

/-- The TLEASE payload (R265). -/
def leasePayload (s : State) : List Byte :=
  beBytes 4 s.sys.round.toNat ++ beBytes 2 s.sys.epoch
    ++ beBytes 1 (headCode s.sys.hstate * 32 + b2n (isAlt s) * 16 + b2n s.twin.hbReq * 8 + b2n (granting s) * 4) ++ beBytes 1 0
    ++ beBytes 4 (healthWord s).toNat ++ beBytes 2 (intMod 16 s.twin.arr)
    ++ beBytes 2 (if granting s then (s.twin.hand.getD 0).toNat % 65536 else 0)

/-! ### Shadow entry (R272, R274, R275) -/

/-- Key of a copy unit: its kind and number. -/
def copyKey : CopyContent → Nat × Nat
  | .bank a _ _ _ _ _ => (0, a)
  | .slow _ _ _ _ _ _ _ _ _ _ => (1, 0)
  | .ladle c _ => (2, c)
  | .owner (.axis a) _ _ => (3, a)
  | .owner (.group g) _ _ => (4, g)
  | .group g _ => (5, g)
  | .axis a _ => (6, a)
  | .mover g _ _ => (4, g)

/-- Groups in an order in which leaders, addends and parents stand before the groups that name them or belong to them
(R274): by what each takes its set-points from, at most `n` steps deep. -/
def namesFirst (s : State) : Nat → Nat → Nat
  | 0, _ => 0
  | n + 1, g =>
    let lead := fun (o : Owner) => match o with
      | .group h => namesFirst s n h + 1
      | .axis a => ((ancestors s a).map (fun h => namesFirst s n h + 1)).foldl max 0
    let up := ((groupsOf s).filter (fun h => (membersOf s h).contains (.group g))).map (fun h => namesFirst s n h + 1)
    up.foldl max (if Cfg.GRCFG_TYPE s (grW g) = 1 || Cfg.GRCFG_TYPE s (grW g) = 2 then
      (if isRemote s g then 0 else lead (leaderOf s g)) else 0)

/-- The groups of the head in that order. -/
def copyGroups (s : State) : List Nat :=
  let d := (groupsOf s).map (fun g => (namesFirst s 8 g, g))
  (List.range 9).flatMap (fun k => (d.filter (fun q => q.1 = k || (k = 8 && 8 ≤ q.1))).map Prod.snd)

/-- The units an entry needs, in the order in which they are sent (R274): slow blocks, Ladle blocks of the powered clusters,
queue owners and groups with a parent, and axes. -/
def copyUnits (s : State) : List (Nat × Nat) :=
  let axs := List.range (usableAxes s)
  [(1, 0)] ++ axs.map (fun a => (0, a)) ++ ((List.range 4).filter (clusterOn s)).map (fun c => (2, c))
    ++ (axs.filter (fun a => (parentOf s a).isNone)).map (fun a => (3, a))
    ++ (copyGroups s).map (fun g => (if Cfg.GRMCNT_PAREN s (grW g) then 5 else 4, g)) ++ axs.map (fun a => (6, a))

/-- Every copy unit is present. -/
def copiesHere (s : State) : Bool := (copyUnits s).all (fun q => s.twin.units.contains q)

/-- A new shadow entry (R263, R272, R279): the shadow state is discarded. -/
def startEntry (s : State) : State :=
  modTwin (fun t => { t with entry := true, entries := inc16 t.entries, matched := 0, progress := 0, units := [], digRun := 0, stored := [], arrived := [], past := [] }) s

/-- The banks a copy unit carries (R28, R274). -/
def putBank (a : Nat) (bank : Bool) (ws : List Word) (s : State) : State :=
  memPut (coefAddr s a bank 0 0) (ws.flatMap (fun w => leBytes 4 w.toNat)) s

/-- The state of a copy unit comes into force (R274). -/
def takeCopy (c : CopyContent) (s : State) : State :=
  match c with
  | .bank a b0 b1 act pend at_ =>
    modCtl (putBank a true b1 (putBank a false b0 s)) a (fun x => { x with bank := act, swapPend := pend, swapAt := at_ })
  | .slow mask flags pin route ret win safety log count total =>
    let own := s.ret.chans.filter (fun q => q.1 / 256 = clsTwin || q.1 / 256 = clsCascade)
    { s with
      ev := { s.ev with mask := mask, flags := flags, pinCfg := pin, route := route.foldl (fun t q => tset t q.1 q.2) [] }
      ret := { s.ret with chans := (ret.filter (fun q => q.1 / 256 ≠ clsTwin && q.1 / 256 ≠ clsCascade)).foldl (fun t q => tset t q.1 q.2) own }
      host := { s.host with window := win.take 256 }
      sag := { s.sag with params := safety, regionBlank := s.sag.regionBlank && safety.isEmpty, log := log, logCount := count, logTotal := total } }
  | .ladle c bytes => memPut (partBase s ptLADLE + 1024 * Cfg.LDPERS_BASE s (coW c)) (bytes.take 16384) s
  | .owner (.group g) _ (some r) => setGr s g r
  | .owner o p _ => modProf s o (fun _ => p)
  | .group g r => setGr s g r
  | .axis a x => modAx s a (fun y => { x with prof := if (parentOf s a).isNone then y.prof else x.prof })
  | .mover g r ms => forAll ms (fun q s => setAx s q.1 q.2) (setGr s g r)

/-- A unit of a slow block (R274): it carries no stamp and takes effect at once. -/
def isSlow (c : CopyContent) : Bool := (copyKey c).1 ≤ 1

/-- A copy unit is present: PROGRESS is the completed share (R274). -/
def noteUnit (q : Nat × Nat) (s : State) : State :=
  let s1 := modTwin (fun t => { t with units := q :: t.units.filter (· ≠ q) }) s
  let all := (copyUnits s1).length
  let here := ((copyUnits s1).filter (fun q => s1.twin.units.contains q)).length
  modTwin (fun t => { t with progress := (openDiv (100 * here) all).toNat }) s1

/-- TCOPY_RECEIVED (R274): a slow block takes effect; another unit that is complete by round S + 16 comes into step at the next
T0, when the rounds since S have been computed anew for it; a later one is discarded. -/
def tcopyReceived (u : CopyUnit) (s : State) : State :=
  if !(shadows s && s.twin.entry && u.complete && laneInUse s) then s
  else if isSlow u.content then noteUnit (copyKey u.content) (takeCopy u.content s)
  else if (s.sys.round - u.stamp).toNat ≤ 16 then
    modTwin (fun t => { t with arrived := t.arrived.filter (fun v => copyKey v.content ≠ copyKey u.content) ++ [u] }) s
  else s

/-- TCOPY_RECEIVED (R274). -/
def execTcopyReceived (u : CopyUnit) (s : State) : Host.Outcome State Fault Refusal := .next (tcopyReceived u s)

/-- The unit goes to ISOLATED with a cause (R263). -/
def isolate (c : Nat) (s : State) : State :=
  setHead .isolated { s with twin := { s.twin with cause := c, hbReq := false, hand := none }
                             sys := { s.sys with quietRounds := 0 } }

/-- A standby whose DIGRUN has reached DIGMAX (R272): the event, and a new entry, or ISOLATED for a second one within
600 s. A unit in LOCKED stays there (R263). -/
def twinMismatch (s : State) : State :=
  let again := match s.twin.reentry with
    | some t => decide (s.sys.ms - t ≤ 600000)
    | none => false
  let s1 := raise evTwinMismatch s
  if again && s.sys.hstate = .standby then isolate 5 (modTwin (fun t => { t with reentry := none }) s1)
  else startEntry (modTwin (fun t => { t with reentry := some s.sys.ms }) s1)

/-- The digests of round m differ (R272). -/
def digestDiffers (s : State) : State :=
  let s1 := modTwin (fun t => { t with digCnt := inc16 t.digCnt }) s
  if shadows s then
    if s.twin.entry then modTwin (fun t => { t with matched := 0 }) s1
    else
      let s2 := modTwin (fun t => { t with digRun := incSat 255 t.digRun }) s1
      if Cfg.TWCFG_DIGMAX s ≤ s2.twin.digRun then twinMismatch s2 else s2
  else if bit s.twin.peerHealth 30 then s1
  else
    let s2 := modTwin (fun t => { t with digRun := incSat 255 t.digRun }) s1
    if s2.twin.digRun = Cfg.TWCFG_DIGMAX s then raise evTwinMismatch s2 else s2

/-- ENTRY_COMPLETE (R275): every unit present and 16 matching digests. -/
def entryComplete (s : State) : State :=
  if s.twin.entry && decide (16 ≤ s.twin.matched) && copiesHere s then
    raise evEntryComplete (modTwin (fun t => { t with entry := false, txq := none, progress := 100 }) s)
  else s

/-- The digests of round m agree (R272, R275). -/
def digestAgrees (s : State) : State :=
  entryComplete (modTwin (fun t => { t with digRun := 0, matched := if t.entry then t.matched + 1 else t.matched }) s)

/-- A shadow entry is in progress, here or at the peer, and lacks a copy unit (R272): the active unit sees it in the peer's
PROGRESS. -/
def entryLacks (s : State) : Bool :=
  (s.twin.entry && !copiesHere s) || (driving s && bit s.twin.peerHealth 30 && decide (bits s.twin.peerHealth 7 0 < 100))

/-- TDIG_RECEIVED (R272): compared in round m + 1, in an entry once every copy unit is present. -/
def tdigReceived (r : LaneSlot) (s : State) : State :=
  match laneTake s twTDIG r with
  | some p =>
    let m := BitVec.ofNat 32 (beNat p 0 4)
    let d := beNat p 4 8
    if !(driving s || shadows s) || entryLacks s then s
    else if s.twin.ownDig = some (m, d) then digestAgrees s
    else if s.twin.ownDig.map Prod.fst = some m then digestDiffers s
    else s
  | none => s

/-- TDIG_RECEIVED (R272). -/
def execTdigReceived (r : LaneSlot) (s : State) : Host.Outcome State Fault Refusal := .next (tdigReceived r s)

/-- TXQ_RECEIVED (R275): during shadow entry the active unit's sums stand for the unit's own. -/
def txqReceived (r : LaneSlot) (s : State) : State :=
  match laneTake s twTXQ r with
  | some p => if s.twin.entry then entryComplete (modTwin (fun t => { t with txq := some (Config.txqValues p) }) s) else s
  | none => s

/-- TXQ_RECEIVED (R275). -/
def execTxqReceived (r : LaneSlot) (s : State) : Host.Outcome State Fault Refusal := .next (txqReceived r s)

/-- What the owning chapter does when a channel other than the twin lane returns to IN_USE (R114, R117, R127, R254). -/
def inUseAgain (cls idx : Nat) (s : State) : State :=
  if cls = clsStage then
    modStage (setCause idx 0x13 false s) idx (fun g =>
      let g1 := if g.diagAtEnd && g.seq = .idle then { startSeq .diag g with diagAtEnd := false, diagThen := g.diagThen } else g
      if g1.retryAtEnd then { g1 with retryAtEnd := false, retryReady := true } else g1)
  else if cls = clsSdi then checkDetection s
  else if cls = clsChannel then modCh s idx (fun c => { c with lost := false, noReturn := 0 })
  else s

/-- What an adopted state of a retire channel changes: the standby sees the end of a backoff, a retirement and the loss of
detection as the active unit has seen them (R36, R127, R131). -/
def adoptEffect (cls idx : Nat) (old : RetState) (s : State) : State :=
  let new := (getRet s cls idx).st
  if old = .backoff ∧ new = .inUse then inUseAgain cls idx s
  else if old ≠ .retired ∧ new = .retired then (if cls = clsSdi then checkDetection s else retireEffect cls idx s)
  else if cls = clsSdi then checkDetection s
  else s

/-- One adopted retire record (R36). -/
def takeRet (q : Nat × Nat × List Nat × Nat) (s : State) : State :=
  let cls := q.1 / 256
  if retIndexOk cls (q.1 % 256) && cls ≠ clsTwin && cls ≠ clsCascade then
    let st : RetState := if q.2.1 = 0 then .inUse else if q.2.1 = 1 then .backoff else .retired
    let old := getRet s cls (q.1 % 256)
    adoptEffect cls (q.1 % 256) old.st (setRet s cls (q.1 % 256) { old with st := st, stamps := q.2.2.1, backoff := q.2.2.2 })
  else s

/-- TRET_RECEIVED (R36): the standby adopts the active unit's states, stamps and backoffs; twin-lane and cascade-lane
channels stay each unit's own. -/
def tretReceived (r : LaneSlot) (s : State) : State :=
  match laneTake s twTRET r with
  | some p => if shadows s then forAll (Config.tretRecords p) takeRet s else s
  | none => s

/-- TRET_RECEIVED (R36). -/
def execTretReceived (r : LaneSlot) (s : State) : Host.Outcome State Fault Refusal := .next (tretReceived r s)

/-- TLINK_RECEIVED (R250, R251, R264): the peer's report of the broken segment, and its unwrap order. -/
def tlinkReceived (r : LaneSlot) (s : State) : State :=
  match laneTake s twTLINK r with
  | some p =>
    let c := Config.tlinkContent p
    let s1 := { s with link := { s.link with segReport := c.1 } }
    if pairRole s then s1
    else forAll (c.2.filter (fun ch => ch < 2 && (getCh s ch).wrapPort.isSome)) (fun ch s => modCh s ch (fun x => { x with unwrapping := true })) s1
  | none => s

/-- TLINK_RECEIVED (R264). -/
def execTlinkReceived (r : LaneSlot) (s : State) : Host.Outcome State Fault Refusal := .next (tlinkReceived r s)

/-! ### Lease (R265 to R268, R276, R313) -/

/-- The first round with h mod 16 = 0 and h ≥ q + 4 (R276). -/
def grantRound (q : Word) : Word :=
  let n := (q + 4).toNat
  BitVec.ofNat 32 ((n + 15) / 16 * 16)

/-- The active unit grants round h; of two in one round the earlier stands (R276, R286). -/
def grant (s : State) : State :=
  let h := grantRound s.sys.round
  modTwin (fun t => { t with hand := match t.hand with
    | some x => if later x h then some h else some x
    | none => some h }) s

/-- Steering (R266): the unit's own T0 minus the peer's from the two arrivals, 0.25 ns. -/
def steer (t1 t2 : Int) (s : State) : State :=
  let o := openDiv (t2 - t1) 2
  let follows := s.sys.hstate = .standby || s.sys.hstate = .isolated || s.sys.hstate = .listen
  { s with twin := { s.twin with ofs := o }, sys := { s.sys with phase := if follows then some o else s.sys.phase } }

/-- A standby follows an active peer's lock-out at the next T0, and is freed when the peer has left LOCKED (R313). -/
def peerLock (st : Nat) (sagOk : Bool) (s : State) : State :=
  if (st = 3 || st = 5) && !sagOk && s.sys.hstate = .standby then
    if s.sag.standing.contains (12, 0) then s else foundCause 12 0 s
  else if shadows s && (st = 3 || st = 5) && sagOk then clearCause (fun q => q.1 = 12) s
  else s

/-- The peer's state, and of a LOCKED peer the state it left (R263, R280). -/
def peerState (t : Twin) (st : Nat) : Nat := if st = 7 then t.peerFrom else st

/-- TLEASE_RECEIVED (R265). A LOCKED peer keeps the lease of the state it left (R263). What the unit that holds the pair role
knows of CFGOK is what its peer has found (DEDUCED, log 11). -/
def tleaseReceived (r : LaneSlot) (s : State) : State :=
  match laneTake s twTLEASE r with
  | some p =>
    let st := beNat p 6 1 / 32
    let b6 := beNat p 6 1
    let health := BitVec.ofNat 32 (beNat p 8 4)
    let hb := beNat p 14 2
    let h := s.sys.round + BitVec.ofNat 32 ((hb + 65536 - s.sys.round.toNat % 65536) % 65536)
    let s1 := modTwin (fun t => { t with
      sinceLease := 0, renewed := t.renewed || peerState t st = 3 || peerState t st = 5, arr := wrapInt 16 r.arrival
      peerSt := st, peerFrom := peerState t st, peerHbReq := b6.testBit 3, peerHealth := health
      peerGrant := if b6.testBit 2 then some h.toNat else none
      cfgEq := if pairRole s then bit health 28 else t.cfgEq, gradeEq := if pairRole s then bit health 28 else t.gradeEq }) s
    let s2 := peerLock st (bit health 29) (steer r.arrival (signedN 16 (beNat p 12 2)) s1)
    if s2.sys.hstate = .active && isAlt s2 && s2.twin.peerHbReq && !s2.twin.hbinh then grant s2
    else if s2.sys.hstate = .standby && s2.twin.peerGrant.isSome && tkok s2 then modTwin (fun t => { t with hbReq := true }) s2
    else s2
  | none => s

/-- TLEASE_RECEIVED (R265). -/
def execTleaseReceived (r : LaneSlot) (s : State) : Host.Outcome State Fault Refusal := .next (tleaseReceived r s)

/-- The present round is silent so far (R267). -/
def silentNow (s : State) : Bool := !s.twin.renewed && !s.sys.markSeen

/-- A new active unit: a brake test ends, subscribers and SSEQ start anew with the epoch (R281, R314, R403). At a takeover
it discards the commands that were not committed; in a handback the old active unit still commits those of round h (R286). -/
def newActive (takeover : Bool) (s : State) : State :=
  testEnd 3 (modTwin (fun t => { t with stored := if takeover then [] else t.stored, partBody := [], hbReq := false, hand := none, peerGrant := none, silent := 0 })
    { s with host := { s.host with subs := s.host.subs.map (fun q => (q.1, q.2.map (fun b => { b with raised := 0 }))) } })

/-- The standby takes over (R267), at the T0 that ends the last silent round: epoch + 1, and the heal of R251 in force on every
channel. The round of the change is the one that begins (R287). -/
def takeOver (s : State) : State :=
  let s1 := setEpoch ((s.sys.epoch + 1) % 65536) (newActive true s)
  let s2 := startLoading (becomeActive .active (modTwin (fun t => { t with takeovers := inc16 t.takeovers }) s1))
  storedLock (forAll (chansOn s2) (fun ch s => modCh s ch (fun c => { c with
    heal := true, healTake := true, hseg := none, noReturn := 0, checkNext := true })) (modTwin (fun t => { t with lastRnd := s.sys.round + 1 }) s2))

/-- T0 of the round after LEASE_EXPIRY (R267). -/
def takeoverRound (s : State) : State :=
  if s.twin.takeNext then
    let s1 := modTwin (fun t => { t with takeNext := false }) s
    if s.sys.hstate = .standby then takeOver s1 else s1
  else s

/-- LEASE_EXPIRY (R267): after LEASE silent rounds the standby takes over at the next T0, or enters LISTEN. -/
def leaseExpiry (s : State) : State :=
  if s.sys.hstate ≠ .standby ∨ !silentNow s ∨ s.twin.silent + 1 < Cfg.TWCFG_LEASE s then s
  else if s.twin.tkokLast then modTwin (fun t => { t with takeNext := true }) s
  else enterListen 64 88 s

/-- LEASE_EXPIRY (R267). -/
def execLeaseExpiry (s : State) : Host.Outcome State Fault Refusal := .next (leaseExpiry s)

/-- TWIN_LINK_LOST (R268): the lane has been lost, and a MARK of the own CHEAD is still accepted in a round that starts
after the loss. -/
def twinLinkLost (s : State) : State :=
  if s.sys.hstate = .standby && !laneUp s && s.sys.markSeen && (s.twin.locked || s.twin.lostAt ≠ s.sys.round) then
    isolate 1 (raise evTwinLinkLost (modTwin (fun t => { t with tll := true }) s))
  else s

/-- TWIN_LINK_LOST (R268). -/
def execTwinLinkLost (s : State) : Host.Outcome State Fault Refusal := .next (twinLinkLost s)

/-- TWIN_LANE_LOSS_OF_LOCK (R268, R286): a twin-lane transient; a handshake under way is void. A standby judges no loss in a
silent round (R267). -/
def laneLoss (s : State) : State :=
  let s1 := modTwin (fun t => { t with
    locked := false, lostAt := s.sys.round, sinceLease := 3, hand := none, peerGrant := none, hbReq := false, partBody := [] }) s
  if s.sys.hstate = .standby && silentNow s && decide (0 < s.twin.silent) then s1 else transient clsTwin 0 s1

/-- TWIN_LANE_LOSS_OF_LOCK (R268). -/
def execTwinLaneLossOfLock (s : State) : Host.Outcome State Fault Refusal := .next (laneLoss s)

/-- An ISOLATED unit with CAUSE 1 goes to LISTEN once the lane is in use and locked (R263). -/
def isoRejoin (s : State) : State :=
  if s.sys.hstate = .isolated && s.twin.cause = 1 && s.twin.locked && (getRet s clsTwin 0).st = .inUse then
    enterListen 64 88 (modTwin (fun t => { t with tll := false, cause := 0 }) s)
  else s

/-- TWIN_LANE_LOCKED (R263). -/
def execTwinLaneLocked (s : State) : Host.Outcome State Fault Refusal :=
  .next (isoRejoin (modTwin (fun t => { t with locked := true }) s))

/-- ISOLATED_TIMEOUT (R263): LEASE rounds without a MARK of the own CHEAD. -/
def isolatedTimeout (s : State) : State :=
  if s.sys.hstate = .isolated ∧ Cfg.TWCFG_LEASE s ≤ s.sys.quietRounds then enterListen 64 88 s else s

/-- ISOLATED_TIMEOUT (R263). -/
def execIsolatedTimeout (s : State) : Host.Outcome State Fault Refusal := .next (isolatedTimeout s)

/-! ### Handback and yield (R263, R276, R277) -/

/-- The standing conditions of a handback request (R276). -/
def hbStanding (s : State) : Bool :=
  !isAlt s && s.sys.hstate = .standby && tkok s && !s.twin.entry && !s.twin.hbinh

/-- HBREQ (R276): the conditions have stood for TWHOLDOFF seconds. -/
def hbreq (s : State) : State :=
  if hbStanding s && decide (1000 * Cfg.TWHOLDOFF_HOLDOFF s ≤ s.twin.holdMs) then modTwin (fun t => { t with hbReq := true }) s
  else s

/-- HBREQ (R276). -/
def execHbreq (s : State) : Host.Outcome State Fault Refusal := .next (hbreq s)

/-- Change the commands on their way. -/
def modWaiting (f : List HostCmd → List HostCmd) (s : State) : State := { s with host := { s.host with waiting := f s.host.waiting } }

/-- A unit that stops being active drops the commands it has forwarded without a confirmation: the host sends them again
(R281). -/
def dropUnsure (s : State) : State :=
  modTwin (fun t => { t with outq := [] }) (modWaiting (List.filter (fun c => c.ok || !c.fwd)) s)

/-- HANDBACK_ROUND (R276): at T0 of round h, before anything of that round leaves. The active unit stops if the peer's
TLEASE of round h − 1 still carried HBREQ; the standby starts, with epoch + 1, if it carried HBGRANT naming h. -/
def handbackRound (s : State) : State :=
  let h := s.sys.round + 1
  let fresh := decide (s.twin.sinceLease = 0) && laneInUse s
  if s.sys.hstate = .active && s.twin.hand = some h then
    if fresh && s.twin.peerHbReq then
      testEnd 3 (setHead .standby (dropUnsure (modTwin (fun t => { t with
        hand := none, entry := false, handbacks := inc16 t.handbacks, silent := 0, peerHbReq := false, lastRnd := h }) (raise evActiveChanged s))))
    else modTwin (fun t => { t with hand := none }) s
  else if s.sys.hstate = .standby && s.twin.hbReq && s.twin.peerGrant = some h.toNat && fresh then
    let s1 := setEpoch ((s.sys.epoch + 1) % 65536) (newActive false s)
    let s2 := becomeActive .handback (modTwin (fun t => { t with handbacks := inc16 t.handbacks }) s1)
    forAll (chansOn s2) (fun ch s => modCh s ch (fun c => { c with checkNext := true })) { s2 with twin := { s2.twin with lastRnd := h } }
  else s

/-- HANDBACK_ROUND (R276). -/
def execHandbackRound (s : State) : Host.Outcome State Fault Refusal := .next (handbackRound s)

/-- HANDBACK_END (R239, R263): 16 rounds of HANDBACK. -/
def handbackEnd (s : State) : State :=
  if s.sys.hstate = .handback && decide (Config.startRounds ≤ s.sys.stateRounds) then
    storedLock (startLoading (setHead .active s))
  else s

/-- HANDBACK_END (R263). -/
def execHandbackEnd (s : State) : Host.Outcome State Fault Refusal := .next (handbackEnd s)

/-- YIELD (R277): the active unit grants towards a peer whose TKOK is 1; its standby, which has the command from the
pair, answers the grant. A YIELD to the preferred unit inhibits handback. -/
def yieldCmd (s : State) : Option State :=
  if s.sys.hstate = .active && laneUp s && bit s.twin.peerHealth 31 then
    some (grant (modTwin (fun t => { t with hbinh := t.hbinh || !isAlt s }) s))
  else if s.sys.hstate = .standby && tkok s then
    some (modTwin (fun t => { t with hbReq := true, hbinh := t.hbinh || isAlt s }) s)
  else none

/-- REJOIN (R263, R277). -/
def rejoinCmd (s : State) : Option State :=
  if s.sys.hstate = .isolated then some (enterListen 64 88 (modTwin (fun t => { t with cause := 0, tll := false }) s)) else none

/-- INHIBIT and ALLOW (R277). -/
def inhibitCmd (v : Bool) (s : State) : Option State :=
  some (modTwin (fun t => { t with hbinh := v, hbReq := t.hbReq && !v }) s)

/-- A TWCMD command (R287); none where it does not fit the present state (R277). -/
def twCommand (c : Nat) (s : State) : Option State :=
  match c with
  | 1 => yieldCmd s
  | 2 => rejoinCmd s
  | 3 => inhibitCmd true s
  | 4 => inhibitCmd false s
  | _ => none

/-- A TWCMD write: a command that does not fit is a refused write. -/
def twAct (c : Nat) (s : State) : State := (twCommand c s).getD (refuseWrite s)

/-- The address of TWCMD. -/
def aTWCMD : Nat := 0x4040001C

/-- YIELD (R277). -/
def execYield (m : Master) (s : State) : Host.Outcome State Fault Refusal := .next (withRight m aTWCMD (twAct 1) s)
/-- REJOIN (R277). -/
def execRejoin (m : Master) (s : State) : Host.Outcome State Fault Refusal := .next (withRight m aTWCMD (twAct 2) s)
/-- INHIBIT (R277). -/
def execInhibit (m : Master) (s : State) : Host.Outcome State Fault Refusal := .next (withRight m aTWCMD (twAct 3) s)
/-- ALLOW (R277). -/
def execAllow (m : Master) (s : State) : Host.Outcome State Fault Refusal := .next (withRight m aTWCMD (twAct 4) s)

/-! ### Host commands across the pair (R279 to R281) -/

/-- A standby to which commands are forwarded: reached over the lane and shadowing (R279, R280). -/
def shadowPeer (s : State) : Bool := Cfg.TWCFG_EN s && laneUp s && peerState s.twin s.twin.peerSt = 4

/-- A usable standby (R280): its shadow entry is over. -/
def usableStandby (s : State) : Bool := shadowPeer s && !bit s.twin.peerHealth 30

/-- The command body: opcode, length and payload as in the frame (R264, R389). -/
def cmdBody (c : HostCmd) : List Byte :=
  beBytes 2 c.op ++ beBytes 2 (4 * c.pl.length) ++ c.pl.flatMap (fun w => beBytes 4 w.toNat)

/-- Number of a sender's source in TCMD (R264). -/
def sourceNo : Sender → Nat
  | .udp _ _ _ _ => 0
  | .spi => 1
  | .core => 2

/-- The pieces of a command body, 248 bytes in each TCMD (R264). -/
def cmdPieces : Nat → List Byte → List (List Byte)
  | 0, _ => []
  | n + 1, l => if l.length ≤ 248 then [l] else l.take 248 :: cmdPieces n (l.drop 248)

/-- Forward a command as TCMD (R279): its slots wait for their place in the stream (R264). -/
def forward (seq : Word) (src : Nat) (body : List Byte) (s : State) : State :=
  let ps := cmdPieces 8 body
  modTwin (fun t => { t with outq := t.outq ++ (List.range ps.length).map (fun i =>
    (seq, beBytes 4 seq.toNat ++ beBytes 1 src ++ beBytes 1 (b2n (i + 1 < ps.length)) ++ beBytes 2 0 ++ nth [] ps i)) }) s


/-- TCMD_RECEIVED (R279): the standby stores the command and confirms it in the next round. The address of an Ethernet
sender does not travel with it (log 1). -/
def tcmdReceived (r : LaneSlot) (s : State) : State :=
  match laneTake s twTCMD r with
  | some p =>
    if !shadows s then s
    else
      let body := s.twin.partBody ++ p.drop 8
      if (beNat p 5 1).testBit 0 then modTwin (fun t => { t with partBody := body }) s
      else
        let seq := BitVec.ofNat 32 (beNat p 0 4)
        let snd : Sender := if beNat p 4 1 = 1 then .spi else if beNat p 4 1 = 2 then .core
          else .udp (freeW s) (Config.freeNat s.free % 65536) (Config.freeNat (s.free + 1) % 281474976710656) .pair
        let c : HostCmd := { snd := snd, seq := seq, op := beNat body 0 2, pl := beWords ((body.drop 4).take (beNat body 2 2)),
                             round := s.sys.round, fwd := true, ok := false }
        modTwin (fun t => { t with partBody := [], stored := t.stored ++ [c], confirmed := t.confirmed ++ [seq] }) s.tick.tick
  | none => s

/-- TCMD_RECEIVED (R279). -/
def execTcmdReceived (r : LaneSlot) (s : State) : Host.Outcome State Fault Refusal := .next (tcmdReceived r s)

/-- TCONF_RECEIVED (R279): the active unit accepts each confirmed command in the next round. -/
def tconfReceived (r : LaneSlot) (s : State) : State :=
  match laneTake s twTCONF r with
  | some p =>
    let seqs := beWords p
    modWaiting (List.map (fun c => if c.fwd && !c.ok && seqs.contains c.seq then { c with ok := true, round := s.sys.round + 1 } else c)) s
  | none => s

/-- TCONF_RECEIVED (R279). -/
def execTconfReceived (r : LaneSlot) (s : State) : Host.Outcome State Fault Refusal := .next (tconfReceived r s)

/-- A twin-lane transient makes a handshake void (R286). -/
def voidHand (s : State) : State := modTwin (fun t => { t with hand := none, peerGrant := none, hbReq := false }) s

/-- TCONF_TIMEOUT (R279, R286): 4 rounds after forwarding, a twin-lane transient, and the command is accepted alone. The next
TCOMMIT lists it, so that a standby that lacks it enters anew (R281). -/
def tconfTimeout (seq : Word) (s : State) : State :=
  let late := fun (c : HostCmd) => c.seq = seq && c.fwd && !c.ok && !s.twin.outq.any (fun q => q.1 = seq)
    && decide (4 ≤ (s.sys.round - c.round).toNat)
  if s.host.waiting.any late then
    transient clsTwin 0 (voidHand <| modWaiting (List.map (fun c => if late c then { c with ok := true, round := s.sys.round + 1 } else c)) s)
  else s

/-- TCONF_TIMEOUT (R279). -/
def execTconfTimeout (seq : Word) (s : State) : Host.Outcome State Fault Refusal := .next (tconfTimeout seq s)

/-- The unit takes commits: it shadows, or has become active in this round of a handback (R279, R286). -/
def takesCommits (s : State) : Bool := shadows s || (s.sys.hstate = .handback && s.twin.lastRnd = s.sys.round)

/-- TCOMMIT_RECEIVED (R279): a count, then the sequence numbers accepted in this round. The standby acts on those it
holds; an unknown one restarts its shadow entry. -/
def tcommitReceived (r : LaneSlot) (s : State) : State :=
  match laneTake s twTCOMMIT r with
  | some p =>
    if !takesCommits s then s
    else
      let ws := beWords p
      let seqs := (ws.drop 1).take (nth 0#32 ws 0).toNat
      forAll seqs (fun q s =>
        match s.twin.stored.find? (fun c => c.seq = q) with
        | some c =>
          let x : HostCmd := { c with ok := true, round := s.sys.round }
          modWaiting (fun l => l ++ [x]) (modTwin (fun t => { t with
            stored := t.stored.filter (fun c => c.seq ≠ q), committed := t.committed ++ [x] }) s)
        | none => if shadows s then startEntry s else s) s
  | none => s

/-- TCOMMIT_RECEIVED (R279). -/
def execTcommitReceived (r : LaneSlot) (s : State) : Host.Outcome State Fault Refusal := .next (tcommitReceived r s)

/-! ### Cascade (R282 to R285) -/

/-- The unit is a slave of a cascade (R282). -/
def cascSlave (s : State) : Bool := Cfg.CSCFG_EN s && !masterPair s

/-- The cascade unit takes a state (CSSTAT.STATE) and raises the event of a change. -/
def setCasc (st : Nat) (s : State) : State :=
  if s.casc.st = st then s else raise evCascade (modCasc (fun c => { c with st := st }) s)

/-- The cascade lane is retired: no time base and no remote following (R284). -/
def cascRetired (s : State) : Bool := isRetired s clsCascade 0

/-- What reaches the cascade lane is repeated from reset release on, in every state; the unit's own slots, which it sends once it
has left BOOT, become idle (R284). -/
def repeatCasc (r : LaneSlot) (s : State) : State :=
  let id := rxHdr r.bytes / 16
  if s.sys.inReset then s
  else if s.sys.hstate ≠ .boot && id / 512 % 8 = Cfg.CSCFG_CHEAD s && id.testBit 8 = isAlt s then s else send (.cascadeRep r.bytes) s

/-- CMARK_RECEIVED (R283, R284): the round number for a slave whose rings have not run, else the check of RNDERR. -/
def takeCmark (r : LaneSlot) (s : State) : State :=
  if !cascSlave s || s.sys.hstate = .boot || r.codeErr || cascRetired s then s
  else if !rxCrcOk 6 r.bytes then modCasc (fun c => { c with crcErr := inc16 c.crcErr }) s
  else if rxHdr r.bytes % 16 ≠ 1 then s
  else
    let p := rxPayload r.bytes
    let n := BitVec.ofNat 32 (beNat p 0 4)
    let s1 := modCasc (fun c => { c with cmark := some n, cepoch := beNat p 4 2, locked := true, rndErr := false }) s
    if s.casc.st = 1 ∧ s.sys.hstate = .listen ∧ !s.sys.roundRan then { s1 with sys := { s1.sys with round := n, roundRan := true } }
    else modCasc (fun c => { c with rndErr := decide (n ≠ s.sys.round) }) s1

/-- CMARK_RECEIVED (R284): repeated and taken. -/
def cmarkReceived (r : LaneSlot) (s : State) : State := takeCmark r (repeatCasc r s)

/-- CMARK_RECEIVED (R284). -/
def execCmarkReceived (r : LaneSlot) (s : State) : Host.Outcome State Fault Refusal := .next (cmarkReceived r s)

/-- The listen timer starts once the wait for the time base is over (R236, R283). -/
def startTimer (s : State) : State :=
  if s.sys.hstate = .listen then { s with sys := { s.sys with listenTimer := if isAlt s then 88 else 64 } } else s

/-- CSYNC_EDGE (R283, R288): the edge against the unit's own T0. A waiting slave sets its T0 from it; a driving one
steers, and is SYNCED after 16 rounds within ±5 ns. -/
def csyncEdge (ofs : Int) (s : State) : State :=
  if !cascSlave s || s.sys.hstate = .boot || cascRetired s then s
  else
    let o := (Cfg.CSDLY_DLY s : Int) - ofs
    let near := decide (o.natAbs ≤ 20)
    if s.casc.st = 1 then
      if s.casc.cmark.isSome then
        startTimer (setCasc 2 (modCasc (fun c => { c with offs := 0, noSync := 0, inRange := 0 }) s))
      else modCasc (fun c => { c with noSync := 0 }) s
    else
      let run := if near then incSat 16 s.casc.inRange else 0
      let s1 := modCasc (fun c => { c with offs := clampInt (-32768) 32767 o, noSync := 0, inRange := run }) s
      let s2 := if driving s then { s1 with sys := { s1.sys with phase := some o } } else s1
      setCasc (if run = 16 then 3 else 2) s2

/-- CSYNC_EDGE (R283). -/
def execCsyncEdge (ofs : Int) (s : State) : Host.Outcome State Fault Refusal := .next (csyncEdge ofs s)

/-- CSYNC_LOST (R283): 16 rounds without an edge. -/
def csyncLost (s : State) : State :=
  if cascSlave s && decide (2 ≤ s.casc.st) && decide (16 ≤ s.casc.noSync) then setCasc 4 s else s

/-- CSYNC_LOST (R283). -/
def execCsyncLost (s : State) : Host.Outcome State Fault Refusal := .next (csyncLost s)

/-- CWAIT_EXPIRY (R283): no time base within CWAIT seconds. -/
def cwaitExpiry (s : State) : State :=
  if s.casc.st = 1 && decide (Cfg.CSCFG_CWAIT s ≠ 0) && decide (1000 * Cfg.CSCFG_CWAIT s ≤ s.casc.waitMs) then
    startTimer (setCasc 4 s) else s

/-- CWAIT_EXPIRY (R283). -/
def execCwaitExpiry (s : State) : Host.Outcome State Fault Refusal := .next (cwaitExpiry s)

/-- A retired cascade lane: FREE, and nothing is followed any more (R284). -/
def cascOff (s : State) : State :=
  if cascRetired s && Cfg.CSCFG_EN s then setCasc 4 (modCasc (fun c => { c with exports := [], cmark := none }) s) else s

/-- CASCADE_LANE_LOSS (R284). -/
def execCascadeLaneLoss (s : State) : Host.Outcome State Fault Refusal :=
  .next (cascOff (transient clsCascade 0 (modCasc (fun c => { c with locked := false }) s)))

/-- The export a CXP carries (R285): state at T0 of its tick, entries r to r + 2, and the state after them. -/
def exportOf (p : List Byte) : Export :=
  let k : Kin := { p := signedN 96 (beNat p 0 12), v := signedN 64 (beNat p 12 8), a := signedN 64 (beNat p 20 8) }
  let j := fun i => signedN 32 (beNat p (28 + 4 * i) 4)
  let k1 := kinStep k (j 0)
  let k2 := kinStep k1 (j 1)
  { tick := BitVec.ofNat 32 (beNat p 40 4), kin0 := k, entries := [kinOut k (j 0), kinOut k1 (j 1), kinOut k2 (j 2)],
    kin := kinStep k2 (j 2), valid := true }

/-- Some remote GEAR group follows the export of this key (R187). -/
def followed (s : State) (key : Nat) : Bool := (groupsOf s).any (fun g => isRemote s g && exportKey s g = key)

/-- CXP_RECEIVED (R285): a slot that is not accepted is missing at the derivation. -/
def takeCxp (r : LaneSlot) (s : State) : State :=
  if !Cfg.CSCFG_EN s || s.sys.hstate = .boot || r.codeErr || cascRetired s then s
  else if !rxCrcOk 48 r.bytes then modCasc (fun c => { c with crcErr := inc16 c.crcErr }) s
  else
    let h := rxHdr r.bytes
    let x := exportOf (rxPayload r.bytes)
    let key := h / 8192 % 8 * 8 + h / 16 % 8
    if h % 16 ≠ 2 ∨ s.casc.rndErr ∨ rxSeq r.bytes ≠ s.sys.round.toNat % 256 ∨ x.tick ≠ s.sys.round ∨ !followed s key then s
    else if 2500 < r.clk then modCasc (fun c => { c with late := inc16 c.late }) s
    else modCasc (fun c => { c with exports := tset c.exports key x, locked := true }) s

/-- CXP_RECEIVED (R284): repeated and taken. -/
def cxpReceived (r : LaneSlot) (s : State) : State := takeCxp r (repeatCasc r s)

/-- CXP_RECEIVED (R285). -/
def execCxpReceived (r : LaneSlot) (s : State) : Host.Outcome State Fault Refusal := .next (cxpReceived r s)

/-- A cascade slave that enters LISTEN before its rings have run waits for the time base (R236, R283). -/
def cascListen (s : State) : State :=
  if cascSlave s && s.sys.hstate = .listen && !s.sys.roundRan && s.casc.st = 0 then
    setCasc (if cascRetired s then 4 else 1) (modCasc (fun c => { c with waitMs := 0 }) s)
  else s

end Sys2Proof.Machine
end

