-- ==== Sys2Proof/Machine/RetireCmd.lean ====
section
/-! DEFINITION. The retire block's own rows (R32, R34, R35, R37): the end of a backoff and the release. -/

namespace Sys2Proof.Machine

/-- What the owning chapter does when a channel returns to IN_USE (R114, R117, R127, R254, R263). -/
def backoffEffect (cls idx : Nat) (s : State) : State := if cls = clsTwin then isoRejoin s else inUseAgain cls idx s

/-- BACKOFF_END (R32): a channel whose backoff has run out is in use again. -/
def backoffEnd (cls idx : Nat) (s : State) : State :=
  let c := getRet s cls idx
  if c.st = .backoff ∧ c.backoff = 0 then backoffEffect cls idx (setRet s cls idx { c with st := .inUse }) else s

/-- BACKOFF_END (R32). -/
def execBackoffEnd (cls idx : Nat) (s : State) : Host.Outcome State Fault Refusal := .next (backoffEnd cls idx s)

/-- A released node slot starts in LOADING (R239). -/
def nodeRelease (n : Nat) (s : State) : State :=
  let s1 := forAll (nodeAxes s n) (fun a => setCause a 0x05 false) s
  forAll (chansOn s1) (fun ch s =>
    if (nodesOn s ch).contains n then modNode s ch n (fun _ => { st := 1, countAt := s.sys.round }) else s) s1

/-- The release of a channel and what follows from it (R34, R35). -/
def releaseCore (cls idx : Nat) (s : State) : State :=
  let s1 := releaseEffect cls idx (release cls idx s)
  if cls = clsNode then nodeRelease idx s1
  else if cls = clsTwin then isoRejoin s1
  else if cls = clsChannel then modCh s1 idx (fun c => { c with lost := false, noReturn := 0 })
  else s1

/-- A release of a channel that is not retired has no effect; the transients of the same round come after the release, so
they start a new count at 1, and a channel that one of them has retired stays retired (R35). -/
def releaseChannel (cls idx : Nat) (s : State) : State :=
  let k := retKey cls idx
  if !isRetired s cls idx || s.ret.fresh.contains k then s
  else forAll (s.ret.late.filter (fun q => q = k)) (fun _ => transient cls idx)
    (releaseCore cls idx { s with ret := { s.ret with late := s.ret.late.filter (fun q => q ≠ k) } })

/-- Selector of a master (R37). -/
def rtSel (s : State) (m : Master) : Word := tget 0#32 s.ret.sel (masterNo m)

/-- The address of RTREL. -/
def aRTREL : Nat := 0x40010408

/-- A write of RTREL (R35, R37). -/
def rtrelWrite (m : Master) (w : Word) (s : State) : State :=
  withRight m aRTREL (keyed w (fun s =>
    if bit w 0 then releaseChannel (bits (rtSel s m) 18 16) (bits (rtSel s m) 7 0) s else s)) s

/-- RTREL_GO (R35). -/
def execRtrelGo (m : Master) (w : Word) (s : State) : Host.Outcome State Fault Refusal := .next (rtrelWrite m w s)

end Sys2Proof.Machine
end

