-- ==== Sys2Proof/Machine/Recorder.lean ====
section
/-! DEFINITION. The lifetime recorder (R317 to R334): samples, histograms, cones and the exceedance list in SRAM, saves and
stamps in flash, and clearing under the maintenance password. -/

namespace Sys2Proof.Machine

/-- Change the recorder's record. -/
def modRcd (f : Recorder → Recorder) (s : State) : State := { s with rcd := f s.rcd }

/-! ### Flash (R364) -/

/-- n bytes of flash; an unlisted byte is erased. -/
def flashRead (s : State) (a n : Nat) : List Byte := mread 0xFF s.boot.flash a n
/-- The little-endian word of flash at an address. -/
def flashWord (s : State) (a : Nat) : Word := BitVec.ofNat 32 (leNat (flashRead s a 4) 0 4)
/-- A block of bytes in flash. -/
def flashPut (a : Nat) (bs : List Byte) (s : State) : State :=
  { s with boot := { s.boot with flash := mblock 0xFF s.boot.flash a bs } }
/-- Erase n bytes of flash from an address. -/
def flashErase (a n : Nat) (s : State) : State := { s with boot := { s.boot with flash := merase s.boot.flash a n } }
/-- Words as little-endian bytes. -/
def wordBytes (ws : List Word) : List Byte := ws.flatMap (fun w => leBytes 4 w.toNat)
/-- Words with the CRC-32 of R215 over them behind. -/
def withCrc (ws : List Word) : List Word := ws ++ [BitVec.ofNat 32 (crc32 (wordBytes ws))]

/-! ### The working copy (R325) -/

/-- First byte of list entry i. -/
def listAddr (s : State) (i : Nat) : Nat := recAddr s (0x8000 + i * 0x10)

/-- Word 0 with its change counter stepped; INVALID stands, or is cleared. -/
def chgStep (clear : Bool) (w : Word) : Word := packWord [(31, 31, b2n (bit w 31 && !clear)), (15, 0, bits w 15 0 + 1)]

/-- The words of an empty cone behind word 0 (R321). -/
def coneEmpty : List Word := [fPosInf, 0#32, 0#32, fNegInf, 0#32, 0#32]

/-- Empty histogram q: bins 0, CHG stepped, INVALID clear (R332). -/
def clearHist (q : Nat) (s : State) : State :=
  memPut (histAddr s q) (wordBytes (chgStep true (memWord s (histAddr s q)) :: List.replicate 32 0#32)) s
/-- Empty cone c (R332). -/
def clearCone (c : Nat) (s : State) : State :=
  memPut (coneAddr s c) (wordBytes (chgStep true (memWord s (coneAddr s c)) :: coneEmpty)) s

/-! ### Samples (R318 to R323) -/

/-- A HEAD quantity (R318). -/
def headQuantity (s : State) (i : Nat) : F32 :=
  if i = 0 then fDiv (fOfInt s.sys.tj) (fOfInt 16)
  else if i = 1 then fDiv (fOfInt s.sys.spCore) (fOfInt 1000)
  else if i = 2 then fDiv (fOfInt s.sys.spAon) (fOfInt 1000)
  else if i = 3 then tget 0 s.pdc 64
  else if i < 8 then fOfInt (tget ({} : Cluster) s.clusters (i - 4)).loadLast
  else sdVal s (i - 8)

/-- An AXIS quantity of the last completed computation (R24, R86). -/
def axisSample (s : State) (a i : Nat) : F32 :=
  let q := axisShown s a
  let n := match (getAx q a).fb.hist with
    | (r, _) :: _ => r
    | [] => s.sys.round - 2
  axisQuantity ({ cellEnv q a n with sp := (getAx q a).prof.shown }) (loopPeriod s a) i

/-- The sample of a source word (R318, R319). -/
def recSource (s : State) (cls ax i : Nat) : F32 :=
  if cls = 1 then axisSample s ax i
  else if cls = 2 then headQuantity s i
  else memWord s (partBase s ptLADLE + 4 * i)

/-- A channel with this source word samples in the present round (R318, R319). -/
def recDue (s : State) (w : Word) : Bool :=
  bit w 31 && s.sys.round.toNat % 2 ^ bits w 27 24 = 0 &&
    (!bit w 30 || bits w 23 20 ≠ 1 || inMotionState s (bits w 18 12))

/-- Floor of 30·(x − lo)/(hi − lo), exactly, for lo ≤ x < hi (R320). -/
def histBin (x lo hi : F32) : Nat :=
  if fLt x lo then 0
  else if fLe hi x then 31
  else
    match fDecode x, fDecode lo, fDecode hi with
    | .fin nx mx ex, .fin nl ml el, .fin nh mh eh =>
      let b := min ex (min el eh)
      let d := fScaled nh mh eh b - fScaled nl ml el b
      1 + (min 29 ((30 * (fScaled nx mx ex b - fScaled nl ml el b)).fdiv d)).toNat
    | _, _, _ => 0

/-- A word counted up, saturating. -/
def incWord (w : Word) : Word := if w = 0xFFFFFFFF#32 then w else w + 1

/-- Word 0 of a record as the recorder reads it: one with a double-bit error holds a free value, marked INVALID (R30, R325). -/
def recHead (a : Nat) (s : State) : State :=
  if eccBad s (eccWord a) then
    let r := eccLoad a s
    memPutW a (r.2 ||| 0x80000000#32) r.1
  else eccRead (eccWord a) s

/-- A sample of histogram q (R320). -/
def histTake (q : Nat) (x : F32) (s : State) : State :=
  let a := histAddr s q
  let b := a + 4 * (1 + histBin x (Cfg.RHLO s q) (Cfg.RHHI s q))
  let h := recHead a s
  let n := eccLoad b h
  memPutW a (chgStep false (memWord n.1 a)) (memPutW b (incWord n.2) n.1)

/-- EXCEEDANCE (R322, R323): a list entry, or LOST; the event in any case. -/
def exceed (c : Nat) (lo : Bool) (x : F32) (s : State) : State :=
  let r := s.rcd
  if r.count < 1024 then
    let w0 := packWord [(25, 16, r.ms), (8, 8, b2n lo), (6, 0, c)]
    let s1 := memPut (listAddr s r.count) (wordBytes [w0, x, r.pc, r.sec]) s
    raise evExceedance (modRcd (fun r => { r with count := r.count + 1 }) s1)
  else
    let s1 := if r.full then s else raise evListFull (modRcd (fun r => { r with full := true }) s)
    raise evExceedance (modRcd (fun r => { r with lost := sat16 (r.lost + 1) }) s1)

/-- FULL is set, and its event raised once, when the list has filled (R322). -/
def listFull (s : State) : State :=
  if s.rcd.count = 1024 ∧ !s.rcd.full then raise evListFull (modRcd (fun r => { r with full := true }) s) else s

/-- The band check of cone c (R323). -/
def bandCheck (c : Nat) (x : F32) (s : State) : State :=
  if !Cfg.RCSRC_XEN s c then s
  else
    let b := if fLt (Cfg.RCXHI s c) x then 1 else if fLt x (Cfg.RCXLO s c) then 2 else 0
    let old := tget 0 s.rcd.bands c
    let s1 := if b ≠ 0 ∧ b ≠ old then listFull (exceed c (b = 2) x s) else s
    modRcd (fun r => { r with bands := tset r.bands c b }) s1

/-- A sample of cone c (R321, R323). -/
def coneTake (c : Nat) (x : F32) (s : State) : State :=
  let a := coneAddr s c
  let lo := eccLoad (a + 4) (recHead a s)
  let hi := eccLoad (a + 16) lo.1
  let s1 := memPutW a (chgStep false (memWord hi.1 a)) hi.1
  let s2 := if fLt x lo.2 then memPut (a + 4) (wordBytes [x, s.rcd.pc, s.rcd.sec]) s1 else s1
  let s3 := if fLt hi.2 x then memPut (a + 16) (wordBytes [x, s.rcd.pc, s.rcd.sec]) s2 else s2
  bandCheck c x s3

/-- One due channel: a non-finite sample is skipped and counted (R319). -/
def recTake (w : Word) (f : F32 → State → State) (s : State) : State :=
  if recDue s w then
    let s := if bits w 23 20 = 3 then eccRead (eccWord (partBase s ptLADLE + 4 * bits w 11 0)) s else s
    let x := recSource s (bits w 23 20) (bits w 18 12) (bits w 11 0)
    if fFinite x then f x s else modRcd (fun r => { r with skip := sat16 (r.skip + 1) }) s
  else s

/-- RECORDER_SAMPLE (R319): histograms in ascending number, then cones. -/
def recSample (s : State) : State :=
  if s.sys.hstate = .boot then s
  else
    forAll (List.range 128) (fun c s => recTake (cfgReg s (0x40602000 + 16 * c)) (coneTake c) s)
      (forAll (List.range 64) (fun q s => recTake (cfgReg s (0x40601000 + 16 * q)) (histTake q) s) s)

/-! ### Saves and stamps (R327 to R330) -/

/-- A stamp record (R330) in the ring of R327; the sector after the next free record is erased outside a deferral. -/
def stamp (kind : Nat) (s : State) : State :=
  let base := (Cfg.RCFLASH s).toNat + 0x20000
  let ws := withCrc [BitVec.ofNat 32 kind, s.rcd.pc, s.rcd.sec, BitVec.ofNat 32 s.rcd.ms, s.sys.round, 0#32, 0#32]
  let s1 := flashPut (base + 32 * s.rcd.stampPos) (wordBytes ws) s
  let p := (s.rcd.stampPos + 1) % 1024
  let s2 := modRcd (fun r => { r with stampPos := p }) s1
  if s.sys.dip || s.sys.defer then s2 else flashErase (base + 0x1000 * ((p / 128 + 1) % 8)) 0x1000 s2

/-- A full save starts; one asked for while a save runs follows it, and one in a dip deferral waits (R328, R330). -/
def startSave (s : State) : State :=
  if s.rcd.saving then modRcd (fun r => { r with saveAgain := true }) s
  else if s.sys.dip || s.sys.defer then modRcd (fun r => { r with deferred := true }) s
  else wakeFrom 4 (modRcd (fun r => { r with saving := true, saveStart := s.rcd.sec, savePc := s.rcd.pc }) s)

/-- The retire log as it reads (R38). -/
def retEntryWords (e : RetEntry) : List Word :=
  [packWord [(17, 16, e.cause), (15, 8, e.idx), (2, 0, e.cls)], e.pc, e.sec, e.round]

/-- The 64 entries of the retire log. -/
def retLogBytes (s : State) : List Byte :=
  (List.range 64).flatMap (fun i => wordBytes (retEntryWords (tget {} s.ret.log i)))

/-- The 64 KB of a copy (R327), its header CRC last. -/
def copyBytes (s : State) (seq : Word) : List Byte :=
  let head := [0x52430001#32, seq, s.rcd.savePc, s.rcd.saveStart, BitVec.ofNat 32 s.rcd.count, BitVec.ofNat 32 s.rcd.lost]
    ++ List.replicate 9 0#32
  let body := List.replicate (0x1000 - 64) 0#8 ++ mread 0 s.mem (recAddr s 0x1000) 0xD000 ++ retLogBytes s
    ++ List.replicate (0x10000 - 0xE000 - 1024) 0#8
  let crc := crc32 (wordBytes (head ++ [0#32]) ++ body)
  wordBytes (head ++ [BitVec.ofNat 32 crc]) ++ body

/-- SAVE_COMPLETE (R328): the copy that does not hold the latest save takes this one; a failure is counted. No save completes
while a dip defers its writes (R417). -/
def saveComplete (ok : Bool) (s : State) : State :=
  if !s.rcd.saving || s.sys.dip || s.sys.defer then s
  else
    let again := s.rcd.saveAgain
    let s0 := modRcd (fun r => { r with saving := false, saveAgain := false }) s
    let s1 :=
      if ok then
        let to_ := if s.rcd.lastCopy = 1 then 2 else 1
        let seq := s.rcd.saveSeq + 1
        modRcd (fun r => { r with saveSeq := seq, saveSec := r.saveStart, saveErr := false, lastCopy := to_ })
          (flashPut ((Cfg.RCFLASH s).toNat + 0x10000 * (to_ - 1)) (copyBytes s seq) s0)
      else raise evSaveFailed (modRcd (fun r => { r with saveFail := sat16 (r.saveFail + 1), saveErr := true }) s0)
    if again then startSave s1 else s1

/-- SAVE_COMPLETE (R328). -/
def execSaveComplete (ok : Bool) (s : State) : Host.Outcome State Fault Refusal := .next (saveComplete ok s)

/-- n bytes from o on are 0. -/
def zeroBytes (b : List Byte) (o n : Nat) : Bool := ((b.drop o).take n).all (fun x => x = 0#8)

/-- The record layout of a copy (R325, R327): what is reserved reads 0, and COUNT is at most 1,024. -/
def copyLayout (b : List Byte) : Bool :=
  zeroBytes b 24 36 && decide (leNat b 16 4 ≤ 1024) &&
    (List.range 64).all (fun q => zeroBytes b (0x1000 + 0x100 * q + 132) 124 && decide (leNat b (0x1000 + 0x100 * q + 2) 2 % 0x8000 = 0)) &&
    (List.range 128).all (fun c => zeroBytes b (0x5000 + 0x20 * c + 28) 4 && decide (leNat b (0x5000 + 0x20 * c + 2) 2 % 0x8000 = 0))

/-- A copy in flash: its sequence number when format, CRC and record layout are good (R329). -/
def copySeq (s : State) (k : Nat) : Option Word :=
  let a := (Cfg.RCFLASH s).toNat + 0x10000 * k
  let b := flashRead s a 0x10000
  if flashWord s a = 0x52430001#32 ∧ leNat b 60 4 = crc32 (b.take 60 ++ List.replicate 4 0#8 ++ b.drop 64) ∧ copyLayout b then
    some (flashWord s (a + 4)) else none

/-- A copy is present, valid or not: its area is not erased. -/
def copyPresent (s : State) (k : Nat) : Bool :=
  let a := (Cfg.RCFLASH s).toNat + 0x10000 * k
  s.boot.flash.any (fun c => a ≤ c.1 && c.1 < a + 0x10000)

/-- The copy to load: the valid one with the later sequence number (R329). -/
def chooseCopy (s : State) : Option (Nat × Word) :=
  match copySeq s 0, copySeq s 1 with
  | some x, some y => if later y x then some (1, y) else some (0, x)
  | some x, none => some (0, x)
  | none, some y => some (1, y)
  | none, none => none

/-- The PC and SEC of the good records of the stamp ring, with their places (R329, R330). -/
def stampRecords (s : State) : List (Nat × Word × Word) :=
  let base := (Cfg.RCFLASH s).toNat + 0x20000
  if !s.boot.flash.any (fun c => base ≤ c.1 && c.1 < base + 0x8000) then []
  else
    (List.range 1024).filterMap (fun i =>
      let b := flashRead s (base + 32 * i) 32
      if leNat b 28 4 = crc32 (b.take 28) then
        some (i, BitVec.ofNat 32 (leNat b 4 4), BitVec.ofNat 32 (leNat b 8 4)) else none)

/-- Saturating sum of two 32-bit counts (R317). -/
def addSat (a b : Word) : Word := if 2 ^ 32 ≤ a.toNat + b.toNat then 0xFFFFFFFF#32 else a + b

/-- The retire log that a copy holds (R327, R38). -/
def loadRetLog (a : Nat) (s : State) : Tab RetEntry :=
  (List.range 64).foldl (fun t i =>
    let w := fun k => flashWord s (a + 0xE000 + 16 * i + 4 * k)
    if bits (w 0) 17 16 = 0 then t
    else tset t i { cause := bits (w 0) 17 16, idx := bits (w 0) 15 8, cls := bits (w 0) 2 0, pc := w 1, sec := w 2, round := w 3 }) []

/-- Clear-log entries in flash (R327, R333). -/
def clearLogCount (s : State) : Nat :=
  ((List.range 16).filter (fun k =>
    let b := flashRead s ((Cfg.RCFLASH s).toNat + 0x28000 + 32 * k) 32
    leNat b 28 4 = crc32 (b.take 28) && leNat b 0 4 % 65536 = k + 1)).length

/-- PC and seconds of every valid copy and stamp (R329). -/
def loadStamps (s : State) : List (Word × Word) :=
  let fa := (Cfg.RCFLASH s).toNat
  (match chooseCopy s with
    | some (k, _) => [(flashWord s (fa + 0x10000 * k + 8), flashWord s (fa + 0x10000 * k + 12))]
    | none => []) ++ (stampRecords s).map (fun q => (q.2.1, q.2.2))

/-- An entry of the retire log was made before another one: PC, then SEC, then the round (R38, R317). -/
def retBefore (a b : RetEntry) : Bool :=
  decide (a.pc.toNat < b.pc.toNat) || (a.pc = b.pc && (decide (a.sec.toNat < b.sec.toNat) || (a.sec = b.sec && later b.round a.round)))

/-- Where the next entry of a loaded retire log goes (R38): the first free place, or in a full log the
place of its oldest entry, the first that is older than the one before it. -/
def retNext (t : Tab RetEntry) : Nat :=
  match (List.range 64).find? (fun i => decide ((tget {} t i).cause = 0)) with
  | some i => i
  | none => ((List.range 63).find? (fun i => retBefore (tget {} t (i + 1)) (tget {} t i))).elim 0 (· + 1)

/-- A loaded retire log is full (R38). -/
def retFull (t : Tab RetEntry) : Bool := (List.range 64).all (fun i => decide ((tget {} t i).cause ≠ 0))

/-- The copy at address a of the flash is loaded as copy k with save number q (R329). -/
def loadCopy (a k : Nat) (q : Word) (s : State) : State :=
  modRcd (fun r => { r with
      count := (flashWord s (a + 16)).toNat % 2048, lost := (flashWord s (a + 20)).toNat % 65536
      full := decide ((flashWord s (a + 16)).toNat % 2048 = 1024), saveSeq := q, saveSec := flashWord s (a + 12)
      loadSrc := k + 1, lastCopy := k + 1 })
    { s with mem := mblock 0 s.mem (recAddr s 0x1000) (flashRead s (a + 0x1000) 0xD000)
             ret := { s.ret with
               log := loadRetLog a s, next := retNext (loadRetLog a s), wrapped := retFull (loadRetLog a s) } }

/-- Without a valid copy the recorder starts blank (R329). -/
def loadBlank (s : State) : State :=
  raise evRecorderBlank (modRcd (fun r => { r with
      loadSrc := if (stampRecords s).isEmpty then 0 else 3 })
    (forAll (List.range 128) (fun c s => memPut (coneAddr s c + 4) (wordBytes coneEmpty) s)
      { s with mem := merase s.mem (recAddr s 0) 0x10000 }))

/-- The place of the next stamp record (R330): behind a good record, where none stands; the sector after it is kept erased. -/
def stampNext (l : List Nat) : Nat := ((List.range 1024).find? (fun p => !l.contains p && l.contains ((p + 1023) % 1024))).getD 0

/-- A copy is present but invalid (R329, R334). -/
def copyBad (s : State) (k : Nat) : Bool := copyPresent s k && (copySeq s k).isNone

/-- RECORDER_LOAD (R329). -/
def recLoad (s : State) : State :=
  let fa := (Cfg.RCFLASH s).toNat
  let stamps := loadStamps s
  let pcMax := stamps.foldl (fun m q => max m q.1.toNat) 0
  let secMax := (stamps.filter (fun q => q.1.toNat = pcMax)).foldl (fun m q => max m q.2.toNat) 0
  let s1 := match chooseCopy s with
    | some (k, q) => loadCopy (fa + 0x10000 * k) k q s
    | none => loadBlank s
  let n := clearLogCount s
  let s2 := { s1 with mem := mblock 0 s1.mem (recAddr s 0xC000) (flashRead s (fa + 0x28000) (32 * n)) }
  let s3 := modRcd (fun r => { r with
    pc := if stamps.isEmpty then 1#32 else addSat (BitVec.ofNat 32 pcMax) 1#32
    sec := addSat (BitVec.ofNat 32 secMax) r.sec, bands := [], clrCnt := n
    loadErr := copyBad s 0 || copyBad s 1
    stampPos := stampNext ((stampRecords s).map Prod.fst) }) s2
  stamp 1 s3

/-! ### Powered time (R317, R300) -/

/-- POWERED_HOUR (R317): brake-test hours, and a full save. -/
def poweredHour (s : State) : State :=
  startSave (forAll (brakesOn s) (fun b s => dueCheck b (modBrk s b (fun k => { k with hrs := sat16 (k.hrs + 1) }))) s)

/-- POWERED_SECOND (R317): SEC saturates. -/
def poweredSecond (s : State) : State :=
  if s.sys.inReset then s
  else
    let s1 := modRcd (fun r => { r with sec := incWord r.sec, ms := 0 }) s
    if s1.rcd.sec.toNat % 3600 = 0 ∧ s1.rcd.sec ≠ s.rcd.sec then poweredHour s1 else s1

/-- POWERED_SECOND (R317). -/
def execPoweredSecond (s : State) : Host.Outcome State Fault Refusal := .next (poweredSecond s)

/-! ### Commands (R328, R331 to R334) -/

/-- RCRESULT after a command. -/
def rcResult (cmd res : Nat) (s : State) : State := modRcd (fun r => { r with lastCmd := cmd, result := res }) s

/-- RCCMD PWD (R331). -/
def rcPwd (len : Nat) (s : State) : State :=
  let r := s.rcd
  let s0 := modRcd (fun r => { r with pwd := [] }) s
  if r.blkMs.isSome then rcResult 1 7 s0
  else if len < 8 ∨ 32 < len then rcResult 1 8 s0
  else if sha256 (pwdBytes r.pwd len) = r.pwdHash then
    rcResult 1 1 (modRcd (fun r => { r with auth := !s.sag.sealPin, authMs := 0, wrong := 0 }) s0)
  else if r.wrong + 1 < 3 then rcResult 1 6 (modRcd (fun r => { r with wrong := r.wrong + 1 }) s0)
  else rcResult 1 6 (modRcd (fun r => { r with wrong := 0, blkMs := some 60000 }) s0)

/-- RCCMD CLEAR (R332, R333). -/
def rcClear (src : Source) (scope : Nat) (ok : Bool) (s : State) : State :=
  if src = .compact ∨ scope = 0 then rcResult 2 8 s
  else if !s.rcd.auth then rcResult 2 2 s
  else if 16 ≤ s.rcd.clrCnt then rcResult 2 3 s
  else if s.sys.dip || s.sys.defer then rcResult 2 4 s
  else if !ok then rcResult 2 5 s
  else
    let k := s.rcd.clrCnt
    let ws := withCrc [packWord [(19, 16, scope), (15, 0, k + 1)], s.rcd.pc, s.rcd.sec, s.sys.round,
      BitVec.ofNat 32 s.rcd.count, BitVec.ofNat 32 s.rcd.lost, packWord [(1, 0, b2n (src = .spi))]]
    let s1 := flashPut ((Cfg.RCFLASH s).toNat + 0x28000 + 32 * k) (wordBytes ws) s
    let s2 := memPut (recAddr s (0xC000 + 32 * k)) (wordBytes ws) s1
    rcResult 2 1 (modRcd (fun r => { r with clrCnt := k + 1, clearPend := some ((r.clearPend.getD 0) ||| scope) }) s2)

/-- At the next T0, before that round's samples, the clear takes place (R332). -/
def rcApplyClear (s : State) : State :=
  match s.rcd.clearPend with
  | none => s
  | some sc =>
    let s1 := modRcd (fun r => { r with clearPend := none }) s
    let s2 := if sc.testBit 0 then forAll (List.range 64) clearHist s1 else s1
    let s3 := if sc.testBit 1 then forAll (List.range 128) clearCone s2 else s2
    let s4 := if sc.testBit 2 then modRcd (fun r => { r with count := 0, lost := 0, full := false, bands := [] }) s3 else s3
    raise evClearDone (startSave s4)

/-- RCCMD SAVE (R328). -/
def rcSave (s : State) : State := rcResult 3 1 (startSave s)

/-- RCCMD LOCK (R331). -/
def rcLock (s : State) : State := rcResult 4 1 (modRcd (fun r => { r with auth := false, authMs := 0 }) s)

/-- The address of RCCMD. -/
def aRCCMD : Nat := 0x40600020

/-- A write of RCCMD with the right key (R334). -/
def rcCommand (src : Source) (w : Word) (s : State) : State :=
  match bits w 3 0 with
  | 1 => rcPwd (bits w 15 8) s
  | 2 => rcClear src (bits w 11 8) true s
  | 3 => rcSave s
  | 4 => rcLock s
  | c => rcResult c 8 s

/-- RECORDER_PWD (R331). -/
def execRecorderPwd (m : Master) (len : Nat) (s : State) : Host.Outcome State Fault Refusal := .next (withRight m aRCCMD (rcPwd len) s)
/-- RECORDER_CLEAR (R332). -/
def execRecorderClear (src : Source) (scope : Nat) (ok : Bool) (s : State) : Host.Outcome State Fault Refusal :=
  .next (rcClear src scope ok s)
/-- SAVE (R328). -/
def execSave (m : Master) (s : State) : Host.Outcome State Fault Refusal := .next (withRight m aRCCMD rcSave s)
/-- LOCK (R331). -/
def execLock (m : Master) (s : State) : Host.Outcome State Fault Refusal := .next (withRight m aRCCMD rcLock s)

/-- AUTHORISATION_TIMEOUT (R331): 30 minutes after the password. -/
def execAuthorisationTimeout (s : State) : Host.Outcome State Fault Refusal :=
  .next (if s.rcd.auth ∧ 1800000 ≤ s.rcd.authMs then modRcd (fun r => { r with auth := false, authMs := 0 }) s else s)

/-- RECORDER_PWD_BLOCK_END (R331). -/
def execRecorderPwdBlockEnd (s : State) : Host.Outcome State Fault Refusal :=
  .next (if s.rcd.blkMs = some 0 then modRcd (fun r => { r with blkMs := none }) s else s)

/-- One millisecond of the recorder's timers. -/
def rcMs (s : State) : State :=
  modRcd (fun r => { r with
    ms := min 999 (r.ms + 1), authMs := if r.auth then r.authMs + 1 else 0, blkMs := r.blkMs.map (fun t => t - 1) }) s

end Sys2Proof.Machine
end

