-- ==== Sys2Proof/Machine/Boot.lean ====
section
/-! DEFINITION. Boot (R364 to R375), the image commands (R376, R377) and fuse programming (R378 to R380). -/

namespace Sys2Proof.Machine

/-- Change the boot record. -/
def modBoot (f : Boot → Boot) (s : State) : State := { s with boot := f s.boot }

/-! ### Choosing and loading a slot (R364, R371 to R374) -/

/-- The retire parameters of an image by class (R33). -/
def retParams (l : List (Nat × Nat × Nat × Nat)) : Tab RetCfg :=
  l.foldl (fun t q => tset t q.1 ⟨q.2.1, q.2.2.1, q.2.2.2⟩) []

/-- The retire parameters of slot k. -/
def slotRet (b : BootObs) (k : Nat) : Tab RetCfg := retParams (if k = 0 then b.retA else b.retB)

/-- The order in which the slots are tried (R372). With both headers bad slot A comes first. -/
def slotOrder (s : State) (b : BootObs) : List Nat :=
  let hd := fun (k : Nat) (err : Bool) => if err then Verdict.bad 10 0 else checkHeader (slotByte s k)
  match hd 0 b.errA, hd 1 b.errB with
  | .good x, .good y => if later y.seq x.seq then [1, 0] else [0, 1]
  | .bad _ _, .good _ => [1, 0]
  | _, _ => [0, 1]

/-- Verification of slot k at boot. -/
def bootVerify (s : State) (b : BootObs) (k : Nat) : Verdict Verified :=
  verifySlot (loadBase s (slotRet b k)) (slotByte s k) b.density (if k = 0 then b.errA else b.errB)

/-- A slot failed with a code at a record (R371, R372, R377). -/
def slotFailed (k code rec : Nat) (s : State) : State :=
  modBoot (fun b => if k = 0 then { b with failA := code, failRec := rec } else { b with failB := code, failRec := rec }) s

/-- The safety parameters an image sets (R309). -/
def imageParams (c : Tab Word) : Tab Word :=
  ((List.range 0x80).filter sagIdOk).filterMap (fun id =>
    (c.find? (fun p => p.1 = 0x40500400 + 4 * id)).map (fun p => (id, p.2)))

/-- What the verified image of slot k sets: configuration, SRAM, network, password hashes, and the safety parameters
while the region is blank (R309, R368, R370, R374). -/
def imageState (k : Nat) (rc : Tab RetCfg) (v : Verified) (s : State) : State :=
  let l := v.load
  { s with
    cfg := l.st.cfg
    mem := l.st.mem
    ret := { s.ret with cfg := rc }
    host := { s.host with net := l.net, netOk := true }
    sag := { s.sag with
      params := if s.sag.regionBlank then imageParams l.st.cfg else s.sag.params
      pwdHash := if s.sag.pwdSet || l.pwd.isEmpty then s.sag.pwdHash else l.pwd.take 32 }
    rcd := { s.rcd with pwdHash := l.pwd.drop 32 }
    boot := { s.boot with
      verified := true, noImage := false, slot := k, inact := 1 - k, auth := v.auth, seq := v.header.seq
      len := v.header.len, digest := imageDigest v } }

/-- The verified image of slot k takes effect, and the recorder loads its records (R329, R374). An axis without feedback
has a position from the first (R134). -/
def installImage (k : Nat) (rc : Tab RetCfg) (v : Verified) (s : State) : State :=
  let s1 := imageState k rc v s
  let s2 := forAll ((List.range 128).filter (fun a => Cfg.FBCFG_SRC s1 (axW a) = 3)) (fun a s =>
    modFb s a (fun f => { f with posRel := true })) s1
  modBoot (fun b => { b with recLoaded := true }) (recLoad s2)

/-- No slot passed (R373). -/
def noImage (s : State) : State := modBoot (fun b => { b with noImage := true, slot := 3, inact := 3 }) s

/-- BOOT_SEQUENCE (R364, R371, R372, R373). -/
def bootSequence (b : BootObs) (s : State) : State :=
  if s.sys.hstate ≠ .boot || s.sys.inReset || s.boot.verified || s.boot.noImage then s
  else
    let s0 := modBoot (fun q => { q with density := b.density }) s
    if !b.sfdpOk || (s.sys.oct && !b.xspiOk) || decide (b.density < 0x800000) then
      noImage (modBoot (fun q => { q with failA := 10, failB := 10 }) s0)
    else
      match slotOrder s b with
      | [k, k'] =>
        match bootVerify s b k with
        | .good v => installImage k (slotRet b k) v s0
        | .bad c r =>
          let s1 := slotFailed k c r s0
          match bootVerify s b k' with
          | .good v => installImage k' (slotRet b k') v (modBoot (fun q => { q with fallback := true }) s1)
          | .bad c' r' => noImage (slotFailed k' c' r' s1)
      | _ => s0

/-- BOOT_SEQUENCE (R371). -/
def execBootSequence (b : BootObs) (s : State) : Host.Outcome State Fault Refusal := .next (bootSequence b s)

/-- The Ladle cores when the head leaves BOOT: wide cores of powered clusters IDLE, others OFF, and the compact core
running at LDCENTRY in the primary set (R358, R361). -/
def coresStart (s : State) : State :=
  let cs : Tab Core := (List.range 4).map (fun c => (c, ({ st := if clusterOn s c then 0 else 3 } : Core)))
  { s with lad := { s.lad with cores := cs ++ [(4, ({ st := 1, pc := Cfg.LDCENTRY s } : Core))] } }

/-- BTSTAT (R383). -/
def btstat (s : State) : Word :=
  let b := s.boot
  packWord [(31, 16, sat16 s.sys.bootMs), (15, 12, b.failA), (11, 8, b.failB), (7, 7, b2n b.vpp),
    (6, 6, b2n (b.fallback && b.verified)), (5, 4, b.auth), (3, 3, b2n b.noImage), (2, 2, b2n s.sys.oct), (1, 0, b.slot)]

/-- The capability list keeps BTSTAT as the head leaves BOOT (R381). -/
def bootInfo (s : State) : State := modBoot (fun b => { b with info := some (btstat s) }) s

/-- BOOT_COMPLETE (R374): image verified, recorder loaded and Saggar past its self-tests; LISTEN begins, a cascade slave
waits for its master (R283, R236), the watchdog starts (R420), and a fallback is reported (R372). BOOTMS is free. -/
def bootComplete (s : State) : State :=
  if s.sys.hstate ≠ .boot || s.sys.inReset || !s.boot.verified || !s.boot.recLoaded || decide (s.sag.st = 0) then s
  else
    let slave := Cfg.CSCFG_EN s && !masterPair s
    let s1 := { s.tick with
      sys := { s.sys with
        bootMs := freeIn s 0 65535, wdLeft := if Cfg.WDCFG_TIME s = 0 then none else some (Cfg.WDCFG_TIME s)
        lockAt := if s.sag.st = 2 then some s.sys.round else s.sys.lockAt }
      link := { s.link with chans := (List.range 2).map (fun ch =>
        (ch, { getCh s ch with txdis0 := !chOn s ch, txdis1 := !chOn s ch })) }
      casc := if slave then { s.casc with st := 1 } else s.casc }
    let s2 := enterListen 64 88 (coresStart s1)
    onlyIf s.boot.fallback (raise evImageFallback) (bootInfo s2)

/-- BOOT_COMPLETE (R374). -/
def execBootComplete (s : State) : Host.Outcome State Fault Refusal := .next (bootComplete s)

/-! ### Image commands (R376, R377) -/

/-- IMGCMD (R383). -/
def aIMGCMD : Nat := 0x4003000C

/-- Every axis is in OFF or RETIRED (R377, R380). -/
def allOff (s : State) : Bool := s.axes.all (fun q => q.2.ctl.st = .off || q.2.ctl.st = .retired)

/-- The deferral of a dip is in force (R417). -/
def deferring (s : State) : Bool := s.sys.dip || s.sys.defer

/-- The refusal code of an image command, 0 for none (R376, R377, R383): 2 busy, 3 range, 4 state. -/
def imgRefusal (s : State) (cmd slot nw : Nat) : Nat :=
  if s.boot.busy then 2
  else if cmd = 0 ∨ 5 < cmd then 3
  else if cmd = 5 then (if allOff s || s.sys.hstate = .boot then 0 else 4)
  else if s.boot.noImage && decide (cmd = 4) then 4
  else if s.boot.noImage && decide (1 < slot) then 3
  else if !s.boot.noImage && s.boot.slot = 3 then 4
  else if cmd = 2 ∧ (nw = 0 ∨ 64 < nw ∨ 0x200000 < s.boot.fill + 4 * nw) then 3
  else if cmd = 3 ∧ s.boot.fill < 64 then 3
  else 0

/-- An image command with its staged words (R376, R377). An accepted one sets BUSY and runs to IMAGE_COMMAND_DONE; a REBOOT
outside a deferral acts at the next T0 (R419). -/
def imageCmd (cmd slot nw : Nat) (ws : List Word) (s : State) : State :=
  let code := imgRefusal s cmd slot nw
  let s1 := modBoot (fun b => { b with lastCmd := cmd }) s
  if code ≠ 0 then raise evImageCommand (modBoot (fun b => { b with result := code }) s1)
  else if cmd = 5 && !deferring s then
    raise evImageCommand (modBoot (fun b => { b with result := 1 }) { s1 with sys := { s1.sys with rebootReq := true } })
  else
    modBoot (fun b => { b with busy := true, job := some (cmd, if s.boot.noImage then slot else s.boot.inact, ws.take nw) }) s1

/-- The staged words of master m (R376). -/
def stagedWords (s : State) (m : Master) : List Word := (List.range 64).map (fun i => tget 0#32 s.boot.wbuf (masterNo m * 64 + i))

/-- An IMGCMD write of master m with the key (R383). -/
def imgcmd (m : Master) (cmd slot nw : Nat) (s : State) : State :=
  withRight m aIMGCMD (imageCmd cmd slot nw (stagedWords s m)) s

/-- ERASE (R376). -/
def execErase (m : Master) (slot : Nat) (s : State) : Host.Outcome State Fault Refusal := .next (imgcmd m 1 slot 0 s)
/-- PROGRAM (R376). -/
def execProgram (m : Master) (slot nwords : Nat) (s : State) : Host.Outcome State Fault Refusal :=
  .next (imgcmd m 2 slot nwords s)
/-- VERIFY (R376). -/
def execVerify (m : Master) (slot : Nat) (s : State) : Host.Outcome State Fault Refusal := .next (imgcmd m 3 slot 0 s)
/-- INVALIDATE (R376). -/
def execInvalidate (m : Master) (slot : Nat) (s : State) : Host.Outcome State Fault Refusal := .next (imgcmd m 4 slot 0 s)
/-- REBOOT (R376). -/
def execReboot (m : Master) (s : State) : Host.Outcome State Fault Refusal := .next (imgcmd m 5 0 0 s)

/-- The inactive slot with the held header in place of bytes 0 to 63 (R376). -/
def heldByte (s : State) (k o : Nat) : Byte := if o < 64 then s.boot.header.getD o 0xFF else slotByte s k o

/-- Bytes appended at IMGFILL: those of the header are held, the rest is written (R376). -/
def programBytes (k : Nat) (bs : List Byte) (s : State) : State :=
  let f := s.boot.fill
  let held := bs.take (64 - f)
  let rest := bs.drop (64 - f)
  let s1 := if rest.isEmpty then s else flashPut (k * 0x200000 + max f 64) rest s
  modBoot (fun b => { b with header := b.header ++ held, fill := f + bs.length }) s1

/-- What a verification of slot k answers and writes (R376, R377): the first 64 bytes reach the flash only when it passes
and is newer. -/
def verifyOutcome (k : Nat) (x : Verdict Verified) (s : State) : State :=
  match x with
  | .bad c r => modBoot (fun b => { b with result := 5 }) (slotFailed k c r s)
  | .good v =>
    if s.boot.noImage || later v.header.seq s.boot.seq then
      modBoot (fun b => { b with result := 1 }) (flashPut (k * 0x200000) (readSlot (heldByte s k) 0 64) s)
    else modBoot (fun b => { b with result := 6 }) s

/-- VERIFY's check, with the retire parameters the image carries (R33), and its RESULT (R376): on a pass with a later SEQ the held header is written. -/
def verifyInactive (k : Nat) (rc : Tab RetCfg) (s : State) : State :=
  verifyOutcome k (verifySlot (loadBase s rc) (heldByte s k) s.boot.density false) s

/-- What an image command does to the flash and to RESULT (R376, R383). -/
def runImage (cmd k : Nat) (ws : List Word) (rc : Tab RetCfg) (s : State) : State :=
  let done := modBoot (fun b => { b with result := 1 })
  match cmd with
  | 1 => done (modBoot (fun b => { b with fill := 0, header := [] }) (flashErase (k * 0x200000) 0x200000 s))
  | 2 => done (programBytes k (wordBytes ws) s)
  | 3 => verifyInactive k rc s
  | 4 => done (flashErase (k * 0x200000) 0x1000 s)
  | _ => done { s with sys := { s.sys with rebootReq := true } }

/-- IMAGE_COMMAND_DONE (R377): the command in progress completes, once a deferral is over; `ok = false` is a flash
error. -/
def imageCommandDone (ok : Bool) (rc : Tab RetCfg) (s : State) : State :=
  match s.boot.job with
  | none => s
  | some (cmd, k, ws) =>
    if deferring s then s
    else
      let s1 := modBoot (fun b => { b with busy := false, job := none }) s
      raise evImageCommand (if ok then runImage cmd k ws rc s1 else modBoot (fun b => { b with result := 7 }) s1)

/-- IMAGE_COMMAND_DONE (R377). -/
def execImageCommandDone (e : JobEnd) (s : State) : Host.Outcome State Fault Refusal :=
  .next (imageCommandDone e.ok (retParams e.ret) s)

/-! ### Fuses (R378 to R380) -/

/-- FPCMD (R383). -/
def aFPCMD : Nat := 0x400300A4

/-- A fuse word as programmed. -/
def fuseCell (s : State) (o : Nat) : Word := tget (if o = 0x10 then 2#32 else 0#32) s.boot.fuseCells o

/-- Place of the user fields by LOCK bit number: word, lowest bit and width (R378); KEYHASH is eight words. -/
def fuseField (f : Nat) : Nat × Nat × Nat :=
  match f with
  | 0 => (0x10, 8, 1)
  | 1 => (0x10, 9, 1)
  | 2 => (0x10, 16, 10)
  | 3 => (0x10, 12, 2)
  | 4 => (0x14, 0, 12)
  | 5 => (0x14, 16, 12)
  | _ => (0x20, 0, 32)

/-- The value FPDATA0 holds for a field. -/
def fuseValue (s : State) (f : Nat) : Nat := (tget 0#32 s.boot.fpData 0).toNat % 2 ^ (fuseField f).2.2

/-- The refusal code of FPCMD GO, 0 for none (R380). -/
def fuseRefusal (s : State) : Nat :=
  let f := s.boot.fpSel.toNat
  let lock := fuseCell s 0x18
  if !s.boot.vpp then 2
  else if !allOff s then 3
  else if !sealOpen s then 4
  else if bit lock f then 5
  else if 6 < f ∨ (if f = 6 then (List.range 8).all (fun i => tget 0#32 s.boot.fpData i = 0#32) else fuseValue s f = 0) ∨
      (f = 2 ∧ fuseValue s f < 33) ∨ (f = 1 ∧ !bit lock 6) then 6
  else 0

/-- FPCMD_GO (R379, R380). A GO while programming runs changes nothing (log 14). -/
def fpcmdGo (m : Master) (w : Word) (vpp : Bool) (s : State) : State :=
  withRight m aFPCMD (keyed w (fun s =>
    let s1 := modBoot (fun b => { b with vpp := vpp }) s
    if !bit w 0 || s.boot.fpBusy then s1
    else
      let code := fuseRefusal s1
      if code ≠ 0 then modBoot (fun b => { b with fpResult := code }) s1
      else modBoot (fun b => { b with fpBusy := true, fpField := b.fpSel.toNat }) s1)) s

/-- FPCMD_GO (R380). -/
def execFpcmdGo (m : Master) (w : Word) (vpp : Bool) (s : State) : Host.Outcome State Fault Refusal :=
  .next (fpcmdGo m w vpp s)

/-- A fuse field takes the value of FPDATA, or a free value where read-back does not match (R380, log 1). -/
def fuseWrite (ok : Bool) (s : State) : State :=
  let f := s.boot.fpField
  let put := fun (o : Nat) (w : Word) (s : State) => modBoot (fun b => { b with fuseCells := tset b.fuseCells o w }) s
  if f = 6 then
    forAll (List.range 8) (fun i s => put (0x20 + 4 * i) (if ok then tget 0#32 s.boot.fpData i else freeW s) (if ok then s else s.tick)) s
  else
    let p := fuseField f
    let v := if ok then fuseValue s f else (freeW s).toNat % 2 ^ p.2.2
    put p.1 (fuseCell s p.1 ||| BitVec.ofNat 32 (v * 2 ^ p.2.1)) (if ok then s else s.tick)

/-- FUSE_PROGRAM_DONE (R380): the field is written, its LOCK bit is set, and RESULT tells of the read-back. -/
def fuseProgramDone (ok : Bool) (s : State) : State :=
  if !s.boot.fpBusy then s
  else
    let s1 := fuseWrite ok s
    modBoot (fun b => { b with
      fpBusy := false, fpResult := if ok then 1 else 7
      fuseCells := tset b.fuseCells 0x18 (BitVec.ofNat 32 (setBit (fuseCell s1 0x18).toNat b.fpField true)) }) s1

/-- FUSE_PROGRAM_DONE (R380). -/
def execFuseProgramDone (readBackOk : Bool) (s : State) : Host.Outcome State Fault Refusal :=
  .next (fuseProgramDone readBackOk s)

end Sys2Proof.Machine
end

