-- ==== Sys2Proof/Machine/Flags.lean ====
section
/-! DEFINITION. Arithmetic and flags of the Ladle cores (R337, R339, R341, R348). A flag nibble holds N, Z, C and V at
bits 3, 2, 1 and 0. -/

namespace Sys2Proof.Machine

/-- A flag nibble (R337). -/
def nzcv (n z c v : Bool) : Nat := 8 * b2n n + 4 * b2n z + 2 * b2n c + b2n v

/-- Sign of a word. -/
def neg32 (x : Word) : Bool := x.msb

/-- Flags of x + y: C is the carry, that is, no borrow (R337). -/
def addFlags (x y : Word) : Nat :=
  let r := x + y
  nzcv (neg32 r) (r = 0#32) (decide (2 ^ 32 ≤ x.toNat + y.toNat)) (neg32 x = neg32 y && neg32 r ≠ neg32 x)

/-- Flags of x − y: C when no borrow occurs (R337). -/
def subFlags (x y : Word) : Nat :=
  let r := x - y
  nzcv (neg32 r) (r = 0#32) (decide (y.toNat ≤ x.toNat)) (neg32 x ≠ neg32 y && neg32 r ≠ neg32 x)

/-- Flags of another integer ALU result: N and Z, with C and V left (R337). -/
def logicFlags (r : Word) (old : Nat) : Nat := nzcv (neg32 r) (r = 0#32) (old.testBit 1) (old.testBit 0)

/-- Subnormal values become zero of the same sign (R341). -/
def ftz (x : F32) : F32 := if bits x 30 23 = 0 then x &&& 0x80000000#32 else x

/-- A result of an FP32 operation (R341): flushed, and every NaN the same. -/
def fpResult (x : F32) : F32 := if fIsNaN x then 0x7FC00000#32 else ftz x

/-- A two-operand FP32 operation with flushed inputs and result. -/
def fpOp2 (f : F32 → F32 → F32) (x y : F32) : F32 := fpResult (f (ftz x) (ftz y))

/-- z + x·y with one rounding. -/
def fpMulAdd (z x y : F32) : F32 := fpResult (fFma (ftz z) (ftz x) (ftz y))

/-- FCMP (R337): N less, Z equal, C greater, V unordered. -/
def fcmpFlags (x y : F32) : Nat :=
  let a := ftz x
  let b := ftz y
  nzcv (fLt a b) (fEq a b) (fLt b a) (fIsNaN a || fIsNaN b)

/-- FMIN or FMAX of x and y. The spec states no result for a NaN operand, nor for zeros of both signs: `pick` chooses, the
NaN or the other operand, or one of the zeros (log 1). -/
def fpPick (min_ pick : Bool) (x0 y0 : F32) : F32 :=
  let x := ftz x0
  let y := ftz y0
  if fIsNaN x ∧ fIsNaN y then 0x7FC00000#32
  else if fIsNaN x then (if pick then 0x7FC00000#32 else y)
  else if fIsNaN y then (if pick then 0x7FC00000#32 else x)
  else if fEq x y then (if pick then x else y)
  else if fLt x y = min_ then x else y

/-- The condition of B on a flag nibble (R348). -/
def condHolds (c : BrCond) (f : Nat) : Bool :=
  let n := f.testBit 3
  let z := f.testBit 2
  let cf := f.testBit 1
  let v := f.testBit 0
  match c with
  | .always => true
  | .eq => z
  | .ne => !z
  | .lt => n ≠ v
  | .ge => n = v
  | .gt => !z && decide (n = v)
  | .le => z || decide (n ≠ v)
  | .lo => !cf
  | .hs => cf
  | .flt => n
  | .fge => !n && !v
  | .unordered => v

/-- Product of MAC before it is added (R341, R348). -/
def macProduct (md : MacMode) (x y : Word) : Int :=
  let p : Int := if md.uns then (x.toNat : Int) * y.toNat else x.toInt * y.toInt
  if md.frac then 2 * p else p

/-- MAC into an accumulator, wrapping at 72 bits (R341). -/
def macResult (md : MacMode) (a : BitVec 72) (x y : Word) : BitVec 72 :=
  let p := BitVec.ofInt 72 (macProduct md x y)
  let base := if md.repl then 0#72 else a
  if md.sub then base - p else base + p

/-- RDA (R341): the accumulator over 2^sh, rounded half up, saturated. -/
def rdaResult (a : BitVec 72) (sh : Nat) : Word :=
  let v := a.toInt
  wordOfInt (sat32 (if sh = 0 then v else (v + 2 ^ (sh - 1)).fdiv (2 ^ sh)))

/-- Post-modify of a pointer by a modifier (R339). -/
def postModify (p m : Word) : Word :=
  let len := bits m 31 16
  let step := sbits m 15 0
  if len = 0 then wordOfInt ((p.toNat : Int) + step)
  else
    let b := ((List.range 17).find? (fun b => decide (len ≤ 2 ^ b))).getD 16
    let base : Int := ((p.toNat / 2 ^ b * 2 ^ b : Nat) : Int)
    let o := (p.toNat : Int) - base + step
    let o1 := if (len : Int) ≤ o then o - len else o
    let o2 := if o1 < 0 then o1 + len else o1
    wordOfInt (base + o2)

/-- A shift or rotation (R348): 0 SHL, 1 SHR, 2 SAR, 3 ROR. -/
def shiftResult (kind : Nat) (x : Word) (n : Nat) : Word :=
  match kind with
  | 0 => x <<< n
  | 1 => x >>> n
  | 2 => x.sshiftRight n
  | _ => x.rotateRight n

end Sys2Proof.Machine
end

