-- ==== Sys2Proof/Machine/Power.lean ====
section
/-! DEFINITION. Power states, supply supervision, resets and the watchdog (R407 to R421). -/

namespace Sys2Proof.Machine

/-- Change the system record. -/
def modSys (f : Sys → Sys) (s : State) : State := { s with sys := f s.sys }

/-! ### Power states (R410 to R412) -/

/-- PWRCMD (R421). -/
def aPWRCMD : Nat := 0x40010010

/-- The head takes a power state and reports it (EV 7). -/
def setPower (p : PwrState) (s : State) : State :=
  if s.sys.pwr = p then s
  else raise evPowerState (modSys (fun y => { y with pwr := p, crLock := p ≠ .deep }) s)

/-- PWRCMD with DEEP = 1 (R412): in PARK, driving and with no flash or fuse command running the head goes to DEEP PARK at
the next T0; else the write is refused. -/
def deepRequest (s : State) : State :=
  if s.sys.pwr = .park && driving s && !s.boot.busy && !s.boot.fpBusy then modSys (fun y => { y with deepReq := true }) s
  else refuseWrite s

/-- PWRCMD_DEEP (R412). -/
def execPwrcmdDeep (m : Master) (s : State) : Host.Outcome State Fault Refusal := .next (withRight m aPWRCMD deepRequest s)

/-- WAKE (R412): a wake cause of that number; a delivered event wakes only with EVWAKE. -/
def execWake (cause : Nat) (s : State) : Host.Outcome State Fault Refusal :=
  .next (if 1 ≤ cause && decide (cause ≤ 5) && (cause ≠ 3 || Cfg.PWRCFG_EVWAKE s) then wakeFrom cause s else s)

/-! ### Supply supervision (R416, R417) -/

/-- The recorder's stamp of a supply warning; a full save follows when the deferral lifts (R328, R330). -/
def dipStamp (s : State) : State := modRcd (fun r => { r with deferred := true }) (stamp 2 s)

/-- SUPPLY_WARNING (R416, R417): the rail's warning; the first of a dip starts it, with the deferral, the event and the
recorder's stamp, and wakes the head. -/
def supplyWarning (rail : Rail) (mv : Nat) (s : State) : State :=
  let s1 := modSys (fun y =>
    match rail with
    | .core => { y with corWarn := true, spCore := mv }
    | .aon => { y with aonWarn := true, spAon := mv }) s
  if s.sys.inReset || s.sys.dip then s1
  else
    let s2 := wakeFrom 5 (raise evSupplyWarning (modSys (fun y => { y with dip := true, defer := true }) s1))
    onlyIf s.boot.recLoaded dipStamp s2

/-- SUPPLY_WARNING (R417). -/
def execSupplyWarning (rail : Rail) (mv : Nat) (s : State) : Host.Outcome State Fault Refusal :=
  .next (if s.sys.inReset then s else supplyWarning rail mv s)

/-- SUPPLY_WARNING_CLEAR (R417): both warnings have cleared; the dip is logged, and the deferral lasts 100 ms more. -/
def supplyClear (core aon : DipObs) (s : State) : State :=
  if !s.sys.dip then s
  else
    let long := (core.warned && decide (1600 < core.ticks)) || (aon.warned && decide (1600 < aon.ticks))
    raise evDipRecovered (modSys (fun y => { y with
      dip := false, corWarn := false, aonWarn := false, defer := true, deferMs := 100
      dipCDur := if core.warned then min core.ticks 0xFFFFF else y.dipCDur
      dipCMin := if core.warned then min core.minMv 0xFFF else y.dipCMin
      dipADur := if aon.warned then min aon.ticks 0xFFFFF else y.dipADur
      dipAMin := if aon.warned then min aon.minMv 0xFFF else y.dipAMin
      dips := inc16 y.dips, long := if long then inc16 y.long else y.long }) s)

/-- SUPPLY_WARNING_CLEAR (R417). -/
def execSupplyWarningClear (core aon : DipObs) (s : State) : Host.Outcome State Fault Refusal := .next (supplyClear core aon s)

/-- DEFERRAL_END (R417): 100 ms after the dip the deferral lifts; a deferred save starts. -/
def deferralEnd (s : State) : State :=
  if s.sys.defer && !s.sys.dip && decide (s.sys.deferMs = 0) then
    let s1 := modSys (fun y => { y with defer := false }) s
    if s.rcd.deferred then startSave (modRcd (fun r => { r with deferred := false }) s1) else s1
  else s

/-- DEFERRAL_END (R417). -/
def execDeferralEnd (s : State) : Host.Outcome State Fault Refusal := .next (deferralEnd s)

/-! ### Resets (R409, R415, R418 to R420) -/

/-- What of the safety island stands in the safety region of the flash, or is a pin (R306, R309, R310). -/
def keptSaggar (g : Saggar) : Saggar :=
  { ({} : Saggar) with
    sealPin := g.sealPin, pwdHash := if g.pwdSet then g.pwdHash else [], pwdSet := g.pwdSet
    params := if g.regionBlank then [] else g.params, regionBlank := g.regionBlank, regionBad := g.regionBad
    log := g.log, logCount := g.logCount, logTotal := g.logTotal, stored := g.stored
    brakes := g.brakes.map (fun q =>
      (q.1, ({ hrs := q.2.hrs, tres := q.2.tres, due := q.2.due, blocked := q.2.blocked } : Brake))) }

/-- Every pin of the feedback unit keeps its level; nothing else of it survives a reset. -/
def keptPins (f : Fbk) : Fbk :=
  { ({} : Fbk) with
    level := f.level
    ports := f.ports.map (fun q => (q.1, ({ pinA := q.2.pinA, pinB := q.2.pinB, pinZ := q.2.pinZ } : Port))) }

/-- A reset (R419): every block takes its reset values; flash, fuses, the safety region and the pins stand. The model's own
queue and free-value counter go on. -/
def resetHead (cause : Nat) (s : State) : State :=
  { State.reset with
    pending := s.pending
    free := s.free
    sys := { (State.reset).sys with
      inReset := true, rstCause := cause, rstPrev := s.sys.rstCause, rstCount := if cause = 1 then 0 else inc16 s.sys.rstCount }
    boot := { (State.reset).boot with flash := s.boot.flash, fuseCells := s.boot.fuseCells, vpp := s.boot.vpp }
    sag := keptSaggar s.sag
    fbk := keptPins s.fbk }

/-- SUPPLY_RESET (R418). -/
def execSupplyReset (s : State) : Host.Outcome State Fault Refusal := .next (resetHead 2 s)
/-- REFCLK_LOSS (R409). -/
def execRefclkLoss (s : State) : Host.Outcome State Fault Refusal := .next (resetHead 3 s)
/-- PLL_LOCK_LOSS (R409). -/
def execPllLockLoss (s : State) : Host.Outcome State Fault Refusal := .next (resetHead 4 s)
/-- PORST (R419). -/
def execPorst (s : State) : Host.Outcome State Fault Refusal := .next (resetHead 1 s)

/-- RESET_RELEASE (R415): the straps are sampled, the fuses are sensed (R378), and BOOT begins. -/
def resetRelease (pref casc oct : Bool) (s : State) : State :=
  if s.sys.inReset then
    { s with
      sys := { s.sys with inReset := false, pref := pref, casc := casc, oct := oct }
      boot := { s.boot with fuses := s.boot.fuseCells } }
  else s

/-- RESET_RELEASE (R415). -/
def execResetRelease (pref casc oct : Bool) (s : State) : Host.Outcome State Fault Refusal :=
  .next (resetRelease pref casc oct s)

/-- WATCHDOG_EXPIRY (R420): the time has run out. -/
def execWatchdogExpiry (s : State) : Host.Outcome State Fault Refusal :=
  .next (if s.sys.wdLeft = some 0 then resetHead 6 s else s)

/-- WDKICK (R421). -/
def aWDKICK : Nat := 0x40010208

/-- A kick: the watchdog starts again from its full time, where it counts (R420). -/
def wdKick (w : Word) (s : State) : State :=
  if bit w 0 then modSys (fun y => { y with wdLeft := y.wdLeft.map (fun _ => Cfg.WDCFG_TIME s) }) s else s

/-- WDKICK (R420). -/
def execWdkick (m : Master) (w : Word) (s : State) : Host.Outcome State Fault Refusal :=
  .next (withRight m aWDKICK (keyed w (wdKick w)) s)

end Sys2Proof.Machine
end

