-- ==== Sys2Proof/Machine/Views.lean ====
section
/-! DEFINITION. What every register reads as: the register tables of the chapters, assembled from the records of the
units. A bit no table names, a write-only field and an address no register occupies read 0 (R5). -/

namespace Sys2Proof.Machine

/-! ### Parts of words -/

/-- A truth value at bit i of a word's field list. -/
def fl (i : Nat) (b : Bool) : Nat × Nat × Nat := (i, i, b2n b)
/-- Word i of a 64-bit value, the low word first (R23). -/
def half (x : Int) (i : Nat) : Word := BitVec.ofNat 32 (intMod 64 x >>> (32 * i))
/-- A signed display in n bits that saturates. -/
def satField (n : Nat) (x : Int) : Nat := intMod n (clampInt (-(2 ^ (n - 1))) (2 ^ (n - 1) - 1) x)

/-! ### Axis window (R25, R81, R110, R111, R132, R158) -/

/-- Code of an axis's reaction and state (R110). -/
def axstat (s : State) (a : Nat) : Word :=
  let c := (getAx s a).ctl
  packWord [(31, 24, c.fcode), (22, 20, c.react), fl 19 c.brkRel, fl 18 c.qscmd, fl 17 c.feOver, fl 9 c.swapPend,
    fl 8 c.bank, (2, 0, axStNum c.st)]

/-- Control and state: 0x000 to 0x0FF (R110). -/
def viewCtl (s : State) (a o : Nat) : Word :=
  let c := (getAx s a).ctl
  match o with
  | 0x004 => axstat s a
  | 0x008 => packWord [(31, 24, c.lastCode), fl 16 c.active, (4, 0, c.seen)]
  | 0x018 => packWord [(31, 16, sat16 c.feAcc), (15, 0, Cfg.FETIME_FETIME s (axW a))]
  | 0x01C => wordOfInt (sat32 c.feNow)
  | 0x020 => BitVec.ofNat 32 (min c.fePeak 0xFFFFFFFF)
  | 0x024 => packWord [(31, 16, c.swapCnt), (15, 0, c.refCnt)]
  | _ => 0#32

/-- A probe channel's four words (R158). -/
def viewProbe (p : Probe) (i : Nat) : Word :=
  match i with
  | 0 => half p.pos 0
  | 1 => half p.pos 1
  | 2 => p.round
  | _ => packWord [(27, 16, p.tim), (15, 8, min p.caps 255), fl 7 p.armed, fl 6 p.cont, fl 5 p.done, fl 4 p.falling, fl 3 p.unrel]

/-- A compare channel's four words (R158). -/
def viewCompare (c : Compare) (i : Nat) : Word :=
  match i with
  | 0 => half c.c 0
  | 1 => half c.c 1
  | 2 => c.round
  | _ => packWord [(31, 24, min c.fires 255), (23, 12, c.tim), (11, 8, min c.missed 15), (7, 5, c.st), fl 4 c.late,
      fl 3 c.dir, fl 2 c.rep, fl 1 c.fip, fl 0 c.nodeOut]

/-- Feedback and compare: 0x100 to 0x1FF (R158). -/
def viewFb (s : State) (a o : Nat) : Word :=
  let f := (getAx s a).fb
  if 0x180 ≤ o ∧ o < 0x1A0 then viewProbe (tget {} f.prb ((o - 0x180) / 16)) (o % 16 / 4)
  else if 0x1C0 ≤ o ∧ o < 0x200 then viewCompare (tget {} f.cmp ((o - 0x1C0) / 16)) (o % 16 / 4)
  else
    match o with
    | 0x140 => packWord [(26, 24, f.hall), (22, 20, min f.subRun 7), fl 15 f.slHi, fl 14 f.slLo, fl 13 f.estim,
        fl 11 f.based, fl 10 f.posRel, fl 9 f.bad]
    | 0x144 => BitVec.ofNat 32 f.raw
    | 0x148 => BitVec.ofNat 32 f.ccnt
    | 0x14C => wordOfInt f.corr
    | 0x150 => half f.pos 0
    | 0x154 => half f.pos 1
    | 0x158 => half f.trk 0
    | 0x15C => half f.trk 1
    | 0x160 => BitVec.ofNat 32 f.idxBase
    | 0x164 => wordOfInt f.idxDev
    | 0x168 => packWord [(31, 16, sat16 f.idxCorr), (15, 0, sat16 f.badCnt)]
    | 0x16C => packWord [(31, 16, sat16 f.hallSkip), (15, 0, sat16 f.multi)]
    | 0x170 => wordOfInt f.modTurn
    | _ => 0#32

/-- Current control and power stage: 0x240 to 0x2FF (R81, R132). -/
def viewDrive (s : State) (a o : Nat) : Word :=
  let p := (getAx s a).pred
  let g := (getAx s a).stage
  match o with
  | 0x240 => packWord [(23, 20, min p.missRun 15), fl 19 p.sat, fl 18 p.vlim, fl 17 p.ilim, fl 16 p.bsinj, (10, 8, p.hallSec),
      fl 7 p.hallInt, fl 6 p.idxShown, fl 5 p.goff]
  | 0x244 => packWord [(31, 16, satField 16 p.dtheta), (15, 0, p.thShown)]
  | 0x248 => p.id
  | 0x24C => p.iq
  | 0x250 => p.vd
  | 0x254 => p.vq
  | 0x258 => p.udc
  | 0x25C => packWord [(31, 16, p.dutyB), (15, 0, p.dutyA)]
  | 0x260 => packWord [(15, 0, p.dutyC)]
  | 0x264 => p.omega
  | 0x268 => packWord [(31, 16, satField 16 (openFloat (fDiv p.offB (iplOf s a)))), (15, 0, satField 16 (openFloat (fDiv p.offA (iplOf s a))))]
  | 0x26C => packWord [(31, 16, sat16 p.vlimCnt), (15, 0, sat16 p.missCnt)]
  | 0x290 => packWord [(31, 24, g.legs), fl 23 g.blank, (19, 16, g.step), (15, 12, g.result), (11, 9, g.phase),
      fl 8 (decide (g.seq = .diag)), (5, 4, min g.bsRun 3), fl 3 g.retryOk]
  | 0x294 => g.rMeas
  | 0x298 => packWord [(31, 16, sat16 g.scCnt), (15, 0, sat16 g.bsuvCnt)]
  | _ => 0#32

/-- Cell slot k: FGAIN, which reads 0 but for a FILT, and from offset 0x10 (R111). -/
def viewCell (s : State) (a k o : Nat) : Word :=
  let c := getCell (getAx s a) k
  let ty := cellType s a k
  match o with
  | 0x0C => if ty = 3 then Cfg.FGAIN s (cellW a k) else 0#32
  | 0x10 => c.o0
  | 0x14 => c.o1
  | 0x18 => if ty = 2 ∨ ty = 9 then nth 0#32 c.s 0 else if ty = 6 then c.o0 else 0#32
  | 0x1C => packWord [(31, 16, if ty = 4 then min c.dwell 65535 else 0), (3, 2, if ty = 5 then (fToIntSat 0 c.o1).toNat else 0),
      fl 1 (!fEq c.o1 0), fl 0 c.numf]
  | _ => 0#32

/-! ### Profile block of an owner: 0x300 to 0x3FF (R182) -/

/-- The profile registers but for the banked staging words. -/
def viewProf (s : State) (o : Owner) (k : Nat) : Word :=
  let p := getProf s o
  match k with
  | 0x304 => packWord [(31, 16, p.tag), (15, 10, p.queue.length), fl 9 p.decDef, fl 8 p.jntMiss, fl 7 p.slStop, fl 6 p.rev,
      fl 5 p.ovrCut, fl 4 (decide (p.refPhase ≠ .idle)), fl 3 p.rest, (2, 0, (p.cur.map segNow).getD 0)]
  | 0x308 => packWord [(31, 16, sat16 p.refused), (3, 0, p.errCode)]
  | 0x30C => packWord [(31, 16, sat16 p.done), (15, 0, sat16 p.deferred)]
  | 0x350 => half p.shown.p 0
  | 0x354 => half p.shown.p 1
  | 0x358 => wordOfInt p.shown.v
  | 0x35C => wordOfInt p.shown.a
  | 0x360 => wordOfInt p.shown.j
  | 0x364 => half p.shown.tgt 0
  | 0x368 => half p.shown.tgt 1
  | 0x36C => BitVec.ofNat 32 p.shown.rem
  | _ => 0#32

/-- Staged word i of a move (R163). -/
def moveWord (m : Move) (i : Nat) : Word :=
  match i with
  | 0 => m.ctl
  | 1 => m.tgtLo
  | 2 => m.tgtHi
  | 3 => m.vmax
  | 4 => m.amax
  | 5 => m.dmax
  | 6 => m.jmax
  | _ => m.aux

/-! ### Group window (R201, R202) -/

/-- Group registers outside the profile block. A mover's member table shows its current members (R201). -/
def viewGroup (s : State) (g o : Nat) : Word :=
  let r := getGr s g
  let ty := Cfg.GRCFG_TYPE s (grW g)
  let mem := fun i => (curMembers s g)[i]?.getD 0xFF
  match o with
  | 0x004 => packWord [(31, 24, r.fcode), fl 20 r.sat, fl 19 r.brkShown, fl 18 r.posRel,
      (10, 8, groupLevel s 8 g), (3, 0, r.stShown)]
  | 0x100 => half r.gfbPos 0
  | 0x104 => half r.gfbPos 1
  | 0x108 => wordOfInt (sat32 r.gfe)
  | 0x10C => wordOfInt r.gfbVel
  | 0x110 => BitVec.ofNat 32 (min r.gskew 0xFFFFFFFF)
  | 0x008 => (cfgReg s (grW g + 8) &&& 0xFFFFFF00#32) ||| BitVec.ofNat 32 (curMembers s g).length
  | 0x20C => if ty = 3 then
      packWord [(31, 24, mem 2), (23, 16, mem 1), (15, 8, mem 0), fl 3 r.noThrust, fl 2 r.claim, (1, 0, r.leadMem)]
    else if ty = 1 then packWord [(15, 8, min r.missRun 255), (7, 0, Cfg.GEARCTR_GEARHOLD s (grW g))] else 0#32
  | _ =>
    if 0x80 ≤ o ∧ o < 0x100 then
      BitVec.ofNat 32 (leNat ((List.range 4).map (fun i => BitVec.ofNat 8 ((curMembers s g)[o - 0x80 + i]?.getD 0))) 0 4)
    else if ty = 1 then (if o = 0x210 then half r.lbase 0 else if o = 0x214 then half r.lbase 1 else 0#32)
    else if ty = 3 then
      (if 0x210 ≤ o ∧ o < 0x21C then nth 0#32 r.weights ((o - 0x210) / 4)
       else if 0x21C ≤ o ∧ o < 0x228 then BitVec.ofNat 32 (min (nth 0 r.overlaps ((o - 0x21C) / 4) / 65536) 0xFFFFFFFF) else 0#32)
    else 0#32

/-! ### System unit and retire block (R37, R38, R55, R421) -/

/-- A retire channel is configured (R37). -/
def retPresent (s : State) (cls i : Nat) : Bool :=
  retIndexOk cls i &&
    (match cls with
     | 0 => Cfg.NDCFG_EN s (ndW i)
     | 1 => chOn s (i / 64) && (decide (i % 64 < Cfg.LKCFG_NNODE s (lkW (i / 64))) || decide (i % 64 = 32) || (decide (i % 64 = 33) && Cfg.TWCFG_EN s))
     | 2 => chOn s i
     | 3 => Cfg.TWCFG_EN s
     | 4 => Cfg.CSCFG_EN s
     | 5 => decide (i < usableAxes s) && decide (kindOf s i ≠ 0)
     | 6 => if i < 128 then decide (i < usableAxes s) && decide (Cfg.FBCFG_SRC s (axW i) ≤ 1) else Cfg.LENCCFG_EN s (i - 128)
     | _ => Cfg.SDCFG_EN s i)

/-- RTSTAT of the channel a master has selected (R37). -/
def rtstat (s : State) (m : Master) : Word :=
  let w := tget 0#32 s.ret.sel (masterNo m)
  let cls := bits w 18 16
  let i := bits w 7 0
  let c := getRet s cls i
  if !retPresent s cls i then 3#32
  else
    packWord [(31, 16, sat16 c.backoff), (12, 8, retCount s cls i), fl 4 c.perm,
      (1, 0, match c.st with
        | .inUse => 0
        | .backoff => 1
        | .retired => 2)]

/-- The retired channels: classes. -/
def retiredClasses (s : State) : List Nat := (s.ret.chans.filter (fun q => q.2.st = .retired)).map (fun q => q.1 / 256)

/-- SYS (R37, R38, R55, R421). RNDPOS is read at an instant inside the round that no command tells (log 1); it reads its
reset value until BOOT ends, in which no round runs (log 29). -/
def viewSys (s : State) (m : Master) (o : Nat) : Word :=
  let y := s.sys
  let clk := freeIn s 0 3124
  if 0x800 ≤ o ∧ o < 0xC00 then nth 0#32 (retEntryWords (tget {} s.ret.log ((o - 0x800) / 16))) (o % 16 / 4)
  else
    match o with
    | 0x000 => packWord [fl 2 y.refOk, fl 1 y.sdLock, fl 0 y.crLock]
    | 0x004 => wordOfInt y.trim
    | 0x00C => packWord [(31, 16, sat16 y.wakes), (7, 4, y.wcause), (1, 0, match y.pwr with
        | .run => 0
        | .park => 1
        | .deep => 2)]
    | 0x020 => packWord [fl 3 y.defer, fl 2 y.dip, fl 1 y.aonWarn, fl 0 y.corWarn]
    | 0x024 => packWord [(31, 16, y.spAon), (15, 0, y.spCore)]
    | 0x028 => packWord [(31, 12, y.dipCDur), (11, 0, y.dipCMin)]
    | 0x02C => packWord [(31, 12, y.dipADur), (11, 0, y.dipAMin)]
    | 0x030 => packWord [(31, 16, y.dips), (15, 0, y.long)]
    | 0x034 => packWord [(15, 0, satField 16 y.tj)]
    | 0x100 => y.round
    | 0x104 => if y.inReset || y.hstate = .boot then 0#32 else packWord [(19, 12, clk * 250 / 3125), (11, 0, if y.pwr = .deep then 0xFFF else clk)]
    | 0x10C => packWord [(31, 16, y.latMargin), fl 8 y.latViol, (5, 0, y.latNode)]
    | 0x200 => packWord [(31, 16, y.rstCount), (10, 8, y.rstPrev), (2, 0, y.rstCause)]
    | 0x400 => tget 0#32 s.ret.sel (masterNo m)
    | 0x404 => rtstat s m
    | 0x40C => packWord [(23, 16, min (retiredClasses s).length 255),
        (7, 0, (List.range 8).foldl (fun x k => if (retiredClasses s).contains k then setBit x k true else x) 0)]
    | 0x410 => packWord [(31, 16, s.ret.lost), fl 6 s.ret.wrapped, (5, 0, s.ret.next)]
    | _ => 0#32

/-! ### Event unit (R401, R406) -/

/-- Level of pin j: active or not (R401). -/
def pinActive (s : State) (j : Nat) : Bool :=
  s.sys.hstate ≠ .boot &&
    (if bit s.ev.pinCfg j then s.ev.pulse.getLsbD j
     else (List.range 256).any (fun e =>
      let r := evRoute s e
      s.ev.mask.getLsbD e && bit r 8 && bits r 2 0 = j && s.ev.flags.getLsbD e))

/-- Bank k of a 256-bit set (R398). -/
def evBank (x : BitVec 256) (k : Nat) : Word := (x >>> (32 * k)).setWidth 32

/-- EVT (R406). -/
def viewEvt (s : State) (o : Nat) : Word :=
  if o < 0x20 then evBank s.ev.flags (o / 4)
  else if o < 0x40 then evBank s.ev.mask ((o - 0x20) / 4)
  else if o = 0x40 then s.ev.pinCfg
  else if o = 0x44 then
    packWord [(31, 16, sat16 s.ev.nlost), (7, 0, (List.range 8).foldl (fun x j => setBit x j (pinActive s j)) 0)]
  else if 0x60 ≤ o ∧ o < 0x70 then
    BitVec.ofNat 32 ((List.range 32).foldl (fun x j => setBit x j (tget 0#32 s.ev.grCause ((o - 0x60) / 4 * 32 + j) ≠ 0#32)) 0)
  else if 0x400 ≤ o ∧ o < 0x800 then evRoute s ((o - 0x400) / 4)
  else if 0x800 ≤ o ∧ o < 0xA00 then tget 0#32 s.ev.axCause ((o - 0x800) / 4)
  else if 0xA00 ≤ o ∧ o < 0xC00 then tget 0#32 s.ev.grCause ((o - 0xA00) / 4)
  else 0#32

/-! ### Boot unit, fuses and capability list (R378, R381 to R383) -/

/-- IMGSTAT (R383). -/
def imgstat (s : State) : Word :=
  packWord [(15, 12, s.boot.result), (11, 8, s.boot.lastCmd), fl 3 s.boot.busy, (1, 0, s.boot.inact)]

/-- Word i of the configuration digest (R370). -/
def cfgDigest (s : State) (i : Nat) : Word := BitVec.ofNat 32 (leNat s.boot.digest (4 * i) 4)

/-- BOOT (R383). -/
def viewBoot (s : State) (m : Master) (o : Nat) : Word :=
  if 0x40 ≤ o ∧ o < 0x60 then cfgDigest s ((o - 0x40) / 4)
  else if 0x84 ≤ o ∧ o < 0xA4 then tget 0#32 s.boot.fpData ((o - 0x84) / 4)
  else if 0x100 ≤ o ∧ o < 0x200 then tget 0#32 s.boot.wbuf (masterNo m * 64 + (o - 0x100) / 4)
  else
    match o with
    | 0x00 => btstat s
    | 0x04 => packWord [(31, 16, s.boot.failRec)]
    | 0x08 => imgstat s
    | 0x10 => BitVec.ofNat 32 s.boot.fill
    | 0x14 => s.boot.seq
    | 0x80 => s.boot.fpSel
    | 0xA8 => packWord [fl 3 s.boot.fpBusy, (2, 0, s.boot.fpResult)]
    | _ => 0#32

/-- Bits of the fuse words that the map shows (R378); GRADE 3 is sensed as EY4032. -/
def viewFuse (s : State) (o : Nat) : Word :=
  match o with
  | 0x00 => fuseWord s o
  | 0x04 => fuseWord s o
  | 0x08 => fuseWord s o
  | 0x0C => fuseWord s o &&& 0xFFFF#32
  | 0x10 => packWord [(25, 16, bits (fuseWord s o) 25 16), (13, 12, bits (fuseWord s o) 13 12), (9, 4, bits (fuseWord s o) 9 4),
      (1, 0, gradeOf s)] &&& 0x03FF33F3#32
  | 0x14 => fuseWord s o &&& 0x0FFF0FFF#32
  | 0x18 => fuseWord s o &&& 0x7F#32
  | _ => if 0x20 ≤ o ∧ o < 0x40 then fuseWord s o else 0#32

/-- Mask of the powered clusters (R382). -/
def clusterMask (s : State) : Nat := (List.range 4).foldl (fun x c => setBit x c (clusterOn s c)) 0

/-- The records of the capability list: ID and words (R381, R382), in rising ID without gaps (log 23). -/
def capRecords (s : State) : List (Nat × List Word) :=
  let grade := viewFuse s 0x10
  let device := (1, [viewFuse s 0, viewFuse s 4, packWord [(7, 4, bits grade 7 4), (1, 0, gradeOf s)],
    packWord [(11, 8, clusterMask s), (7, 0, usableAxes s)]])
  let info := (2, [s.boot.info.getD (btstat s), s.boot.seq, BitVec.ofNat 32 s.boot.len])
  let fuses := (5, [viewFuse s 0x10, viewFuse s 0x14, viewFuse s 0x18])
  if s.sys.hstate = .boot then [device, info, fuses]
  else
    [device, info, (3, (List.range 8).map (cfgDigest s)),
      (4, (List.range 9).flatMap (fun i => [BitVec.ofNat 32 (partBase s i), BitVec.ofNat 32 (partSize s i)])), fuses,
      (6, [packWord [fl 24 (Cfg.RNDCFG_LAT3 s), (21, 16, Cfg.LKCFG_NNODE s (lkW 1)), (13, 8, Cfg.LKCFG_NNODE s (lkW 0)),
        fl 1 (chOn s 1), fl 0 (chOn s 0)]]),
      (7, [packWord [fl 7 (masterPair s), (6, 4, Cfg.CSCFG_CHEAD s), fl 1 s.sys.pref, fl 0 (Cfg.TWCFG_EN s)]])]

/-- The words of the list from address a (R381). -/
def capWords : Nat → List (Nat × List Word) → List Word
  | _, [] => []
  | a, (id, ws) :: t =>
    let n := ws.length + 2
    packWord [(31, 16, id), (15, 8, 1), (7, 0, n)] :: (if t.isEmpty then 0#32 else BitVec.ofNat 32 (a + 4 * n)) :: ws
      ++ capWords (a + 4 * n) t

/-- CAP (R381). -/
def viewCap (s : State) (o : Nat) : Word := nth 0#32 (capWords 0x40000000 (capRecords s)) (o / 4)

/-! ### Host port (R405) -/

/-- The unit replies BOOTING (R375, R388). -/
def booting (s : State) : Bool := !s.sys.reached && !s.boot.noImage

/-- UDP port in use (R387). -/
def udpPort (s : State) : Nat := let p := bits (nth 0#32 s.host.net 4) 15 0; if p = 0 then 40960 else p

/-- HOST (R405). -/
def viewHost (s : State) (o : Nat) : Word :=
  let h := s.host
  if 0x40 ≤ o ∧ o < 0x60 then
    match tget none h.subs ((o - 0x40) / 8) with
    | some b =>
      match b.snd with
      | .udp ip port _ _ => if o % 8 = 0 then ip else packWord [fl 31 true, (15, 0, port)]
      | .spi => if o % 8 = 0 then 0#32 else packWord [fl 31 true, fl 30 true]
      | .core => 0#32
    | none => 0#32
  else
    match o with
    | 0x00 => packWord [fl 4 h.netOk, fl 3 (pairRole s), fl 2 (booting s), fl 1 h.fdx, fl 0 h.link]
    | 0x04 => packWord [(31, 16, h.rxok), (15, 0, h.drop)]
    | 0x08 => packWord [(31, 16, h.busy), (15, 0, h.dup)]
    | 0x10 => nth 0#32 h.net 0
    | 0x14 => nth 0#32 h.net (if s.sys.pref then 1 else 2)
    | 0x18 => packWord [(20, 16, bits (nth 0#32 h.net 5) 4 0), (15, 0, udpPort s)]
    | _ => 0#32

/-! ### Link (R225, R233, R234, R261) -/

/-- A RING or delay in ns, 0xFFFF where there is none; units of 312.5 ps are 5/16 ns. -/
def ringNs (r : Option Nat) : Nat :=
  match r with
  | some x => sat16 (openDiv (5 * (x : Int)) 16).toNat
  | none => 0xFFFF

/-- STATE of a channel (R261). -/
def chanState (s : State) (ch : Nat) : Nat :=
  let c := getCh s ch
  if !chOn s ch || s.sys.hstate = .boot then 0
  else if isRetired s clsChannel ch then 6
  else if c.lost then 5
  else if s.sys.hstate = .listen then 1
  else if s.sys.hstate = .coldstart then 2
  else if c.heal then 4
  else 3

/-- LINK ch (R234, R261). -/
def viewLink (s : State) (ch o : Nat) : Word :=
  let c := getCh s ch
  if 0x200 ≤ o ∧ o < 0x300 then
    let n := (o - 0x200) / 4
    let d := getNode s ch n
    if !nodeOn s n ch || !Cfg.NDCFG_EN s (ndW n) then 0#32
    else packWord [(31, 24, satField 8 d.eofs), (19, 16, min d.oowRun 8), (11, 11, d.port), fl 10 d.wrap, (2, 0, d.st)]
  else if 0x300 ≤ o ∧ o < 0x400 then
    let d := getNode s ch ((o - 0x300) / 4)
    packWord [(31, 16, (d.dup.map sat16).getD 0xFFFF), (15, 0, (d.ddn.map sat16).getD 0xFFFF)]
  else
    match o with
    | 0x004 => packWord [fl 7 c.txdis1, fl 6 c.los1, fl 5 c.lock1, fl 4 c.align1, fl 3 c.txdis0, fl 2 c.los0, fl 1 c.lock0, fl 0 c.align0]
    | 0x008 => packWord [(31, 16, c.crcErr), (15, 0, c.codeErr)]
    | 0x00C => packWord [(31, 16, c.mismatch), (15, 0, c.stale)]
    | 0x100 => packWord [(23, 16, (c.hseg.map (fun b => 64 * ch + b)).getD 0xFF), fl 11 c.dlyImpl, fl 10 (decide (s.link.skim = some ch)), fl 9 (inSkim s),
        (2, 0, chanState s ch)]
    | 0x104 => packWord [(31, 16, ringNs c.ring1), (15, 0, ringNs c.ring0)]
    | 0x10C => packWord [(31, 16, c.oow), (15, 0, c.reint)]
    | 0x110 => packWord [(31, 16, c.heals), (15, 0, c.coll)]
    | _ => 0#32

/-- SCHED: the tables in SRAM at 0x0000 to 0x7FFF, and the diagnosis words of the node descriptors (R225, R232, R233). -/
def viewSched (s : State) (o : Nat) : Word :=
  if o < 0x8000 then (if partSize s ptSCHED = 0 then 0#32 else memWord s (partBase s ptSCHED + o))
  else if o < 0x9000 then
    let d := tget {} s.link.diags ((o - 0x8000) / 0x40)
    match o % 0x40 with
    | 0x30 => d.d0
    | 0x34 => d.d1
    | 0x38 => d.d2
    | 0x3C => d.rnd
    | _ => 0#32
  else 0#32

/-! ### Clusters, pins, power stage, twin and cascade (R56, R133, R159, R287, R288) -/

/-- CHURN c (R56). PEAK is that of the schedule in force: whether the skim schedule changes it the spec does not say
(DESIGN CHOICE, log 33). -/
def viewChurn (s : State) (c o : Nat) : Word :=
  let k : Cluster := tget {} s.clusters c
  if 0x3F100 ≤ o ∧ o < 0x3F180 then
    let a := 32 * c + (o - 0x3F100) / 4
    packWord [(19, 16, phaseOf s a), (12, 8, if s.cfg.isEmpty then 0 else (computeOrder s c).findIdx (fun b => b = a))]
  else if o = 0x3F004 then packWord [(27, 16, min k.endLast 0xFFF), (11, 0, min k.endPeak 0xFFF)]
  else if o = 0x3F008 then
    packWord [(30, 16, min ((imageTurns s c).foldl (fun n t => max n (turnsLoad t)) 0) 0x7FFF), (14, 0, min k.loadLast 0x7FFF)]
  else 0#32

/-- FBK (R159). -/
def viewFbk (s : State) (o : Nat) : Word :=
  if o < 0x80 then
    let p : Port := tget {} s.fbk.ports (o / 16)
    if o % 16 = 8 then BitVec.ofNat 32 p.count
    else if o % 16 = 12 then packWord [(31, 16, sat16 p.errCnt), (2, 0, p.pinsT0)] else 0#32
  else if o = 0x80 then packWord [(7, 0, s.fbk.level.toNat)]
  else 0#32

/-- PSTAGE (R133). -/
def viewPstage (s : State) (o : Nat) : Word :=
  let p := s.ps
  if 0x100 ≤ o ∧ o < 0x180 then (if o % 16 = 12 then sdVal s ((o - 0x100) / 16) else 0#32)
  else
    match o with
    | 0x04 => packWord [(31, 16, p.tripCnt), fl 13 p.sdiFail, fl 12 p.anaFail, fl 11 p.tripped, fl 10 p.srcSdi, fl 9 p.srcAna]
    | 0x30 => packWord [fl 12 (bchop s), (11, 8, p.overload), (7, 4, p.forced), (3, 0, p.on ||| p.forced)]
    | 0x44 => packWord [fl 8 p.testBusy, (7, 4, p.testTarget), (2, 0, p.testResult)]
    | _ => 0#32

/-- TWSTAT (R287). -/
def twstat (s : State) : Word :=
  let t := s.twin
  packWord [(31, 16, s.sys.epoch), (15, 12, t.cause), fl 11 t.unprot, fl 10 t.hbinh, fl 9 t.tll, fl 8 (laneUp s),
    (6, 4, t.peerSt), (2, 0, headCode s.sys.hstate)]

/-- TWIN (R287). TWCFG.PREF shows the strap. -/
def viewTwin (s : State) (o : Nat) : Word :=
  let t := s.twin
  match o with
  | 0x00 => cfgReg s 0x40400000 ||| packWord [fl 30 s.sys.pref]
  | 0x08 => twstat s
  | 0x0C => healthWord s
  | 0x10 => t.peerHealth
  | 0x14 => packWord [(31, 16, t.takeovers), (15, 0, t.handbacks)]
  | 0x18 => packWord [(31, 16, t.digCnt), (15, 0, t.entries)]
  | 0x20 => packWord [(15, 0, satField 16 t.ofs)]
  | 0x24 => t.lastRnd
  | _ => 0#32

/-- CASC (R288). CSCFG.MASTER shows the strap or the image. -/
def viewCasc (s : State) (o : Nat) : Word :=
  let c := s.casc
  match o with
  | 0x00 => cfgReg s 0x40410000 ||| packWord [fl 30 (masterPair s)]
  | 0x08 => packWord [(31, 16, satField 16 c.offs), fl 4 (masterPair s && driving s), fl 3 c.rndErr, (2, 0, c.st)]
  | 0x0C => packWord [(31, 16, sat16 c.crcErr), (15, 0, sat16 c.late)]
  | _ => 0#32

/-! ### Saggar, recorder and Ladle (R316, R334, R361 to R363) -/

/-- SGSTAT (R316). -/
def sgstat (s : State) : Word :=
  let g := s.sag
  packWord [(31, 24, g.cause), (23, 16, g.index), fl 15 (bit (fuseWord s 0x10) 8), fl 13 (decide (64 ≤ g.logCount)),
    fl 12 (sealOpen s), fl 11 g.sealPin, fl 10 g.blkMs.isSome, fl 9 g.deg, (1, 0, g.st)]

/-- SAGGAR (R309, R310, R316). -/
def viewSaggar (s : State) (o : Nat) : Word :=
  let g := s.sag
  if 0x180 ≤ o ∧ o < 0x200 then
    let k := getBrk s ((o - 0x180) / 4)
    packWord [(31, 16, sat16 k.hrs), (12, 10, k.tres), fl 9 k.due, fl 8 k.blocked, (5, 4, k.fb), (3, 2, k.cmd), (1, 0, k.link)]
  else if 0x400 ≤ o ∧ o < 0x600 then sagParam s ((o - 0x400) / 4)
  else if 0x800 ≤ o ∧ o < 0x1000 then logWord s ((o - 0x800) / 32) (o % 32 / 4)
  else
    match o with
    | 0x00 => sgstat s
    | 0x04 => g.lockRnd
    | 0x40 => g.sel
    | 0x44 => g.val
    | 0x48 => packWord [(31, 16, g.logTotal), (6, 0, g.logCount)]
    | 0x4C => packWord [(31, 16, sat16 g.missPeriods), (15, 0, sat16 g.refusedCopies)]
    | 0x210 => packWord [(11, 8, g.sfb), (7, 4, g.outset), (3, 0, g.outOn)]
    | _ => 0#32

/-- RECORD (R334); RCPMS shows what the master's last read of RCPSEC latched. -/
def viewRecord (s : State) (m : Master) (o : Nat) : Word :=
  let r := s.rcd
  match o with
  | 0x00 => packWord [(20, 16, r.clrCnt), fl 8 r.auth, fl 7 (decide (16 ≤ r.clrCnt)), fl 6 r.loadErr, fl 5 r.saveErr,
      fl 4 r.deferred, fl 3 r.saving, (2, 0, r.loadSrc)]
  | 0x04 => packWord [(31, 16, sat16 r.lost), fl 11 r.full, (10, 0, r.count)]
  | 0x08 => r.pc
  | 0x0C => r.sec
  | 0x10 => packWord [(9, 0, (getMs s m).rcMs)]
  | 0x14 => r.saveSeq
  | 0x18 => r.saveSec
  | 0x1C => packWord [(31, 16, sat16 r.skip), (15, 0, sat16 r.saveFail)]
  | 0x24 => packWord [(7, 4, r.lastCmd), (3, 0, r.result)]
  | _ => 0#32

/-- LADLE (R361 to R363). -/
def viewLadle (s : State) (o : Nat) : Word :=
  if o < 0xA0 then
    let k := getCore s (o / 0x20)
    match o % 0x20 with
    | 0x00 => packWord [fl 8 k.clkOff, (7, 4, k.hcause), (2, 0, k.st)]
    | 0x04 => k.fpc
    | 0x08 => k.faddr
    | 0x0C => packWord [(31, 16, sat16 k.ovrCnt), (15, 0, sat16 k.halts)]
    | 0x14 => packWord [(11, 0, k.peak)]
    | _ => 0#32
  else if 0x400 ≤ o ∧ o < 0xC00 then
    let x : SliceSt := tget {} s.lad.slices ((o - 0x400) / 16)
    if o % 16 = 12 then packWord [(31, 16, sat16 x.ovr), (13, 12, x.lastf), (11, 0, min x.last 0xFFF)] else 0#32
  else if o = 0x114 then packWord [(2, 0, s.lad.ipend)]
  else if o = 0x118 then s.lad.mbox
  else 0#32

/-! ### The whole register space -/

/-- An axis or group window that reads 0 and ignores writes (R2, R19). -/
def windowDead (s : State) (r : Region) : Bool :=
  match r with
  | .axis a => usableAxes s ≤ a
  | .grp g => !windowSet s (grW g) 0x400
  | .churn c => !clusterOn s c
  | _ => false

/-- Group g as its window shows it (R24): as its last tick, or the last computation of its lead, left it, with the entry in
use of R182. -/
def groupShown (s : State) (g : Nat) : State :=
  let r := tget {} s.seenGr g
  { s with groups := tset s.groups g { r with prof := { r.prof with shown := (getGr s g).prof.shown } } }

/-- A register that is no configuration field (R20), as master m reads it. -/
def dynWord (s : State) (m : Master) (a : Nat) : Word :=
  match regionOf a with
  | none => 0#32
  | some r =>
    let o := a % 0x10000
    match r with
    | .sram => memWord s a
    | .cap => viewCap s o
    | .sys => viewSys s m o
    | .evt => viewEvt s o
    | .boot => viewBoot s m o
    | .host => viewHost s o
    | .link ch => viewLink s ch o
    | .sched => viewSched s o
    | .churn c => viewChurn s c (a % 0x40000)
    | .wheel => 0#32
    | .group => 0#32
    | .fbk => viewFbk s o
    | .pstage => viewPstage s o
    | .twin => viewTwin s o
    | .casc => viewCasc s o
    | .saggar => viewSaggar s o
    | .record => viewRecord s m o
    | .ladle => if inLocal a then memWord s a else viewLadle s o
    | .fuse => viewFuse s o
    | .axis x =>
      let k := a % 0x1000
      let q := axisShown s x
      if k < 0x100 then viewCtl q x k
      else if k < 0x200 then viewFb q x k
      else if k < 0x300 then viewDrive q x k
      else if 0x310 ≤ k ∧ k < 0x330 then moveWord (stagedMove s m (.axis x)) ((k - 0x310) / 4)
      else if k < 0x400 then viewProf q (.axis x) k
      else if k < 0x800 then viewCell q x ((k - 0x400) / 0x40) (k % 0x40)
      else memWord s (coefAddr s x (decide (0xC00 ≤ k)) 0 ((k % 0x400) / 4))
    | .grp g =>
      let k := a % 0x400
      if 0x310 ≤ k ∧ k < 0x330 then moveWord (stagedMove s m (.group g)) ((k - 0x310) / 4)
      else if k < 0x300 then viewGroup (groupShown s g) g k
      else viewProf (groupShown s g) (.group g) k

/-- What the word at an aligned address reads as for master m (R2, R5, R19, R20). -/
def regWord (s : State) (m : Master) (a : Nat) : Word :=
  match regionOf a with
  | none => 0#32
  | some r =>
    if windowDead s r then 0#32
    else
      let dyn := a = 0x40400000 || a = 0x40410000 || (r = .saggar && decide (0x40500400 ≤ a)) || (0x40200000 ≤ a && a < 0x40300000 && decide (a % 0x40000 ≠ 0x3F000))
        || (match r with
          | .axis _ => a % 0x1000 = 0x018 || (decide (0x400 ≤ a % 0x1000) && decide (a % 0x1000 < 0x800) && decide (a % 0x40 = 0x0C))
          | .grp g => a % 0x400 = 0x20C || (isMover s g && (a % 0x400 = 0x008 || (decide (0x80 ≤ a % 0x400) && decide (a % 0x400 < 0x100))))
          | _ => false)
      match (if dyn then none else cfgMask a) with
      | some _ => cfgReg s a
      | none => dynWord s m a

/-! ### Reads (R23, R55, R334) -/

/-- Low words of the 64-bit registers (R23). -/
def isPairLow (s : State) (a : Nat) : Bool :=
  match regionOf a with
  | some (.axis _) =>
    let k := a % 0x1000
    [0x118, 0x120, 0x128, 0x130, 0x150, 0x158, 0x180, 0x190, 0x1C0, 0x1D0, 0x1E0, 0x1F0, 0x314, 0x350, 0x364, 0x390].contains k
  | some (.grp g) =>
    let k := a % 0x400
    [0x100, 0x314, 0x350, 0x364].contains k || (k = 0x210 && Cfg.GRCFG_TYPE s (grW g) = 1)
  | some .group => 0x40311000 ≤ a && a < 0x40311800 && a % 16 = 4
  | _ => false

/-- A read of the aligned word at `a` by master m, with what it latches: the high word of a pair, MS beside SEC, and the
free instant of RNDPOS. -/
def readWord (m : Master) (a : Nat) (s : State) : State × Word :=
  let w := regWord s m a
  if isPairLow s a then (modMs s m (fun q => { q with hi := tset q.hi (a + 4) (some (regWord s m (a + 4))) }), w)
  else if a = 0x4060000C then (modMs s m (fun q => { q with rcMs := s.rcd.ms }), w)
  else if a = 0x40010104 then (s.tick, w)
  else
    match tget none (getMs s m).hi a with
    | some v => (modMs s m (fun q => { q with hi := tset q.hi a none }), v)
    | none => (s, w)

end Sys2Proof.Machine
end

