-- ==== Sys2Proof/Machine/LadleCore.lean ====
section
/-! DEFINITION. Control of the Ladle cores: halts, RESTART, STOP and LDMBOX (R349, R353, R354, R359 to R362). -/

namespace Sys2Proof.Machine

/-- RESTART of core c (R354, R360): a halted wide core runs its slices again from T0 of the next round and the cause of
fault 0x09 ends; the compact core starts at LDCENTRY in the primary set. A core that is not halted goes on. -/
def restartCore (c : Nat) (s : State) : State :=
  if (getCore s c).st ≠ 2 then s
  else if c = 4 then
    modCore 4 (fun k => { k with st := 1, hcause := 0, faddr := 0, pc := Cfg.LDCENTRY s, shadow := false, recent := [] }) s
  else
    forAll (sliceAxes s c) (fun a => setCause a 0x09 false)
      (modCore c (fun k => { k with st := 0, hcause := 0, faddr := 0, restartPend := true, shadow := false, recent := [] }) s)

/-- STOP of core c (R354): a core that runs or waits halts with HCAUSE 6. -/
def stopCore (c : Nat) (s : State) : State := if (getCore s c).st < 2 then haltCore c 6 0 s else s

/-- LDCMD (R362). -/
def aLDCMD : Nat := 0x40700100

/-- An LDCMD command of master m; none where it is refused (R354, R362). -/
def ldCommand (m : Master) (cmd c : Nat) (s : State) : Option State :=
  if 4 < c ∨ (m = .compact ∧ c = 4) then none
  else
    match cmd with
    | 1 => some (restartCore c s)
    | 2 => some (stopCore c s)
    | _ => none

/-- A write of LDCMD with the right key. -/
def ldAct (m : Master) (cmd c : Nat) (s : State) : State := (ldCommand m cmd c s).getD (refuseWrite s)

/-- RESTART (R354). -/
def execRestart (m : Master) (c : Nat) (s : State) : Host.Outcome State Fault Refusal :=
  .next (withRight m aLDCMD (ldAct m 1 c) s)

/-- STOP (R354). -/
def execStop (m : Master) (c : Nat) (s : State) : Host.Outcome State Fault Refusal :=
  .next (withRight m aLDCMD (ldAct m 2 c) s)

/-- LDMBOX (R362). -/
def aLDMBOX : Nat := 0x40700118

/-- A write of LDMBOX sets MBOX (R359). -/
def mboxWrite (v : Word) (s : State) : State :=
  { s with lad := { s.lad with mbox := v, ipend := setBit s.lad.ipend 2 true } }

/-- LDMBOX_WRITE (R359). -/
def execLdmboxWrite (m : Master) (v : Word) (s : State) : Host.Outcome State Fault Refusal :=
  .next (withRight m aLDMBOX (mboxWrite v) s)

/-- SLICE_OVERRUN (R353): the oldest slice of core c that was still running at S + BUDGET is stopped. -/
def sliceOverrun (c : Nat) (s : State) : State :=
  match (getCore s c).overran with
  | [] => s
  | a :: l =>
    let s1 := modCore c (fun k => { k with
      overran := l, ovrCnt := inc16 k.ovrCnt
      st := if k.axis = some a then 0 else k.st, axis := if k.axis = some a then none else k.axis
      shadow := k.shadow && k.axis ≠ some a }) s
    ladleFault a 1 (Cfg.SLCFG_OREACT s (slW a)) (raiseAx a caOverrun (modSlice a (fun x => { x with ovr := inc16 x.ovr }) s1))

/-- SLICE_OVERRUN (R353). -/
def execSliceOverrun (c : Nat) (s : State) : Host.Outcome State Fault Refusal := .next (sliceOverrun c s)

end Sys2Proof.Machine
end

