-- ==== Sys2Proof/Machine/RegWrite.lean ====
section
/-! DEFINITION. What a write to an address does (R5, R19 to R24, R102, R109, R168, R356): the access codes of every
register, and what may be written in SRAM. -/

namespace Sys2Proof.Machine

/-- What became of a write: done, ignored under R20, refused by its command with the unit's code where it has one, or
refused under R5, R19 or R21. -/
inductive WRes where
  | done | ignored | access
  | refused (code : Option Nat)
  deriving DecidableEq, Repr

/-- A write that R20 does not allow. -/
def wIgnored (s : State) : State × WRes := (refuseWrite s, .ignored)
/-- A write that R5, R19 or R21 refuses. -/
def wAccess (s : State) : State × WRes := (busError s, .access)
/-- A write that takes effect. -/
def wDone (s : State) : State × WRes := (s, .done)
/-- A command that may be refused; a refused one raises the refused-write event. -/
def wTry (o : Option State) (s : State) : State × WRes :=
  match o with
  | some t => (t, .done)
  | none => (refuseWrite s, .refused none)
/-- A command whose unit refuses it under a code, 0 for none. -/
def wCode (code : Nat) (s : State) : State × WRes := (s, if code = 0 then .done else .refused (some code))
/-- A keyed register: without the key the write acts as nothing and raises the refused-write event. -/
def wKeyed (w : Word) (f : State → State × WRes) (s : State) : State × WRes :=
  if bits w 31 16 = Config.key then f s else wDone (refuseWrite s)

/-! ### SRAM (R20, R27, R28, R102, R356) -/

/-- The bank of the AXIS partition in which an address lies: axis and bank. -/
def bankAt (s : State) (a : Nat) : Option (Nat × Bool) :=
  if inPart s ptAXIS a ∧ (a - partBase s ptAXIS) / 0x800 < 128 then
    some ((a - partBase s ptAXIS) / 0x800, decide (0x400 ≤ (a - partBase s ptAXIS) % 0x800))
  else none

/-- The bank may be written: it is not the active one, and no swap is pending (R102). -/
def bankWritable (s : State) (x : Nat) (bank : Bool) : Bool :=
  let c := (getAx s x).ctl
  decide (c.bank ≠ bank) && !c.swapPend

/-- A write of bytes to SRAM by master m (R20, R356): a wide core's store acts at once; a write of the host or the compact
core to the LADLE partition is held until T0 of the next round. -/
def sramWrite (m : Master) (a : Nat) (bs : List Byte) (s : State) : State × WRes :=
  if inPart s ptLADLE a then
    match m with
    | .wide _ => wDone (memPut a bs s)
    | _ => wDone { s with lad := { s.lad with
        held := s.lad.held ++ [{ due := s.sys.round + 1, addr := a, bytes := bs, own := m = .compact }] } }
  else
    match bankAt s a with
    | some (x, bank) => if bankWritable s x bank then wDone (memPut a bs s) else wIgnored s
    | none => if (List.range 8).any (fun i => inPart s i a) then wIgnored s else wDone (memPut a bs s)

/-! ### Staging and arming registers of an owner (R23, R156, R168, R182) -/

/-- Change the move a master has staged for an owner. -/
def modStag (m : Master) (o : Owner) (f : Move → Move) (s : State) : State :=
  modMs s m (fun q => { q with stag := tset q.stag (ownKey o) (f (stagedMove s m o)) })

/-- Staged word i takes a value (R163, R168), with its reserved bits, of which a 1 makes the descriptor invalid (R182);
the target's two words take effect together (R23). -/
def stagWrite (m : Master) (o : Owner) (i : Nat) (v : Word) (s : State) : State :=
  let at_ := ownW o + 0x314
  match i with
  | 0 => modStag m o (fun x => { x with ctl := v }) s
  | 1 => modMs s m (fun q => { q with lo := tset q.lo at_ (some v) })
  | 2 =>
    let lo := tget none (getMs s m).lo at_
    modMs (modStag m o (fun x => { x with tgtHi := v, tgtLo := lo.getD x.tgtLo }) s) m (fun q => { q with lo := tset q.lo at_ none })
  | 3 => modStag m o (fun x => { x with vmax := v }) s
  | 4 => modStag m o (fun x => { x with amax := v }) s
  | 5 => modStag m o (fun x => { x with dmax := v }) s
  | 6 => modStag m o (fun x => { x with jmax := v }) s
  | _ => modStag m o (fun x => { x with aux := v }) s

/-- CMPW0 to CMPW3 and PRBW of axis a (R156, R182). -/
def armWrite (m : Master) (a k : Nat) (v : Word) (s : State) : State :=
  let h : Word × Word × Word := tget (0#32, 0#32, 0#32) (getMs s m).cmpw a
  let keep := fun (x : Word × Word × Word) => modMs s m (fun q => { q with cmpw := tset q.cmpw a x })
  match k with
  | 0x330 => keep (v, h.2.1, h.2.2)
  | 0x334 => keep (h.1, v, h.2.2)
  | 0x338 => keep (h.1, h.2.1, v)
  | 0x33C => armCompare a h.1 h.2.1 h.2.2 v s
  | _ => armProbe a v s

/-- The profile block of an owner, from offset 0x300 (R182). In a group window no arming word acts (log 14). -/
def profWrite (m : Master) (o : Owner) (k : Nat) (v : Word) (s : State) : State × WRes :=
  if k = 0x300 then
    wCode (if bits v 3 0 = 0 then 0 else pfCheck o (bits v 3 0) (stagedMove s m o) s) (pfCommand o (bits v 3 0) (stagedMove s m o) s)
  else if 0x310 ≤ k ∧ k < 0x330 then wDone (stagWrite m o ((k - 0x310) / 4) v s)
  else if 0x330 ≤ k ∧ k ≤ 0x340 then
    match o with
    | .axis a => wCode (if k = 0x340 ∧ probeRefused s a v then 8 else 0) (armWrite m a k v s)
    | .group _ => wCode 8 (pfRefuse o 8 s)
  else wIgnored s

/-! ### Windows -/

/-- The axis window (R25). -/
def axisWrite (m : Master) (x k : Nat) (v : Word) (s : State) : State × WRes :=
  if k = 0 then
    let r := if bits v 2 0 = 0 then (s, false) else ctlSubmit (.axis x (bits v 2 0)) s
    let bad := bit v 8 && swapRefused r.1 x
    let s1 := if bit v 8 then swapRequest x r.1 else r.1
    if bad then wCode 1 s1 else (s1, if r.2 then .refused none else .done)
  else if k = 0x008 then
    let f := fun (c : AxCtl) => { c with seenClr := (List.range 5).foldl (fun n i => setBit n i (c.seenClr.testBit i || bit v i)) 0 }
    wDone (if hasComputation s x then modCtl s x f else modCtl s x (fun c => clearSeen (f c)))
  else if 0x300 ≤ k ∧ k < 0x400 then profWrite m (.axis x) k v s
  else if 0x800 ≤ k ∧ bankWritable s x (decide (0xC00 ≤ k)) then
    wDone (memPutW (coefAddr s x (decide (0xC00 ≤ k)) 0 ((k % 0x400) / 4)) v s)
  else wIgnored s

/-- The group window (R26). -/
def groupWrite (m : Master) (g k : Nat) (v : Word) (s : State) : State × WRes :=
  if k = 0 then
    let r := if bit v 15 then ctlSubmit (.locgo g (bits v 14 8)) s else (s, false)
    let q := if bits v 2 0 = 0 then (r.1, false) else ctlSubmit (.group g (bits v 2 0) []) r.1
    (q.1, if r.2 || q.2 then .refused none else .done)
  else if 0x300 ≤ k then profWrite m (.group g) k v s
  else wIgnored s

/-! ### Regions -/

/-- SYS (R37, R55, R421). -/
def sysWrite (m : Master) (o : Nat) (v : Word) (s : State) : State × WRes :=
  match o with
  | 0x010 => wKeyed v (fun s => if !bit v 0 then wDone s
      else if s.sys.pwr = .park && driving s && !s.boot.busy && !s.boot.fpBusy then wDone (deepRequest s) else (deepRequest s, .refused none)) s
  | 0x10C => wDone (modSys (fun y => { y with latViol := y.latViol && !bit v 8 }) s)
  | 0x208 => wKeyed v (fun s => wDone (wdKick v s)) s
  | 0x400 => wDone { s with ret := { s.ret with sel := tset s.ret.sel (masterNo m) (v &&& 0x000700FF#32) } }
  | 0x408 => wKeyed v (fun s => wDone (if bit v 0 then releaseChannel (bits (rtSel s m) 18 16) (bits (rtSel s m) 7 0) s else s)) s
  | _ => wIgnored s

/-- Change the event unit. -/
def modEv (f : Events → Events) (s : State) : State := { s with ev := f s.ev }

/-- A word in its place in a 256-bit set. -/
def bankBits (v : Word) (k : Nat) : BitVec 256 := v.setWidth 256 <<< (32 * k)

/-- The valid events (R398, R406). -/
def validSet : BitVec 256 :=
  BitVec.ofNat 256 ((List.range 256).foldl (fun n e => if evValid e then n + 2 ^ e else n) 0)

/-- EVT (R406). -/
def evtWrite (o : Nat) (v : Word) (s : State) : State × WRes :=
  if o < 0x20 then wDone (modEv (fun e => { e with flags := e.flags &&& ~~~ bankBits v (o / 4) }) s)
  else if o < 0x40 then
    let k := (o - 0x20) / 4
    wDone (modEv (fun e => { e with mask := (e.mask &&& ~~~ bankBits 0xFFFFFFFF#32 k) ||| (bankBits v k &&& validSet) }) s)
  else if o = 0x40 then wDone (modEv (fun e => { e with pinCfg := v &&& 0xFFFF#32 }) s)
  else if 0x400 ≤ o ∧ o < 0x800 then wDone (modEv (fun e => { e with route := tset e.route ((o - 0x400) / 4) (v &&& 0x307#32) }) s)
  else if 0x800 ≤ o ∧ o < 0xA00 then
    let a := (o - 0x800) / 4
    wDone (modEv (fun e => { e with axCause := tset e.axCause a (tget 0#32 e.axCause a &&& ~~~ v) }) s)
  else if 0xA00 ≤ o ∧ o < 0xC00 then
    let g := (o - 0xA00) / 4
    wDone (modEv (fun e => { e with grCause := tset e.grCause g (tget 0#32 e.grCause g &&& ~~~ v) }) s)
  else wIgnored s

/-- BOOT (R376, R379, R383). -/
def bootWrite (m : Master) (o : Nat) (v : Word) (s : State) : State × WRes :=
  if o = 0x0C then wKeyed v (fun s => 
      wCode (imgRefusal s (bits v 3 0) (bits v 5 4) (bits v 15 8)) (imageCmd (bits v 3 0) (bits v 5 4) (bits v 15 8) (stagedWords s m) s)) s
  else if o = 0x80 then wDone (modBoot (fun b => { b with fpSel := v &&& 7#32 }) s)
  else if 0x84 ≤ o ∧ o < 0xA4 then wDone (modBoot (fun b => { b with fpData := tset b.fpData ((o - 0x84) / 4) v }) s)
  else if o = 0xA4 then 
    wCode (if bits v 31 16 = Config.key ∧ bit v 0 ∧ !s.boot.fpBusy then fuseRefusal s else 0) (fpcmdGo .host v s.boot.vpp s)
  else if 0x100 ≤ o ∧ o < 0x200 then
    wDone (modBoot (fun b => { b with wbuf := tset b.wbuf (masterNo m * 64 + (o - 0x100) / 4) v }) s)
  else wIgnored s

/-- Saggar refuses a command: its event is raised (R301, R308 to R310). -/
def sagRefused (w : Word) (s : State) : Bool :=
  let s0 := modEv (fun e => { e with flags := e.flags &&& ~~~ BitVec.ofNat 256 (2 ^ evSafetyRefused) }) s
  (sagCommand w s0).ev.flags.getLsbD evSafetyRefused

/-- SAGGAR (R309, R316): SGPSEL and SGPVAL take a write only while the seal is open. -/
def sagWrite (o : Nat) (v : Word) (s : State) : State × WRes :=
  if o = 0x10 then wKeyed v (fun s => if sagRefused v s then (sagCommand v s, .refused none) else wDone (sagCommand v s)) s
  else if 0x20 ≤ o ∧ o < 0x40 then wDone (modSag (fun g => { g with pwd := tset g.pwd ((o - 0x20) / 4) v }) s)
  else if o = 0x40 then (if sealOpen s then wDone (modSag (fun g => { g with sel := v }) s) else (refuseWrite s, .access))
  else if o = 0x44 then (if sealOpen s then wDone (modSag (fun g => { g with val := v }) s) else (refuseWrite s, .access))
  else wIgnored s

/-- RECORD (R334). -/
def recWrite (src : Source) (o : Nat) (v : Word) (s : State) : State × WRes :=
  if o = 0x20 then wKeyed v (fun s =>
    let t := rcCommand src v s
    wCode (if t.rcd.result = 1 then 0 else t.rcd.result) t) s
  else if 0x40 ≤ o ∧ o < 0x60 then wDone (modRcd (fun r => { r with pwd := tset r.pwd ((o - 0x40) / 4) v }) s)
  else wIgnored s

/-- LADLE (R361, R362). -/
def ladWrite (m : Master) (o : Nat) (v : Word) (s : State) : State × WRes :=
  if o < 0xA0 ∧ o % 0x20 = 0 then
    (if bit v 8 then wDone (modCore (o / 0x20) (fun k => { k with clkOff := false }) s) else wDone s)
  else if o = 0x100 then wKeyed v (fun s => wTry (ldCommand m (bits v 3 0) (bits v 10 8) s) s) s
  else if o = 0x114 then
    wDone { s with lad := { s.lad with
      ipend := (List.range 3).foldl (fun n i => setBit n i (s.lad.ipend.testBit i && !bit v i)) 0 } }
  else if o = 0x118 then wDone (mboxWrite v s)
  else wIgnored s

/-- A write of a register outside the windows (R20). -/
def unitWrite (m : Master) (src : Source) (r : Region) (o : Nat) (v : Word) (s : State) : State × WRes :=
  match r with
  | .sys => sysWrite m o v s
  | .evt => evtWrite o v s
  | .boot => bootWrite m o v s
  | .link ch => if o = 0x100 then wDone (modCh s ch (fun c => { c with dlyImpl := c.dlyImpl && !bit v 11 })) else wIgnored s
  | .pstage =>
    if o = 0x04 then
      wDone { s with ps := { s.ps with srcSdi := s.ps.srcSdi && !bit v 10, srcAna := s.ps.srcAna && !bit v 9 } }
    else if o = 0x40 then (let t := if bit v 4 then psctestGo (bits v 3 0) s else s
      wCode (if bit v 4 ∧ t.ps.testResult = 4 then 4 else 0) t)
    else wIgnored s
  | .twin => if o = 0x1C then wKeyed v (fun s => wTry (twCommand (bits v 2 0) s) s) s else wIgnored s
  | .saggar => sagWrite o v s
  | .record => recWrite src o v s
  | .ladle => ladWrite m o v s
  | .axis x => axisWrite m x o v s
  | .grp g => groupWrite m g o v s
  | _ => wIgnored s

/-- Offset of an address in its region, or in its window. -/
def regionOfs (r : Region) (a : Nat) : Nat :=
  match r with
  | .axis _ => a % 0x1000
  | .grp _ => a % 0x400
  | .churn _ => a % 0x40000
  | _ => a % 0x10000

/-- A write of n bytes of v at address a by master m, from a source on the host side (R5, R19 to R21, R27). -/
def busWrite (m : Master) (src : Source) (a n : Nat) (v : Word) (s : State) : State × WRes :=
  if !accessOk a n || !mayWrite s m a then wAccess s
  else
    match regionOf a with
    | none => wAccess s
    | some .sram => sramWrite m a (leBytes n v.toNat) s
    | some r =>
      if inLocal a then wDone (memPut a (leBytes n v.toNat) s)
      else if windowDead s r then wIgnored s
      else unitWrite m src r (regionOfs r a) v s

/-- The source of a write by master m that names no frame. -/
def sourceOf (m : Master) : Source := if m = .compact then .compact else .ethernet

/-- REGISTER_WRITE (R20). -/
def execRegisterWrite (m : Master) (addr : Nat) (v : Word) (s : State) : Host.Outcome State Fault Refusal :=
  let f := fun s => (busWrite m (sourceOf m) addr 4 v s).1
  .next (if inLocal addr then f s else compactGate m f s)

end Sys2Proof.Machine
end

