-- ==== Sys2Proof/Machine/Ladle.lean ====
section
/-! DEFINITION. The Ladle cores: the pipeline as software sees it (R342 to R346), memory accesses (R340), and every
instruction (R348, R349). A command of this chapter is the issue of that instruction on core c at its program counter:
the instruction and its operands are the command's, and the slice runner of Slices.lean takes them from memory. -/

namespace Sys2Proof.Machine

/-! ### Registers and what an instruction sees of them (R336, R338, R343) -/

/-- The register set in use. -/
def curSet (k : Core) : RegSet := if k.shadow then k.shad else k.prim

/-- Change the register set in use. -/
def modSet (f : RegSet → RegSet) (k : Core) : Core :=
  if k.shadow then { k with shad := f k.shad } else { k with prim := f k.prim }

/-- The flags of a register set as a nibble. -/
def setFlags (r : RegSet) : Nat := nzcv r.n r.z r.c r.v

/-- The value a register holds now. -/
def resNow (k : Core) (r : Res) : Nat :=
  match r with
  | .d i => (tget 0#32 (curSet k).d i).toNat
  | .p i => (tget 0#32 (curSet k).p i).toNat
  | .m i => (tget 0#32 (curSet k).m i).toNat
  | .acc i => (tget 0#72 k.acc i).toNat
  | .flags => setFlags (curSet k)

/-- A register takes a value. -/
def resSet (r : Res) (v : Nat) (k : Core) : Core :=
  match r with
  | .d i => modSet (fun q => { q with d := tset q.d i (BitVec.ofNat 32 v) }) k
  | .p i => modSet (fun q => { q with p := tset q.p i (BitVec.ofNat 32 v) }) k
  | .m i => modSet (fun q => { q with m := tset q.m i (BitVec.ofNat 32 v) }) k
  | .acc i => { k with acc := tset k.acc i (BitVec.ofNat 72 v) }
  | .flags => modSet (fun q => { q with n := v.testBit 3, z := v.testBit 2, c := v.testBit 1, v := v.testBit 0 }) k

/-- How an instruction uses what it reads (R343). -/
inductive Use where
  /-- an operand or store data -/
  | operand
  /-- the addend rd of FMA, FMS or FMAD -/
  | addend
  /-- an accumulator accumulated again -/
  | accum
  /-- an accumulator read by RDA or RDG -/
  | accRead
  /-- address formation -/
  | addr
  /-- the condition of B -/
  | cond
  /-- the count of REPR or the target of JR -/
  | target
  deriving DecidableEq, Repr

/-- The distance from which a use sees what a producer wrote (R343). A pair the table does not list counts 1. -/
def figure (p : Producer) (u : Use) : Nat :=
  match p with
  | .alu => if u = .target then 2 else 1
  | .slow => if u = .target then 3 else 2
  | .fma => if u = .addend then 1 else if u = .target then 3 else 2
  | .frcp => if u = .target then 5 else 4
  | .mac => if u = .accum then 1 else 2
  | .accOp => if u = .accRead then 2 else 1
  | .addr => 1
  | .pmvPM => 2
  | .ldp => 3
  | .flagOp => if u = .cond then 3 else 1

/-- An accumulator belongs to both register sets. -/
def isAcc : Res → Bool
  | .acc _ => true
  | _ => false

/-- The value after the newest visible producer, from what stands now back. -/
def seenFrom (now : Nat) (u : Use) : List Recent → Nat → Nat
  | [], v => v
  | p :: t, v => if figure p.kind u ≤ now - p.at_ then v else seenFrom now u t p.old

/-- What the instruction now issuing sees of a register (R343). -/
def seen (k : Core) (u : Use) (r : Res) : Nat :=
  seenFrom k.issued u (k.recent.filter (fun p => p.res = r && (isAcc r || p.shadow = k.shadow))) (resNow k r)

/-- Data register as an operand. -/
def rd (k : Core) (i : Nat) : Word := BitVec.ofNat 32 (seen k .operand (.d i))
/-- Pointer register for address formation. -/
def rp (k : Core) (i : Nat) : Word := BitVec.ofNat 32 (seen k .addr (.p i))
/-- Modifier register for address formation. -/
def rm (k : Core) (i : Nat) : Word := BitVec.ofNat 32 (seen k .addr (.m i))

/-- The instruction now issuing writes a register as a producer of some kind. -/
def put (kind : Producer) (r : Res) (v : Nat) (k : Core) : Core :=
  let e : Recent := { at_ := k.issued, kind := kind, res := r, old := resNow k r, shadow := k.shadow }
  resSet r v { k with recent := e :: k.recent.take 15 }

/-- Write of a data register. -/
def putD (kind : Producer) (i : Nat) (v : Word) (k : Core) : Core := put kind (.d i) v.toNat k
/-- Write of the flags. -/
def putF (f : Nat) (k : Core) : Core := put .flagOp .flags f k

/-! ### Issue and flow (R342, R344, R345) -/

/-- The core issues: it runs, neither asleep nor stalled; a wide core inside a slice before S + BUDGET − 3 (R352). -/
def issues (c : Nat) (k : Core) : Bool :=
  k.st = 1 && !k.waiting && !k.stalled && (c = 4 || (k.axis.isSome && decide (k.clocks < k.limit)))

/-- A fetch inside the core's code (R349). -/
def fetchOk (s : State) (c : Nat) (pc : Word) : Bool :=
  let a := pc.toNat
  let b := partBase s ptLADLE + 4096 * bits (Cfg.LDCODE s) 15 0
  a % 4 = 0 && (if c = 4 then inLocal a else decide (b ≤ a) && decide (a < b + 4096 * bits (Cfg.LDCODE s) 31 16))

/-- The end of an instruction at `last` for the active levels, innermost first (R345): the levels after it, and where the
body begins again. -/
def closeLevels (last : Word) : List Repeat → List Repeat × Option Word
  | [] => ([], none)
  | r :: t =>
    if r.last = last then
      (if 1 < r.count then ({ r with count := r.count - 1 } :: t, some r.first) else closeLevels last t)
    else
      let q := closeLevels last t
      (r :: q.1, q.2)

/-- Straight on from an instruction that ends at `last`. -/
def goOn (last : Word) (k : Core) : Core :=
  let q := closeLevels last (curSet k).reps
  { modSet (fun r => { r with reps := q.1 }) k with pc := q.2.getD (last + 4#32) }

/-- RTI after its delay slots: the primary set with IE (R359). -/
def rtiDone (k : Core) : Core := { k with shadow := false, rtiPend := false, prim := { k.prim with ie := true } }

/-- The program counter after an instruction that found the core as `old` and ends at `last`: the second delay slot
carries out the branch. -/
def flow (old : Core) (last : Word) (k : Core) : Core :=
  match old.delay with
  | some (n, t) =>
    if 1 < n then { goOn last k with delay := some (n - 1, t) }
    else
      let k1 := { goOn last k with delay := none }
      let k2 := if old.rtiPend then rtiDone k1 else k1
      match t with
      | some a => { k2 with pc := a }
      | none => k2
  | none => goOn last k

/-- What an instruction may find at issue: nothing, or the halt cause and data address. -/
abbrev Trap := Option (Nat × Word)

/-- Issue on core c (R342): outside its code it halts (7); where the instruction finds a halt cause it halts; else it acts,
takes its clocks, and the flow goes on from `last`. -/
def issue (c : Nat) (trap : State → Core → Trap) (last : Core → Word) (stall : State → Core → Nat)
    (act : Core → State → State) (s : State) : State :=
  let k := getCore s c
  if !issues c k then s
  else if !fetchOk s c k.pc then haltCore c 7 0 s
  else
    match trap s k with
    | some (h, a) => haltCore c h a (if h = 2 ∨ h = 3 then busError s else if h = 4 then eccReport s else s)
    | none =>
      modCore c (fun k1 => flow k (last k) { k1 with issued := k.issued + 1, clocks := k.clocks + 1 + stall s k }) (act k s)

/-- No halt cause. -/
def noTrap : State → Core → Trap := fun _ _ => none
/-- No stall. -/
def noStall : State → Core → Nat := fun _ _ => 0
/-- An instruction that only changes its core. -/
def issueK (c : Nat) (f : Core → Core) (s : State) : State :=
  issue c noTrap Core.pc noStall (fun k s => modCore c (fun _ => f k) s) s

/-! ### Integer, FP32 and accumulator instructions (R348) -/

/-- An ALU instruction with flags: result and flags from two operands. -/
def aluOp (c d : Nat) (x y : Core → Word) (f : Word → Word → Word) (fl : Core → Word → Word → Nat) (s : State) : State :=
  issueK c (fun k => putF (fl k (x k) (y k)) (putD .alu d (f (x k) (y k)) k)) s

/-- Flags of a logical result on what the flags held. -/
def logicF (f : Word → Word → Word) (k : Core) (x y : Word) : Nat := logicFlags (f x y) (resNow k .flags)

/-- AND, OR and XOR. -/
def logicOp (c d a b : Nat) (f : Word → Word → Word) (s : State) : State := aluOp c d (fun k => rd k a) (fun k => rd k b) f (logicF f) s

/-- NOP. -/
def ldNop (c : Nat) (s : State) : State := issueK c id s
/-- ADD. -/
def ldAdd (c d a b : Nat) (s : State) : State := aluOp c d (fun k => rd k a) (fun k => rd k b) (· + ·) (fun _ => addFlags) s
/-- SUB. -/
def ldSub (c d a b : Nat) (s : State) : State := aluOp c d (fun k => rd k a) (fun k => rd k b) (· - ·) (fun _ => subFlags) s
/-- ADDI. -/
def ldAddi (c d a : Nat) (imm : BitVec 18) (s : State) : State :=
  aluOp c d (fun k => rd k a) (fun _ => imm.signExtend 32) (· + ·) (fun _ => addFlags) s
/-- CMP. -/
def ldCmp (c a b : Nat) (s : State) : State := issueK c (fun k => putF (subFlags (rd k a) (rd k b)) k) s

/-- The amount of a shift. -/
def shAmount (k : Core) : ShAmt → Nat
  | .imm n => n % 32
  | .reg r => (rd k r).toNat % 32

/-- SHF (R348): N and Z as every other integer ALU operation. -/
def ldShift (kind c d a : Nat) (amt : ShAmt) (s : State) : State :=
  issueK c (fun k =>
    let r := shiftResult kind (rd k a) (shAmount k amt)
    putF (logicFlags r (resNow k .flags)) (putD .alu d r k)) s

/-- An instruction that writes a data register and no flag. -/
def dataOp (kind : Producer) (c d : Nat) (f : Core → Word) (s : State) : State := issueK c (fun k => putD kind d (f k) k) s

/-- FMA and FMS: d[rd] ± rs × rt, rounded once. -/
def fmaValue (sub : Bool) (d a b : Nat) (k : Core) : Word :=
  let x := rd k a
  fpMulAdd (BitVec.ofNat 32 (seen k .addend (.d d))) (if sub then fNeg (ftz x) else x) (rd k b)

/-- FMIN and FMAX. -/
def ldPick (min_ : Bool) (c d a b : Nat) (s : State) : State :=
  issue c noTrap Core.pc noStall
    (fun k s => modCore c (fun _ => putD .slow d (fpPick min_ (freeB s) (rd k a) (rd k b)) k) s.tick) s

/-- The accumulator that MAC accumulates. -/
def accSeen (k : Core) (a : Nat) : BitVec 72 := BitVec.ofNat 72 (seen k .accum (.acc a))

/-- MAC. -/
def ldMac (c acc a b : Nat) (md : MacMode) (s : State) : State :=
  issueK c (fun k => put .mac (.acc acc) (macResult md (accSeen k acc) (rd k a) (rd k b)).toNat k) s

/-- RDA; for sh above 40 the spec states no result (log 1). -/
def ldRda (c d acc sh : Nat) (s : State) : State :=
  issue c noTrap Core.pc noStall (fun k s =>
    let v := if sh ≤ 40 then rdaResult (BitVec.ofNat 72 (seen k .accRead (.acc acc))) sh else freeW s
    modCore c (fun _ => putD .slow d v k) s.tick) s

/-- RDG: bits 71 to 64, sign-extended. -/
def rdgValue (k : Core) (acc : Nat) : Word :=
  ((BitVec.ofNat 72 (seen k .accRead (.acc acc)) >>> 64).setWidth 8).signExtend 32

/-- MVA: the register, sign-extended, times 2^sh. -/
def mvaValue (x : Word) (sh : Nat) : BitVec 72 := x.signExtend 72 <<< sh

/-! ### Memory (R21, R27, R340, R349, R357) -/

/-- The master that core c is. -/
def coreMaster (c : Nat) : Master := if c < 4 then .wide c else .compact

/-- An access that the compact core loses while the core PLL is stopped (R340). -/
def lostAccess (s : State) (c a : Nat) : Bool := decide (c = 4) && decide (s.sys.pwr = .deep) && !inLocal a

/-- The halt cause of an access of n bytes (R349): refused (2), misaligned (3), a double-bit error read (4). -/
def accessTrap (s : State) (c : Nat) (store : Bool) (a n : Nat) : Option Nat :=
  let narrow := decide (0x400000 ≤ a) && !inLocal a && decide (n ≠ 4)
  if lostAccess s c a then (if a % n = 0 then none else some 3)
  else if (regionOf a).isNone || narrow || (store && !mayWrite s (coreMaster c) a) then some 2
  else if a % n ≠ 0 then some 3
  else if !store && (decide (a < 0x400000) || inLocal a) && eccBad s (eccWord a) then some 4
  else none

/-- A wide core's stall for an access outside SRAM (R340). -/
def accessStall (c a : Nat) : Nat := if c < 4 ∧ 0x400000 ≤ a then 6 else 0

/-- SRAM as the compact core's own loads see it: with its held writes (R340, R356). -/
def ownMem (s : State) (c : Nat) : Memory :=
  if c = 4 then s.lad.held.foldl (fun m h => if h.own then mwrite 0 m h.addr h.bytes else m) s.mem else s.mem

/-- A load of n bytes by core c. -/
def loadN (c a n : Nat) (s : State) : State × Nat :=
  if lostAccess s c a then (modCore 4 (fun k => { k with clkOff := true }) s, 0)
  else if inLocal a then (eccFix (eccWord a) s, leNat (mread 0 s.mem a n) 0 n)
  else if a < 0x400000 then (eccFix (eccWord a) s, leNat (mread 0 (ownMem s c) a n) 0 n)
  else
    let r := readWord (coreMaster c) a s
    (r.1, r.2.toNat)

/-- The aligned word that a narrow store of the compact core leaves in SRAM. -/
def mergedWord (s : State) (a n : Nat) (v : Word) : Word :=
  let w := a / 4 * 4
  BitVec.ofNat 32 (leNat (mread 0 (mwrite 0 (ownMem s 4) a (leBytes n v.toNat)) w 4) 0 4)

/-- A compact-core write outside its local memory (R264, R270, R279, R357): discarded by a unit that shadows; forwarded where
one shadows this unit, and then the core stalls until the pair has accepted it, or this unit alone while the other lacks state
(R280); else it acts at once. -/
def compactStore (a n : Nat) (v : Word) (s : State) : State :=
  if shadows s then s
  else if shadowPeer s && pairRole s then
    let u := usableStandby s
    let x : HostCmd := { snd := .core, seq := freeW s, op := 2, pl := [BitVec.ofNat 32 (a / 4 * 4), mergedWord s a n v],
                         round := if u then s.sys.round else s.sys.round + 1, fwd := true, ok := !u }
    modCore 4 (fun k => { k with stalled := true }) (modWaiting (fun l => l ++ [x]) (forward x.seq 2 (cmdBody x) s.tick))
  else (busWrite .compact .compact a n v s).1

/-- A store of n bytes by core c. -/
def storeN (c a n : Nat) (v : Word) (s : State) : State :=
  if lostAccess s c a then modCore 4 (fun k => { k with clkOff := true }) s
  else if inLocal a ∧ c = 4 then memPut a (leBytes n v.toNat) s
  else if c = 4 then compactStore a n v s
  else (busWrite (.wide c) .compact a n v s).1

/-- Bytes of a width. -/
def widthBytes : MemWidth → Nat
  | .word => 4
  | .shalf => 2
  | .uhalf => 2
  | .ubyte => 1

/-- A loaded value as the register takes it. -/
def extend (w : MemWidth) (v : Nat) : Word := if w = .shalf then wordOfInt (signedN 16 v) else BitVec.ofNat 32 v

/-- Address of a format M access. -/
def memAddr (k : Core) (p : Nat) (md : MemMode) : Word :=
  match md with
  | .offset o => rp k p + o.signExtend 32
  | .postModify => rp k p

/-- An OFF that is a multiple of the width (R347). -/
def offsetOk (md : MemMode) (w : MemWidth) : Bool :=
  match md with
  | .offset o => decide (o.toInt % (widthBytes w : Int) = 0)
  | .postModify => true

/-- Post-modify of a pointer in mode 1. -/
def memModify (k0 : Core) (p : Nat) (md : MemMode) (k : Core) : Core :=
  match md with
  | .offset _ => k
  | .postModify => put .addr (.p p) (postModify (rp k0 p) (rm k0 p)).toNat k

/-- The halt cause of a format M instruction (R347, R349). -/
def memTrap (c : Nat) (store : Bool) (p : Nat) (md : MemMode) (w : MemWidth) (s : State) (k : Core) : Trap :=
  if !offsetOk md w || (store && decide (w = .uhalf)) then some (1, 0)
  else
    let a := memAddr k p md
    (accessTrap s c store a.toNat (widthBytes w)).map (fun h => (h, a))

/-- The record of the core as an access leaves it, under what the instruction makes of it. -/
def withCore (c : Nat) (k0 : Core) (f : Core → Core) (s : State) : State :=
  modCore c (fun k => { f k0 with clkOff := k.clkOff, stalled := k.stalled }) s

/-- A refused read returns 0x0000_0000 to its register (R21, R27): what core c, halted by its instruction, finds in the
destinations of the loads that were refused or misaligned. -/
def zeroRefused (c : Nat) (trap : State → Core → Trap) (dest : State → Core → List Res) (s0 s1 : State) : State :=
  let k := getCore s0 c
  if issues c k && fetchOk s0 c k.pc && (trap s0 k).isSome then
    modCore c (fun q => (dest s0 k).foldl (fun q r => resSet r 0 q) q) s1
  else s1

/-- A load from this address is refused or misaligned. -/
def loadRefused (s : State) (c a n : Nat) : Bool := [some 2, some 3].contains (accessTrap s c false a n)

/-- LD. -/
def ldLoad (c d p : Nat) (md : MemMode) (w : MemWidth) (s : State) : State :=
  zeroRefused c (memTrap c false p md w)
    (fun s k => if offsetOk md w && loadRefused s c (memAddr k p md).toNat (widthBytes w) then [.d d] else []) s <| issue c (memTrap c false p md w) Core.pc (fun _ k => accessStall c (memAddr k p md).toNat) (fun k s =>
    let r := loadN c (memAddr k p md).toNat (widthBytes w) s
    withCore c k (fun k0 => memModify k p md (putD .slow d (extend w r.2) k0)) r.1) s

/-- ST. -/
def ldStore (c d p : Nat) (md : MemMode) (w : MemWidth) (s : State) : State :=
  issue c (memTrap c true p md w) Core.pc (fun _ k => accessStall c (memAddr k p md).toNat) (fun k s =>
    withCore c k (memModify k p md) (storeN c (memAddr k p md).toNat (widthBytes w) (rd k d) s)) s

/-- LDP: pk = word at pj + sext(IMM16). -/
def ldLdp (c pk pj : Nat) (imm : BitVec 16) (s : State) : State :=
  let at_ := fun (k : Core) => rp k pj + imm.signExtend 32
  zeroRefused c (fun s k => (accessTrap s c false (at_ k).toNat 4).map (fun h => (h, at_ k)))
    (fun s k => if loadRefused s c (at_ k).toNat 4 then [.p pk] else []) s <|
  issue c (fun s k => (accessTrap s c false (at_ k).toNat 4).map (fun h => (h, at_ k))) Core.pc
    (fun _ k => accessStall c (at_ k).toNat) (fun k s =>
    let r := loadN c (at_ k).toNat 4 s
    withCore c k (put .ldp (.p pk) r.2) r.1) s

/-! ### Dual loads (R347, R348) -/

/-- The halt cause of two loads together: the lowest code, with its address. -/
def dualTrap (c : Nat) (x y : Option DualLoad) (s : State) (k : Core) : Trap :=
  let one := fun (l : Option DualLoad) => l.bind (fun q =>
    (accessTrap s c false (rp k q.p).toNat 4).map (fun h => (h, rp k q.p)))
  match one x, one y with
  | some (h, a), some (g, b) => if g < h then some (g, b) else some (h, a)
  | some t, none => some t
  | none, t => t

/-- Stall of two loads. -/
def dualStall (c : Nat) (x y : Option DualLoad) (_ : State) (k : Core) : Nat :=
  ([x, y].filterMap id).foldl (fun n q => n + accessStall c (rp k q.p).toNat) 0

/-- A value of one of several writers of one register in one instruction, which the spec does not order (log 1). -/
def putEither (wr : List Nat) (pick : Bool) (d : Nat) (v : Word) (k : Core) : Core :=
  if wr.contains d && !pick then k else putD .slow d v k

/-- One load of a dual-load instruction: the address is the pointer before the instruction. -/
def dualOne (c : Nat) (k0 : Core) (wr : List Nat) (l : Option DualLoad) (q : State × Core) : State × Core :=
  match l with
  | none => q
  | some x =>
    let r := loadN c (rp k0 x.p).toNat 4 q.1
    (r.1.tick, put .addr (.p x.p) (postModify (rp k0 x.p) (rm k0 x.p)).toNat
      (putEither wr (freeB q.1) x.d (BitVec.ofNat 32 r.2) q.2))

/-- A format D instruction: what it computes, with its enabled loads. `wr` are the data registers it computes. -/
def dualOp (c : Nat) (wr : List Nat) (f : Core → Core) (x y : Option DualLoad) (s : State) : State :=
  zeroRefused c (dualTrap c x y) (fun s k => (([x, y].filterMap id).filter (fun q => loadRefused s c (rp k q.p).toNat 4)).map
    (fun q => Res.d q.d)) s <|
  issue c (dualTrap c x y) Core.pc (dualStall c x y) (fun k s =>
    let a := dualOne c k wr x (s, f k)
    let b := dualOne c k (wr ++ (x.map DualLoad.d).toList) y a
    withCore c b.2 id b.1) s

/-- FMAD. -/
def ldFmad (c d a b : Nat) (x y : Option DualLoad) (s : State) : State :=
  dualOp c [d] (fun k => putD .fma d (fmaValue false d a b k) k) x y s
/-- MACD: fractional, signed. -/
def ldMacd (c acc a b : Nat) (x y : Option DualLoad) (s : State) : State :=
  dualOp c [] (fun k =>
    put .mac (.acc acc) (macResult { sub := false, frac := true, uns := false, repl := false } (accSeen k acc) (rd k a) (rd k b)).toNat k) x y s
/-- LD2. -/
def ldLd2 (c : Nat) (x y : Option DualLoad) (s : State) : State := dualOp c [] id x y s

/-! ### Pointers and modifiers -/

/-- An instruction that writes a pointer or modifier. -/
def ptrOp (kind : Producer) (c : Nat) (r : Res) (f : Core → Word) (s : State) : State :=
  issueK c (fun k => put kind r (f k).toNat k) s

/-! ### Branches and repeats (R344, R345, R349) -/

/-- A branch among the last three instructions of an active body (R345). -/
def atBodyEnd (k : Core) : Bool :=
  (curSet k).reps.any (fun r => r.first.toNat ≤ k.pc.toNat && k.pc.toNat ≤ r.last.toNat && r.last.toNat < k.pc.toNat + 12)

/-- The halt cause of B, CALL and JR: in a delay slot 8, at the end of a body 9. -/
def branchTrap (_ : State) (k : Core) : Trap := if k.delay.isSome then some (8, 0) else if atBodyEnd k then some (9, 0) else none

/-- Target of a branch by instructions. -/
def branchTo (k : Core) (off : BitVec 22) : Word := k.pc + (off.signExtend 32 <<< 2)

/-- A branch resolved: two delay slots, then the target if it is taken. -/
def branchOp (c : Nat) (t : Core → Option Word) (f : Core → Core) (s : State) : State :=
  issue c branchTrap Core.pc noStall (fun k s => modCore c (fun _ => f k) s) s |>
    (fun s1 =>
      let k := getCore s c
      if issues c k && fetchOk s c k.pc && (branchTrap s k).isNone then modCore c (fun q => { q with delay := some (2, t k) }) s1 else s1)

/-- B. -/
def ldB (c : Nat) (cond : BrCond) (off : BitVec 22) (s : State) : State :=
  branchOp c (fun k => if condHolds cond (seen k .cond .flags) then some (branchTo k off) else none) id s
/-- CALL: d15 takes the address after the two delay slots. -/
def ldCall (c : Nat) (off : BitVec 22) (s : State) : State :=
  branchOp c (fun k => some (branchTo k off)) (fun k => putD .alu 15 (k.pc + 12#32) k) s
/-- JR. -/
def ldJr (c a : Nat) (s : State) : State := branchOp c (fun k => some (BitVec.ofNat 32 (seen k .target (.d a)))) id s

/-- The halt cause of REP and REPR: a fourth level or a count of 65,536 or more 5, in a delay slot 8. -/
def repTrap (n : Core → Nat) (_ : State) (k : Core) : Trap :=
  if 65536 ≤ n k ∨ (n k ≠ 0 ∧ 3 ≤ (curSet k).reps.length) then some (5, 0) else if k.delay.isSome then some (8, 0) else none

/-- REP and REPR (R345): open a level over the next `len` instructions; a count of 0 skips the body, whose end counts as
reached for the levels around it. -/
def repOp (c len : Nat) (n : Core → Nat) (s : State) : State :=
  let end_ := fun (k : Core) => k.pc + BitVec.ofNat 32 (4 * len)
  issue c (repTrap n) (fun k => if n k = 0 then end_ k else k.pc) noStall (fun k s =>
    if n k = 0 then s
    else modCore c (fun _ => modSet (fun r => { r with
      reps := { first := k.pc + 4#32, last := end_ k, count := n k } :: r.reps }) k) s) s

/-- REPR. -/
def ldRepr (c a len : Nat) (s : State) : State := repOp c len (fun k => seen k .target (.d a)) s
/-- BRK: the innermost level's remaining count becomes 0. -/
def ldBrk (c : Nat) (s : State) : State :=
  issueK c (modSet (fun r => { r with
    reps := match r.reps with
      | q :: t => { q with count := 0 } :: t
      | [] => [] })) s

/-! ### System instructions (R337, R338, R348, R352, R359) -/

/-- In a delay slot. -/
def slotTrap (_ : State) (k : Core) : Trap := if k.delay.isSome then some (8, 0) else none

/-- A slice ends 4 clocks after its WAIT issues (R352, R361, R363). -/
def sliceEnd (c : Nat) (k : Core) (s : State) : State :=
  match k.axis with
  | some a =>
    let n := k.clocks + 4 + Cfg.SLCFG_BUDGET s (slW a) - (k.limit + 3)
    modCore c (fun q => { q with st := 0, axis := none, shadow := false, peak := max q.peak n }) (modSlice a (fun x => { x with last := n }) s)
  | none => s

/-- WAIT: ends the slice of a wide core; the compact core sleeps. -/
def ldWait (c : Nat) (s : State) : State :=
  issue c slotTrap Core.pc noStall
    (fun k s => if c = 4 then modCore 4 (fun q => { q with waiting := true }) s else sliceEnd c k s) s

/-- The halt cause of RTI: in a delay slot 8, on a wide core 10. -/
def rtiTrap (c : Nat) (s : State) (k : Core) : Trap := if k.delay.isSome then slotTrap s k else if c = 4 then none else some (10, 0)

/-- RTI: after two delay slots the primary set with IE. Outside an interrupt its target is free (log 1). -/
def ldRti (c : Nat) (s : State) : State :=
  let k := getCore s c
  let s1 := issue c (rtiTrap c) Core.pc noStall (fun _ s => s.tick) s
  if issues c k && fetchOk s c k.pc && (rtiTrap c s k).isNone then
    modCore c (fun q => { q with delay := some (2, some (if k.shadow then k.retPc else freeW s)), rtiPend := true }) s1
  else s1

/-- SR (R337). -/
def srWord (k : Core) : Word :=
  packWord [(7, 6, (curSet k).reps.length), (5, 5, b2n k.shadow), (4, 4, b2n (curSet k).ie), (3, 0, seen k .operand .flags)]

/-- MSR: N, Z, C, V and IE. -/
def ldMsr (c a : Nat) (s : State) : State :=
  issueK c (fun k =>
    let w := rd k a
    modSet (fun r => { r with ie := bit w 4 }) (putF (bits w 3 0) k)) s

/-- EI and DI. -/
def ldIe (v : Bool) (c : Nat) (s : State) : State := issueK c (modSet (fun r => { r with ie := v })) s

/-- RDC: the core clock within the round on a wide core; the always-on tick of the compact core is free (log 1). -/
def ldRdc (c d : Nat) (s : State) : State :=
  issue c noTrap Core.pc noStall
    (fun k s => modCore c (fun _ => putD .alu d (if c < 4 then BitVec.ofNat 32 k.clocks else freeW s) k) s.tick) s

/-- COMPACT_CORE_INTERRUPT (R338, R359): with IE and an enabled pending flag, outside a delay slot, the compact core goes
to LDCVEC in the shadow set with IE clear. -/
def compactInterrupt (s : State) : State :=
  let k := getCore s 4
  if k.st = 1 && !k.stalled && (curSet k).ie && k.delay.isNone && decide (s.lad.ipend &&& Cfg.LDCIRQ_EN s ≠ 0) then
    modCore 4 (fun k => { k with
      retPc := k.pc, shadow := true, shad := { k.shad with ie := false }, pc := Cfg.LDCVEC s, waiting := false }) s
  else s

end Sys2Proof.Machine
end

