-- ==== Sys2Proof/Machine/LadleIsa.lean ====
section
/-! DEFINITION. The instructions of the Ladle cores, one meaning for each row (R348). -/

namespace Sys2Proof.Machine

/-- AND. -/
def ldAnd (c d a b : Nat) (s : State) : State := logicOp c d a b (· &&& ·) s
/-- OR. -/
def ldOr (c d a b : Nat) (s : State) : State := logicOp c d a b (· ||| ·) s
/-- XOR. -/
def ldXor (c d a b : Nat) (s : State) : State := logicOp c d a b (· ^^^ ·) s
/-- MUL: the low 32 bits; no flag (log 15). -/
def ldMul (c d a b : Nat) (s : State) : State := dataOp .slow c d (fun k => rd k a * rd k b) s
/-- MOVL: zero-extended. -/
def ldMovl (c d : Nat) (imm : BitVec 16) (s : State) : State := dataOp .alu c d (fun _ => imm.setWidth 32) s
/-- MOVH: the low half is kept. -/
def ldMovh (c d : Nat) (imm : BitVec 16) (s : State) : State :=
  dataOp .alu c d (fun k => (rd k d &&& 0xFFFF#32) ||| (imm.setWidth 32 <<< 16)) s
/-- MOV. -/
def ldMov (c d a : Nat) (s : State) : State := dataOp .alu c d (fun k => rd k a) s
/-- FADD. -/
def ldFadd (c d a b : Nat) (s : State) : State := dataOp .slow c d (fun k => fpOp2 fAdd (rd k a) (rd k b)) s
/-- FSUB. -/
def ldFsub (c d a b : Nat) (s : State) : State := dataOp .slow c d (fun k => fpOp2 fSub (rd k a) (rd k b)) s
/-- FMUL. -/
def ldFmul (c d a b : Nat) (s : State) : State := dataOp .slow c d (fun k => fpOp2 fMul (rd k a) (rd k b)) s
/-- FMA. -/
def ldFma (c d a b : Nat) (s : State) : State := dataOp .fma c d (fmaValue false d a b) s
/-- FMS. -/
def ldFms (c d a b : Nat) (s : State) : State := dataOp .fma c d (fmaValue true d a b) s
/-- FCMP. -/
def ldFcmp (c a b : Nat) (s : State) : State := issueK c (fun k => putF (fcmpFlags (rd k a) (rd k b)) k) s
/-- FABS. -/
def ldFabs (c d a : Nat) (s : State) : State := dataOp .slow c d (fun k => fpResult (fAbs (ftz (rd k a)))) s
/-- FNEG. -/
def ldFneg (c d a : Nat) (s : State) : State := dataOp .slow c d (fun k => fpResult (fNeg (ftz (rd k a)))) s
/-- Integer to FP32. -/
def ldIntFp (c d a : Nat) (s : State) : State := dataOp .slow c d (fun k => fOfInt (rd k a).toInt) s
/-- FP32 to integer. -/
def ldFpInt (c d a : Nat) (s : State) : State := dataOp .slow c d (fun k => fToIntSat 0 (ftz (rd k a))) s
/-- Q31 to FP32. -/
def ldQ31Fp (c d a : Nat) (s : State) : State := dataOp .slow c d (fun k => fOfDyadic false (rd k a).toInt (-31)) s
/-- FP32 to Q31. -/
def ldFpQ31 (c d a : Nat) (s : State) : State := dataOp .slow c d (fun k => fToIntSat 31 (ftz (rd k a))) s
/-- FRCP. -/
def ldFrcp (c d a : Nat) (s : State) : State := dataOp .frcp c d (fun k => fpResult (fDiv fOne (ftz (rd k a)))) s
/-- MVA. -/
def ldMva (c acc a sh : Nat) (s : State) : State :=
  issueK c (fun k => put .accOp (.acc acc) (mvaValue (rd k a) sh).toNat k) s
/-- CLR. -/
def ldClr (c acc : Nat) (s : State) : State := issueK c (put .accOp (.acc acc) 0) s
/-- RDG. -/
def ldRdg (c d acc : Nat) (s : State) : State := dataOp .slow c d (fun k => rdgValue k acc) s
/-- PMV pk = d. -/
def ldPmvPD (c pk d : Nat) (s : State) : State := ptrOp .pmvPM c (.p pk) (fun k => rd k d) s
/-- PMV d = pk. -/
def ldPmvDP (c d pk : Nat) (s : State) : State := dataOp .alu c d (fun k => rp k pk) s
/-- PMV mk = d. -/
def ldPmvMD (c mk d : Nat) (s : State) : State := ptrOp .pmvPM c (.m mk) (fun k => rd k d) s
/-- PMV d = mk. -/
def ldPmvDM (c d mk : Nat) (s : State) : State := dataOp .alu c d (fun k => rm k mk) s
/-- PADD. -/
def ldPadd (c pk pj : Nat) (imm : BitVec 16) (s : State) : State := ptrOp .addr c (.p pk) (fun k => rp k pj + imm.signExtend 32) s
/-- MSET: linear. -/
def ldMset (c mk : Nat) (imm : BitVec 16) (s : State) : State := ptrOp .addr c (.m mk) (fun _ => imm.setWidth 32) s
/-- MLEN: the step is kept. -/
def ldMlen (c mk : Nat) (imm : BitVec 16) (s : State) : State :=
  ptrOp .addr c (.m mk) (fun k => (rm k mk &&& 0xFFFF#32) ||| (imm.setWidth 32 <<< 16)) s
/-- REP. -/
def ldRep (c count len : Nat) (s : State) : State := repOp c len (fun _ => count) s
/-- MRS. -/
def ldMrs (c d : Nat) (s : State) : State := dataOp .alu c d srWord s

/-- NOP (R348). -/
def execNop (c : Nat) (s : State) : Host.Outcome State Fault Refusal :=
  .next (ldNop c s)
/-- ADD (R348). -/
def execAdd (c d a b : Nat) (s : State) : Host.Outcome State Fault Refusal :=
  .next (ldAdd c d a b s)
/-- SUB (R348). -/
def execSub (c d a b : Nat) (s : State) : Host.Outcome State Fault Refusal :=
  .next (ldSub c d a b s)
/-- AND (R348). -/
def execAnd (c d a b : Nat) (s : State) : Host.Outcome State Fault Refusal :=
  .next (ldAnd c d a b s)
/-- OR (R348). -/
def execOr (c d a b : Nat) (s : State) : Host.Outcome State Fault Refusal :=
  .next (ldOr c d a b s)
/-- XOR (R348). -/
def execXor (c d a b : Nat) (s : State) : Host.Outcome State Fault Refusal :=
  .next (ldXor c d a b s)
/-- SHL (R348). -/
def execShl (c d a : Nat) (amt : ShAmt) (s : State) : Host.Outcome State Fault Refusal :=
  .next (ldShift 0 c d a amt s)
/-- SHR (R348). -/
def execShr (c d a : Nat) (amt : ShAmt) (s : State) : Host.Outcome State Fault Refusal :=
  .next (ldShift 1 c d a amt s)
/-- SAR (R348). -/
def execSar (c d a : Nat) (amt : ShAmt) (s : State) : Host.Outcome State Fault Refusal :=
  .next (ldShift 2 c d a amt s)
/-- ROR (R348). -/
def execRor (c d a : Nat) (amt : ShAmt) (s : State) : Host.Outcome State Fault Refusal :=
  .next (ldShift 3 c d a amt s)
/-- MUL (R348). -/
def execMul (c d a b : Nat) (s : State) : Host.Outcome State Fault Refusal :=
  .next (ldMul c d a b s)
/-- ADDI (R348). -/
def execAddi (c d a : Nat) (imm : BitVec 18) (s : State) : Host.Outcome State Fault Refusal :=
  .next (ldAddi c d a imm s)
/-- MOVL (R348). -/
def execMovl (c d : Nat) (imm : BitVec 16) (s : State) : Host.Outcome State Fault Refusal :=
  .next (ldMovl c d imm s)
/-- MOVH (R348). -/
def execMovh (c d : Nat) (imm : BitVec 16) (s : State) : Host.Outcome State Fault Refusal :=
  .next (ldMovh c d imm s)
/-- CMP (R348). -/
def execCmp (c a b : Nat) (s : State) : Host.Outcome State Fault Refusal :=
  .next (ldCmp c a b s)
/-- MOV (R348). -/
def execMov (c d a : Nat) (s : State) : Host.Outcome State Fault Refusal :=
  .next (ldMov c d a s)
/-- FADD (R348). -/
def execFadd (c d a b : Nat) (s : State) : Host.Outcome State Fault Refusal :=
  .next (ldFadd c d a b s)
/-- FSUB (R348). -/
def execFsub (c d a b : Nat) (s : State) : Host.Outcome State Fault Refusal :=
  .next (ldFsub c d a b s)
/-- FMUL (R348). -/
def execFmul (c d a b : Nat) (s : State) : Host.Outcome State Fault Refusal :=
  .next (ldFmul c d a b s)
/-- FMA (R348). -/
def execFma (c d a b : Nat) (s : State) : Host.Outcome State Fault Refusal :=
  .next (ldFma c d a b s)
/-- FMS (R348). -/
def execFms (c d a b : Nat) (s : State) : Host.Outcome State Fault Refusal :=
  .next (ldFms c d a b s)
/-- FCMP (R348). -/
def execFcmp (c a b : Nat) (s : State) : Host.Outcome State Fault Refusal :=
  .next (ldFcmp c a b s)
/-- FABS (R348). -/
def execFabs (c d a : Nat) (s : State) : Host.Outcome State Fault Refusal :=
  .next (ldFabs c d a s)
/-- FNEG (R348). -/
def execFneg (c d a : Nat) (s : State) : Host.Outcome State Fault Refusal :=
  .next (ldFneg c d a s)
/-- FMIN (R348). -/
def execFmin (c d a b : Nat) (s : State) : Host.Outcome State Fault Refusal :=
  .next (ldPick true c d a b s)
/-- FMAX (R348). -/
def execFmax (c d a b : Nat) (s : State) : Host.Outcome State Fault Refusal :=
  .next (ldPick false c d a b s)
/-- INTEGER_TO_FP (R348). -/
def execIntegerToFp (c d a : Nat) (s : State) : Host.Outcome State Fault Refusal :=
  .next (ldIntFp c d a s)
/-- FP_TO_INTEGER (R341). -/
def execFpToInteger (c d a : Nat) (s : State) : Host.Outcome State Fault Refusal :=
  .next (ldFpInt c d a s)
/-- Q31_TO_FP (R348). -/
def execQ31ToFp (c d a : Nat) (s : State) : Host.Outcome State Fault Refusal :=
  .next (ldQ31Fp c d a s)
/-- FP_TO_Q31 (R341). -/
def execFpToQ31 (c d a : Nat) (s : State) : Host.Outcome State Fault Refusal :=
  .next (ldFpQ31 c d a s)
/-- FRCP (R341). -/
def execFrcp (c d a : Nat) (s : State) : Host.Outcome State Fault Refusal :=
  .next (ldFrcp c d a s)
/-- MAC (R341). -/
def execMac (c acc a b : Nat) (md : MacMode) (s : State) : Host.Outcome State Fault Refusal :=
  .next (ldMac c acc a b md s)
/-- RDA (R341). -/
def execRda (c d acc sh : Nat) (s : State) : Host.Outcome State Fault Refusal :=
  .next (ldRda c d acc sh s)
/-- MVA (R348). -/
def execMva (c acc a sh : Nat) (s : State) : Host.Outcome State Fault Refusal :=
  .next (ldMva c acc a sh s)
/-- CLR (R348). -/
def execClr (c acc : Nat) (s : State) : Host.Outcome State Fault Refusal :=
  .next (ldClr c acc s)
/-- RDG (R348). -/
def execRdg (c d acc : Nat) (s : State) : Host.Outcome State Fault Refusal :=
  .next (ldRdg c d acc s)
/-- LD (R340). -/
def execLd (c d p : Nat) (md : MemMode) (w : MemWidth) (s : State) : Host.Outcome State Fault Refusal :=
  .next (ldLoad c d p md w s)
/-- ST (R340). -/
def execSt (c d p : Nat) (md : MemMode) (w : MemWidth) (s : State) : Host.Outcome State Fault Refusal :=
  .next (ldStore c d p md w s)
/-- PMV_P_FROM_D (R348). -/
def execPmvPFromD (c pk d : Nat) (s : State) : Host.Outcome State Fault Refusal :=
  .next (ldPmvPD c pk d s)
/-- PMV_D_FROM_P (R348). -/
def execPmvDFromP (c d pk : Nat) (s : State) : Host.Outcome State Fault Refusal :=
  .next (ldPmvDP c d pk s)
/-- PMV_M_FROM_D (R348). -/
def execPmvMFromD (c mk d : Nat) (s : State) : Host.Outcome State Fault Refusal :=
  .next (ldPmvMD c mk d s)
/-- PMV_D_FROM_M (R348). -/
def execPmvDFromM (c d mk : Nat) (s : State) : Host.Outcome State Fault Refusal :=
  .next (ldPmvDM c d mk s)
/-- PADD (R348). -/
def execPadd (c pk pj : Nat) (imm : BitVec 16) (s : State) : Host.Outcome State Fault Refusal :=
  .next (ldPadd c pk pj imm s)
/-- MSET (R348). -/
def execMset (c mk : Nat) (imm : BitVec 16) (s : State) : Host.Outcome State Fault Refusal :=
  .next (ldMset c mk imm s)
/-- MLEN (R348). -/
def execMlen (c mk : Nat) (imm : BitVec 16) (s : State) : Host.Outcome State Fault Refusal :=
  .next (ldMlen c mk imm s)
/-- LDP (R348). -/
def execLdp (c pk pj : Nat) (imm : BitVec 16) (s : State) : Host.Outcome State Fault Refusal :=
  .next (ldLdp c pk pj imm s)
/-- B (R344). -/
def execB (c : Nat) (cond : BrCond) (off : BitVec 22) (s : State) : Host.Outcome State Fault Refusal :=
  .next (ldB c cond off s)
/-- CALL (R348). -/
def execCall (c : Nat) (off : BitVec 22) (s : State) : Host.Outcome State Fault Refusal :=
  .next (ldCall c off s)
/-- JR (R348). -/
def execJr (c a : Nat) (s : State) : Host.Outcome State Fault Refusal :=
  .next (ldJr c a s)
/-- REP (R345). -/
def execRep (c count len : Nat) (s : State) : Host.Outcome State Fault Refusal :=
  .next (ldRep c count len s)
/-- REPR (R345). -/
def execRepr (c a len : Nat) (s : State) : Host.Outcome State Fault Refusal :=
  .next (ldRepr c a len s)
/-- BRK (R345). -/
def execBrk (c : Nat) (s : State) : Host.Outcome State Fault Refusal :=
  .next (ldBrk c s)
/-- WAIT (R348). -/
def execWait (c : Nat) (s : State) : Host.Outcome State Fault Refusal :=
  .next (ldWait c s)
/-- RTI (R359). -/
def execRti (c : Nat) (s : State) : Host.Outcome State Fault Refusal :=
  .next (ldRti c s)
/-- MRS (R348). -/
def execMrs (c d : Nat) (s : State) : Host.Outcome State Fault Refusal :=
  .next (ldMrs c d s)
/-- MSR (R337). -/
def execMsr (c a : Nat) (s : State) : Host.Outcome State Fault Refusal :=
  .next (ldMsr c a s)
/-- EI (R348). -/
def execEi (c : Nat) (s : State) : Host.Outcome State Fault Refusal :=
  .next (ldIe true c s)
/-- DI (R348). -/
def execDi (c : Nat) (s : State) : Host.Outcome State Fault Refusal :=
  .next (ldIe false c s)
/-- RDC (R348). -/
def execRdc (c d : Nat) (s : State) : Host.Outcome State Fault Refusal :=
  .next (ldRdc c d s)
/-- FMAD (R348). -/
def execFmad (c d a b : Nat) (x y : Option DualLoad) (s : State) : Host.Outcome State Fault Refusal :=
  .next (ldFmad c d a b x y s)
/-- MACD (R348). -/
def execMacd (c acc a b : Nat) (x y : Option DualLoad) (s : State) : Host.Outcome State Fault Refusal :=
  .next (ldMacd c acc a b x y s)
/-- LD2 (R348). -/
def execLd2 (c : Nat) (x y : Option DualLoad) (s : State) : Host.Outcome State Fault Refusal :=
  .next (ldLd2 c x y s)
/-- COMPACT_CORE_INTERRUPT (R359). -/
def execCompactCoreInterrupt (s : State) : Host.Outcome State Fault Refusal := .next (compactInterrupt s)

end Sys2Proof.Machine
end

