-- ==== Sys2Proof/Machine/Slices.lean ====
section
/-! DEFINITION. Instruction words of the Ladle cores (R347, R348) and the slices that run them (R338, R351, R352). -/

namespace Sys2Proof.Machine

/-! ### Decoding (R347 to R349) -/

/-- A decoded instruction of core c, as its effect; none where the word is illegal. -/
abbrev LdEffect := Option (State → State)

/-- OP 0x00 to 0x19: formats R, I and U. -/
def decodeAlu (c : Nat) (w : Word) : LdEffect :=
  let d := bits w 25 22
  let a := bits w 21 18
  let b := bits w 17 14
  let imm := bits w 15 0
  match bits w 31 26 with
  | 0x00 => if w = 0#32 then some (ldNop c) else none
  | 0x01 => some (ldAdd c d a b)
  | 0x02 => some (ldSub c d a b)
  | 0x03 => some (ldAnd c d a b)
  | 0x04 => some (ldOr c d a b)
  | 0x05 => some (ldXor c d a b)
  | 0x06 => some (ldShift (bits w 13 12) c d a (if bit w 11 then .imm (bits w 4 0) else .reg b))
  | 0x07 => some (ldMul c d a b)
  | 0x08 => some (ldAddi c d a (BitVec.ofNat 18 (bits w 17 0)))
  | 0x09 => if bits w 21 16 = 0 then some (ldMovl c d (BitVec.ofNat 16 imm)) else none
  | 0x0A => if bits w 21 16 = 0 then some (ldMovh c d (BitVec.ofNat 16 imm)) else none
  | 0x0B => if d = 0 then some (ldCmp c a b) else none
  | 0x0C => some (ldMov c d a)
  | 0x10 => some (ldFadd c d a b)
  | 0x11 => some (ldFsub c d a b)
  | 0x12 => some (ldFmul c d a b)
  | 0x13 => some (ldFma c d a b)
  | 0x14 => some (ldFms c d a b)
  | 0x15 => if d = 0 then some (ldFcmp c a b) else none
  | 0x16 =>
    (match bits w 3 0 with
     | 0 => some (ldFabs c d a)
     | 1 => some (ldFneg c d a)
     | 2 => some (ldPick true c d a b)
     | 3 => some (ldPick false c d a b)
     | 4 => some (ldIntFp c d a)
     | 5 => some (ldFpInt c d a)
     | 6 => some (ldQ31Fp c d a)
     | 7 => some (ldFpQ31 c d a)
     | 8 => some (ldFrcp c d a)
     | _ => none)
  | 0x18 =>
    if d < 4 then
      some (ldMac c d a b { sub := bit w 13, frac := bit w 12, uns := bit w 11, repl := bit w 10 }) else none
  | 0x19 =>
    (match bits w 3 0 with
     | 0 => some (ldRda c d (a % 4) (bits w 9 4))
     | 1 => some (ldMva c (d % 4) a (bits w 9 4))
     | 2 => some (ldClr c (d % 4))
     | 3 => some (ldRdg c d (a % 4))
     | _ => none)
  | _ => none

/-- The width field of format M. -/
def widthOf (n : Nat) : MemWidth :=
  match n with
  | 0 => .word
  | 1 => .shalf
  | 2 => .uhalf
  | _ => .ubyte

/-- OP 0x20 to 0x22: formats M and P. -/
def decodeMem (c : Nat) (w : Word) : LdEffect :=
  let d := bits w 25 22
  let p := bits w 21 19
  let wd := widthOf (bits w 16 15)
  let md : Option MemMode := match bits w 18 17 with
    | 0 => some (.offset (BitVec.ofNat 15 (bits w 14 0)))
    | 1 => if bits w 14 0 = 0 then some .postModify else none
    | _ => none
  let k := bits w 25 23
  let j := bits w 22 20
  let imm := BitVec.ofNat 16 (bits w 15 0)
  match bits w 31 26 with
  | 0x20 => md.map (fun m => ldLoad c d p m wd)
  | 0x21 => md.map (fun m => ldStore c d p m wd)
  | _ =>
    match bits w 19 16 with
    | 0 => some (ldPmvPD c k (bits w 3 0))
    | 1 => some (ldPmvDP c (bits w 3 0) k)
    | 2 => some (ldPmvMD c k (bits w 3 0))
    | 3 => some (ldPmvDM c (bits w 3 0) k)
    | 4 => some (ldPadd c k j imm)
    | 5 => some (ldMset c k imm)
    | 6 => some (ldMlen c k imm)
    | 7 => some (ldLdp c k j imm)
    | _ => none

/-- The conditions by number; 12 to 15 are none. -/
def condOf (n : Nat) : Option BrCond :=
  match n with
  | 0 => some .always
  | 1 => some .eq
  | 2 => some .ne
  | 3 => some .lt
  | 4 => some .ge
  | 5 => some .gt
  | 6 => some .le
  | 7 => some .lo
  | 8 => some .hs
  | 9 => some .flt
  | 10 => some .fge
  | 11 => some .unordered
  | _ => none

/-- OP 0x28 to 0x2E: formats B, L and the jump. -/
def decodeFlow (c : Nat) (w : Word) : LdEffect :=
  let off := BitVec.ofNat 22 (bits w 21 0)
  let len := bits w 9 0 + 1
  match bits w 31 26 with
  | 0x28 => (condOf (bits w 25 22)).map (fun q => ldB c q off)
  | 0x29 => if bits w 25 22 = 0 then some (ldCall c off) else none
  | 0x2A => if bits w 25 22 = 0 ∧ bits w 17 14 = 0 then some (ldJr c (bits w 21 18)) else none
  | 0x2C => some (ldRep c (bits w 25 10) len)
  | 0x2D => if bits w 21 10 = 0 then some (ldRepr c (bits w 25 22) len) else none
  | 0x2E => if bits w 25 0 = 0 then some (ldBrk c) else none
  | _ => none

/-- OP 0x30 to 0x32. -/
def decodeSys (c : Nat) (w : Word) : LdEffect :=
  let d := bits w 25 22
  let a := bits w 21 18
  match bits w 31 26 with
  | 0x30 => if bits w 25 0 = 0 then some (ldWait c) else none
  | 0x31 => some (ldRti c)
  | _ =>
    match bits w 3 0 with
    | 0 => some (ldMrs c d)
    | 1 => some (ldMsr c a)
    | 2 => some (ldIe true c)
    | 3 => some (ldIe false c)
    | 4 => some (ldRdc c d)
    | _ => none

/-- OP 0x38 to 0x3A: format D. -/
def decodeDual (c : Nat) (w : Word) : LdEffect :=
  let d := bits w 25 24
  let a := bits w 23 20
  let b := bits w 19 16
  let x : Option DualLoad := if bit w 15 then some { d := bits w 14 11, p := bits w 10 8 } else none
  let y : Option DualLoad := if bit w 7 then some { d := bits w 6 3, p := bits w 2 0 } else none
  match bits w 31 26 with
  | 0x38 => some (ldFmad c d a b x y)
  | 0x39 => some (ldMacd c d a b x y)
  | _ => if d = 0 ∧ a = 0 ∧ b = 0 then some (ldLd2 c x y) else none

/-- The instruction a word is (R347, R348). -/
def decodeLadle (c : Nat) (w : Word) : LdEffect :=
  let op := bits w 31 26
  if op < 0x20 then decodeAlu c w
  else if op < 0x23 then decodeMem c w
  else if 0x28 ≤ op ∧ op < 0x2F then decodeFlow c w
  else if 0x30 ≤ op ∧ op < 0x33 then decodeSys c w
  else if 0x38 ≤ op ∧ op < 0x3B then decodeDual c w
  else none

/-! ### Slices (R338, R350 to R354) -/

/-- One instruction from memory: fetch, decode, issue (R349). -/
def stepCore (c : Nat) (s : State) : State :=
  let k := getCore s c
  if !issues c k then s
  else if !fetchOk s c k.pc then haltCore c 7 0 s
  else if eccBad s (eccWord k.pc.toNat) then haltCore c 4 0 (eccReport s)
  else
    match decodeLadle c (memWord s k.pc.toNat) with
    | some f => f (eccFix (eccWord k.pc.toNat) s)
    | none => haltCore c 1 0 s

/-- At most n instructions, while the core issues. -/
def runCore : Nat → Nat → State → State
  | 0, _, s => s
  | n + 1, c, s => if issues c (getCore s c) then runCore n c (stepCore c s) else s

/-- The shadow set at the entry of a slice of axis a for sample round n (R338). -/
def sliceSet (s : State) (a : Nat) (n : Word) : RegSet :=
  { d := [(0, BitVec.ofNat 32 a), (1, packWord [fl 0 (getAx s a).ctl.firstRun, fl 1 (inSkim s)]), (2, n)]
    p := [(0, Cfg.SLDATA s (slW a))] }

/-- The slice of axis a in its slot from core clock `st` (R351 to R353): a core that halted, that is off, or whose RESTART
has not taken effect runs none. A slice that reaches its budget is left to SLICE_OVERRUN. -/
def runSlice (a st : Nat) (n : Word) (s : State) : State :=
  let c := a / 32
  let k := getCore s c
  let b := Cfg.SLCFG_BUDGET s (slW a)
  if 2 ≤ k.st || k.restartPend then s
  else
    let s1 := modCore c (fun k => { k with
      st := 1, axis := some a, shadow := true, shad := sliceSet s a n, pc := Cfg.SLENTRY s (slW a), clocks := st + 3
      limit := st + b - 3, delay := none, rtiPend := false, recent := [] }) s
    let s2 := runCore b c s1
    if (getCore s2 c).axis = some a then
      modCore c (fun k => { k with overran := k.overran ++ [a], peak := max k.peak b }) (modSlice a (fun x => { x with last := b }) s2)
    else s2

end Sys2Proof.Machine
end

