-- ==== Sys2Proof/Machine/Cluster.lean ====
section
/-! DEFINITION. The wake of a cluster and the departure of FDN slots (R48 to R53, R84, R351, R437). -/

namespace Sys2Proof.Machine

/-- The groups above axis a have used their entries of sample round n (R182). -/
def showGroups (a : Nat) (n : Word) (s : State) : State :=
  forAll (ancestors s a) (fun g s => modProf s (.group g) (fun p => { p with shown := spEntry p n })) s

/-- The LADLE words that the cells of axis a read (R86). -/
def ladleSources (s : State) (a : Nat) : List Nat :=
  (List.range 16).flatMap (fun k => ((List.range 4).map (cellSel s a k)).filterMap (fun sel =>
    if cellType s a k ≠ 0 ∧ sel / 4096 = 3 then some (eccWord (partBase s ptLADLE + 4 * (sel % 4096))) else none))

/-- Errors in the active bank of axis a, and in the LADLE words its cells read, are met by its computation (R29, R30). -/
def eccAxis (a : Nat) (s : State) : State :=
  if s.softErr.isEmpty && s.hardErr.isEmpty then s
  else
    let b := coefAddr s a (getAx s a).ctl.bank 0 0
    forAll (ladleSources s a) (fun w s => eccRead w s) (eccRange b (b + 0x400) s)

/-- The slice of axis a runs: the head in RUN, and the axis not at rest in PARK (R437). -/
def sliceRuns (s : State) (a : Nat) : Bool := s.sys.pwr = .run && !parkedAxis s a

/-- Axis a's part of a wake in round m, with its slice if its turn has one (R84, R351). -/
def axisTurn (turns : List Turn) (a : Nat) (m : Word) (s : State) : State :=
  let n := m - 1
  let s0 := computeAxis a m (if turns.any (fun t => t.axis = a) then eccAxis a s else s)
  let s1 := onlyIf (computesOn s a n) (fun s => snapAxis a (match moverOf s a with
    | some g => snapGroup g s
    | none => s)) s0
  let s2 := onlyIf ((limitAxes s1).contains a) (limitJudge a) (showGroups a n s1)
  match turns.find? (fun t => t.axis = a) with
  | none => s2
  | some t =>
    let s3 := match t.slice with
      | some st => if sliceRuns s2 a then runSlice a st n s2 else s2
      | none => s2
    modCtl s3 a (fun c => { c with firstRun := c.firstRun && c.st ≠ .run })

/-- Cells of cluster c that compute in sample round n, by cost: those due and not held back by PARK (R437). -/
def wakeLoad (s : State) (c : Nat) (n : Word) : Nat :=
  (List.range 32).foldl (fun k j => k + cellsCost s (32 * c + j) (dueCells s (32 * c + j) n)) 0

/-- The wake of cluster c in the present round (R52, R53). In PARK it wakes for its chopper cells alone. The places that stay
idle under R437 count as if they were used where they come last before the clock is gated off (DESIGN CHOICE, log 33). -/
def clusterWake (c : Nat) (s : State) : State :=
  if !clusterOn s c || s.sys.inReset || s.sys.hstate = .boot || s.sys.pwr = .deep then s
  else
    let m := s.sys.round
    let n := m - 1
    let order := computeOrder s c
    let turns := clusterTurns s c n (imageDue s n) order
    let live := turns.filter (fun t => s.sys.pwr = .run || !(dueCells s t.axis n).isEmpty)
    let s1 := forAll order (fun a => axisTurn live a m) s
    { s1 with clusters := tset s1.clusters c { (tget ({} : Cluster) s1.clusters c) with
        endNow := live.foldl (fun e t => max e t.e) 0, loadNow := wakeLoad s c n } }

/-- CLUSTER_WAKE (R52). -/
def execClusterWake (c : Nat) (s : State) : Host.Outcome State Fault Refusal := .next (clusterWake c s)

/-! ### FDN slots (R50, R116, R124, R125, R155, R219) -/

/-- The staged words of axis a that leave in round m. -/
def stagedFor (p : AxPred) (m : Word) : Option Staged := [p.staged, p.stagedPrev].findSome? (fun o =>
  match o with
  | some st => if st.leave = m then some st else none
  | none => none)

/-- The FDN entry of axis a in the present round. -/
def fdnEntry (s : State) (a : Nat) : Option SEntry := (axisEntries s a tyFDN).find? (fun e => e.acts s.sys.round)

/-- What leaves of a staged payload: over-voltage puts the gates-off flag in place of the words (R124); the compare flags
(R155) and CHOP (R125) are taken at departure. -/
def fdnLeaves (s : State) (a : Nat) (pay : List Byte) : List Byte :=
  let f0 := beNat pay 6 2
  let off := ovForced s a
  let f1 := if off then setBit f0 15 true else f0
  let f2 := f1 ||| ((getAx s a).pred.cmpOut % 16) * 512
  let f3 := setBit f2 13 (chopFlag s a)
  (if off then List.replicate 6 0 else pay.take 6) ++ beBytes 2 f3 ++ pay.drop 8

/-- What the words that left say of the rounds in which they apply: gates off from `r` on. -/
def forcedOff (r : Word) (p : AxPred) : AxPred :=
  { gateNote r false p with
    goff := true, hist := p.hist.map (fun h => if later r h.round then h else { h with off := true }) }

/-- Replace the staged words of round m. -/
def restage (m : Word) (pay : List Byte) (p : AxPred) : AxPred :=
  let f := fun (o : Option Staged) => o.map (fun st => if st.leave = m then { st with payload := pay } else st)
  { p with staged := f p.staged, stagedPrev := f p.stagedPrev }

/-- The words of axis a also leave in its position on the lost channel, whose normal schedule goes on (R254). -/
def sendLost (a : Nat) (pay : List Byte) (s : State) : State :=
  match axisNode s a with
  | some (n, _) =>
    let f := fastCh s n
    if f = axisCh s a then s
    else
      match (schedTable s f false).find? (fun e => e.type = tyFDN && e.axis = a && e.acts s.sys.round) with
      | some e => sendEntry f e pay s
      | none => s
  | none => s

/-- The FDN position of axis a in the present round begins (R50). A unit that sends no schedule takes the flags into
its staged words alike and sends nothing; a retired node gets no slot. -/
def fdnDeparture (a : Nat) (s : State) : State :=
  if s.sys.inReset || s.sys.hstate = .boot || s.sys.pwr ≠ .run then s
  else
    match fdnEntry s a with
    | none => s
    | some e =>
      let m := s.sys.round
      match stagedFor (getAx s a).pred m with
      | none => if sendsNow s then raiseAx a caStagingMiss s else s
      | some st =>
        let pay := fdnLeaves s a st.payload
        let dead := match axisNode s a with
          | some (nd, _) => isRetired s clsNode nd
          | none => true
        let s1 := modPred s a (fun p =>
          let p1 := { restage m pay p with cmpOut := 0 }
          if ovForced s a then forcedOff (m + 1) p1 else p1)
        if sendsNow s && !dead then onlyIf (inSkim s) (sendLost a pay) (sendEntry (axisCh s a) e pay s1) else s1

/-- FDN_SLOT_DEPARTURE (R50). -/
def execFdnSlotDeparture (a : Nat) (s : State) : Host.Outcome State Fault Refusal := .next (fdnDeparture a s)

end Sys2Proof.Machine
end

