-- ==== Sys2Proof/Machine/Host.lean ====
section
/-! DEFINITION. The host port (R385 to R397, R402): Ethernet frames, command frames and their acceptance across a pair,
the opcodes, subscriptions, and the SPI target. -/

namespace Sys2Proof.Machine

/-- Change the host port. -/
def modHost (f : HostPort → HostPort) (s : State) : State := { s with host := f s.host }

/-- Status codes (R391). -/
def stOK : Nat := 0
def stBOOTING : Nat := 1
def stBUSY : Nat := 2
def stOPCODE : Nat := 3
def stADDRESS : Nat := 4
def stACCESS : Nat := 5
def stREFUSED : Nat := 6
def stSTATE : Nat := 7

/-! ### Addresses (R373, R387, R388) -/

/-- The unit MAC address, MACID (R378, R387). -/
def unitMac (s : State) : Nat := bits (fuseWord s 0x0C) 15 0 * 2 ^ 32 + (fuseWord s 0x08).toNat
/-- The pair MAC address (R387). -/
def pairMac (s : State) : Nat := (nth 0#32 s.host.net 3).toNat * 65536 + bits (nth 0#32 s.host.net 4) 31 16

/-- IP and MAC of an address the head answers on now; none while it is silent there (R373, R375, R388). -/
def answering (s : State) (d : Dst) : Option (Word × Nat) :=
  match d with
  | .pair => if s.host.netOk && pairRole s then some (nth 0#32 s.host.net 0, pairMac s) else none
  | .unit => if s.host.netOk then some (nth 0#32 s.host.net (if s.sys.pref then 1 else 2), unitMac s) else none
  | .recovery => if s.boot.noImage then some (if s.sys.pref then 0xA9FE2801#32 else 0xA9FE2802#32, unitMac s) else none

/-- The port is open to a sender: the address answers, or the SPI target does (R373, R375). -/
def portOpen (s : State) (snd : Sender) : Bool :=
  !s.sys.inReset &&
    (match snd with
     | .udp _ _ _ d => (answering s d).isSome
     | .spi => s.host.netOk || s.boot.noImage
     | .core => false)

/-! ### Outgoing frames (R386, R389, R397) -/

/-- A frame of R389. -/
def hcpFrame (kind : Nat) (seq : Word) (op st : Nat) (pl : List Word) : List Byte :=
  let h := beBytes 2 0x4843 ++ beBytes 1 1 ++ beBytes 1 kind ++ beBytes 4 seq.toNat ++ beBytes 2 op ++ beBytes 2 st
    ++ beBytes 2 (4 * pl.length) ++ beBytes 2 0 ++ pl.flatMap (fun w => beBytes 4 w.toNat)
  h ++ beBytes 4 (crc32 h)

/-- The Internet checksum over bytes, as a one's complement sum of 16-bit words. -/
def ipSum (l : List Byte) : Nat :=
  let x := (List.range ((l.length + 1) / 2)).foldl (fun n i => n + beNat (l ++ [0#8]) (2 * i) 2) 0
  let y := x % 65536 + x / 65536
  let z := y % 65536 + y / 65536
  65535 - z

/-- An Ethernet frame that carries an IPv4 packet of the head: TTL 64, DF set (R386). Its identification field is free. -/
def ipFrame (dmac smac proto : Nat) (sip dip : Word) (ident : Nat) (body : List Byte) : List Byte :=
  let h := fun (sum : Nat) => beBytes 2 0x4500 ++ beBytes 2 (20 + body.length) ++ beBytes 2 ident ++ beBytes 2 0x4000 ++ beBytes 1 64
    ++ beBytes 1 proto ++ beBytes 2 sum ++ beBytes 4 sip.toNat ++ beBytes 4 dip.toNat
  beBytes 6 dmac ++ beBytes 6 smac ++ beBytes 2 0x0800 ++ h (ipSum (h 0)) ++ body

/-- The UDP datagram of a frame with its checksum over the pseudo header (R386). -/
def udpBody (sip dip : Word) (sp dp : Nat) (l : List Byte) : List Byte :=
  let d := fun (sum : Nat) => beBytes 2 sp ++ beBytes 2 dp ++ beBytes 2 (8 + l.length) ++ beBytes 2 sum ++ l
  let c := ipSum (beBytes 4 sip.toNat ++ beBytes 4 dip.toNat ++ beBytes 2 17 ++ beBytes 2 (8 + l.length) ++ d 0)
  d (if c = 0 then 65535 else c)

/-- The outgoing SPI store takes a frame: of eight the oldest notification gives way, else the oldest frame (R397). -/
def spiPut (note : Bool) (l : List Byte) (s : State) : State :=
  let o := s.host.out
  if o.length < 8 then modHost (fun h => { h with out := o ++ [(note, l)] }) s
  else
    match o.findIdx? (fun x => x.1) with
    | some i => { modHost (fun h => { h with out := o.eraseIdx i ++ [(note, l)] }) s with ev := { s.ev with nlost := sat16 (s.ev.nlost + 1) } }
    | none => modHost (fun h => { h with out := o.drop 1 ++ [(note, l)] }) s

/-- A frame leaves for a sender (R385, R386, R396); nothing leaves on Ethernet while LINK is 0. -/
def sendFrame (note : Bool) (snd : Sender) (l : List Byte) (s : State) : State :=
  match snd with
  | .udp ip port mac d =>
    match answering s d with
    | some (own, ownMac) =>
      if s.host.link then
        send (.frame snd (ipFrame mac ownMac 17 own ip (Config.freeNat s.free % 65536) (udpBody own ip (udpPort s) port l))) s.tick
      else s
    | none => s
  | .spi => spiPut note l s
  | .core => s

/-- A reply (R389). -/
def reply (snd : Sender) (r : Reply) (s : State) : State := sendFrame false snd (hcpFrame 1 r.seq r.op r.status r.pl) s

/-! ### Incoming command frames (R389 to R395) -/

/-- Sequence number, opcode and payload of a frame that passes R390; none where it is dropped. -/
def parseFrame (l : List Byte) : Option (Word × Nat × List Word) :=
  let n := beNat l 12 2
  if 20 ≤ l.length ∧ beNat l 0 2 = 0x4843 ∧ beNat l 2 1 = 1 ∧ beNat l 3 1 = 0 ∧ beNat l 14 2 = 0 ∧ n % 4 = 0 ∧ n ≤ 1024 ∧
      l.length = 20 + n ∧ crc32 (l.take (16 + n)) = beNat l (16 + n) 4 then
    some (BitVec.ofNat 32 (beNat l 4 4), beNat l 8 2, beWords ((l.drop 16).take n))
  else none

/-- Drop a frame and count it (R386, R390, R397). -/
def dropFrame (s : State) : State := modHost (fun h => { h with drop := inc16 h.drop }) s

/-- The opcode is known, and the payload has its length (R391, R392). -/
def opcodeOk (op : Nat) (pl : List Word) : Bool :=
  let w := nth 0#32 pl 0
  let n := pl.length
  match op with
  | 1 => n = 2 && decide (1 ≤ (nth 0#32 pl 1).toNat) && decide ((nth 0#32 pl 1).toNat ≤ 255)
  | 2 => decide (2 ≤ n)
  | 3 => n = 9
  | 4 => decide (1 ≤ n) && decide (bits w 7 0 + (n - 1) ≤ 256)
  | 5 => n = 9
  | 6 => n = 1
  | 7 => decide (1 ≤ n) && n = 1 + (if bits w 3 0 = 2 then bits w 15 8 else 0)
  | 8 => n = 1
  | _ => false

/-- In NOIMAGE (R373): reads of BOOT, CAP, FUSE and SYS, writes to IMGWBUF, and ERASE, PROGRAM, VERIFY and REBOOT. -/
def noImageAllows (op : Nat) (pl : List Word) : Bool :=
  let a := (nth 0#32 pl 0).toNat
  let img := fun (w : Word) => bits w 3 0 = 1 || bits w 3 0 = 2 || bits w 3 0 = 3 || bits w 3 0 = 5
  match op with
  | 1 => (List.range (nth 0#32 pl 1).toNat).all (fun i =>
      match regionOf (a + 4 * i) with
      | some .boot => true
      | some .cap => true
      | some .fuse => true
      | some .sys => true
      | _ => false)
  | 2 => (List.range (pl.length - 1)).all (fun i => 0x40030100 ≤ a + 4 * i && a + 4 * i < 0x40030200) ||
      (pl.length = 2 && a = aIMGCMD && img (nth 0#32 pl 1))
  | 7 => img (nth 0#32 pl 0)
  | _ => false

/-- The sender reaches the pair: the pair address, or the SPI port of the unit that holds the pair role (R388, R396). -/
def onPair (s : State) (snd : Sender) : Bool :=
  match snd with
  | .udp _ _ _ d => d = .pair
  | .spi => pairRole s
  | .core => true

/-- What a unit answers at once without accepting the command: 0 where it accepts it (R373, R375, R388, R391, R392). -/
def atOnce (s : State) (snd : Sender) (op : Nat) (pl : List Word) : Nat :=
  if booting s then stBOOTING
  else if !opcodeOk op pl then stOPCODE
  else if s.boot.noImage then (if noImageAllows op pl then 0 else stSTATE)
  else if op ≠ 1 ∧ !onPair s snd then stSTATE
  else 0

/-- An accepted command on its way (R279, R280): forwarded and confirmed with a usable standby, else accepted alone in the
next round; a unit that holds no pair role, and one in BOOT, forwards nothing. -/
def takeCommand (snd : Sender) (seq : Word) (op : Nat) (pl : List Word) (s : State) : State :=
  let c : HostCmd := { snd := snd, seq := seq, op := op, pl := pl, round := s.sys.round, fwd := false, ok := false }
  if !pairRole s || !onPair s snd then
    modWaiting (fun l => l ++ [{ c with ok := true, round := if s.sys.hstate = .boot then s.sys.round else s.sys.round + 1 }]) s
  else
    let s1 := if shadowPeer s then forward seq (sourceNo snd) (cmdBody c) s else s
    if usableStandby s then modTwin (fun t => { t with unprot := false }) (modWaiting (fun l => l ++ [{ c with fwd := true }]) s1)
    else modTwin (fun t => { t with unprot := true })
      (modWaiting (fun l => l ++ [{ c with ok := true, fwd := shadowPeer s, round := s.sys.round + 1 }]) s1)

/-- A BUSY reply, counted (R395). -/
def replyBusy (snd : Sender) (seq : Word) (op : Nat) (s : State) : State :=
  reply snd ⟨seq, op, stBUSY, []⟩ (modHost (fun h => { h with busy := inc16 h.busy }) s)

/-- A frame that passes R390 (R281, R394, R395): credit, window, and acceptance. A second copy of a command that still
awaits its acceptance receives BUSY (R404). -/
def dispatchFrame (snd : Sender) (seq : Word) (op : Nat) (pl : List Word) (s : State) : State :=
  let s1 := modHost (fun h => { h with rxok := inc16 h.rxok }) s
  if s.host.credits = 0 then raise evHostBusy (replyBusy snd seq op s1)
  else
    let s2 := modHost (fun h => { h with credits := h.credits - 1 }) s1
    match s.host.window.find? (fun r => r.seq = seq) with
    | some r => reply snd r (modHost (fun h => { h with dup := inc16 h.dup }) s2)
    | none =>
      if s.host.waiting.any (fun c => c.seq = seq && c.snd ≠ .core) then replyBusy snd seq op s2
      else
        let st := atOnce s snd op pl
        if st ≠ 0 then reply snd ⟨seq, op, st, []⟩ s2 else takeCommand snd seq op pl s2

/-- Bytes that wait in the receive buffer of DEEP PARK (R410). -/
def bufBytes (s : State) : Nat := s.host.buf.foldl (fun n q => n + q.2.length) 0

/-- A frame waits in the receive buffer of 16 KB, or is dropped (R410). -/
def bufferFrame (snd : Option Sender) (l : List Byte) (s : State) : State :=
  if bufBytes s + l.length ≤ 16384 then modHost (fun h => { h with buf := h.buf ++ [(snd, l)] }) s else dropFrame s

/-- A command frame from an open port, out of DEEP PARK (R390). -/
def frameNow (snd : Sender) (l : List Byte) (s : State) : State :=
  if !portOpen s snd then s
  else
    match parseFrame l with
    | some (seq, op, pl) => dispatchFrame snd seq op pl s
    | none => dropFrame s

/-- Number of the wake cause that a frame from a sender is (R412). -/
def wakeCause : Sender → Nat
  | .spi => 2
  | _ => 1

/-- COMMAND_FRAME (R390): in DEEP PARK the frame waits and wakes the head (R410, R412). -/
def commandFrame (snd : Sender) (l : List Byte) (s : State) : State :=
  if !portOpen s snd then s
  else if s.sys.pwr = .deep then wakeFrom (wakeCause snd) (bufferFrame (some snd) l s)
  else frameNow snd l s

/-- COMMAND_FRAME (R390). -/
def execCommandFrame (snd : Sender) (bytes : List Byte) (s : State) : Host.Outcome State Fault Refusal :=
  .next (commandFrame snd bytes s)

/-! ### Ethernet frames (R386) -/

/-- The address that an IP and a MAC name, if the head answers on it (R388). -/
def dstOf (s : State) (ip : Word) (mac : Nat) : Option Dst :=
  [Dst.pair, Dst.unit, Dst.recovery].find? (fun d => answering s d = some (ip, mac))

/-- The address that an IP names, with its MAC. -/
def macOf (s : State) (ip : Word) : Option Nat :=
  [Dst.pair, Dst.unit, Dst.recovery].findSome? (fun d =>
    match answering s d with
    | some (i, m) => if i = ip then some m else none
    | none => none)

/-- An answer on Ethernet leaves while LINK is 1. -/
def sendAnswer (l : List Byte) (s : State) : State := if s.host.link then send (.answer l) s else s

/-- An ARP frame of the head: operation 2 is a reply, 1 a request. -/
def arpFrame (dmac smac op : Nat) (sip : Word) (tmac : Nat) (tip : Word) : List Byte :=
  beBytes 6 dmac ++ beBytes 6 smac ++ beBytes 2 0x0806 ++ beBytes 2 1 ++ beBytes 2 0x0800 ++ beBytes 1 6 ++ beBytes 1 4
    ++ beBytes 2 op ++ beBytes 6 smac ++ beBytes 4 sip.toNat ++ beBytes 6 tmac ++ beBytes 4 tip.toNat

/-- ARP (R386): a request for an address the head answers on is answered. -/
def takeArp (l : List Byte) (s : State) : State :=
  if l.length < 42 ∨ beNat l 14 2 ≠ 1 ∨ beNat l 16 2 ≠ 0x0800 ∨ beNat l 18 2 ≠ 0x0604 ∨ beNat l 20 2 ≠ 1 then s
  else
    match macOf s (BitVec.ofNat 32 (beNat l 38 4)) with
    | some m => sendAnswer (arpFrame (beNat l 6 6) m 2 (BitVec.ofNat 32 (beNat l 38 4)) (beNat l 22 6) (BitVec.ofNat 32 (beNat l 28 4))) s
    | none => s

/-- The IPv4 checks of R386. -/
def ip4Ok (p : List Byte) : Bool :=
  let n := beNat p 2 2
  decide (20 ≤ p.length) && beNat p 0 1 = 0x45 && decide (20 ≤ n) && decide (n ≤ p.length) && beNat p 6 2 % 0x4000 = 0
    && ipSum (p.take 20) = 0 && (beNat p 9 1 = 17 || (beNat p 9 1 = 1 && decide (28 ≤ n) && beNat p 20 2 = 0x0800))

/-- The checks of a UDP datagram u: its length, its checksum where it is not 0, and the port (R386, R390). -/
def udpOk (s : State) (sip dip : Word) (u : List Byte) : Bool :=
  let n := beNat u 4 2
  decide (8 ≤ u.length) && decide (8 ≤ n) && decide (n ≤ u.length)
    && (beNat u 6 2 = 0 || ipSum (beBytes 4 sip.toNat ++ beBytes 4 dip.toNat ++ beBytes 2 17 ++ beBytes 2 n ++ u.take n) = 0)
    && beNat u 2 2 = udpPort s

/-- IPv4 (R386): an ICMP echo request is answered, a datagram to the port is a command frame. -/
def takeIp (l : List Byte) (s : State) : State :=
  let p := l.drop 14
  if !ip4Ok p then dropFrame s
  else
    let sip := BitVec.ofNat 32 (beNat p 12 4)
    let dip := BitVec.ofNat 32 (beNat p 16 4)
    let src := beNat l 6 6
    match dstOf s dip (beNat l 0 6) with
    | none => s
    | some d =>
      let b := (p.take (beNat p 2 2)).drop 20
      if beNat p 9 1 = 1 then
        if b.length ≤ 8 + 1472 then
          let e := fun (sum : Nat) => beBytes 2 0 ++ beBytes 2 sum ++ b.drop 4
          sendAnswer (ipFrame src (beNat l 0 6) 1 dip sip (Config.freeNat s.free % 65536) (e (ipSum (e 0)))) s.tick
        else dropFrame s
      else if udpOk s sip dip b then frameNow (.udp sip (beNat b 0 2) src d) ((b.take (beNat b 4 2)).drop 8) s
      else dropFrame s

/-- An Ethernet frame out of DEEP PARK, from its destination address on, without its FCS (R386). -/
def ethernetNow (l : List Byte) (s : State) : State :=
  if l.length < 14 then dropFrame s
  else if beNat l 12 2 = 0x0806 then takeArp l s
  else if beNat l 12 2 = 0x0800 then takeIp l s
  else dropFrame s

/-- The frame is addressed to a MAC address of the unit, or to broadcast (R388, R412). -/
def macMine (s : State) (mac : Nat) : Bool :=
  mac = 0xFFFFFFFFFFFF || mac = unitMac s || (s.host.netOk && pairRole s && mac = pairMac s)

/-- ETHERNET_FRAME (R386): before a NETWORK record is accepted the port is silent (R375); in DEEP PARK the frame waits and
wakes the head (R410, R412). -/
def ethernetFrame (l : List Byte) (s : State) : State :=
  if s.sys.inReset || !(s.host.netOk || s.boot.noImage) || !macMine s (beNat l 0 6) then s
  else if s.sys.pwr = .deep then wakeFrom 1 (bufferFrame none l s)
  else ethernetNow l s

/-- ETHERNET_FRAME (R386). -/
def execEthernetFrame (bytes : List Byte) (s : State) : Host.Outcome State Fault Refusal := .next (ethernetFrame bytes s)

/-- The frames that waited in DEEP PARK, in order of arrival (R412). -/
def takeBuffered (s : State) : State :=
  forAll s.host.buf (fun q s =>
    match q.1 with
    | some snd => frameNow snd q.2 s
    | none => ethernetNow q.2 s) (modHost (fun h => { h with buf := [] }) s)

/-! ### Execution of an accepted command (R279, R281, R394) -/

/-- The command may act in the present round. -/
def cmdReady (s : State) (c : HostCmd) : Bool := c.ok && decide ((s.sys.round - c.round).toNat < 2 ^ 31)

/-- The oldest accepted command, if it is the one named; commands act in the order of their acceptance. -/
def nextCommand (s : State) (snd : Sender) (seq : Word) (op : Nat) (pl : List Word) : Option HostCmd :=
  match s.host.waiting.find? (cmdReady s) with
  | some c => if c.snd = snd ∧ c.seq = seq ∧ c.op = op ∧ c.pl = pl then some c else none
  | none => none

/-- Take the oldest accepted command out of those on their way. -/
def takeOut (s : State) : State :=
  modWaiting (fun l => l.eraseP (cmdReady s)) s

/-- The reply enters the window of 256, and leaves the head where the command arrived here (R281, R394). -/
def finish (c : HostCmd) (r : Reply) (s : State) : State :=
  let s1 := modHost (fun h => { h with window := (r :: h.window).take 256 }) s
  if c.snd = .core then modCore 4 (fun k => { k with stalled := false }) s1
  else
    if pairRole s || !c.fwd then reply c.snd r s1 else s1

/-- Run an accepted command: what it does, and status and payload of its reply. -/
def runCommand (snd : Sender) (seq : Word) (op : Nat) (pl : List Word) (f : State → State × Nat × List Word) (s : State) : State :=
  match nextCommand s snd seq op pl with
  | some c =>
    let q := f (takeOut s)
    finish c ⟨seq, op, q.2.1, q.2.2⟩ q.1
  | none => s

/-- A refused command: the unit's code, or a free one where the spec names none (log 1). -/
def refusal (code : Option Nat) (s : State) : State × Nat × List Word :=
  match code with
  | some c => (s, stREFUSED, [BitVec.ofNat 32 c])
  | none => (s.tick, stREFUSED, [freeW s])

/-- The master and the source as which a sender acts (R21, R333). -/
def senderMaster (snd : Sender) : Master := if snd = .core then .compact else .host
/-- The source that RCCMD sees (R333). -/
def senderSource : Sender → Source
  | .udp _ _ _ _ => .ethernet
  | .spi => .spi
  | .core => .compact

/-! ### READ and WRITE (R393) -/

/-- Read one word, through the ECC in SRAM (R29, R30); a word with a double-bit error has no stated value. -/
def hostRead (m : Master) (a : Nat) (s : State) : State × Word :=
  if a < 0x400000 then eccLoad a s else readWord m a s

/-- Read n words upwards. -/
def hostReads (m : Master) : Nat → Nat → State → State × List Word
  | 0, _, s => (s, [])
  | n + 1, a, s =>
    let q := hostRead m a s
    let r := hostReads m n (a + 4) q.1
    (r.1, q.2 :: r.2)

/-- The addresses of n words from a upwards. -/
def wordAddrs (a n : Nat) : List Nat := (List.range n).map (fun i => a + 4 * i)

/-- Opcode READ (R392, R393). -/
def opRead (m : Master) (pl : List Word) (s : State) : State × Nat × List Word :=
  let a := (nth 0#32 pl 0).toNat
  let n := (nth 0#32 pl 1).toNat
  if !(wordAddrs a n).all (fun x => accessOk x 4 && (regionOf x).isSome) then (busError s, stADDRESS, [])
  else if !(wordAddrs a n).all (fun x => (regionOf x).all (mayRead m)) then (busError s, stACCESS, [])
  else
    let q := hostReads m n a s
    (q.1, stOK, q.2)

/-- An RWL register, with the seal closed (R3, R21, R316). -/
def sealBars (s : State) (a : Nat) : Bool := (a = 0x40500040 || a = 0x40500044) && !sealOpen s

/-- What the writes of a WRITE have come to: ignored ones, and the first refusal. -/
structure WSum where
  ignored : Nat := 0
  code : Option (Option Nat) := none
  deriving DecidableEq, Repr

/-- Write words upwards, and count (R393). -/
def hostWrites (m : Master) (src : Source) : Nat → List Word → WSum → State → State × WSum
  | _, [], x, s => (s, x)
  | a, w :: ws, x, s =>
    let q := busWrite m src a 4 w s
    let x1 : WSum :=
      match q.2 with
      | .ignored => { x with ignored := x.ignored + 1 }
      | .refused c => { x with code := some (x.code.getD c) }
      | _ => x
    hostWrites m src (a + 4) ws x1 q.1

/-- Opcode WRITE (R392, R393). -/
def opWrite (m : Master) (src : Source) (pl : List Word) (s : State) : State × Nat × List Word :=
  let a := (nth 0#32 pl 0).toNat
  let l := wordAddrs a (pl.length - 1)
  if !l.all (fun x => accessOk x 4 && (regionOf x).isSome) then (busError s, stADDRESS, [])
  else if !l.all (fun x => mayWrite s m x) then (busError s, stACCESS, [])
  else if l.any (sealBars s) then (refuseWrite s, stACCESS, [])
  else
    let q := hostWrites m src a (pl.drop 1) {} s
    match q.2.code with
    | some c => refusal c q.1
    | none => (q.1, stOK, [BitVec.ofNat 32 q.2.ignored])

/-- READ (R393). -/
def execRead (snd : Sender) (seq : Word) (pl : List Word) (s : State) : Host.Outcome State Fault Refusal :=
  .next (runCommand snd seq 1 pl (opRead (senderMaster snd) pl) s)
/-- WRITE (R393). -/
def execWrite (snd : Sender) (seq : Word) (pl : List Word) (s : State) : Host.Outcome State Fault Refusal :=
  .next (runCommand snd seq 2 pl (opWrite (senderMaster snd) (senderSource snd) pl) s)

/-! ### The other opcodes (R392) -/

/-- The move that eight words describe (R163). -/
def moveOf (w : Nat → Word) : Move :=
  { ctl := w 0, tgtLo := w 1, tgtHi := w 2, vmax := w 3, amax := w 4, dmax := w 5, jmax := w 6, aux := w 7 }

/-- The window of a queue owner reads 0 and takes no write (R2, R19). -/
def ownerDead (s : State) (o : Owner) : Bool :=
  match o with
  | .axis a => windowDead s (.axis a)
  | .group g => windowDead s (.grp g)

/-- Opcode QUEUE_MOVE (R168, R170, R392), with a staging bank of its own. -/
def opQueueMove (pl : List Word) (s : State) : State × Nat × List Word :=
  let w := nth 0#32 pl 0
  let o : Owner := if bit w 31 then .group (bits w 22 16) else .axis (bits w 22 16)
  let op := bits w 3 0
  let m := moveOf (fun i => nth 0#32 pl (i + 1))
  let code := if op = 0 then 0 else pfCheck o op m s
  if ownerDead s o then (if op = 0 then s else refuseWrite s, stOK, [0#32])
  else if code ≠ 0 then refusal (some code) (pfCommand o op m s)
  else (pfCommand o op m s, stOK, [BitVec.ofNat 32 (getProf s o).errCode])

/-- QUEUE_MOVE (R392). -/
def execQueueMove (snd : Sender) (seq : Word) (pl : List Word) (s : State) : Host.Outcome State Fault Refusal :=
  .next (runCommand snd seq 3 pl (opQueueMove pl) s)

/-- Opcode BANK_WRITE (R102, R103, R392): the inactive bank of the axis, then the swap. -/
def opBankWrite (pl : List Word) (s : State) : State × Nat × List Word :=
  let w := nth 0#32 pl 0
  let x := bits w 22 16
  let base := 0x41000000 + 0x1000 * x + (if (getAx s x).ctl.bank then 0x800 else 0xC00) + 4 * bits w 7 0
  let s1 := (hostWrites .host .ethernet base (pl.drop 1) {} s).1
  if windowDead s (.axis x) then (if bit w 31 then refuseWrite s1 else s1, stOK, [0#32])
  else if bit w 31 then
    let s2 := swapRequest x s1
    if swapRefused s1 x then refusal (some 1) s2 else (s2, stOK, [axstat s2 x])
  else (s1, stOK, [axstat s1 x])

/-- BANK_WRITE (R392). -/
def execBankWrite (snd : Sender) (seq : Word) (pl : List Word) (s : State) : Host.Outcome State Fault Refusal :=
  .next (runCommand snd seq 4 pl (opBankWrite pl) s)

/-- Two frames come from one subscriber: IP address, port and MAC address, or the SPI port (R402). -/
def sameSender (a b : Sender) : Bool :=
  match a, b with
  | .udp i p m _, .udp j q n _ => i = j && p = q && m = n
  | .spi, .spi => true
  | _, _ => false

/-- The slot of a sender among the four subscribers. -/
def subSlot (s : State) (snd : Sender) : Option Nat :=
  (List.range 4).find? (fun i =>
    match tget none s.host.subs i with
    | some b => sameSender b.snd snd
    | none => false)

/-- Put a subscriber in slot i, or free it. -/
def setSub (i : Nat) (b : Option Subscriber) (s : State) : State := modHost (fun h => { h with subs := tset h.subs i b }) s

/-- A 256-bit set from eight words, bank k in word k (R392). -/
def setOf (w : Nat → Word) : BitVec 256 := (List.range 8).foldl (fun x k => x ||| bankBits (w k) k) 0

/-- Opcode SUBSCRIBE (R402). -/
def opSubscribe (snd : Sender) (pl : List Word) (s : State) : State × Nat × List Word :=
  let set := setOf (fun k => nth 0#32 pl (k + 1))
  if bit (nth 0#32 pl 0) 0 then
    match subSlot s snd with
    | some i =>
      (modHost (fun h => { h with subs := tset h.subs i ((tget none h.subs i).map (fun b => { b with set := set })) }) s,
        stOK, [BitVec.ofNat 32 i])
    | none =>
      match (List.range 4).find? (fun i => (tget none s.host.subs i).isNone) with
      | some i => (setSub i (some { snd := snd, set := set }) s, stOK, [BitVec.ofNat 32 i])
      | none => refusal (some 1) s
  else
    match subSlot s snd with
    | some i => (setSub i none s, stOK, [BitVec.ofNat 32 i])
    | none => (s, stOK, [0xFFFFFFFF#32])

/-- SUBSCRIBE (R402). -/
def execSubscribe (snd : Sender) (seq : Word) (pl : List Word) (s : State) : Host.Outcome State Fault Refusal :=
  .next (runCommand snd seq 5 pl (opSubscribe snd pl) s)

/-- First byte and words of a record of the working copy by kind and index (R325, R392). -/
def recordAt (s : State) (kind i : Nat) : Option (Nat × Nat) :=
  match kind with
  | 0 => if i < 64 then some (histAddr s i, 33) else none
  | 1 => if i < 128 then some (coneAddr s i, 7) else none
  | 2 => if i < 1024 then some (listAddr s i, 4) else none
  | _ => none

/-- Opcode RECORD_READ (R326, R392). The unit has no such record: refused. -/
def opRecordRead (pl : List Word) (s : State) : State × Nat × List Word :=
  let w := nth 0#32 pl 0
  match recordAt s (bits w 17 16) (bits w 10 0) with
  | some (a, n) =>
    let q := hostReads .host n a s
    (q.1, stOK, q.2)
  | none => refusal none s

/-- RECORD_READ (R392). -/
def execRecordRead (snd : Sender) (seq : Word) (pl : List Word) (s : State) : Host.Outcome State Fault Refusal :=
  .next (runCommand snd seq 6 pl (opRecordRead pl) s)

/-- Opcode IMAGE (R376, R392), with staged words of its own. -/
def opImage (pl : List Word) (s : State) : State × Nat × List Word :=
  let w := nth 0#32 pl 0
  let code := imgRefusal s (bits w 3 0) (bits w 5 4) (bits w 15 8)
  if bits w 31 16 ≠ Config.key then (refuseWrite s, stOK, [imgstat s])
  else
    let s1 := imageCmd (bits w 3 0) (bits w 5 4) (bits w 15 8) (pl.drop 1) s
    if code ≠ 0 then refusal (some code) s1 else (s1, stOK, [imgstat s1])

/-- IMAGE (R392). -/
def execImage (snd : Sender) (seq : Word) (pl : List Word) (s : State) : Host.Outcome State Fault Refusal :=
  .next (runCommand snd seq 7 pl (opImage pl) s)

/-- The six words of HEAD_STATE (R392). -/
def headWords (s : State) : List Word := [s.sys.round, twstat s, healthWord s, s.twin.peerHealth, btstat s, sgstat s]

/-- Opcode HEAD_STATE (R277, R287, R392). -/
def opHeadState (pl : List Word) (s : State) : State × Nat × List Word :=
  let w := nth 0#32 pl 0
  if w = 0#32 then (s, stOK, headWords s)
  else if bits w 31 16 ≠ Config.key then (refuseWrite s, stOK, headWords (refuseWrite s))
  else
    match twCommand (bits w 2 0) s with
    | some t => (t, stOK, headWords t)
    | none => refusal none (refuseWrite s)

/-- HEAD_STATE (R392). -/
def execHeadState (snd : Sender) (seq : Word) (pl : List Word) (s : State) : Host.Outcome State Fault Refusal :=
  .next (runCommand snd seq 8 pl (opHeadState pl) s)

/-! ### SPI target (R396, R397) -/

/-- The SPI target takes part: the port is open (R373, R375). -/
def spiOpen (s : State) : Bool := portOpen s .spi

/-- A WRITE_FRAME can be taken: the incoming store is free, in DEEP PARK while the receive buffer holds a frame more. -/
def spiCanTake (s : State) : Bool := s.sys.pwr ≠ .deep || decide (bufBytes s + 1044 ≤ 16384)

/-- WRITE_FRAME (R397): dropped and counted while it cannot be taken. -/
def writeFrame (l : List Byte) (s : State) : State :=
  if !spiOpen s then s
  else if !spiCanTake s then wakeFrom 2 (dropFrame s)
  else commandFrame .spi l s

/-- WRITE_FRAME (R397). -/
def execWriteFrame (bytes : List Byte) (s : State) : Host.Outcome State Fault Refusal := .next (writeFrame bytes s)

/-- READ_FRAME (R397): two dummy bytes, which are free, then the oldest ready frame; zeros when nothing is ready, and in
DEEP PARK, in which the port only receives (R410). -/
def readFrame (s : State) : State :=
  if !spiOpen s then s
  else if s.sys.pwr = .deep then wakeFrom 2 (send (.miso [0#8, 0#8]) s)
  else
    match s.host.out with
    | [] => send (.miso [0#8, 0#8]) s
    | q :: t => send (.miso (beBytes 2 ((freeW s).toNat % 65536) ++ q.2)) (modHost (fun h => { h with out := t }) s.tick)

/-- READ_FRAME (R397). -/
def execReadFrame (s : State) : Host.Outcome State Fault Refusal := .next (readFrame s)

/-- The STATUS byte of the SPI target (R397). -/
def spiStatus (s : State) : Byte :=
  BitVec.ofNat 8 (b2n (s.host.out.any (fun q => !q.1)) + 2 * b2n (s.host.out.any (fun q => q.1)) + 4 * b2n (spiCanTake s))

/-- STATUS (R397). -/
def execStatus (s : State) : Host.Outcome State Fault Refusal :=
  .next (if spiOpen s then wakeFrom 2 (send (.miso [spiStatus s]) s) else s)

/-! ### PHY, credits and pulses (R385, R395, R401) -/

/-- PHY_POLL (R385): LINK follows bit 2 of register 1, outside DEEP PARK (R410). What register 1 says of 1000 Mbit/s full
duplex the spec does not state: FDX is free while LINK is 1 (log 1). -/
def phyPoll (reg1 : BitVec 16) (s : State) : State :=
  if s.sys.inReset || !(s.host.netOk || s.boot.noImage) || decide (s.sys.pwr = .deep) then s
  else
    let up := reg1.getLsbD 2
    let s1 := modHost (fun h => { h with link := up, fdx := up && freeB s }) s.tick
    if up = s.host.link then s1 else raise evHostLink s1

/-- PHY_POLL (R385). -/
def execPhyPoll (reg1 : BitVec 16) (s : State) : Host.Outcome State Fault Refusal := .next (phyPoll reg1 s)

/-- CREDIT_TICK (R395). -/
def execCreditTick (s : State) : Host.Outcome State Fault Refusal :=
  .next (modHost (fun h => { h with credits := incSat 32 h.credits }) s)

/-- PULSE_END (R401): 1 µs after the last raise routed to the pin. -/
def execPulseEnd (pin : Nat) (s : State) : Host.Outcome State Fault Refusal :=
  .next { s with ev := { s.ev with pulse := s.ev.pulse &&& ~~~ BitVec.ofNat 8 (2 ^ pin) } }

/-! ### Notifications (R402) -/

/-- NOTIFICATION_SEND (R402): at T0 the unit with the pair role sends each subscriber whose raised set is not empty one
notification; any other unit empties the sets (R403); in DEEP PARK the port only
receives (R410). `n` is the round that has just ended. -/
def notify (n : Word) (s : State) : State :=
  if s.sys.pwr = .deep then s
  else forAll (List.range 4) (fun i s =>
    match tget none s.host.subs i with
    | none => s
    | some b =>
      if !pairRole s then setSub i (some { b with raised := 0 }) s
      else if b.raised = 0 then s
      else
        let pl := [n, BitVec.ofNat 32 s.sys.epoch] ++ (List.range 8).map (evBank b.raised)
        let s1 := setSub i (some { b with raised := 0, seq := b.seq + 1 }) s
        if b.snd ≠ .spi && !s.host.link then { s1 with ev := { s1.ev with nlost := sat16 (s1.ev.nlost + 1) } }
        else sendFrame true b.snd (hcpFrame 2 (BitVec.ofNat 32 b.seq) 0x8000 0 pl) s1) s

end Sys2Proof.Machine
end

