-- ==== Sys2Proof/Machine/Local.lean ====
section
/-! DEFINITION. The local feedback ports and probe pins (R136, R137, R151, R159). -/

namespace Sys2Proof.Machine

/-- Local port k. -/
def getPort (s : State) (k : Nat) : Port := tget {} s.fbk.ports k

/-- Change local port k. -/
def modPort (k : Nat) (f : Port → Port) (s : State) : State :=
  { s with fbk := { s.fbk with ports := tset s.fbk.ports k (f (getPort s k)) } }

/-- The feedback unit does not run: in reset, and in DEEP PARK, where the core clock is stopped (R410). -/
def fbkStopped (s : State) : Bool := s.sys.inReset || decide (s.sys.pwr = .deep)

/-- Rounds for which a latched edge can still be evaluated: an interval of a feedback period and its neighbours. -/
def edgeKept (now r : Word) : Bool := (now - r).toNat ≤ 64

/-- LOCAL_PROBE_EDGE (R151): the pin takes a level at a core clock; a pulse shorter than FLT is rejected. -/
def localProbe (pin : Nat) (level : Bool) (clk len : Nat) (s : State) : State :=
  if s.fbk.level.getLsbD pin = level || decide (len < Cfg.LPRBFLT_FLT s) then s
  else
    let e : PinEdge := { pin := pin, level := level, round := s.sys.round, clk := clk,
                         cnts := (List.range 8).map (fun k => (getPort s k).cnt) }
    { s with fbk := { s.fbk with
      level := if level then s.fbk.level ||| BitVec.ofNat 8 (2 ^ pin) else s.fbk.level &&& ~~~ BitVec.ofNat 8 (2 ^ pin)
      edges := if fbkStopped s then s.fbk.edges else s.fbk.edges.filter (fun x => edgeKept s.sys.round x.round) ++ [e] } }

/-- LOCAL_PROBE_EDGE (R151). -/
def execLocalProbeEdge (pin : Nat) (level : Bool) (clk len : Nat) (s : State) : Host.Outcome State Fault Refusal :=
  .next (localProbe pin level clk len s)

/-- Place of the levels of A and B in the cycle of four; A leads B when counting up (log 15). -/
def quadPlace (a b : Bool) : Nat := if a then (if b then 2 else 1) else (if b then 3 else 0)

/-- The ×4 count of an ABZ port (R136): ±1 for one edge, a quadrature error for A and B at once; a rising edge on Z latches
the counter, the first since the last sample. -/
def abzStep (a b z : Bool) (p : Port) : Port :=
  let d := (quadPlace a b + 4 - quadPlace p.pinA p.pinB) % 4
  let cnt := if d = 1 then intMod 32 ((p.cnt : Int) + 1) else if d = 3 then intMod 32 ((p.cnt : Int) - 1) else p.cnt
  { p with
    cnt := cnt, quadErr := p.quadErr || decide (d = 2)
    z := if z && !p.pinZ then p.z.orElse (fun _ => some cnt) else p.z }

/-- LOCAL_ENCODER_EDGE (R136): new levels of the three pins of a port. -/
def localEncoder (k : Nat) (a b z : Bool) (s : State) : State :=
  let abz := Cfg.LENCCFG_EN s k && decide (Cfg.LENCCFG_TYPE s k = 0) && !fbkStopped s
  modPort k (fun p => { (if abz then abzStep a b z p else p) with pinA := a, pinB := b, pinZ := z }) s

/-- LOCAL_ENCODER_EDGE (R136). -/
def execLocalEncoderEdge (port : Nat) (pinA pinB pinZ : Bool) (s : State) : Host.Outcome State Fault Refusal :=
  .next (localEncoder port pinA pinB pinZ s)

/-- The port is an SSI port in use. -/
def ssiPort (s : State) (k : Nat) : Bool := Cfg.LENCCFG_EN s k && decide (Cfg.LENCCFG_TYPE s k = 1) && !fbkStopped s

/-- LENCk_A drives the SSI clock: alone always, in a twin pair only in ACTIVE or HANDBACK; else it is an input, and the port
samples on the partner's clock (R137). -/
def drivesClock (s : State) : Bool := !Cfg.TWCFG_EN s || driving s

/-- SSI_FRAME_START (R137): at T0 of every round m with m mod 2^SSIPER = 0. -/
def ssiStart (k : Nat) (s : State) : State :=
  if ssiPort s k && decide (s.sys.round.toNat % 2 ^ Cfg.LENCCFG_SSIPER s k = 0) then
    onlyIf (drivesClock s) (send (.ssiClock k)) (modPort k (fun p => { p with frame := true, frameAt := s.sys.round }) s)
  else s

/-- SSI_FRAME_START (R137). -/
def execSsiFrameStart (port : Nat) (s : State) : Host.Outcome State Fault Refusal := .next (ssiStart port s)

/-- The check of an SSI frame's bits (R137): CHK 0 none, 1 even parity, 2 CRC-6. -/
def ssiCheck (chk n : Nat) (l : List Bool) : Bool :=
  let data := l.take n
  let rest := l.drop n
  match chk with
  | 0 => data.length = n
  | 1 => rest.length = 1 && !evenParity (data ++ rest)
  | _ => rest.length = 6 && decide (bitsToNat rest = crc6 data)

/-- SSI_FRAME_END (R137): the frame in progress completes, with its start bit seen or not and its bits. -/
def ssiEnd (k : Nat) (startOk : Bool) (l : List Bool) (s : State) : State :=
  if ssiPort s k && (getPort s k).frame then
    let n := Cfg.LENCCFG_BITS s k
    modPort k (fun p => { p with
      frame := false, ssiAt := p.frameAt
      ssi := some (startOk, ssiCheck (Cfg.LENCCFG_CHK s k) n l, bitsToNat (l.take n)) }) s
  else s

/-- SSI_FRAME_END (R137). -/
def execSsiFrameEnd (port : Nat) (startOk : Bool) (bits : List Bool) (s : State) : Host.Outcome State Fault Refusal :=
  .next (ssiEnd port startOk bits s)

/-- The ports' samples at core clock 0 of a round (R136, R159): counter, Z latch, quadrature error and pins, into the half
of the round's parity for every axis that uses an ABZ or HALL port. -/
def portSamples (s : State) : State :=
  let n := s.sys.round
  let sample := fun (p : Port) => [p.cnt, b2n p.z.isSome, p.z.getD 0, b2n p.quadErr, b2n p.pinA + 2 * b2n p.pinB + 4 * b2n p.pinZ]
  let s1 := forAll ((List.range 128).filter (fun a => Cfg.FBCFG_SRC s (axW a) = 2 && Cfg.FBCFG_TYPE s (axW a) ≠ 1)) (fun a s =>
    let key := 2 * a + n.toNat % 2
    let e : InEntry := tget {} s.inbuf key
    { s with inbuf := tset s.inbuf key { e with loc := some (sample (getPort s (Cfg.FBCFG_PORT s (axW a)))) } }) s
  forAll (List.range 8) (fun k => modPort k (fun p => { p with
    count := if Cfg.LENCCFG_TYPE s k = 0 then p.cnt else p.count, z := none, quadErr := false, pinsT0 := b2n p.pinA + 2 * b2n p.pinB + 4 * b2n p.pinZ })) s1

end Sys2Proof.Machine
end

