-- ==== Sys2Proof/Machine/Shadow.lean ====
section
/-! DEFINITION. Shadow entry (R274): the copy units that the active unit sends, the rounds that the standby keeps, and their
computation anew for a unit that arrives. -/

namespace Sys2Proof.Machine

/-! ### Copy units -/

/-- The words of a coefficient bank of axis a (R102). -/
def bankWords (s : State) (a : Nat) (bank : Bool) : List Word :=
  (List.range 256).map (fun i => memWord s (coefAddr s a bank 0 0 + 4 * i))

/-- What the copy unit of a key holds now (R274). -/
def copyContent (s : State) (q : Nat × Nat) : CopyContent :=
  let a := q.2
  match q.1 with
  | 0 => .bank a (bankWords s a false) (bankWords s a true) (getAx s a).ctl.bank (getAx s a).ctl.swapPend (getAx s a).ctl.swapAt
  | 1 => .slow s.ev.mask s.ev.flags s.ev.pinCfg s.ev.route s.ret.chans s.host.window s.sag.params s.sag.log s.sag.logCount s.sag.logTotal
  | 2 => .ladle a (mread 0 s.mem (partBase s ptLADLE + 1024 * Cfg.LDPERS_BASE s (coW a)) (1024 * min 16 (Cfg.LDPERS_SIZE s (coW a))))
  | 3 => .owner (.axis a) (getAx s a).prof none
  | 4 => if isMover s a then .mover a (getGr s a) ((curMembers s a).map (fun x => (x, getAx s x)))
      else .owner (.group a) (getGr s a).prof (some (getGr s a))
  | 5 => .group a (getGr s a)
  | _ => .axis a (getAx s a)

/-- The active unit's units of a round (R274): each is taken with the stamp of the round that has just ended, and again where
it is not complete by round S + 16. How much of it fits into a round's stream the spec leaves open (log 13). -/
def copyRun : Nat → State → State
  | 0, s => s
  | n + 1, s =>
    match s.twin.copyq with
    | some (q :: rest) =>
      let new : CopyUnit := { stamp := s.sys.round, complete := true, content := copyContent s q }
      let u := match s.twin.copyCur with
        | some v => if (s.sys.round + 1 - v.stamp).toNat ≤ 16 then v else new
        | none => new
      if freeB s then
        copyRun n (modTwin (fun t => { t with copyq := some rest, copyCur := none, copyOut := t.copyOut ++ [u] }) s.tick)
      else modTwin (fun t => { t with copyCur := some u }) s.tick
    | _ => s

/-- The active unit begins or goes on sending copy units while the peer's shadow entry lasts; an entry that starts anew, which
its PROGRESS shows, gets them all again (R272, R274). -/
def prepareCopies (s : State) : State :=
  if pairRole s && bit s.twin.peerHealth 30 && laneInUse s then
    let p := bits s.twin.peerHealth 7 0
    let again := s.twin.copyq.isNone || decide (p < s.twin.copySeen)
    let s1 := modTwin (fun t => { t with
      copyq := if again then some (copyUnits s) else t.copyq, copyCur := if again then none else t.copyCur, copySeen := p }) s
    copyRun (copyUnits s).length s1
  else modTwin (fun t => { t with copyq := none, copyCur := none, copyOut := [], copySeen := 0 }) s

/-! ### The last rounds, and their computation anew -/

/-- The standby keeps the round that ends (R274): its upstream content, its commits and its shadow state, of the last 17 rounds,
so that 16 can be computed anew. -/
def closePast (s : State) : State :=
  if shadows s && s.twin.entry then
    let h : PastRound := { round := s.sys.round, inbuf := s.inbuf, cmds := s.twin.committed, ctlq := s.ctlq, axes := s.axes, groups := s.groups }
    modTwin (fun t => { t with committed := [], past := t.past.drop (t.past.length - 16) ++ [h] }) s
  else modTwin (fun t => { t with committed := [], past := [] }) s

/-- The second set-point buffer of a profile becomes the one the clusters read (R46). -/
def switchProf (p : Prof) : Prof :=
  match p.nextEntries with
  | some (n, es) => { p with entries := es, base := n, nextEntries := none }
  | none => p

/-- SETPOINT_BUFFER_SWITCH (R46), at the T0 after a tick. -/
def switchBuffers (s : State) : State :=
  { s with axes := s.axes.map (fun q => (q.1, { q.2 with prof := switchProf q.2.prof }))
           groups := s.groups.map (fun q => (q.1, { q.2 with prof := switchProf q.2.prof })) }

/-- What a committed command does to the shadow state (R279). -/
def actCommand (c : HostCmd) (s : State) : State :=
  match c.op with
  | 2 => (opWrite (senderMaster c.snd) (senderSource c.snd) c.pl s).1
  | 3 => (opQueueMove c.pl s).1
  | 4 => (opBankWrite c.pl s).1
  | _ => s

/-- The shadow state as a past round left it. -/
def pastState (h : PastRound) (s : State) : State :=
  { s with sys := { s.sys with round := h.round }, inbuf := h.inbuf, ctlq := h.ctlq, axes := h.axes, groups := h.groups }

/-- The round after a past one computed anew, with its own commits: T0, the tick of a tick round, and the clusters. -/
def replayRound (cmds : List HostCmd) (s' : State) : State :=
  let s := modSys (fun y => { y with round := y.round + 1 }) s'
  let s1 := switchBuffers (forAll (movers s) moverTotals s)
  let s2 := forAll (List.range (usableAxes s1)) bankSwap (runCtl s1)
  let s3 := forAll cmds actCommand s2
  let s4 := if s.sys.round.toNat % 4 = 3 then wheelTick (latchWheel (queueOwners s3) s3) else s3
  forAll (List.range 4) clusterWake s4

/-- A copy unit enters the shadow state of a past round. -/
def putPast (c : CopyContent) (s : State) (h : PastRound) : PastRound :=
  let t := takeCopy c (pastState h s)
  { h with axes := t.axes, groups := t.groups }

/-- From the past round S on, one after another, the unit `q` is computed anew, and the last round's state of it comes into force
(R274). -/
def replay (q : Nat × Nat) : CopyContent → List PastRound → State → State
  | _, [], s => s
  | c, [_], s => takeCopy c s
  | c, h :: h' :: rest, s =>
    let p := putPast c s h
    let s1 := modTwin (fun t => { t with past := t.past.map (fun x => if x.round = h.round then p else x) }) s
    replay q (copyContent (replayRound h'.cmds (takeCopy c (pastState h s))) q) (h' :: rest) s1

/-- A unit that has arrived comes into step (R274), where round S is among those kept. -/
def comeIntoStep (u : CopyUnit) (s : State) : State :=
  let l := s.twin.past.dropWhile (fun h => h.round ≠ u.stamp)
  if l.isEmpty then s else noteUnit (copyKey u.content) (replay (copyKey u.content) u.content l s)

/-- The units that arrived in the round that ends come into step (R274). -/
def takeArrived (s : State) : State :=
  if s.twin.arrived.isEmpty then s
  else forAll s.twin.arrived comeIntoStep (modTwin (fun t => { t with arrived := [] }) s)

end Sys2Proof.Machine
end

