-- ==== Sys2Proof/Machine/RoundStart.lean ====
section
/-! DEFINITION. ROUND_START: what happens at T0 of a round (R42), and the millisecond timers that rounds drive. -/

namespace Sys2Proof.Machine

/-! ### The end of the round that T0 closes -/

/-- The FDN payload of axis a from its computation in round m, CHOP taken as 0 (R219, R271). -/
def digestPayload (s : State) (m : Word) (a : Nat) : Option (List Byte) :=
  (stagedFor (getAx s a).pred (if Cfg.RNDCFG_LAT3 s then m + 1 else m)).map (fun st =>
    st.payload.take 6 ++ beBytes 2 (setBit (beNat st.payload 6 2) 13 false) ++ st.payload.drop 8)

/-- The bytes under D(m) (R271). -/
def digestBytes (s : State) (m : Word) : List Byte :=
  let axs := List.range (usableAxes s)
  axs.flatMap (fun a =>
    match digestPayload s m a with
    | some p => beBytes 1 a ++ p
    | none => []) ++ axs.flatMap (fun a => beBytes 4 (axstat (axisShown s a) a).toNat)

/-- D(m) of the round that ends (R271). -/
def closeDigest (s : State) : State :=
  if Cfg.TWCFG_EN s then modTwin (fun t => { t with ownDig := some (s.sys.round, crc64 (digestBytes s s.sys.round)) }) s else s

/-- Silent rounds of a standby, and the TKOK sent before them (R267). A unit that has become active in the round that ends drops
the commands the old one has not committed (R281, R286). -/
def closeSilence (s : State) : State :=
  let quiet := silentNow s && decide (s.sys.hstate = .standby)
  modTwin (fun t => { t with
    silent := if quiet then t.silent + 1 else 0
    tkokLast := if quiet then t.tkokLast else t.tkokSent
    renewed := false, sinceLease := min (t.sinceLease + 1) 3
    hbReq := t.hbReq && (tkok s || decide (s.sys.hstate ≠ .standby))
    stored := if driving s && decide (t.lastRnd = s.sys.round) then [] else t.stored
    holdMs := if hbStanding s then t.holdMs else 0 }) s

/-- Round counts of the head states (R236, R263, R283). -/
def closeCounts (s : State) : State :=
  { s with
    sys := { s.sys with
      listenTimer := s.sys.listenTimer - 1, stateRounds := s.sys.stateRounds + 1
      quietRounds := if s.sys.markSeen then 0 else s.sys.quietRounds + 1, markSeen := false }
    casc := { s.casc with noSync := s.casc.noSync + 1 } }

/-- What of a round in the rings is over: nodes not heard count silent rounds (R247), and a port that wrapped sends again
after 10 µs (R250). -/
def closeLink (s : State) : State :=
  forAll (chansOn s) (fun ch s => modCh s ch (fun c =>
    let c1 := { c with now0 := none, now1 := none, mark := none, marks := 0, nodes := c.nodes.map (fun q =>
      (q.1, { q.2 with silent := if q.2.heard || c.lost then 0 else q.2.silent + 1, heard := false })) }
    match c.wrapPort with
    | some p =>
      let on := decide (2 ≤ c.wrapRounds + 1)
      { c1 with
        wrapRounds := c.wrapRounds + 1
        lockRounds := if (if p = 0 then c.lock0 && c.align0 else c.lock1 && c.align1) then c.lockRounds + 1 else 0
        txdis0 := c.txdis0 && !(on && p = 0), txdis1 := c.txdis1 && !(on && p = 1) }
    | none => c1)) s

/-- PDC by node and over the head as of the end of the round, summed in ascending axis number (R86). -/
def closePdc (s : State) : State :=
  let own := (List.range (usableAxes s)).map (fun a => ((axisNode s a).map Prod.fst, (getAx s a).pred.pdc))
  let sum := fun (l : List (Option Nat × F32)) => l.foldl (fun x q => fAdd x q.2) (0 : F32)
  { s with pdc := (List.range 64).map (fun n => (n, sum (own.filter (fun q => q.1 = some n)))) ++ [(64, sum own)] }

/-- The timing words of the clusters (R54, R55). -/
def closeClusters (s : State) : State :=
  { s with clusters := s.clusters.map (fun q => (q.1, { q.2 with
      endLast := q.2.endNow, endPeak := max q.2.endPeak q.2.endNow, loadLast := q.2.loadNow, endNow := 0, loadNow := 0 })) }

/-! ### Buffers that change at T0 -/

/-- The half of the input buffer that is about to fill is marked missing (R51). -/
def markMissing (s : State) : State := { s with inbuf := s.inbuf.filter (fun q => q.1 % 2 ≠ s.sys.round.toNat % 2) }

/-- Held writes to the LADLE partition that are due (R356), in the order of their acceptance. -/
def applyHeld (s : State) : State :=
  let due := fun (h : HeldWrite) => h.due = s.sys.round || later s.sys.round h.due
  forAll (s.lad.held.filter due) (fun h s => memPut h.addr h.bytes s)
    { s with lad := { s.lad with held := s.lad.held.filter (fun h => !due h), cores := s.lad.cores.map (fun q => (q.1, { q.2 with restartPend := false })) } }

/-- The round-tick interrupt of the compact core (R359). -/
def roundTick (s : State) : State :=
  if s.sys.round.toNat % 2 ^ Cfg.LDCIRQ_TPER s = 0 then { s with lad := { s.lad with ipend := setBit s.lad.ipend 0 true } } else s

/-- SAGOK (R263, R273, R304): no lock-out cause stands, and the unit is not locked. -/
def noteSagOk (s : State) : State :=
  modSag (fun g => { g with sagOk := g.standing.isEmpty && decide (g.st ≠ 2) && decide (g.st ≠ 3) && decide (s.sys.hstate ≠ .locked) }) s

/-! ### Power states (R411, R412) -/

/-- Condition Q (R411). -/
def condQ (s : State) : Bool :=
  Cfg.PWRCFG_PARKEN s && (driving s || decide (s.sys.hstate = .standby)) && s.sag.test.isNone && decide (s.ps.on ||| s.ps.forced = 0)
    && s.axes.all (fun q =>
      let c := q.2.ctl
      decide (c.st ≠ .prestart) && decide (c.st ≠ .run) && decide (c.st ≠ .qstop)
        && !(decide (c.st = .park) && decide (c.wait = .brakePark)) && decide (q.2.stage.seq = .idle))

/-- PARK_ROUND_JUDGEMENT (R411), and DEEP PARK where a write asked for it (R412). -/
def judgePower (s : State) : State :=
  if s.sys.pwr = .deep then s
  else
    let n := if condQ s then s.sys.qRun + 1 else 0
    let s1 := setPower (if condQ s && decide (Cfg.PWRCFG_PARKDLY s ≤ n) then .park else .run) (modSys (fun y => { y with qRun := n }) s)
    let s2 := modSys (fun y => { y with deepReq := false }) s1
    if s.sys.deepReq && decide (s1.sys.pwr = .park) then setPower .deep s2 else s2

/-- The core clock comes back (R412): PARK, the watchdog from its full time (R420), the first sample of each axis without
the test of FBMAXD, and then the frames that waited. -/
def wakeUp (s : State) : State :=
  let s1 := setPower .park (modSys (fun y => { y with
    waking := none, wakes := inc16 y.wakes, wdLeft := y.wdLeft.map (fun _ => Cfg.WDCFG_TIME s) }) s)
  takeBuffered { s1 with axes := s1.axes.map (fun q =>
    (q.1, { q.2 with pred := { q.2.pred with thetas := [] }, fb := { q.2.fb with skipMaxd := true } })) }

/-- The rounds until the return from DEEP PARK (R412). -/
def countWake (s : State) : State :=
  match s.sys.waking with
  | some k => if k ≤ 1 then wakeUp s else modSys (fun y => { y with waking := some (k - 1) }) s
  | none => s

/-! ### Following another unit's T0 (R266, R283, R408) -/

/-- The unit follows another one (R408): its peer, which it hears on the twin lane, or the master of its cascade. -/
def follows (s : State) : Bool :=
  (laneUp s && (s.sys.hstate = .standby || s.sys.hstate = .isolated || s.sys.hstate = .listen))
    || (cascSlave s && driving s && decide (2 ≤ s.casc.st) && decide (s.casc.st ≤ 3))

/-- TRIM_UPDATE (R408): a change of at most 1 ppm within ±200 ppm towards the sign that reduces the phase error, which with
a late T0 is the positive one; how much it is the spec leaves open (log 1). -/
def trimStep (s : State) : State :=
  match (if follows s then s.sys.phase else none) with
  | none => modSys (fun y => { y with trim := 0 }) s
  | some e =>
    let t := s.sys.trim
    let k := Config.freeNat s.free
    let new :=
      if 0 < e then
        let lo := min (t + 100) (max (t - 100) 0)
        lo + ((k % ((t + 100 - lo).toNat + 1) : Nat) : Int)
      else if e < 0 then
        let hi := max (t - 100) (min (t + 100) 0)
        hi - ((k % ((hi - (t - 100)).toNat + 1) : Nat) : Int)
      else t - 100 + ((k % 201 : Nat) : Int)
    modSys (fun y => { y with trim := clampInt (-20000) 20000 new }) s.tick

/-! ### What leaves at T0 -/

/-- A slot of the stream from the byte time `q.1` on, where it still fits before the guard of R264: its envelope takes ten byte
times beside the payload (R213, R264). -/
def streamSlot (ty : Nat) (pay : List Byte) (q : Nat × State) : Nat × State :=
  let n := (pad16 (pay.take 256)).length + 10
  if q.1 + n ≤ 2448 then (q.1 + n, sendTwin q.1 ty pay q.2) else q

/-- TCONF slots: up to four sequence numbers each, the last one repeated in what is left of a slot (R264, log 1). -/
def sendConf : Nat → List Word → Nat × State → Nat × State
  | 0, _, s => s
  | n + 1, l, s =>
    match l with
    | [] => s
    | q :: _ =>
      let g := l.take 4
      let full := g ++ List.replicate (4 - g.length) (g.getLastD q)
      sendConf n (l.drop 4) (streamSlot twTCONF (full.flatMap (fun w => beBytes 4 w.toNat)) s)

/-- TCMD slots in order, as far as the stream reaches (R264): a command is forwarded in the round in which its slots leave
(R279). -/
def sendCmds : Nat → Nat × State → Nat × State
  | 0, q => q
  | n + 1, q =>
    match q.2.twin.outq with
    | [] => q
    | (seq, pay) :: rest =>
      if q.1 + (pad16 (pay.take 256)).length + 10 ≤ 2448 then
        sendCmds n (streamSlot twTCMD pay (q.1, modTwin (fun t => { t with outq := rest })
          (modWaiting (List.map (fun c => if c.seq = seq && c.fwd && !c.ok then { c with round := q.2.sys.round } else c)) q.2)))
      else q

/-- The retire records of R36: states, stamps and backoffs of the channels that are not each unit's own. -/
def retRecords (s : State) : List (Nat × Nat × List Nat × Nat) :=
  (s.ret.chans.filter (fun q => q.1 / 256 ≠ clsTwin && q.1 / 256 ≠ clsCascade)).map (fun q =>
    (q.1, (match q.2.st with
      | .inUse => 0
      | .backoff => 1
      | .retired => 2), q.2.stamps, q.2.backoff))

/-- The segment at which the unit itself wraps (R208, R251): its node-facing port ends segment 0 or, on the alternate unit,
32; its other port segment 33. -/
def wrapSegment (s : State) (port : Nat) : Nat := if port = facePort s then (if isAlt s then 32 else 0) else 33

/-- What TLINK says (R250, R251, R264): where the sender wraps, the segment it reports, and, of the unit with the pair role,
the channels ordered to unwrap. -/
def linkReport (s : State) : List (Nat × Nat) × Option Nat × List Nat :=
  let w := (chansOn s).filterMap (fun ch => (getCh s ch).wrapPort.map (fun p => (ch, p)))
  (w, w.head?.map (fun q => wrapSegment s q.2), if pairRole s then (chansOn s).filter (fun ch => (getCh s ch).unwrapping) else [])

/-- TOTPDC and NODEPDC as of the end of the round before (R86, R275). -/
def pdcReport (s : State) : F32 × List F32 := (tget 0#32 s.pdc 64, (List.range 64).map (fun n => tget 0#32 s.pdc n))

/-- The accepted commands that TCOMMIT of this round lists (R279). -/
def commits (s : State) : List Word :=
  (s.host.waiting.filter (fun c => c.ok && c.fwd && decide (c.round = s.sys.round))).map HostCmd.seq

/-- The peer is in shadow entry (R274, R275). -/
def peerEnters (s : State) : Bool := pairRole s && bit s.twin.peerHealth 30

/-- The stream of the round in order of priority (R264): TCOMMIT, TCONF, TCMD, TLINK, TRET, TXQ, TCOPY. The unit that has just
given the pair role away still commits the commands of its last round (R286). -/
def sendStream (s : State) : State :=
  let cs := commits s
  let q1 := if (pairRole s || s.twin.lastRnd = s.sys.round) && !cs.isEmpty then
      streamSlot twTCOMMIT (beBytes 4 cs.length ++ cs.flatMap (fun w => beBytes 4 w.toNat)) (64, s)
    else (64, s)
  let q2 := sendCmds s.twin.outq.length (sendConf 64 s.twin.confirmed q1)
  let q3 := streamSlot twTLINK (Config.tlinkBytes (linkReport s)) q2
  let q4 := (if pairRole s then Config.tretBytes (retRecords s) else []).foldl (fun q p => streamSlot twTRET p q) q3
  let q5 := (if peerEnters s then Config.txqBytes (pdcReport s) else []).foldl (fun q p => streamSlot twTXQ p q) q4
  s.twin.copyOut.foldl (fun t u => send (.tcopy u) t) (modTwin (fun t => { t with confirmed := [], copyOut := [] }) q5.2)

/-- The twin-lane slots of the round (R264): lease and digest at their byte times, then the stream; none while the lane is in
BACKOFF or retired (R286). -/
def sendTwinSlots (s : State) : State :=
  if !laneInUse s then modTwin (fun t => { t with tkokSent := tkok s }) s
  else
    let s1 := sendTwin 0 twTLEASE (leasePayload s) (modTwin (fun t => { t with tkokSent := tkok s }) s)
    sendStream (match s.twin.ownDig with
      | some (m, d) => sendTwin 32 twTDIG (beBytes 4 m.toNat ++ beBytes 8 d ++ beBytes 4 0) s1
      | none => s1)

/-- The time base of a cascade (R283, R284): CSYNC and CMARK of the master-role unit. -/
def sendCascade (s : State) : State :=
  if Cfg.CSCFG_EN s && masterPair s && driving s then
    let hdr := (Cfg.CSCFG_CHEAD s * 512 + b2n (isAlt s) * 256) * 16 + 1
    send (.cascade 0 (slotBytes hdr s.sys.round.toNat s.sys.epoch (beBytes 4 s.sys.round.toNat ++ beBytes 2 s.sys.epoch))) (send .csync s)
  else s

/-- The gratuitous ARP of the first round in ACTIVE or HANDBACK (R278). -/
def gratuitousArp (s : State) : State :=
  if driving s && decide (s.sys.stateRounds = 1) && s.sys.pwr ≠ .deep then
    match answering s .pair with
    | some (ip, m) => sendAnswer (arpFrame 0xFFFFFFFFFFFF m 1 ip 0 ip) s
    | none => s
  else s

/-! ### Timers of a millisecond -/

/-- Backoffs of the retire channels (R32). -/
def retMs (s : State) : State :=
  { s with ret := { s.ret with chans := s.ret.chans.map (fun q =>
    (q.1, if q.2.st = .backoff then { q.2 with backoff := q.2.backoff - 1 } else q.2)) } }

/-- The system watchdog (R420): it pauses in DEEP PARK. -/
def wdMs (s : State) : State :=
  if s.sys.pwr = .deep then s else modSys (fun y => { y with wdLeft := y.wdLeft.map (fun t => t - 1) }) s

/-- Junction temperature, a reading that no command carries: a free value (log 1). -/
def tjMs (s : State) : State := modSys (fun y => { y with tj := wrapInt 16 (freeW s).toNat }) s.tick

/-- One millisecond. -/
def tickMs (s : State) : State :=
  let s1 := modSys (fun y => { y with ms := y.ms + 1, subMs := 0, deferMs := y.deferMs - 1 }) s
  let s2 := wdMs (retMs (rcMs (sagMs s1)))
  tjMs (modCasc (fun c => { c with waitMs := c.waitMs + 1 }) (modTwin (fun t => { t with holdMs := if hbStanding s then t.holdMs + 1 else 0 }) s2))

/-- The power stages' round counters: choppers that are on (R126), and the time since the last trip (R124). -/
def stageRounds (s : State) : State :=
  if s.ps.on = 0 ∧ s.ps.forced = 0 ∧ !s.ps.tripped then s
  else
    { s with ps := { s.ps with
      tripRounds := s.ps.tripRounds + 1
      onRounds := (List.range 4).foldl (fun t j =>
        tset t j (if (s.ps.on ||| s.ps.forced).testBit j then tget 0 s.ps.onRounds j + 1 else 0)) s.ps.onRounds } }

/-- A round's counters; a millisecond is 128 rounds (R41). -/
def msTick (s' : State) : State :=
  let s := stageRounds (sagRounds s')
  if s.sys.subMs + 1 < Config.roundsPerMs then modSys (fun y => { y with subMs := y.subMs + 1 }) s else tickMs s

/-- The rails' monitors (R416): readings that no command carries, in mV. -/
def railTick (s : State) : State :=
  modSys (fun y => { y with spCore := Config.freeNat s.free % 4096, spAon := Config.freeNat (s.free + 1) % 4096 }) s.tick.tick

/-! ### The round -/

/-- What of T0 belongs to the clusters, the Wheel's buffers, samples and inputs: of these, DEEP PARK leaves the marking of the
input buffer and the timing words (R51, R56, R410). -/
def roundInputs (s' : State) : State :=
  let s := markMissing (closeClusters s')
  if s.sys.pwr = .deep then s
  else
    let s1 := forAll (movers s) moverTotals (closePdc s)
    let s2 := portSamples (forAll (List.range 8) sdLatch (switchBuffers s1))
    forAll (limitAxes s2) limitJudge { s2 with fbk := { s2.fbk with levelT0 := s2.fbk.level } }

/-- What acts on the state at T0: parameters, lock-out, swaps, commands, recorder, power. -/
def roundActions (s : State) : State :=
  let s1 := noteSagOk (leaveLocked (lockout (applyParams (applyHeld s))))
  let s2 := testRound (runCtl (forAll (List.range (usableAxes s1)) bankSwap s1))
  let s3 := recSample (rcApplyClear (judgePower (countWake (outputs s2))))
  if s3.sys.round.toNat % 4 = 3 then latchWheel (queueOwners s3) s3 else s3

/-- The markers and the schedule of a unit that sends (R207, R213); its epoch is then the last one sent (R236). -/
def sendRings (s : State) : State :=
  if sendsNow s then forAll (chansOn s) sendSchedule (eccSched { s with sys := { s.sys with lastEpoch := s.sys.epoch } }) else s

/-- What leaves at T0 (R42, R207, R264, R283). The skim schedule ends at T0, before the markers (R258). -/
def roundSends (s : State) : State :=
  let s1 := sendRings (onlyIf (pairRole s) skimEnded s)
  gratuitousArp (sendCascade (sendTwinSlots s1))

/-- T0 of a round outside BOOT (R42). A notification reports what the round that has just ended raised (R402). -/
def roundBegin (s : State) : State :=
  let n := s.sys.round
  let s0 := closeCounts (closeSilence (closeLink (cascListen (closeDigest (closePast (handbackRound (takeoverRound s)))))))
  let s1 := isoRejoin (prepareCopies (takeArrived s0))
  let s2 := { s1 with sys := { s1.sys with round := if s1.sys.roundRan then n + 1 else n, roundRan := s1.sys.roundRan || generates s1 }, ret := { s1.ret with late := [], fresh := [] }, tx := [] }
  let s3 := roundSends (roundActions (roundInputs (notify n s2)))
  onlyIf (decide (s3.sys.pwr ≠ .deep)) scrubRound (trimStep (roundTick s3))

/-- T0 of a round. In BOOT no round of the link runs: only the timers and a commanded restart count (R373, R376, R419). -/
def roundStart (s : State) : State :=
  if s.sys.inReset then s
  else if s.sys.rebootReq then resetHead 5 s
  else if s.sys.hstate = .boot then railTick (msTick { s with tx := [] })
  else railTick (msTick (roundBegin s))

/-- ROUND_START (R42). -/
def execRoundStart (s : State) : Host.Outcome State Fault Refusal := .next (roundStart s)

end Sys2Proof.Machine
end

