-- ==== Sys2Proof/Machine/Dispatch.lean ====
section
/-! DEFINITION. One arm for each command: a direct call of its meaning. -/

namespace Sys2Proof.Machine

/-- The effect of a command on everything but the queue. -/
def exec (i : Instr) (s : State) : Host.Outcome State Fault Refusal :=
  match i with
  | .roundStart => Sys2Proof.Machine.execRoundStart s
  | .fupReceived r => Sys2Proof.Machine.execFupReceived r s
  | .posReceived r => Sys2Proof.Machine.execPosReceived r s
  | .diagReceived r => Sys2Proof.Machine.execDiagReceived r s
  | .svcReply r => Sys2Proof.Machine.execSvcReply r s
  | .upstreamSilence ch node => Sys2Proof.Machine.execUpstreamSilence ch node s
  | .clusterWake c => Sys2Proof.Machine.execClusterWake c s
  | .sliceOverrun c => Sys2Proof.Machine.execSliceOverrun c s
  | .fdnSlotDeparture a => Sys2Proof.Machine.execFdnSlotDeparture a s
  | .wheelTick => Sys2Proof.Machine.execWheelTick s
  | .cxpReceived r => Sys2Proof.Machine.execCxpReceived r s
  | .remoteGearDerivation => Sys2Proof.Machine.execRemoteGearDerivation s
  | .bankSwap a => Sys2Proof.Machine.execBankSwap a s
  | .enable a => Sys2Proof.Machine.execEnable a s
  | .run a => Sys2Proof.Machine.execRun a s
  | .park a => Sys2Proof.Machine.execPark a s
  | .unpark a => Sys2Proof.Machine.execUnpark a s
  | .qstop a => Sys2Proof.Machine.execQstop a s
  | .disable a => Sys2Proof.Machine.execDisable a s
  | .reset a => Sys2Proof.Machine.execReset a s
  | .swap a => Sys2Proof.Machine.execSwap a s
  | .brakeAppliedReport a => Sys2Proof.Machine.execBrakeAppliedReport a s
  | .groupEnable g => Sys2Proof.Machine.execGroupEnable g s
  | .groupRun g => Sys2Proof.Machine.execGroupRun g s
  | .groupPark g => Sys2Proof.Machine.execGroupPark g s
  | .groupUnpark g => Sys2Proof.Machine.execGroupUnpark g s
  | .groupQstop g => Sys2Proof.Machine.execGroupQstop g s
  | .groupDisable g => Sys2Proof.Machine.execGroupDisable g s
  | .groupReset g => Sys2Proof.Machine.execGroupReset g s
  | .locgo g seg => Sys2Proof.Machine.execLocgo g seg s
  | .append o m => Sys2Proof.Machine.execAppend o m s
  | .replace o m => Sys2Proof.Machine.execReplace o m s
  | .chglim o m => Sys2Proof.Machine.execChglim o m s
  | .clear o m => Sys2Proof.Machine.execClear o m s
  | .ref o m => Sys2Proof.Machine.execRef o m s
  | .compareArming a w0 w1 w2 w3 => Sys2Proof.Machine.execCompareArming a w0 w1 w2 w3 s
  | .probeArming a w => Sys2Proof.Machine.execProbeArming a w s
  | .localProbeEdge pin level clk len => Sys2Proof.Machine.execLocalProbeEdge pin level clk len s
  | .localEncoderEdge port pinA pinB pinZ => Sys2Proof.Machine.execLocalEncoderEdge port pinA pinB pinZ s
  | .ssiFrameStart port => Sys2Proof.Machine.execSsiFrameStart port s
  | .ssiFrameEnd port startOk bits => Sys2Proof.Machine.execSsiFrameEnd port startOk bits s
  | .backoffEnd cls idx => Sys2Proof.Machine.execBackoffEnd cls idx s
  | .rtrelGo m w => Sys2Proof.Machine.execRtrelGo m w s
  | .retryComplete a => Sys2Proof.Machine.execRetryComplete a s
  | .testStepEvaluation a => Sys2Proof.Machine.execTestStepEvaluation a s
  | .noResponse a => Sys2Proof.Machine.execNoResponse a s
  | .overVoltageTrip d => Sys2Proof.Machine.execOverVoltageTrip d s
  | .overVoltageForcingEnd => Sys2Proof.Machine.execOverVoltageForcingEnd s
  | .chopperOverload j => Sys2Proof.Machine.execChopperOverload j s
  | .sdiFast k => Sys2Proof.Machine.execSdiFast k s
  | .sdiFault k => Sys2Proof.Machine.execSdiFault k s
  | .psctestGo target => Sys2Proof.Machine.execPsctestGo target s
  | .comparatorSelfTestEnd tripped released => Sys2Proof.Machine.execComparatorSelfTestEnd tripped released s
  | .listenTimerExpiry => Sys2Proof.Machine.execListenTimerExpiry s
  | .markAccepted r => Sys2Proof.Machine.execMarkAccepted r s
  | .coldstartEnd => Sys2Proof.Machine.execColdstartEnd s
  | .loadSequence ch node => Sys2Proof.Machine.execLoadSequence ch node s
  | .loadTimeout ch node => Sys2Proof.Machine.execLoadTimeout ch node s
  | .nodeAdmission ch node => Sys2Proof.Machine.execNodeAdmission ch node s
  | .channelJudgement ch o => Sys2Proof.Machine.execChannelJudgement ch o s
  | .skimEnded => Sys2Proof.Machine.execSkimEnded s
  | .portLoss ch f => Sys2Proof.Machine.execPortLoss ch f s
  | .unwrapOrder ch => Sys2Proof.Machine.execUnwrapOrder ch s
  | .unwrap ch => Sys2Proof.Machine.execUnwrap ch s
  | .tleaseReceived r => Sys2Proof.Machine.execTleaseReceived r s
  | .tdigReceived r => Sys2Proof.Machine.execTdigReceived r s
  | .leaseExpiry => Sys2Proof.Machine.execLeaseExpiry s
  | .twinLinkLost => Sys2Proof.Machine.execTwinLinkLost s
  | .tcmdReceived r => Sys2Proof.Machine.execTcmdReceived r s
  | .tconfReceived r => Sys2Proof.Machine.execTconfReceived r s
  | .tconfTimeout seq => Sys2Proof.Machine.execTconfTimeout seq s
  | .tcommitReceived r => Sys2Proof.Machine.execTcommitReceived r s
  | .tcopyReceived u => Sys2Proof.Machine.execTcopyReceived u s
  | .hbreq => Sys2Proof.Machine.execHbreq s
  | .handbackRound => Sys2Proof.Machine.execHandbackRound s
  | .handbackEnd => Sys2Proof.Machine.execHandbackEnd s
  | .isolatedTimeout => Sys2Proof.Machine.execIsolatedTimeout s
  | .yield m => Sys2Proof.Machine.execYield m s
  | .rejoin m => Sys2Proof.Machine.execRejoin m s
  | .inhibit m => Sys2Proof.Machine.execInhibit m s
  | .allow m => Sys2Proof.Machine.execAllow m s
  | .cmarkReceived r => Sys2Proof.Machine.execCmarkReceived r s
  | .csyncEdge ofs => Sys2Proof.Machine.execCsyncEdge ofs s
  | .csyncLost => Sys2Proof.Machine.execCsyncLost s
  | .cwaitExpiry => Sys2Proof.Machine.execCwaitExpiry s
  | .cascadeLaneLoss => Sys2Proof.Machine.execCascadeLaneLoss s
  | .safeReceived r => Sys2Proof.Machine.execSafeReceived r s
  | .safePeriod => Sys2Proof.Machine.execSafePeriod s
  | .brakeFeedbackTimeout b => Sys2Proof.Machine.execBrakeFeedbackTimeout b s
  | .degtimeExceeded => Sys2Proof.Machine.execDegtimeExceeded s
  | .lockoutCause cause idx => Sys2Proof.Machine.execLockoutCause cause idx s
  | .lockout => Sys2Proof.Machine.execLockout s
  | .safeReset startRound us => Sys2Proof.Machine.execSafeReset startRound us s
  | .testPulse sealHigh resetHigh => Sys2Proof.Machine.execTestPulse sealHigh resetHigh s
  | .darkPulse k fell rose => Sys2Proof.Machine.execDarkPulse k fell rose s
  | .saggarWatchdogExpiry => Sys2Proof.Machine.execSaggarWatchdogExpiry s
  | .saggarSupplyTrip => Sys2Proof.Machine.execSaggarSupplyTrip s
  | .cpuSelfTest ok => Sys2Proof.Machine.execCpuSelfTest ok s
  | .ramScrub ok => Sys2Proof.Machine.execRamScrub ok s
  | .romCrc ok => Sys2Proof.Machine.execRomCrc ok s
  | .clockComparison ok => Sys2Proof.Machine.execClockComparison ok s
  | .inputComparatorSelfTest ok => Sys2Proof.Machine.execInputComparatorSelfTest ok s
  | .marchTest ok => Sys2Proof.Machine.execMarchTest ok s
  | .saggarSelfTestEnd => Sys2Proof.Machine.execSaggarSelfTestEnd s
  | .pwd m len => Sys2Proof.Machine.execPwd m len s
  | .pwdset m len => Sys2Proof.Machine.execPwdset m len s
  | .param m => Sys2Proof.Machine.execParam m s
  | .sealclose m => Sys2Proof.Machine.execSealclose m s
  | .logclear m => Sys2Proof.Machine.execLogclear m s
  | .btest m b => Sys2Proof.Machine.execBtest m b s
  | .btestEnd => Sys2Proof.Machine.execBtestEnd s
  | .btabort m => Sys2Proof.Machine.execBtabort m s
  | .outset m mask => Sys2Proof.Machine.execOutset m mask s
  | .sealPinChange level => Sys2Proof.Machine.execSealPinChange level s
  | .sealTimeout => Sys2Proof.Machine.execSealTimeout s
  | .passwordBlockEnd => Sys2Proof.Machine.execPasswordBlockEnd s
  | .poweredSecond => Sys2Proof.Machine.execPoweredSecond s
  | .recorderPwd m len => Sys2Proof.Machine.execRecorderPwd m len s
  | .recorderClear src scope ok => Sys2Proof.Machine.execRecorderClear src scope ok s
  | .save m => Sys2Proof.Machine.execSave m s
  | .lock m => Sys2Proof.Machine.execLock m s
  | .saveComplete ok => Sys2Proof.Machine.execSaveComplete ok s
  | .authorisationTimeout => Sys2Proof.Machine.execAuthorisationTimeout s
  | .recorderPwdBlockEnd => Sys2Proof.Machine.execRecorderPwdBlockEnd s
  | .nop c => Sys2Proof.Machine.execNop c s
  | .add c rd rs rt => Sys2Proof.Machine.execAdd c rd rs rt s
  | .sub c rd rs rt => Sys2Proof.Machine.execSub c rd rs rt s
  | .and c rd rs rt => Sys2Proof.Machine.execAnd c rd rs rt s
  | .or c rd rs rt => Sys2Proof.Machine.execOr c rd rs rt s
  | .xor c rd rs rt => Sys2Proof.Machine.execXor c rd rs rt s
  | .shl c rd rs amt => Sys2Proof.Machine.execShl c rd rs amt s
  | .shr c rd rs amt => Sys2Proof.Machine.execShr c rd rs amt s
  | .sar c rd rs amt => Sys2Proof.Machine.execSar c rd rs amt s
  | .ror c rd rs amt => Sys2Proof.Machine.execRor c rd rs amt s
  | .mul c rd rs rt => Sys2Proof.Machine.execMul c rd rs rt s
  | .addi c rd rs imm => Sys2Proof.Machine.execAddi c rd rs imm s
  | .movl c rd imm => Sys2Proof.Machine.execMovl c rd imm s
  | .movh c rd imm => Sys2Proof.Machine.execMovh c rd imm s
  | .cmp c rs rt => Sys2Proof.Machine.execCmp c rs rt s
  | .mov c rd rs => Sys2Proof.Machine.execMov c rd rs s
  | .fadd c rd rs rt => Sys2Proof.Machine.execFadd c rd rs rt s
  | .fsub c rd rs rt => Sys2Proof.Machine.execFsub c rd rs rt s
  | .fmul c rd rs rt => Sys2Proof.Machine.execFmul c rd rs rt s
  | .fma c rd rs rt => Sys2Proof.Machine.execFma c rd rs rt s
  | .fms c rd rs rt => Sys2Proof.Machine.execFms c rd rs rt s
  | .fcmp c rs rt => Sys2Proof.Machine.execFcmp c rs rt s
  | .fabs c rd rs => Sys2Proof.Machine.execFabs c rd rs s
  | .fneg c rd rs => Sys2Proof.Machine.execFneg c rd rs s
  | .fmin c rd rs rt => Sys2Proof.Machine.execFmin c rd rs rt s
  | .fmax c rd rs rt => Sys2Proof.Machine.execFmax c rd rs rt s
  | .integerToFp c rd rs => Sys2Proof.Machine.execIntegerToFp c rd rs s
  | .fpToInteger c rd rs => Sys2Proof.Machine.execFpToInteger c rd rs s
  | .q31ToFp c rd rs => Sys2Proof.Machine.execQ31ToFp c rd rs s
  | .fpToQ31 c rd rs => Sys2Proof.Machine.execFpToQ31 c rd rs s
  | .frcp c rd rs => Sys2Proof.Machine.execFrcp c rd rs s
  | .mac c acc rs rt md => Sys2Proof.Machine.execMac c acc rs rt md s
  | .rda c rd acc sh => Sys2Proof.Machine.execRda c rd acc sh s
  | .mva c acc rs sh => Sys2Proof.Machine.execMva c acc rs sh s
  | .clr c acc => Sys2Proof.Machine.execClr c acc s
  | .rdg c rd acc => Sys2Proof.Machine.execRdg c rd acc s
  | .ld c rd p md w => Sys2Proof.Machine.execLd c rd p md w s
  | .st c rd p md w => Sys2Proof.Machine.execSt c rd p md w s
  | .pmvPFromD c pk d => Sys2Proof.Machine.execPmvPFromD c pk d s
  | .pmvDFromP c d pk => Sys2Proof.Machine.execPmvDFromP c d pk s
  | .pmvMFromD c mk d => Sys2Proof.Machine.execPmvMFromD c mk d s
  | .pmvDFromM c d mk => Sys2Proof.Machine.execPmvDFromM c d mk s
  | .padd c pk pj imm => Sys2Proof.Machine.execPadd c pk pj imm s
  | .mset c mk imm => Sys2Proof.Machine.execMset c mk imm s
  | .mlen c mk imm => Sys2Proof.Machine.execMlen c mk imm s
  | .ldp c pk pj imm => Sys2Proof.Machine.execLdp c pk pj imm s
  | .b c cond off => Sys2Proof.Machine.execB c cond off s
  | .call c off => Sys2Proof.Machine.execCall c off s
  | .jr c rs => Sys2Proof.Machine.execJr c rs s
  | .rep c count len => Sys2Proof.Machine.execRep c count len s
  | .repr c rs len => Sys2Proof.Machine.execRepr c rs len s
  | .brk c => Sys2Proof.Machine.execBrk c s
  | .wait c => Sys2Proof.Machine.execWait c s
  | .rti c => Sys2Proof.Machine.execRti c s
  | .mrs c rd => Sys2Proof.Machine.execMrs c rd s
  | .msr c rs => Sys2Proof.Machine.execMsr c rs s
  | .ei c => Sys2Proof.Machine.execEi c s
  | .di c => Sys2Proof.Machine.execDi c s
  | .rdc c rd => Sys2Proof.Machine.execRdc c rd s
  | .fmad c rd rs rt x y => Sys2Proof.Machine.execFmad c rd rs rt x y s
  | .macd c acc rs rt x y => Sys2Proof.Machine.execMacd c acc rs rt x y s
  | .ld2 c x y => Sys2Proof.Machine.execLd2 c x y s
  | .compactCoreInterrupt => Sys2Proof.Machine.execCompactCoreInterrupt s
  | .ldmboxWrite m v => Sys2Proof.Machine.execLdmboxWrite m v s
  | .restart m c => Sys2Proof.Machine.execRestart m c s
  | .stop m c => Sys2Proof.Machine.execStop m c s
  | .bootSequence b => Sys2Proof.Machine.execBootSequence b s
  | .bootComplete => Sys2Proof.Machine.execBootComplete s
  | .erase m slot => Sys2Proof.Machine.execErase m slot s
  | .program m slot nwords => Sys2Proof.Machine.execProgram m slot nwords s
  | .verify m slot => Sys2Proof.Machine.execVerify m slot s
  | .invalidate m slot => Sys2Proof.Machine.execInvalidate m slot s
  | .reboot m => Sys2Proof.Machine.execReboot m s
  | .imageCommandDone e => Sys2Proof.Machine.execImageCommandDone e s
  | .fpcmdGo m w vpp => Sys2Proof.Machine.execFpcmdGo m w vpp s
  | .fuseProgramDone readBackOk => Sys2Proof.Machine.execFuseProgramDone readBackOk s
  | .ethernetFrame bytes => Sys2Proof.Machine.execEthernetFrame bytes s
  | .commandFrame snd bytes => Sys2Proof.Machine.execCommandFrame snd bytes s
  | .read snd seq pl => Sys2Proof.Machine.execRead snd seq pl s
  | .write snd seq pl => Sys2Proof.Machine.execWrite snd seq pl s
  | .queueMove snd seq pl => Sys2Proof.Machine.execQueueMove snd seq pl s
  | .bankWrite snd seq pl => Sys2Proof.Machine.execBankWrite snd seq pl s
  | .subscribe snd seq pl => Sys2Proof.Machine.execSubscribe snd seq pl s
  | .recordRead snd seq pl => Sys2Proof.Machine.execRecordRead snd seq pl s
  | .image snd seq pl => Sys2Proof.Machine.execImage snd seq pl s
  | .headState snd seq pl => Sys2Proof.Machine.execHeadState snd seq pl s
  | .writeFrame bytes => Sys2Proof.Machine.execWriteFrame bytes s
  | .readFrame => Sys2Proof.Machine.execReadFrame s
  | .status => Sys2Proof.Machine.execStatus s
  | .phyPoll reg1 => Sys2Proof.Machine.execPhyPoll reg1 s
  | .creditTick => Sys2Proof.Machine.execCreditTick s
  | .pulseEnd pin => Sys2Proof.Machine.execPulseEnd pin s
  | .registerWrite m addr v => Sys2Proof.Machine.execRegisterWrite m addr v s
  | .pwrcmdDeep m => Sys2Proof.Machine.execPwrcmdDeep m s
  | .wake cause => Sys2Proof.Machine.execWake cause s
  | .supplyWarning rail mv => Sys2Proof.Machine.execSupplyWarning rail mv s
  | .supplyWarningClear core aon => Sys2Proof.Machine.execSupplyWarningClear core aon s
  | .deferralEnd => Sys2Proof.Machine.execDeferralEnd s
  | .supplyReset => Sys2Proof.Machine.execSupplyReset s
  | .refclkLoss => Sys2Proof.Machine.execRefclkLoss s
  | .pllLockLoss => Sys2Proof.Machine.execPllLockLoss s
  | .porst => Sys2Proof.Machine.execPorst s
  | .resetRelease pref casc oct => Sys2Proof.Machine.execResetRelease pref casc oct s
  | .watchdogExpiry => Sys2Proof.Machine.execWatchdogExpiry s
  | .wdkick m w => Sys2Proof.Machine.execWdkick m w s
  | .tretReceived r => Sys2Proof.Machine.execTretReceived r s
  | .txqReceived r => Sys2Proof.Machine.execTxqReceived r s
  | .tlinkReceived r => Sys2Proof.Machine.execTlinkReceived r s
  | .twinLaneLossOfLock => Sys2Proof.Machine.execTwinLaneLossOfLock s
  | .twinLaneLocked => Sys2Proof.Machine.execTwinLaneLocked s
  | .sfbMatchTimeout k => Sys2Proof.Machine.execSfbMatchTimeout k s

end Sys2Proof.Machine
end

