-- ==== Sys2Proof/Safety.lean ====
section
/-! DEFINITION. What a safe run is, and the terms in which statements say what a command leaves unchanged. -/

namespace Sys2Proof

/-- A step neither faults nor is refused. -/
def Machine.State.safeStep (s : Machine.State) : Prop := ∃ t, Machine.step s = .next t

/-- The commands of a list, one after the other, each on the state that the one before it leaves. -/
def Machine.execAll (cs : List Instr) (s : Machine.State) : Host.Outcome Machine.State Machine.Fault Machine.Refusal :=
  match cs with
  | [] => .next s
  | c :: l =>
    match Machine.exec c s with
    | .next t => Machine.execAll l t
    | o => o

/-- A write of address a by master m reaches its register: m may write it (R21), and a write of the compact core is
neither lost in DEEP PARK (R340) nor discarded in STANDBY (R357). -/
def Machine.State.reaches (m : Master) (a : Nat) (s : Machine.State) : Prop :=
  Machine.mayWrite s m a = true ∧ (m = .compact → s.sys.pwr ≠ .deep ∧ s.sys.hstate ≠ .standby)

/-- Event e stands in the flags (R400). -/
def Machine.State.raised (e : Nat) (s : Machine.State) : Prop := s.ev.flags.getLsbD e = true

/-- Cause c of axis a stands (R399). -/
def Machine.State.axisCause (a c : Nat) (s : Machine.State) : Prop := (Machine.tget 0 s.ev.axCause a).getLsbD c = true

/-- Cause c of group g stands (R399). -/
def Machine.State.groupCause (g c : Nat) (s : Machine.State) : Prop := (Machine.tget 0 s.ev.grCause g).getLsbD c = true

/-- t is s, but for what raising an event may touch (R400): the event unit, the compact core's pending interrupts, the
subscribers, and the wake from DEEP PARK; and no flag that stood in s has fallen. -/
def Machine.State.onlyEvents (s t : Machine.State) : Prop :=
  t = { s with
    ev := t.ev
    lad := { s.lad with ipend := t.lad.ipend }
    host := { s.host with subs := t.host.subs }
    sys := { s.sys with waking := t.sys.waking, wcause := t.sys.wcause } } ∧
  ∀ e, Machine.State.raised e s → Machine.State.raised e t

/-- t is s, but for axis a and for what raising an event may touch. -/
def Machine.State.onlyAxis (a : Nat) (s t : Machine.State) : Prop :=
  Machine.State.onlyEvents { s with axes := t.axes } t ∧ ∀ b, b ≠ a → Machine.getAx t b = Machine.getAx s b

/-- t is s, but for group g and for what raising an event may touch. -/
def Machine.State.onlyGroup (g : Nat) (s t : Machine.State) : Prop :=
  Machine.State.onlyEvents { s with groups := t.groups } t ∧ ∀ h, h ≠ g → Machine.getGr t h = Machine.getGr s h

/-- t is s, but for what the fault of an axis may touch (R105, R106, R192): the axes, the groups, the retire block, and
what raising an event touches. -/
def Machine.State.onlyReaction (s t : Machine.State) : Prop :=
  Machine.State.onlyEvents { s with axes := t.axes, groups := t.groups, ret := t.ret } t

/-- Core c issues its next instruction: it runs (in a slice, for a wide core) and its program counter is in its code. -/
def Machine.State.coreRuns (c : Nat) (s : Machine.State) : Prop :=
  Machine.issues c (Machine.getCore s c) = true ∧ Machine.fetchOk s c (Machine.getCore s c).pc = true

/-- What register r of core c holds, in the shadow set or in the primary one (an accumulator belongs to both). -/
def Machine.State.held (c : Nat) (shadow : Bool) (r : Machine.Res) (s : Machine.State) : Nat :=
  Machine.resNow { Machine.getCore s c with shadow := shadow } r

/-- Core k after one instruction is q but for its program counter, repeat levels and clocks, the record of what recent
instructions wrote, the end of an RTI, and the registers rs of the set that was in use. -/
def Machine.State.coreKept (rs : List Machine.Res) (k q : Machine.Core) : Prop :=
  q.st = k.st ∧ q.hcause = k.hcause ∧ q.halts = k.halts ∧ q.fpc = k.fpc ∧ q.faddr = k.faddr ∧ q.ovrCnt = k.ovrCnt ∧
  q.axis = k.axis ∧ q.limit = k.limit ∧ q.overran = k.overran ∧ q.retPc = k.retPc ∧ q.waiting = k.waiting ∧
  q.issued = k.issued + 1 ∧
  ∀ r sh, (r ∈ rs → sh ≠ k.shadow ∧ Machine.isAcc r = false) →
    Machine.resNow { q with shadow := sh } r = Machine.resNow { k with shadow := sh } r

/-- The register set in use and the interrupt enables are those of k, unless the last delay slot of an RTI ends it. -/
def Machine.State.modeKept (k q : Machine.Core) : Prop :=
  k.rtiPend = false → q.shadow = k.shadow ∧ q.prim.ie = k.prim.ie ∧ q.shad.ie = k.shad.ie ∧ q.rtiPend = false

/-- t is s, but for core c and the free-value counter. -/
def Machine.State.oneCore (c : Nat) (s t : Machine.State) : Prop :=
  t = { s with free := t.free, lad := { s.lad with cores := t.lad.cores } } ∧
  ∀ e, e ≠ c → Machine.getCore t e = Machine.getCore s e

/-- t is s, but for core c, of which the registers rs of the set in use may have changed, and for the free-value counter. -/
def Machine.State.onlyCore (c : Nat) (rs : List Machine.Res) (s t : Machine.State) : Prop :=
  Machine.State.oneCore c s t ∧ Machine.State.coreKept rs (Machine.getCore s c) (Machine.getCore t c) ∧
  Machine.State.modeKept (Machine.getCore s c) (Machine.getCore t c)

/-- t is s, but for what an answer of the host port may touch (R394, R397): the port, what leaves in the round, the counter
of lost notifications and the free-value counter. -/
def Machine.State.onlyPort (s t : Machine.State) : Prop :=
  t = { s with host := t.host, tx := t.tx, free := t.free, ev := { s.ev with nlost := t.ev.nlost } }

/-- s without the commands on their way but l. -/
def Machine.State.withWaiting (l : List Machine.HostCmd) (s : Machine.State) : Machine.State :=
  { s with host := { s.host with waiting := l } }

/-- Command c is the oldest that may act in this round, l are those behind it, and its reply leaves or is kept here. -/
def Machine.State.nextIs (c : Machine.HostCmd) (l : List Machine.HostCmd) (s : Machine.State) : Prop :=
  s.host.waiting = c :: l ∧ Machine.cmdReady s c = true ∧ c.snd ≠ .core

/-- The newest reply of the window is r (R281). -/
def Machine.State.replied (r : Machine.Reply) (s : Machine.State) : Prop := s.host.window.head? = some r

end Sys2Proof
end

