-- ==== Sys2Proof/Certificates/Slice0/Obligations.lean ====
section
/-! DEFINITION. The statements for the provers: what commands do to the head, by the numbered rules of spec/, and what every
step keeps. A clause that rests on a choice of the model names its log entry. -/

open Sys2Proof Sys2Proof.Machine

/-! ### Axes (R103 to R110) -/

/-- R108: ENABLE takes an axis in OFF to READY (a type without current loop) or to PRESTART, where its pre-start sequence
begins; RUN and UNPARK take it to RUN with its reset following error (R104), cells at their initial state (R89), its
set-point at its own position (an axis without a group) and the release of its brake requested. Nothing else changes but
the groups above it (R189). -/
def Obligations.EnableRunUnpark : Prop :=
  (∀ (s : State) (a : Nat), headTakes s = true → axSt s a = .off → kindOf s a = 0 → mayEnable s a = true →
    ∃ t, exec (.enable a) s = .next t ∧
      getAx t a = { getAx s a with ctl := { (getAx s a).ctl with st := .ready } } ∧ State.onlyAxis a s t) ∧
  (∀ (s : State) (a : Nat), headTakes s = true → axSt s a = .off → kindOf s a ≠ 0 → mayEnable s a = true →
    ∃ t, exec (.enable a) s = .next t ∧ (getAx t a).ctl = { (getAx s a).ctl with st := .prestart } ∧
      (getAx t a).stage.seq = .prestart ∧ (getAx t a).stage.step = 1 ∧ (getAx t a).prof = (getAx s a).prof ∧
      (getAx t a).cells = (getAx s a).cells ∧ (getAx t a).pred = (getAx s a).pred ∧ (getAx t a).fb = (getAx s a).fb ∧
      State.onlyAxis a s t) ∧
  (∀ (s : State) (a : Nat) (c : Instr), headTakes s = true → parentMoves s a = false →
    (c = .run a ∧ axSt s a = .ready ∨ c = .unpark a ∧ axSt s a = .park) →
    ∃ t, exec c s = .next t ∧ axSt t a = .run ∧
      (getAx t a).ctl = { (getAx s a).ctl with
        st := .run, qscmd := false, wait := .none, feAcc := 0, feLast := none, firstRun := true
        brkWant := true, brkApp := false, brkNew := (getAx s a).ctl.brkNew || !(getAx s a).ctl.brkWant } ∧
      (getAx t a).cells = cellsInit (getAx s a).cells ∧
      (getAx t a).stage = (getAx s a).stage ∧ (getAx t a).pred = (getAx s a).pred ∧ (getAx t a).fb = (getAx s a).fb ∧
      (parentOf s a = none → (getAx t a).prof.kin = { p := (getAx s a).fb.pos * 2 ^ 32, v := 0, a := 0 } ∧
        (getAx t a).prof.queue = [] ∧ (getAx t a).prof.rest = true) ∧
      t = { s with axes := t.axes, groups := t.groups } ∧ (∀ b, b ≠ a → getAx t b = getAx s b) ∧
      ∀ h, (∀ g, parentOf s a = some g → h ≠ topGroup s 8 g) → getGr t h = getGr s h)

/-- R108, R192: PARK takes an axis at rest with an empty queue from RUN to PARK and requests its brake; QSTOP takes it to
QSTOP with QSCMD = 1 and stops its queue owner, and so does DISABLE in RUN; DISABLE takes it from PRESTART, READY or PARK to
OFF with its brake requested. -/
def Obligations.ParkQstopDisable : Prop :=
  (∀ (s : State) (a : Nat), headTakes s = true → axSt s a = .run → atRest s (topOwner s a) = true →
    (getProf s (topOwner s a)).queue = [] →
    ∃ t, exec (.park a) s = .next t ∧ axSt t a = .park ∧ (getAx t a).ctl.brkWant = false ∧
      ((getAx t a).ctl.wait = .none ∨ (getAx t a).ctl.wait = .brakePark) ∧
      (getAx t a).prof = (getAx s a).prof ∧ (getAx t a).cells = (getAx s a).cells ∧
      t = { s with axes := t.axes, groups := t.groups } ∧ (∀ b, b ≠ a → getAx t b = getAx s b) ∧
      ∀ h, parentOf s a ≠ some h → getGr t h = getGr s h) ∧
  (∀ (s : State) (a : Nat), headTakes s = true → axSt s a = .run → parentOf s a = none →
    (∃ t, exec (.qstop a) s = .next t ∧
      getAx t a = { getAx s a with
        ctl := { (getAx s a).ctl with st := .qstop, qscmd := true, wait := .none }
        prof := { (getAx s a).prof with quick := true } } ∧ State.onlyAxis a s t) ∧
    ∃ t, exec (.disable a) s = .next t ∧
      getAx t a = { getAx s a with
        ctl := { (getAx s a).ctl with st := .qstop, qscmd := true, wait := .restOff }
        prof := { (getAx s a).prof with quick := true } } ∧ State.onlyAxis a s t) ∧
  (∀ (s : State) (a g : Nat), headTakes s = true → axSt s a = .run → parentOf s a = some g →
    ∃ t, exec (.qstop a) s = .next t ∧ axSt t a = .qstop ∧ (getAx t a).ctl.qscmd = true ∧
      (getProf t (topOwner s a)).quick = true ∧ t = { s with axes := t.axes, groups := t.groups } ∧
      (∀ b, b ≠ a → b ∉ treeAxes s (topOwner s a) → getAx t b = getAx s b) ∧
      ∀ h, topOwner s a ≠ .group h → getGr t h = getGr s h) ∧
  (∀ (s : State) (a : Nat), headTakes s = true → (axSt s a = .prestart ∨ axSt s a = .ready ∨ axSt s a = .park) →
    ∃ t, exec (.disable a) s = .next t ∧ axSt t a = .off ∧ (getAx t a).ctl.brkWant = false ∧
      (getAx t a).ctl.qscmd = false ∧ (getAx t a).ctl.wait = .none ∧ (getAx t a).prof = (getAx s a).prof ∧
      ((getAx s a).stage.seq ≠ .prestart → (getAx t a).stage = (getAx s a).stage) ∧
      State.onlyEvents { s with axes := t.axes, groups := t.groups } t ∧ (∀ b, b ≠ a → getAx t b = getAx s b) ∧
      ∀ h, parentOf s a ≠ some h → getGr t h = getGr s h)

/-- R108, R109: RESET takes an axis from FAULT to OFF in every head state once no cause persists and its brake is applied;
BRAKE_APPLIED_REPORT records the applied brake and ends the wait of an axis in PARK.
R109: a command of an axis that the state table does not allow changes nothing but the command-refused event of the
axis, in every head state. -/
def Obligations.AxisResetAndRefusal : Prop :=
  (∀ (s : State) (a : Nat), axSt s a = .fault → causeActive s a = false → (getAx s a).ctl.brkApp = true →
    ∃ t, exec (.reset a) s = .next t ∧
      getAx t a = { getAx s a with ctl := { (getAx s a).ctl with st := .off, react := 0, fcode := 0 } } ∧
      State.onlyAxis a s t) ∧
  (∀ (s : State) (a : Nat), (getAx s a).ctl.wait = .brakePark ∨ (getAx s a).ctl.wait = .none →
    ∃ t, exec (.brakeAppliedReport a) s = .next t ∧
      getAx t a = { getAx s a with ctl := { (getAx s a).ctl with brkApp := true, brkRel := false, wait := .none } } ∧
      State.onlyAxis a s t) ∧
  (∀ (s : State) (a : Nat) (c : Instr), a < 128 →
    (c = .enable a ∧ axSt s a ≠ .off ∨ c = .run a ∧ axSt s a ≠ .ready ∨ c = .park a ∧ axSt s a ≠ .run ∨
      c = .unpark a ∧ axSt s a ≠ .park ∨ c = .qstop a ∧ axSt s a ≠ .run ∨ c = .reset a ∧ axSt s a ≠ .fault ∨
      headTakes s = false ∧ c ∈ [.enable a, .run a, .park a, .unpark a, .qstop a, .disable a]) →
    ∃ t, exec c s = .next t ∧ State.onlyEvents s t ∧ State.raised (128 + a) t ∧ State.axisCause a caRefused t)

/-- R103, R66: SWAP of a valid inactive bank sets the swap for the round after the next frame boundary, and a refused SWAP
leaves both banks and counts in the refused counter; BANK_SWAP changes the active bank at that round, counts and
reports it. -/
def Obligations.CoefficientSwap : Prop :=
  (∀ (s : State) (a : Nat), (getAx s a).ctl.swapPend = false → bankOk s a (!(getAx s a).ctl.bank) = true →
    ∃ t, exec (.swap a) s = .next t ∧
      getAx t a = { getAx s a with ctl := { (getAx s a).ctl with
        swapPend := true, swapAt := frameBoundary s a s.sys.round + 1 } } ∧ State.onlyAxis a s t) ∧
  (∀ (s : State) (a : Nat), a < 128 →
    ((getAx s a).ctl.swapPend = true ∨ bankOk s a (!(getAx s a).ctl.bank) = false) →
    ∃ t, exec (.swap a) s = .next t ∧
      getAx t a = { getAx s a with ctl := { (getAx s a).ctl with refCnt := inc16 (getAx s a).ctl.refCnt } } ∧
      State.raised (128 + a) t ∧ State.onlyAxis a s t) ∧
  (∀ (s : State) (a : Nat), a < 128 → (getAx s a).ctl.swapPend = true → (getAx s a).ctl.swapAt = s.sys.round →
    ∃ t, exec (.bankSwap a) s = .next t ∧
      getAx t a = { getAx s a with ctl := { (getAx s a).ctl with
        bank := !(getAx s a).ctl.bank, swapPend := false, swapCnt := inc16 (getAx s a).ctl.swapCnt } } ∧
      State.raised (128 + a) t ∧ State.axisCause a caSwapDone t ∧ State.onlyAxis a s t)

/-! ### Groups (R191, R192) -/

/-- R191: a group command is the same command for every axis of the group's tree, in order and judged for each.
R191, R192: GROUP_QSTOP takes every axis of the tree that is in RUN to QSTOP with QSCMD = 1; LOCGO places a mover in
OFF on a segment: its only member becomes the segment's axis, and it is refused for a group of another type. -/
def Obligations.GroupCommands : Prop :=
  (∀ (s : State) (g : Nat), ∃ e r p u d q,
    exec (.groupEnable g) s = .next e ∧ execAll ((treeAxes s (.group g)).map Instr.enable) s = .next e ∧
    exec (.groupRun g) s = .next r ∧ execAll ((treeAxes s (.group g)).map Instr.run) s = .next r ∧
    exec (.groupPark g) s = .next p ∧ execAll ((treeAxes s (.group g)).map Instr.park) s = .next p ∧
    exec (.groupUnpark g) s = .next u ∧ execAll ((treeAxes s (.group g)).map Instr.unpark) s = .next u ∧
    exec (.groupDisable g) s = .next d ∧ execAll ((treeAxes s (.group g)).map Instr.disable) s = .next d ∧
    exec (.groupReset g) s = .next q ∧ execAll ((treeAxes s (.group g)).map Instr.reset) s = .next q) ∧
  (∀ (s : State) (g : Nat), headTakes s = true →
    ∃ t, exec (.groupQstop g) s = .next t ∧
      (∀ a ∈ treeAxes s (.group g), axSt s a = .run → axSt t a = .qstop ∧ (getAx t a).ctl.qscmd = true) ∧
      State.onlyEvents { s with axes := t.axes, groups := t.groups } t) ∧
  (∀ (s : State) (g seg : Nat), isMover s g = true → (groupState s g = 0 ∨ groupState s g = 6) →
    ∃ t, exec (.locgo g seg) s = .next t ∧
      getGr t g = { getGr s g with members := some [Cfg.SEGAX_AXIS s (segW seg)], fusedAt := none, xMiss := 0 } ∧
      State.onlyGroup g s t) ∧
  (∀ (s : State) (g seg : Nat), isMover s g = false →
    ∃ t, exec (.locgo g seg) s = .next t ∧ State.onlyEvents s t ∧ State.raised evGroup t ∧
      State.groupCause g caRefused t)

/-! ### Profiles, probes, compares and local ports (R136, R137, R151 to R156, R168 to R170) -/

/-- R168, R170: a profile command that passes the checks of R170 is accepted in the present round behind those accepted
before it, with the words that its master has staged (for REPLACE, with the move that is in its segments 5 to 7 in that
round, R169), and changes nothing else.
R170: a refused profile command changes its owner's error code and refused counter and raises the move-refused event,
nothing else; the code is 1 for APPEND with 32 moves queued, and for the other commands of an axis 2 outside RUN. -/
def Obligations.ProfileCommands : Prop :=
  (∀ (s : State) (o : Owner) (m : Master), State.reaches m (ownW o + 0x300) s →
    (pfCheck o 1 (stagedMove s m o) s = 0 → exec (.append o m) s =
      .next (modProf s o (fun p => { p with accepted := p.accepted ++ [(s.sys.round, .append (stagedMove s m o))] }))) ∧
    (pfCheck o 2 (stagedMove s m o) s = 0 → exec (.replace o m) s =
      .next (modProf s o (fun p => { p with accepted := p.accepted ++
        [(s.sys.round, .replace (stagedMove s m o) (lateMove s p))] }))) ∧
    (pfCheck o 3 (stagedMove s m o) s = 0 → exec (.chglim o m) s =
      .next (modProf s o (fun p => { p with accepted := p.accepted ++ [(s.sys.round, .chglim (stagedMove s m o))] }))) ∧
    (pfCheck o 4 (stagedMove s m o) s = 0 → exec (.clear o m) s =
      .next (modProf s o (fun p => { p with accepted := p.accepted ++ [(s.sys.round, .clear)] }))) ∧
    (pfCheck o 5 (stagedMove s m o) s = 0 → exec (.ref o m) s =
      .next (modProf s o (fun p => { p with accepted := p.accepted ++ [(s.sys.round, .ref)] })))) ∧
  (∀ (s : State) (a : Nat) (m : Master), a < 128 → State.reaches m (ownW (.axis a) + 0x300) s →
    32 ≤ queueLen (getAx s a).prof →
    ∃ t, exec (.append (.axis a) m) s = .next t ∧ State.raised (128 + a) t ∧ State.onlyAxis a s t ∧
      getAx t a = { getAx s a with prof := { (getAx s a).prof with
        errCode := 1, refused := inc16 (getAx s a).prof.refused } }) ∧
  (∀ (s : State) (a : Nat) (m : Master) (c : Instr), a < 128 → State.reaches m (ownW (.axis a) + 0x300) s →
    axSt s a ≠ .run → c ∈ [.replace (.axis a) m, .chglim (.axis a) m, .clear (.axis a) m, .ref (.axis a) m] →
    ∃ t, exec c s = .next t ∧ State.raised (128 + a) t ∧ State.onlyAxis a s t ∧
      getAx t a = { getAx s a with prof := { (getAx s a).prof with
        errCode := 2, refused := inc16 (getAx s a).prof.refused } })

/-- R153, R154, R176: an arming word waits for the axis's next computation behind those written before it; the word of
probe channel 0 is refused with code 8 during referencing.
R151, R136, R137: a probe pin takes a level that has lasted at least FLT, and the edge is kept with the counters of the
eight ports; a pulse shorter than FLT changes nothing. An ABZ port counts by one for an edge on A or B, sets the quadrature
error when both change, and latches its counter at a rising edge of Z. An SSI frame starts in a round m with
m mod 2^SSIPER = 0, its clock driven by a unit alone or by the active one, and its end leaves its bits and the result of its check. -/
def Obligations.ArmingAndLocalPorts : Prop :=
  (∀ (s : State) (a : Nat) (w : Word), bit w 8 = true ∨ (getAx s a).prof.refPhase = .idle →
    exec (.probeArming a w) s = .next (setAx s a { getAx s a with
      fb := { (getAx s a).fb with arming := (getAx s a).fb.arming ++ [.probe w] } })) ∧
  (∀ (s : State) (a : Nat) (w : Word), bit w 8 = false → (getAx s a).prof.refPhase ≠ .idle →
    ∃ t, exec (.probeArming a w) s = .next t ∧ State.onlyAxis a s t ∧
      (getAx t a).fb = (getAx s a).fb ∧ (getAx t a).prof.errCode = 8) ∧
  (∀ (s : State) (a : Nat) (w0 w1 w2 w3 : Word), exec (.compareArming a w0 w1 w2 w3) s = .next (setAx s a { getAx s a with
      fb := { (getAx s a).fb with arming := (getAx s a).fb.arming ++ [.compare w0 w1 w2 w3] } })) ∧
  (∀ (s : State) (pin : Nat) (level : Bool) (clk len : Nat), pin < 8 → s.fbk.level.getLsbD pin ≠ level →
    Cfg.LPRBFLT_FLT s ≤ len → fbkStopped s = false →
    ∃ t, exec (.localProbeEdge pin level clk len) s = .next t ∧ t.fbk.level.getLsbD pin = level ∧
      (∀ i, i ≠ pin → t.fbk.level.getLsbD i = s.fbk.level.getLsbD i) ∧
      (∃ e ∈ t.fbk.edges, e.pin = pin ∧ e.level = level ∧ e.round = s.sys.round ∧ e.clk = clk ∧
        e.cnts = (List.range 8).map (fun k => (getPort s k).cnt)) ∧
      t = { s with fbk := { s.fbk with level := t.fbk.level, edges := t.fbk.edges } }) ∧
  (∀ (s : State) (pin : Nat) (level : Bool) (clk len : Nat), len < Cfg.LPRBFLT_FLT s →
    exec (.localProbeEdge pin level clk len) s = .next s) ∧
  (∀ (s : State) (k : Nat) (a b z : Bool), Cfg.LENCCFG_EN s k = true → Cfg.LENCCFG_TYPE s k = 0 → fbkStopped s = false →
    ∃ t, exec (.localEncoderEdge k a b z) s = .next t ∧
      (getPort t k).pinA = a ∧ (getPort t k).pinB = b ∧ (getPort t k).pinZ = z ∧
      (a = (getPort s k).pinA → b = (getPort s k).pinB → (getPort t k).cnt = (getPort s k).cnt) ∧
      (a ≠ (getPort s k).pinA → b ≠ (getPort s k).pinB →
        (getPort t k).cnt = (getPort s k).cnt ∧ (getPort t k).quadErr = true) ∧
      ((a ≠ (getPort s k).pinA ↔ b = (getPort s k).pinB) →
        ((getPort t k).cnt = intMod 32 ((getPort s k).cnt + 1) ∨ (getPort t k).cnt = intMod 32 ((getPort s k).cnt - 1)) ∧
        (getPort t k).quadErr = (getPort s k).quadErr) ∧
      (z = true → (getPort s k).pinZ = false → (getPort s k).z = none → (getPort t k).z = some (getPort t k).cnt) ∧
      t = { s with fbk := { s.fbk with ports := t.fbk.ports } } ∧ ∀ j, j ≠ k → getPort t j = getPort s j) ∧
  (∀ (s : State) (k : Nat), ssiPort s k = true → s.sys.round.toNat % 2 ^ Cfg.LENCCFG_SSIPER s k = 0 →
    ∃ t, exec (.ssiFrameStart k) s = .next t ∧
      getPort t k = { getPort s k with frame := true, frameAt := s.sys.round } ∧
      t.tx = s.tx ++ (if Cfg.TWCFG_EN s = false ∨ driving s = true then [.ssiClock k] else []) ∧
      t = { s with fbk := { s.fbk with ports := t.fbk.ports }, tx := t.tx } ∧ ∀ j, j ≠ k → getPort t j = getPort s j) ∧
  (∀ (s : State) (k : Nat) (ok : Bool) (l : List Bool), ssiPort s k = true → (getPort s k).frame = true →
    ∃ t, exec (.ssiFrameEnd k ok l) s = .next t ∧
      getPort t k = { getPort s k with
        frame := false, ssiAt := (getPort s k).frameAt
        ssi := some (ok, ssiCheck (Cfg.LENCCFG_CHK s k) (Cfg.LENCCFG_BITS s k) l, bitsToNat (l.take (Cfg.LENCCFG_BITS s k))) } ∧
      t = { s with fbk := { s.fbk with ports := t.fbk.ports } } ∧ ∀ j, j ≠ k → getPort t j = getPort s j)

/-! ### Wheel, clusters and the cascade's exports (R46 to R53, R162, R187, R285, R353, R436) -/

/-- R46, R162, R436: at a tick a queue owner at rest gets four entries that hold its set-point for the tick period that
begins with this round, and an owner that was outside RUN and QSTOP at T0 of the tick round loses its move, its queue and its referencing. (One axis without
MODULO owns a queue, and no group is configured.) -/
def Obligations.WheelTickHolds : Prop :=
  (∀ (s : State) (a : Nat), s.sys.round.toNat % 4 = 3 → s.sys.pwr = .run → queueOwners s = [.axis a] →
    (∀ g, Cfg.GRMCNT_COUNT s (grW g) = 0) → driving s = false → (∀ b, axSt s b ≠ .qstop) → s.sys.wheelLive.contains (.axis a) = true →
    wrapInt 96 (getAx s a).prof.kin.p = (getAx s a).prof.kin.p → ownerMod s (.axis a) = 0 → (getAx s a).prof.cur = none → (getAx s a).prof.overlaid = none → (getAx s a).prof.queue = [] →
    (getAx s a).prof.accepted = [] → (getAx s a).prof.refPhase = .idle → (getAx s a).prof.quick = false →
    (getAx s a).prof.limStop = false → (getAx s a).prof.kin.v = 0 → (getAx s a).prof.kin.a = 0 →
    ∃ t, exec .wheelTick s = .next t ∧
      (getAx t a).prof.nextEntries = some (s.sys.round,
        List.replicate 4 { p := floorDiv (getAx s a).prof.kin.p (2 ^ 32) }) ∧
      (getAx t a).prof.rest = true ∧ (getAx t a).prof.kin = (getAx s a).prof.kin ∧ (getAx t a).ctl = (getAx s a).ctl ∧
      t = { s with axes := t.axes } ∧ ∀ b, b ≠ a → getAx t b = getAx s b) ∧
  (∀ (s : State) (a : Nat), s.sys.round.toNat % 4 = 3 → s.sys.pwr = .run → queueOwners s = [.axis a] →
    (∀ g, Cfg.GRMCNT_COUNT s (grW g) = 0) → driving s = false → (∀ b, axSt s b ≠ .qstop) → s.sys.wheelLive.contains (.axis a) = false →
    ∃ t, exec .wheelTick s = .next t ∧ (getAx t a).prof.cur = none ∧ (getAx t a).prof.queue = [] ∧
      (getAx t a).prof.refPhase = .idle ∧ (getAx t a).prof.rest = true ∧
      t = { s with axes := t.axes } ∧ ∀ b, b ≠ a → getAx t b = getAx s b)

/-- R187: in a tick round a remote GEAR group with an accepted export keeps the leader's state of that export and has no
missed tick; CXP_RECEIVED accepts a slot that follows the rules of R285 and keeps its contents, and counts a late one; the
ring's bytes are repeated but for the unit's own (R284). -/
def Obligations.RemoteGear : Prop :=
  (∀ (s : State) (g : Nat), s.sys.round.toNat % 4 = 3 → s.sys.pwr = .run → (groupsOf s).filter (isRemote s) = [g] →
    exportHere s g = true →
    ∃ t, exec .remoteGearDerivation s = .next t ∧ (getGr t g).missRun = 0 ∧
      (getGr t g).leadKin = (tget ({} : Export) s.casc.exports (exportKey s g)).kin ∧
      (getGr t g).lead = kinOut (tget ({} : Export) s.casc.exports (exportKey s g)).kin 0 ∧
      t = { s with axes := t.axes, groups := t.groups, seenGr := t.seenGr }) ∧
  (∀ (s : State) (r : LaneSlot), Cfg.CSCFG_EN s = true → s.sys.hstate ≠ .boot → r.codeErr = false → cascRetired s = false →
    rxCrcOk 48 r.bytes = true → rxHdr r.bytes % 16 = 2 → s.casc.rndErr = false →
    rxSeq r.bytes = s.sys.round.toNat % 256 → (exportOf (rxPayload r.bytes)).tick = s.sys.round →
    followed s (rxHdr r.bytes / 8192 % 8 * 8 + rxHdr r.bytes / 16 % 8) = true →
    exec (.cxpReceived r) s = .next { repeatCasc r s with casc :=
      if 2500 < r.clk then { s.casc with late := inc16 s.casc.late }
      else { s.casc with
        exports := tset s.casc.exports (rxHdr r.bytes / 8192 % 8 * 8 + rxHdr r.bytes / 16 % 8) (exportOf (rxPayload r.bytes))
        locked := true } })

/-- R52 to R55: a cluster that wakes notes the cost of the cells that compute in this round and the core clock at which its
last turn ends; neither the round counter nor the epoch nor the queue changes by it. -/
def Obligations.ClusterWakeNotes : Prop :=
  ∀ (s : State) (c : Nat), clusterOn s c = true → s.sys.inReset = false → s.sys.hstate ≠ .boot → s.sys.pwr = .run →
    ∃ t, exec (.clusterWake c) s = .next t ∧
      (tget ({} : Cluster) t.clusters c).loadNow = wakeLoad s c (s.sys.round - 1) ∧
      (tget ({} : Cluster) t.clusters c).endNow = (clusterTurns s c (s.sys.round - 1) (imageDue s (s.sys.round - 1))
        (computeOrder s c)).foldl (fun e x => max e x.e) 0 ∧
      t.sys.round = s.sys.round ∧ t.sys.epoch = s.sys.epoch ∧ t.pending = s.pending

/-- R50, R124, R125, R155: at its slot the staged words of an axis leave with the compare flags and CHOP taken at departure,
and the compare flags are used up; without staged words a unit that sends raises the staging-miss event of the axis. -/
def Obligations.FdnDeparture : Prop :=
  (∀ (s : State) (a : Nat) (e : SEntry) (st : Staged) (nd k : Nat), s.sys.inReset = false → s.sys.hstate ≠ .boot →
    s.sys.pwr = .run → fdnEntry s a = some e → stagedFor (getAx s a).pred s.sys.round = some st → sendsNow s = true →
    axisNode s a = some (nd, k) → isRetired s clsNode nd = false → ovForced s a = false →
    ∃ t, exec (.fdnSlotDeparture a) s = .next t ∧
      (getAx t a).pred = { restage s.sys.round (fdnLeaves s a st.payload) (getAx s a).pred with cmpOut := 0 } ∧
      (getAx t a).ctl = (getAx s a).ctl ∧ t = { s with axes := t.axes, tx := t.tx } ∧
      t.tx = (sendEntry (axisCh s a) e (fdnLeaves s a st.payload) s).tx ∧ ∀ b, b ≠ a → getAx t b = getAx s b) ∧
  (∀ (s : State) (a : Nat) (e : SEntry), a < 128 → s.sys.inReset = false → s.sys.hstate ≠ .boot → s.sys.pwr = .run →
    fdnEntry s a = some e → stagedFor (getAx s a).pred s.sys.round = none → sendsNow s = true →
    ∃ t, exec (.fdnSlotDeparture a) s = .next t ∧ State.onlyEvents s t ∧ State.raised (128 + a) t ∧
      State.axisCause a caStagingMiss t)

/-- R353, R363: SLICE_OVERRUN stops the oldest slice of the core that ran past its budget: the core and the axis count it,
LASTF reads 1, and the axis reports it and takes fault 0x09 with the class OREACT. -/
def Obligations.SliceOverrunStops : Prop :=
  ∀ (s : State) (c a : Nat) (l : List Nat), a < 128 → (getCore s c).overran = a :: l →
    ∃ t, exec (.sliceOverrun c) s = .next t ∧
      (getSlice t a).ovr = inc16 (getSlice s a).ovr ∧ (getSlice t a).lastf = 1 ∧
      (getCore t c).overran = l ∧ (getCore t c).ovrCnt = inc16 (getCore s c).ovrCnt ∧
      ((getCore s c).axis = some a → (getCore t c).st = 0 ∧ (getCore t c).axis = none) ∧
      State.raised (128 + a) t ∧ (getAx t a).ctl.lastCode = 9 ∧
      (∀ k, k ≠ c → getCore t k = getCore s k) ∧ State.onlyReaction { s with lad := { s.lad with
        cores := t.lad.cores, slices := t.lad.slices } } t

/-! ### Link (R216, R223, R233, R236 to R242, R247 to R258, R263) -/

/-- R51, R216, R221, R224, R233: what an accepted upstream slot carries goes where its entry says: a FUP or POS payload into
the axis's input entry of this sample round (outside DEEP PARK, R410), a DIAG payload into the node's record. A unit that
repeats the lanes repeats the slot (R235).
R216: in a unit that does not judge the window, an upstream slot with a code error or a wrong CRC at an expected position
counts that error on its channel and changes nothing else, but that a unit which repeats the lanes repeats the slot (R235). -/
def Obligations.UpstreamSlots : Prop :=
  (∀ (s u : State) (r : RxSlot) (e : SEntry), acceptUp r tyFUP s = (u, some e) → s.sys.pwr ≠ .deep →
    ∃ t, exec (.fupReceived r) s = .next t ∧ (getIn t e.axis s.sys.round).fup = some (rxPayload r.bytes) ∧
      (∀ k, k ≠ inKey e.axis s.sys.round → tget {} t.inbuf k = tget ({} : InEntry) s.inbuf k) ∧
      t = { s with inbuf := t.inbuf, tx := t.tx, link := t.link }) ∧
  (∀ (s u : State) (r : RxSlot) (e : SEntry), acceptUp r tyPOS s = (u, some e) → s.sys.pwr ≠ .deep →
    ∃ t, exec (.posReceived r) s = .next t ∧ (getIn t e.axis s.sys.round).pos = some (rxPayload r.bytes) ∧
      (∀ k, k ≠ inKey e.axis s.sys.round → tget {} t.inbuf k = tget ({} : InEntry) s.inbuf k) ∧
      t = { s with inbuf := t.inbuf, tx := t.tx, link := t.link }) ∧
  (∀ (s u : State) (r : RxSlot) (e : SEntry), acceptUp r tyDIAG s = (u, some e) →
    ∃ t, exec (.diagReceived r) s = .next t ∧
      tget ({} : NodeDiag) t.link.diags e.node = { d0 := BitVec.ofNat 32 (beNat (rxPayload r.bytes) 0 4)
                                                   d1 := BitVec.ofNat 32 (beNat (rxPayload r.bytes) 4 4)
                                                   d2 := BitVec.ofNat 32 (beNat (rxPayload r.bytes) 8 4)
                                                   rnd := s.sys.round } ∧
      (∀ n, n ≠ e.node → tget ({} : NodeDiag) t.link.diags n = tget {} s.link.diags n) ∧ t = { s with tx := t.tx, link := t.link }) ∧
  (∀ (s : State) (r : RxSlot) (e : SEntry) (c : Instr), c ∈ [.fupReceived r, .posReceived r, .diagReceived r, .svcReply r] →
    takesUp s = true → chOn s r.ch = true → expected s r = some e → pairRole s = false →
    secondPass s r.ch = false →
    (r.codeErr = true →
      exec c s = .next (modCh (repeatSlot r s) r.ch (fun c => { c with codeErr := inc16 c.codeErr }))) ∧
    (r.codeErr = false → rxCrcOk 16 r.bytes = false →
      exec c s = .next (modCh (repeatSlot r s) r.ch (fun c => { c with crcErr := inc16 c.crcErr }))))

/-- R223, R242: an accepted reply to the request for NIDENT that equals the image's identity is the node's identity.
R247: a node of the unit that holds the pair role that was silent for two hyperperiods is ordered to re-integrate, which
its channel counts. -/
def Obligations.ReplyAndSilence : Prop :=
  (∀ (s u : State) (r : RxSlot) (e : SEntry), acceptUp r tySVC s = (u, some e) →
    (getNode u r.ch e.node).asked.find? (fun q => q.1 = beNat (rxPayload r.bytes) 1 1) =
      some (beNat (rxPayload r.bytes) 1 1, 0) →
    beNat (rxPayload r.bytes) 0 1 = 3 → beNat (rxPayload r.bytes) 3 1 = 0 →
    identOk s e.node (BitVec.ofNat 32 (beNat (rxPayload r.bytes) 8 4)) = true →
    ∃ t, exec (.svcReply r) s = .next t ∧
      (getNode t r.ch e.node).ident = some (BitVec.ofNat 32 (beNat (rxPayload r.bytes) 8 4)) ∧
      (∀ q ∈ (getNode t r.ch e.node).asked, q.1 ≠ beNat (rxPayload r.bytes) 1 1) ∧ t = { s with tx := t.tx, link := t.link }) ∧
  (∀ (s : State) (ch n : Nat), n < 64 → pairRole s = true → chOn s ch = true → (getCh s ch).lost = false →
    (getNode s ch n).st = 3 → 2 * hyperOf s ch ≤ (getNode s ch n).silent →
    ∃ t, exec (.upstreamSilence ch n) s = .next t ∧ (getCh t ch).reint = inc16 (getCh s ch).reint ∧
      ((getNode t ch n).st = 4 ∨ (getNode t ch n).st = 5) ∧ (getNode t ch n).reint = true ∧
      State.onlyReaction { s with link := t.link } t)

/-- R239, R240, R242: the writes of the load sequence of a node in LOADING wait for the rounds of the node's SVC position (the
offsets that it writes first are free values, log 1), and a time-out starts it again; a node whose every upstream position was accepted is admitted by the standby. -/
def Obligations.NodeJoins : Prop :=
  (∀ (s : State) (ch n : Nat), pairRole s = true → (getNode s ch n).st = 1 →
    ∃ t, exec (.loadSequence ch n) s = .next t ∧
      getNode t ch n = { getNode s ch n with
        nofsN := signedN 32 (freeW s).toNat, nofsF := signedN 32 (freeW s.tick).toNat, loaded := false
        loadq := loadWrites s n (freeW s) (freeW s.tick) } ∧
      t = { s with free := s.free + 2, link := t.link } ∧ ∀ k, k ≠ ch → getCh t k = getCh s k) ∧
  (∀ (s : State) (ch n : Nat), (getNode s ch n).st = 1 → (getNode s ch n).loaded = true →
    later s.sys.round ((getNode s ch n).countAt + BitVec.ofNat 32 (2 * hyperOf s ch - 1)) = true →
    ∃ t, exec (.loadTimeout ch n) s = .next t ∧ exec (.loadSequence ch n) s = .next t) ∧
  (∀ (s : State) (ch n : Nat), takesUp s = true → pairRole s = false → (getNode s ch n).st = 2 ∨ (getNode s ch n).st = 4 →
    nodeHeard s ch n = true → hyperFull s ch n = true →
    ∃ t, exec (.nodeAdmission ch n) s = .next t ∧ (getNode t ch n).st = 3 ∧ (getNode t ch n).oowRun = 0 ∧
      State.raised evNodeAdmitted t ∧
      (∀ b, b < 32 → Cfg.SGBRK_EN s b = true → Cfg.SGBRK_NODE s b = n → (getBrk t b).basis = false ∧ (getBrk t b).misses = 0) ∧
      State.onlyEvents { s with link := t.link, sag := t.sag } t)

/-- R250 to R253, R258: the judgement notes the port observations of a channel, and a channel whose marker has not returned
for two rounds is lost, with its event; the skim schedule ends when the lost channel works again; a port that is lost (by
its lock, its alignment or its light) in a unit that repeats the lanes, in STANDBY, LISTEN or ISOLATED or in LOCKED entered
from one of them, makes the unit wrap there with its transmitter off; both ends of a healed segment are ordered to
unwrap once its backoff is over, and an ordered unit unwraps at a multiple of 16 rounds with its port
locked and aligned for 1 ms. -/
def Obligations.ChannelFaults : Prop :=
  (∀ (s : State) (ch : Nat) (o : ChanObs), pairRole s = false →
    exec (.channelJudgement ch o) s = .next (modCh s ch (notePorts o))) ∧
  (∀ (s : State) (ch : Nat) (o : ChanObs), ch < 2 → pairRole s = true → chOn s ch = true → (getCh s ch).lost = false →
    1 ≤ (getCh s ch).noReturn → o.ring0 = none → o.ring1 = none →
    ∃ t, exec (.channelJudgement ch o) s = .next t ∧ (getCh t ch).lost = true ∧ State.raised (evChannelLost + ch) t) ∧
  (∀ (s : State) (o : Nat), o < 2 → s.link.skim = some o → 16 ≤ (getCh s (1 - o)).returned → s.sys.round.toNat % 16 = 0 →
    isRetired s clsChannel (1 - o) = false → (∀ n ∈ nodesOn s (1 - o), delayBad s (1 - o) n = false) →
    ∃ t, exec .skimEnded s = .next t ∧ t.link.skim = none ∧ (getCh t (1 - o)).lost = false ∧ State.raised evSkimEnded t ∧
      t.sys.hstate = s.sys.hstate) ∧
  (∀ (s : State) (ch port how : Nat), repeatsLanes s = true → (getCh s ch).wrapPort = none →
    ∃ t, exec (.portLoss ch ⟨port, how⟩) s = .next t ∧ (getCh t ch).wrapPort = some port ∧
      (if port = 0 then (getCh t ch).txdis0 = true ∧ (getCh t ch).txdis1 = (getCh s ch).txdis1
       else (getCh t ch).txdis1 = true ∧ (getCh t ch).txdis0 = (getCh s ch).txdis0) ∧
      (how = 0 → (if port = 0 then (getCh t ch).lock0 else (getCh t ch).lock1) = false) ∧
      (how = 1 → (if port = 0 then (getCh t ch).align0 else (getCh t ch).align1) = false) ∧
      (how = 2 → (if port = 0 then (getCh t ch).los0 else (getCh t ch).los1) = true) ∧
      t = { s with link := t.link } ∧ ∀ k, k ≠ ch → getCh t k = getCh s k) ∧
  (∀ (s : State) (ch port how : Nat), repeatsLanes s = false →
    exec (.portLoss ch ⟨port, how⟩) s = .next (modCh s ch (noteLoss port how))) ∧
  (∀ (s : State) (ch b : Nat), pairRole s = true → (getCh s ch).hseg = some b →
    (getRet s clsSegment (ch * 64 + b)).st = .inUse →
    exec (.unwrapOrder ch) s = .next (modCh s ch (fun c => { c with unwrapping := true }))) ∧
  (∀ (s : State) (ch p : Nat), pairRole s = false → (getCh s ch).wrapPort = some p → (getCh s ch).unwrapping = true →
    s.sys.round.toNat % 16 = 0 → (if p = 0 then (getCh s ch).lock0 && (getCh s ch).align0 else (getCh s ch).lock1 && (getCh s ch).align1) = true →
    Config.roundsPerMs ≤ (getCh s ch).lockRounds →
    exec (.unwrap ch) s = .next (modCh s ch (fun c => { c with
      wrapPort := none, unwrapping := false, txdis0 := false, txdis1 := false })))

/-- R236, R237, R239, R263: LISTEN whose timer has run out turns to COLDSTART with the next epoch; after 16 rounds in
COLDSTART the unit is ACTIVE and every configured node starts in LOADING; a unit in COLDSTART that accepts the MARK of its
partner counts the collision and goes back to LISTEN. -/
def Obligations.StartUp : Prop :=
  (∀ (s : State), s.sys.hstate = .listen → s.sys.listenTimer = 0 → s.casc.st ≠ 1 →
    ∃ t, exec .listenTimerExpiry s = .next t ∧ t.sys.hstate = .coldstart ∧ t.sys.stateRounds = 0 ∧
      t.sys.roundRan = s.sys.roundRan ∧ t.sys.round = s.sys.round ∧
      t.sys.epoch = (s.sys.lastEpoch + 1) % 65536 ∧
      State.raised evHeadState t ∧ t.mem = s.mem ∧ t.cfg = s.cfg ∧ t.link = s.link ∧ t.boot = s.boot) ∧
  (∀ (s : State), s.sys.hstate = .coldstart → Config.startRounds ≤ s.sys.stateRounds → s.sag.stored = none →
    ∃ t, exec .coldstartEnd s = .next t ∧ t.sys.hstate = .active ∧ t.sys.reached = true ∧ t.sys.round = s.sys.round ∧
      (∀ ch ∈ chansOn s, ∀ n ∈ nodesOn s ch, isRetired s clsNode n = false → (getNode t ch n).st = 1) ∧
      State.raised evHeadState t ∧ t.mem = s.mem ∧ t.cfg = s.cfg ∧ t.axes = s.axes) ∧
  (∀ (s : State) (r : RxSlot), s.sys.hstate = .coldstart → chOn s r.ch = true → r.codeErr = false →
    rxCrcOk 6 r.bytes = true → rxHdr r.bytes % 16 = tyMARK → r.start = 0 →
    rxSeq r.bytes = (markOf r.bytes).round.toNat % 256 → rxEpl r.bytes = (markOf r.bytes).epoch % 256 →
    (markOf r.bytes).chead = Cfg.CSCFG_CHEAD s → (markOf r.bytes).alt ≠ isAlt s →
    ∃ t, exec (.markAccepted r) s = .next t ∧ t.sys.hstate = .listen ∧ State.raised evCollision t ∧
      (getCh t r.ch).coll = inc16 (getCh s r.ch).coll ∧ t.sys.listenTimer = (if isAlt s then 32 else 8) ∧
      t.sys.round = s.sys.round ∧ t.sys.epoch = s.sys.epoch ∧ t.mem = s.mem ∧ t.axes = s.axes)

/-! ### Twin lane and cascade (R36, R251, R263 to R288, R313) -/

/-- R264, R265, R272: a lane slot that passes the checks renews the peer's health and state; a digest that agrees clears the
run of differences and one that differs counts (in an entry once every copy unit is present); TRET and TXQ and TLINK bring
the active unit's retire records to a unit that shadows, its PDC sums to a unit in entry, and the peer's report of the broken
segment. Nothing is taken of a slot with a code error, in BOOT, or while the lane is not in use. -/
def Obligations.LaneSlots : Prop :=
  (∀ (s : State) (r : LaneSlot) (p : List Byte), laneTake s twTLEASE r = some p → s.sys.hstate = .active →
    ∃ t, exec (.tleaseReceived r) s = .next t ∧ t.twin.peerSt = beNat p 6 1 / 32 ∧
      t.twin.peerHealth = BitVec.ofNat 32 (beNat p 8 4) ∧ t.twin.peerHbReq = (beNat p 6 1).testBit 3 ∧
      t.twin.sinceLease = 0 ∧ t.twin.arr = wrapInt 16 r.arrival ∧ t = { s with twin := t.twin }) ∧
  (∀ (s : State) (r : LaneSlot) (p : List Byte), laneTake s twTDIG r = some p → s.sys.hstate = .active →
    entryLacks s = false →
    (s.twin.ownDig = some (BitVec.ofNat 32 (beNat p 0 4), beNat p 4 8) →
      exec (.tdigReceived r) s = .next { s with twin := { s.twin with digRun := 0 } }) ∧
    (∀ d, d ≠ beNat p 4 8 → s.twin.ownDig = some (BitVec.ofNat 32 (beNat p 0 4), d) → bit s.twin.peerHealth 30 = false →
      ∃ t, exec (.tdigReceived r) s = .next t ∧ t.twin.digRun = incSat 255 s.twin.digRun ∧
        t.twin.digCnt = inc16 s.twin.digCnt ∧
        (incSat 255 s.twin.digRun = Cfg.TWCFG_DIGMAX s → State.raised evTwinMismatch t) ∧
        State.onlyEvents { s with twin := t.twin } t)) ∧
  (∀ (s : State) (r : LaneSlot) (p : List Byte), laneTake s twTRET r = some p → shadows s = true →
    ∃ t, exec (.tretReceived r) s = .next t ∧ t.mem = s.mem ∧ t.cfg = s.cfg ∧ t.sys.round = s.sys.round ∧
      (∀ i, getRet t clsTwin i = getRet s clsTwin i) ∧ (∀ i, getRet t clsCascade i = getRet s clsCascade i) ∧
      ∀ cls idx st stamps bo, Config.tretRecords p = [(retKey cls idx, st, stamps, bo)] → retIndexOk cls idx = true →
        cls ≠ clsTwin → cls ≠ clsCascade →
        (getRet t cls idx).st = (if st = 0 then .inUse else if st = 1 then .backoff else .retired) ∧
          (getRet t cls idx).stamps = stamps ∧ (getRet t cls idx).backoff = bo) ∧
  (∀ (s : State) (r : LaneSlot) (p : List Byte), laneTake s twTXQ r = some p → s.twin.entry = true → s.twin.matched < 16 →
    exec (.txqReceived r) s = .next { s with twin := { s.twin with txq := some (Config.txqValues p) } }) ∧
  (∀ (s : State) (r : LaneSlot) (p : List Byte), laneTake s twTLINK r = some p → pairRole s = true →
    exec (.tlinkReceived r) s = .next { s with link := { s.link with segReport := (Config.tlinkContent p).1 } }) ∧
  (∀ (s : State) (r : LaneSlot), (r.codeErr = true ∨ s.sys.hstate = .boot ∨ laneInUse s = false) →
    ∀ c ∈ [.tleaseReceived r, .tdigReceived r, .tretReceived r, .txqReceived r, .tlinkReceived r, .tcmdReceived r,
      .tconfReceived r, .tcommitReceived r], exec c s = .next s)

/-- R267, R268, R286: a standby with TKOK whose partner was silent for LEASE rounds takes over at the next T0 with the next
epoch, counts the takeover, notes the round that begins and enforces the heal; a standby without TKOK enters LISTEN. A lane that is lost while the partner's MARK still
arrives isolates the standby with CAUSE 1. A loss of lock voids a handshake and, but in a silent round after the first, is a
transient of the lane; a lane that
locks again takes an ISOLATED unit with CAUSE 1 to LISTEN, as LEASE rounds without a MARK do. -/
def Obligations.LeaseAndLane : Prop :=
  (∀ (s : State), s.sys.hstate = .standby → silentNow s = true → Cfg.TWCFG_LEASE s ≤ s.twin.silent + 1 →
    s.twin.tkokLast = true → exec .leaseExpiry s = .next { s with twin := { s.twin with takeNext := true } }) ∧
  (∀ (s : State), s.sys.hstate = .standby → s.twin.takeNext = true → s.sag.stored = none → s.sag.test = none →
    (takeoverRound s).sys.hstate = .active ∧ (takeoverRound s).sys.epoch = (s.sys.epoch + 1) % 65536 ∧
      (takeoverRound s).twin.takeovers = inc16 s.twin.takeovers ∧ (takeoverRound s).twin.lastRnd = s.sys.round + 1 ∧
      (takeoverRound s).twin.takeNext = false ∧ (takeoverRound s).sys.round = s.sys.round ∧
      (∀ ch ∈ chansOn s, (getCh (takeoverRound s) ch).heal = true) ∧ State.raised evActiveChanged (takeoverRound s) ∧
      (takeoverRound s).axes = s.axes ∧ (takeoverRound s).mem = s.mem) ∧
  (∀ (s : State), s.sys.hstate = .standby → silentNow s = true → Cfg.TWCFG_LEASE s ≤ s.twin.silent + 1 →
    s.twin.tkokLast = false →
    ∃ t, exec .leaseExpiry s = .next t ∧ t.sys.hstate = .listen ∧ t.sys.epoch = s.sys.epoch ∧ t.axes = s.axes ∧
      t.sys.listenTimer = (if isAlt s then 88 else 64)) ∧
  (∀ (s : State), s.sys.hstate = .standby → laneUp s = false → s.sys.markSeen = true → s.twin.locked = true →
    ∃ t, exec .twinLinkLost s = .next t ∧ t.sys.hstate = .isolated ∧ t.twin.cause = 1 ∧ t.twin.tll = true ∧
      State.raised evTwinLinkLost t ∧ t.axes = s.axes ∧ t.link = s.link) ∧
  (∀ (s : State), (getRet s clsTwin 0).st ≠ .retired →
    (s.sys.hstate = .standby → silentNow s = false ∨ s.twin.silent = 0) →
    ∃ t, exec .twinLaneLossOfLock s = .next t ∧ t.twin.locked = false ∧ t.twin.hand = none ∧ t.twin.hbReq = false ∧
      s.sys.ms ∈ (getRet t clsTwin 0).stamps ∧ t.sys.hstate = s.sys.hstate ∧ t.axes = s.axes) ∧
  (∀ (s : State), s.sys.hstate = .isolated → s.twin.cause = 1 → (getRet s clsTwin 0).st = .inUse →
    ∃ t, exec .twinLaneLocked s = .next t ∧ t.sys.hstate = .listen ∧ t.twin.locked = true ∧ t.twin.tll = false ∧
      t.twin.cause = 0 ∧ t.axes = s.axes) ∧
  (∀ (s : State), s.sys.hstate = .isolated → Cfg.TWCFG_LEASE s ≤ s.sys.quietRounds →
    ∃ t, exec .isolatedTimeout s = .next t ∧ t.sys.hstate = .listen ∧ t.twin = s.twin ∧ t.axes = s.axes ∧
      State.raised evHeadState t)

/-- R274, R279, R264: a unit that shadows stores a whole command and confirms it; the active unit accepts a confirmed command
in the next round, and one that was not confirmed within four rounds alone; a committed command that the other unit holds acts
in this round; in an entry a copy unit whose stamp is at most 16 rounds old is taken for the next T0, an event set and the
other content of the slow block at once, and a later unit not at all. -/
def Obligations.PairCommands : Prop :=
  (∀ (s : State) (r : LaneSlot) (p : List Byte), laneTake s twTCMD r = some p → shadows s = true →
    (beNat p 5 1).testBit 0 = false →
    ∃ t c, exec (.tcmdReceived r) s = .next t ∧ t.twin.stored = s.twin.stored ++ [c] ∧
      c.seq = BitVec.ofNat 32 (beNat p 0 4) ∧ c.op = beNat (s.twin.partBody ++ p.drop 8) 0 2 ∧ c.ok = false ∧
      t.twin.confirmed = s.twin.confirmed ++ [c.seq] ∧ t.twin.partBody = [] ∧
      t = { s with free := s.free + 2, twin := t.twin }) ∧
  (∀ (s : State) (r : LaneSlot) (p : List Byte), laneTake s twTCONF r = some p →
    ∃ t, exec (.tconfReceived r) s = .next t ∧
      t = { s with host := { s.host with waiting := t.host.waiting } } ∧
      t.host.waiting.length = s.host.waiting.length ∧
      ∀ c ∈ s.host.waiting, c.fwd = true → c.ok = false → c.seq ∈ beWords p →
        { c with ok := true, round := s.sys.round + 1 } ∈ t.host.waiting) ∧
  (∀ (s : State) (c : HostCmd), c ∈ s.host.waiting → c.fwd = true → c.ok = false → 4 ≤ (s.sys.round - c.round).toNat →
    (∀ q ∈ s.twin.outq, q.1 ≠ c.seq) →
    ∃ t, exec (.tconfTimeout c.seq) s = .next t ∧
      { c with ok := true, round := s.sys.round + 1 } ∈ t.host.waiting ∧ t.axes = s.axes ∧ t.mem = s.mem ∧
      ((getRet s clsTwin 0).st = .retired ∨ s.sys.ms ∈ (getRet t clsTwin 0).stamps)) ∧
  (∀ (s : State) (r : LaneSlot) (p : List Byte) (c : HostCmd), laneTake s twTCOMMIT r = some p → takesCommits s = true →
    nth 0#32 (beWords p) 0 = 1#32 → (beWords p).drop 1 ≠ [] →
    s.twin.stored.find? (fun x => x.seq = nth 0#32 (beWords p) 1) = some c →
    ∃ t, exec (.tcommitReceived r) s = .next t ∧
      t.host.waiting = s.host.waiting ++ [{ c with ok := true, round := s.sys.round }] ∧
      (∀ x ∈ t.twin.stored, x.seq ≠ c.seq) ∧ t.twin.entry = s.twin.entry ∧
      t = { s with host := { s.host with waiting := t.host.waiting }, twin := t.twin }) ∧
  (∀ (s : State) (u : CopyUnit), shadows s = true → s.twin.entry = true → u.complete = true → laneInUse s = true →
    isSlow u.content = false → (s.sys.round - u.stamp).toNat ≤ 16 →
    ∃ t, exec (.tcopyReceived u) s = .next t ∧ u ∈ t.twin.arrived ∧
      (∀ v ∈ t.twin.arrived, v = u ∨ v ∈ s.twin.arrived ∧ copyKey v.content ≠ copyKey u.content) ∧
      t = { s with twin := { s.twin with arrived := t.twin.arrived } }) ∧
  (∀ (s : State) (u : CopyUnit), shadows s = true → s.twin.entry = true → u.complete = true → laneInUse s = true →
    isSlow u.content = true →
    ∃ t, exec (.tcopyReceived u) s = .next t ∧ t = noteUnit (copyKey u.content) (takeCopy u.content s) ∧
      t.axes = (takeCopy u.content s).axes ∧ t.sys = s.sys ∧ t.link = s.link) ∧
  (∀ (s : State) (u : CopyUnit), isSlow u.content = false → 16 < (s.sys.round - u.stamp).toNat →
    exec (.tcopyReceived u) s = .next s)

/-- R263, R276, R277: a preferred standby whose standing conditions have held for the hold-off asks for the handback; in the
granted round the active unit that still hears the request becomes the standby, and after 16 rounds of HANDBACK the unit is
ACTIVE. YIELD of the active unit grants, REJOIN takes an ISOLATED unit to LISTEN, INHIBIT and ALLOW set and clear HBINH; a
TWCMD command that does not fit is a refused write. -/
def Obligations.Handback : Prop :=
  (∀ (s : State), hbStanding s = true → 1000 * Cfg.TWHOLDOFF_HOLDOFF s ≤ s.twin.holdMs →
    exec .hbreq s = .next { s with twin := { s.twin with hbReq := true } }) ∧
  (∀ (s : State), s.sys.hstate = .active → s.twin.hand = some (s.sys.round + 1) → s.twin.sinceLease = 0 →
    laneInUse s = true → s.twin.peerHbReq = true → s.sag.test = none →
    ∃ t, exec .handbackRound s = .next t ∧ t.sys.hstate = .standby ∧ t.twin.hand = none ∧
      t.twin.handbacks = inc16 s.twin.handbacks ∧ t.twin.lastRnd = s.sys.round + 1 ∧ t.sys.round = s.sys.round ∧
      t.sys.epoch = s.sys.epoch ∧ State.raised evActiveChanged t ∧ t.axes = s.axes ∧ t.link = s.link) ∧
  (∀ (s : State), s.sys.hstate = .handback → Config.startRounds ≤ s.sys.stateRounds → s.sag.stored = none →
    ∃ t, exec .handbackEnd s = .next t ∧ t.sys.hstate = .active ∧ t.sys.epoch = s.sys.epoch ∧ t.axes = s.axes ∧
      (∀ ch ∈ chansOn s, ∀ n ∈ nodesOn s ch, isRetired s clsNode n = false → (getNode t ch n).st = 1) ∧
      t.twin = s.twin ∧ State.raised evHeadState t) ∧
  (∀ (s : State) (m : Master), State.reaches m aTWCMD s → s.sys.hstate = .active → laneUp s = true →
    bit s.twin.peerHealth 31 = true → s.twin.hand = none →
    ∃ t, exec (.yield m) s = .next t ∧ t.twin.hand = some (grantRound s.sys.round) ∧
      (isAlt s = false → t.twin.hbinh = true) ∧ t = { s with twin := t.twin }) ∧
  (∀ (s : State) (m : Master), State.reaches m aTWCMD s → s.sys.hstate = .isolated →
    ∃ t, exec (.rejoin m) s = .next t ∧ t.sys.hstate = .listen ∧ t.twin.cause = 0 ∧ t.axes = s.axes ∧ t.link = s.link) ∧
  (∀ (s : State) (m : Master), State.reaches m aTWCMD s →
    exec (.inhibit m) s = .next { s with twin := { s.twin with hbinh := true, hbReq := false } } ∧
    exec (.allow m) s = .next { s with twin := { s.twin with hbinh := false } }) ∧
  (∀ (s : State) (m : Master), State.reaches m aTWCMD s → s.sys.hstate ≠ .isolated →
    ∃ t, exec (.rejoin m) s = .next t ∧ State.onlyEvents s t ∧ State.raised evRefusedWrite t)

/-- R283, R284, R288: a waiting cascade slave takes the master's round number from CMARK, and a driving one checks its own
against it; the first CSYNC edge after it sets T0 and begins ACQUIRE; 16 rounds without an edge, or CWAIT seconds without a
time base, lead to FREE; a loss of the cascade lane is a transient of the lane. -/
def Obligations.CascadeTime : Prop :=
  (∀ (s : State) (r : LaneSlot), cascSlave s = true → s.sys.hstate ≠ .boot → r.codeErr = false → cascRetired s = false →
    rxCrcOk 6 r.bytes = true → rxHdr r.bytes % 16 = 1 →
    ∃ t, exec (.cmarkReceived r) s = .next t ∧
      t.casc.cmark = some (BitVec.ofNat 32 (beNat (rxPayload r.bytes) 0 4)) ∧
      t.casc.cepoch = beNat (rxPayload r.bytes) 4 2 ∧
      (s.casc.st = 1 → s.sys.hstate = .listen → s.sys.roundRan = false →
        t.sys.round = BitVec.ofNat 32 (beNat (rxPayload r.bytes) 0 4) ∧ t.sys.roundRan = true) ∧
      (s.casc.st ≠ 1 → t.sys = s.sys ∧
        (t.casc.rndErr = true ↔ BitVec.ofNat 32 (beNat (rxPayload r.bytes) 0 4) ≠ s.sys.round)) ∧
      t = { s with tx := t.tx, casc := t.casc, sys := t.sys }) ∧
  (∀ (s : State) (ofs : Int), cascSlave s = true → s.sys.hstate ≠ .boot → cascRetired s = false → s.casc.st = 1 →
    s.casc.cmark ≠ none →
    ∃ t, exec (.csyncEdge ofs) s = .next t ∧ t.casc.st = 2 ∧ t.casc.noSync = 0 ∧ State.raised evCascade t ∧
      (s.sys.hstate = .listen → t.sys.listenTimer = (if isAlt s then 88 else 64)) ∧ t.sys.round = s.sys.round ∧
      State.onlyEvents { s with casc := t.casc, sys := t.sys } t) ∧
  (∀ (s : State) (ofs : Int), cascSlave s = true → s.sys.hstate ≠ .boot → cascRetired s = false → s.casc.st = 2 →
    ((Cfg.CSDLY_DLY s : Int) - ofs).natAbs ≤ 20 → s.casc.inRange = 15 →
    ∃ t, exec (.csyncEdge ofs) s = .next t ∧ t.casc.st = 3 ∧ State.raised evCascade t ∧ t.axes = s.axes) ∧
  (∀ (s : State), cascSlave s = true → 2 ≤ s.casc.st → s.casc.st ≠ 4 → 16 ≤ s.casc.noSync →
    ∃ t, exec .csyncLost s = .next t ∧ t.casc = { s.casc with st := 4 } ∧ State.raised evCascade t ∧
      State.onlyEvents { s with casc := t.casc } t) ∧
  (∀ (s : State), s.casc.st = 1 → Cfg.CSCFG_CWAIT s ≠ 0 → 1000 * Cfg.CSCFG_CWAIT s ≤ s.casc.waitMs →
    ∃ t, exec .cwaitExpiry s = .next t ∧ t.casc = { s.casc with st := 4 } ∧ State.raised evCascade t ∧
      (s.sys.hstate = .listen → t.sys.listenTimer = (if isAlt s then 88 else 64)) ∧ t.sys.round = s.sys.round ∧
      State.onlyEvents { s with casc := t.casc, sys := t.sys } t) ∧
  (∀ (s : State), cascRetired s = false →
    ∃ t, exec .cascadeLaneLoss s = .next t ∧ t.casc.locked = false ∧ s.sys.ms ∈ (getRet t clsCascade 0).stamps ∧
      t.axes = s.axes ∧ t.link = s.link ∧ t.twin = s.twin ∧ t.sys.hstate = s.sys.hstate)

/-! ### Saggar (R290 to R316) -/

/-- R303, R304: in NORMAL each of these findings is a lock-out: its code and index are recorded and stored, every local output
is off at once, the event is raised and the head locks two rounds later. -/
def Obligations.LockOutCauses : Prop :=
  ∀ (s : State) (c : Instr) (code i : Nat), s.sag.st = 1 → code ≠ 12 →
    (c = .lockoutCause code i ∨
     c = .darkPulse i false false ∧ code = 4 ∧ s.sag.outOn.testBit i = true ∨ c = .sfbMatchTimeout i ∧ code = 4 ∨
     c = .saggarWatchdogExpiry ∧ code = 7 ∧ i = 0 ∨ c = .saggarSupplyTrip ∧ code = 10 ∧ i = 0 ∨
     c = .cpuSelfTest false ∧ code = 11 ∧ i = 0 ∨ c = .ramScrub false ∧ code = 9 ∧ i = 0 ∨
     c = .romCrc false ∧ code = 9 ∧ i = 0 ∨ c = .marchTest false ∧ code = 9 ∧ i = 0 ∨
     c = .clockComparison false ∧ code = 8 ∧ i = 0 ∨ c = .inputComparatorSelfTest false ∧ code = 6 ∧ i = 0 ∨
     c = .testPulse false true ∧ code = 5 ∧ i = 0 ∨
     c = .degtimeExceeded ∧ code = 13 ∧ i = 0 ∧ s.sag.deg = true ∧ degTime s ≤ s.sag.degMs ∨
     c = .brakeFeedbackTimeout i ∧ code = 3 ∧ (getBrk s i).fb ≠ (getBrk s i).cmd ∧
       ∃ t, (getBrk s i).changeRounds = some t ∧ Config.roundsPerMs * (sagParam s 3).toNat ≤ t) →
    ∃ t, exec c s = .next t ∧ t.sag.st = 2 ∧ t.sag.cause = code ∧ t.sag.index = i ∧ t.sag.stored = some (code, i) ∧
      (code, i) ∈ t.sag.standing ∧ (∀ k, k < 4 → t.sag.outOn.testBit k = false) ∧
      t.sys.lockAt = some (s.sys.round + 2) ∧ State.raised evLockOut t ∧
      State.onlyEvents { s with sag := t.sag, axes := t.axes, groups := t.groups
                                sys := { s.sys with lockAt := t.sys.lockAt } } t

/-- R290, R292, R307: a self-test that passes leaves its result and nothing else; with every result in, no cause standing and
a sound region the self-tests end in NORMAL, and with a cause standing in LOCKED with the first cause. -/
def Obligations.SelfTests : Prop :=
  (∀ (s : State),
    exec (.cpuSelfTest true) s = .next { s with sag := { s.sag with selfCpu := some true } } ∧
    exec (.romCrc true) s = .next { s with sag := { s.sag with selfRom := some true } } ∧
    exec (.marchTest true) s = .next { s with sag := { s.sag with selfRam := some true } } ∧
    exec (.ramScrub true) s = .next s ∧ exec (.clockComparison true) s = .next s ∧
    ((∀ q ∈ s.sag.standing, q.1 ≠ 6) →
      exec (.inputComparatorSelfTest true) s = .next { s with sag := { s.sag with selfCmp := some true } }) ∧
    (s.sag.pulseOkMs < 950 →
      exec (.testPulse true true) s = .next { s with sag := { s.sag with pulseOkMs := s.sag.pulseOkMs + 50 } }) ∧
    (∀ k, s.sag.outOn.testBit k = true → exec (.darkPulse k true true) s = .next s)) ∧
  (∀ (s : State), s.sag.st = 0 → s.sag.selfCpu.isSome = true → s.sag.selfRam.isSome = true → s.sag.selfRom.isSome = true →
    s.sag.selfCmp.isSome = true →
    (s.sag.standing = [] → s.sag.regionBad = false →
      exec .saggarSelfTestEnd s = .next { s with sag := { s.sag with st := 1 } }) ∧
    (∀ c i l, s.sag.standing = (c, i) :: l → s.sag.regionBad = false →
      ∃ t, exec .saggarSelfTestEnd s = .next t ∧ State.raised evLockOut t ∧
        t.sag = { s.sag with st := 2, cause := c, index := i, others := true, stored := some (c, i) } ∧
        State.onlyEvents { s with sag := t.sag, sys := { s.sys with lockAt := some s.sys.round } } t))

/-- R304: at T0 of the round that the cause has set, the head enters LOCKED from the state it is in: every axis takes fault
0x0A, every brake command is "apply" and a brake test ends. R305: a reset pulse of a length that is always taken, begun
after the causes cleared, ends a cleared lock-out: it is no longer stored, the head leaves LOCKED at the next T0, and each
brake channel awaits a new basis; while a cause stands it does nothing. -/
def Obligations.LockOutAndReset : Prop :=
  (∀ (s : State) (m : Word), s.sys.lockAt = some m → later m s.sys.round = false → s.sys.hstate ≠ .boot →
    s.sys.hstate ≠ .locked → s.sag.st = 2 →
    ∃ t, exec .lockout s = .next t ∧ t.sys.hstate = .locked ∧ t.sys.lockedFrom = s.sys.hstate ∧ t.sys.lockAt = none ∧
      t.sag.lockRnd = s.sys.round ∧ t.sag.test = none ∧ (∀ b ∈ brakesOn s, (getBrk t b).cmd = 1) ∧
      (∀ a, a < usableAxes s → (getAx t a).ctl.causes.testBit 0x0A = true) ∧
      (∀ k, k < 4 → t.sag.outOn.testBit k = false) ∧ State.raised evHeadState t ∧
      t.mem = s.mem ∧ t.cfg = s.cfg ∧ t.link = s.link ∧ t.twin = s.twin ∧ t.sys.round = s.sys.round) ∧
  (∀ (s : State) (start : Word) (us : Nat), s.sag.st = 3 → later s.sag.clearedAt start = false → 527000 ≤ us →
    us ≤ 2857000 →
    ∃ t, exec (.safeReset start us) s = .next t ∧ t.sag.st = 1 ∧ t.sag.cause = 0 ∧ t.sag.stored = none ∧
      t.sys.unlockAt = some (s.sys.round + 1) ∧ t.sys.hstate = s.sys.hstate ∧
      (∀ b ∈ brakesOn s, (getBrk t b).basis = false) ∧ State.raised evLockOutReset t ∧
      State.onlyEvents { s with free := s.free + 1, sag := t.sag
                                sys := { s.sys with unlockAt := some (s.sys.round + 1), lockAt := none } } t) ∧
  (∀ (s : State) (start : Word) (us : Nat), s.sag.st ≠ 3 → exec (.safeReset start us) s = .next s)

/-- R296 to R298: an accepted copy that fails the checks of R298 is counted and used for nothing; the first copy of a period
waits for the second; a second copy with the same SSEQ and data forms a valid pair. R294, R297: with each safe period of a
channel SSEQ goes on by one and the command of the period is "release" exactly when the release is granted. -/
def Obligations.SafeFrames : Prop :=
  (∀ (s u : State) (r : RxSlot) (e : SEntry), acceptUp r tySAFE s = (u, some e) → Cfg.SGBRK_EN s e.aux = true →
    copyOk u e.aux r = false →
    exec (.safeReceived r) s = .next { u with sag := { u.sag with refusedCopies := sat16 (u.sag.refusedCopies + 1) } }) ∧
  (∀ (s u : State) (r : RxSlot) (e : SEntry), acceptUp r tySAFE s = (u, some e) → Cfg.SGBRK_EN s e.aux = true →
    copyOk u e.aux r = true → r.ch = 0 → (getBrk u e.aux).copyB = none →
    (beNat (rxPayload r.bytes) 6 2).testBit 5 = false →
    exec (.safeReceived r) s = .next (modBrk u e.aux (fun k => { k with
      copyA := some (beNat (rxPayload r.bytes) 2 2, beNat (rxPayload r.bytes) 6 2) }))) ∧
  (∀ (s u : State) (r : RxSlot) (e : SEntry), acceptUp r tySAFE s = (u, some e) → Cfg.SGBRK_EN s e.aux = true →
    copyOk u e.aux r = true → r.ch = 1 → (getBrk u e.aux).got = false →
    (getBrk u e.aux).copyA = some (beNat (rxPayload r.bytes) 2 2, beNat (rxPayload r.bytes) 6 2) →
    ∃ t, exec (.safeReceived r) s = .next t ∧ (getBrk t e.aux).got = true ∧ (getBrk t e.aux).link = 0 ∧
      (getBrk t e.aux).misses = 0 ∧ (getBrk t e.aux).basis = true ∧ t.mem = s.mem ∧ t.cfg = s.cfg ∧
      t.sys.round = s.sys.round) ∧
  (∀ (s : State) (b : Nat), brakesOn s = [b] → safeEntries s b ≠ [] →
    ∃ t, exec .safePeriod s = .next t ∧ (getBrk t b).prevCmd = (getBrk s b).sent ∧ (getBrk t b).sent = (getBrk t b).cmd ∧
      (getBrk t b).cmd = (if granted (closePeriod b s) b then 2 else 1) ∧
      (getBrk t b).sseqDn = (if (getBrk s b).fresh then 0 else ((getBrk s b).sseqDn + 1) % 65536) ∧
      (getBrk t b).fresh = false ∧ (getBrk t b).got = false ∧ (getBrk t b).copyA = none ∧ (getBrk t b).copyB = none ∧
      t.mem = s.mem ∧ t.cfg = s.cfg ∧ t.sys.round = s.sys.round)

/-- R308: the right password opens the seal while SEAL_n is low and clears the wrong counter; the third wrong one in a row
blocks the next for 60 s; PWDSET with the seal open stores the new hash and logs it; SEALCLOSE, a rise of SEAL_n and 30
minutes close the seal, and the block ends after 60 s.
R309, R310: PARAM with the seal open and an admitted value logs the old and the new value, and the new one waits for the
next T0; LOGCLEAR with the CRC of the log empties it but for its own entry. With the seal closed either is refused: its event
is raised and nothing changes. -/
def Obligations.SealedCommands : Prop :=
  (∀ (s : State) (m : Master) (n : Nat), State.reaches m aSGCMD s → s.sag.st ≠ 0 → s.sag.blkMs = none → 8 ≤ n → n ≤ 32 →
    (sha256 (pwdBytes s.sag.pwd n) = s.sag.pwdHash →
      exec (.pwd m n) s = .next { s with sag := { s.sag with pwd := [], pwdOk := !s.sag.sealPin, pwdMs := 0, wrong := 0 } }) ∧
    (sha256 (pwdBytes s.sag.pwd n) ≠ s.sag.pwdHash → s.sag.wrong < 2 →
      exec (.pwd m n) s = .next { s with sag := { s.sag with pwd := [], wrong := s.sag.wrong + 1 } }) ∧
    (sha256 (pwdBytes s.sag.pwd n) ≠ s.sag.pwdHash → 2 ≤ s.sag.wrong →
      ∃ t, exec (.pwd m n) s = .next t ∧ t.sag = { s.sag with pwd := [], wrong := 0, blkMs := some 60000 } ∧
        State.raised evPwdBlocked t ∧ State.onlyEvents { s with sag := t.sag } t)) ∧
  (∀ (s : State) (m : Master) (n : Nat), State.reaches m aSGCMD s → s.sag.st ≠ 0 → sealOpen s = true → s.sag.logCount < 64 →
    8 ≤ n → n ≤ 32 →
    ∃ t, exec (.pwdset m n) s = .next t ∧ t.sag.pwdHash = sha256 (pwdBytes s.sag.pwd n) ∧ t.sag.pwdSet = true ∧
      t.sag.pwd = [] ∧ t.sag.logCount = s.sag.logCount + 1 ∧ t = { s with sag := t.sag }) ∧
  (∀ (s : State) (m : Master), State.reaches m aSGCMD s → s.sag.st ≠ 0 →
    exec (.sealclose m) s = .next { s with sag := { s.sag with pwdOk := false } }) ∧
  (∀ (s : State), exec (.sealPinChange true) s = .next { s with
      sag := { s.sag with sealPin := true, pwdOk := s.sag.pwdOk && s.sag.sealPin }
      rcd := { s.rcd with auth := false, authMs := 0 } } ∧
    exec (.sealPinChange false) s = .next { s with sag := { s.sag with
      sealPin := false, pwdOk := s.sag.pwdOk && !s.sag.sealPin } }) ∧
  (∀ (s : State), s.sag.pwdOk = true → 1800000 ≤ s.sag.pwdMs →
    exec .sealTimeout s = .next { s with sag := { s.sag with pwdOk := false } }) ∧
  (∀ (s : State), s.sag.blkMs = some 0 → exec .passwordBlockEnd s = .next { s with sag := { s.sag with blkMs := none } }) ∧
  (∀ (s : State) (m : Master), State.reaches m aSGCMD s → s.sag.st ≠ 0 → sealOpen s = true → s.sag.logCount < 64 →
    paramOk s s.sag.sel.toNat s.sag.val = true → (∀ q ∈ s.sag.standing, q.1 ≠ 15) →
    ∃ t, exec (.param m) s = .next t ∧ t.sag.pend = s.sag.pend ++ [(s.sag.sel.toNat, s.sag.val)] ∧
      t.sag.logCount = s.sag.logCount + 1 ∧
      nth 0#32 (tget [] t.sag.log s.sag.logCount) 1 = sagParam s s.sag.sel.toNat ∧
      nth 0#32 (tget [] t.sag.log s.sag.logCount) 2 = s.sag.val ∧
      (∀ k, k ≠ s.sag.logCount → tget [] t.sag.log k = tget [] s.sag.log k) ∧ t = { s with sag := t.sag }) ∧
  (∀ (s : State) (m : Master), State.reaches m aSGCMD s → s.sag.st ≠ 0 → sealOpen s = true →
    s.sag.val = BitVec.ofNat 32 (crc32 (logBytes s)) →
    ∃ t, exec (.logclear m) s = .next t ∧ t.sag.logCount = 1 ∧ bits (nth 0#32 (tget [] t.sag.log 0) 0) 31 24 = 3 ∧
      nth 0#32 (tget [] t.sag.log 0) 1 = BitVec.ofNat 32 s.sag.logCount ∧
      (∀ k, k ≠ 0 → tget [] t.sag.log k = []) ∧ t = { s with sag := t.sag }) ∧
  (∀ (s : State) (m : Master) (c : Instr), State.reaches m aSGCMD s → sealOpen s = false → c ∈ [.param m, .logclear m] →
    ∃ t, exec c s = .next t ∧ State.onlyEvents s t ∧ State.raised evSafetyRefused t)

/-- R300 to R302: BTEST of a channel whose owner is in RUN at rest begins the test, which waits for the applied report;
BTABORT ends it with result 3 and blocks the channel, and a second current that is down again without undue movement ends
it with result 1 and the hours at 0; OUTSET energises an output of that function while the unit drives without a
lock-out. -/
def Obligations.BrakeTestAndOutputs : Prop :=
  (∀ (s : State) (m : Master) (b : Nat), State.reaches m aSGCMD s → s.sag.st ≠ 0 → Cfg.SGBRK_EN s b = true →
    driving s = true → ownerInRun s (brakeOwner s b) = true → atRest s (brakeOwner s b) = true →
    (getProf s (brakeOwner s b)).queue = [] → (getProf s (brakeOwner s b)).cur = none → s.sag.test = none →
    sagParam s (0x20 + b) ≠ 0#32 →
    exec (.btest m b) s = .next { s with sag := { s.sag with
      test := some { ch := b, phase := 0, p0 := 0, rounds := 0, dev := 0 } } }) ∧
  (∀ (s : State) (m : Master) (t : BTest), State.reaches m aSGCMD s → s.sag.st ≠ 0 → s.sag.test = some t →
    ∃ u, exec (.btabort m) s = .next u ∧ u.sag.test = none ∧ (getBrk u t.ch).tres = 3 ∧ (getBrk u t.ch).blocked = true ∧
      State.raised evBrakeTest u ∧ State.onlyEvents { s with sag := u.sag } u) ∧
  (∀ (s : State) (t : BTest), s.sag.test = some t → t.phase = 2 → testLength s t.ch ≤ t.rounds → testMoved s t = false →
    ∃ u, exec .btestEnd s = .next u ∧ u.sag.test = none ∧ (getBrk u t.ch).tres = 1 ∧ (getBrk u t.ch).hrs = 0 ∧
      (getBrk u t.ch).due = false ∧ (getBrk u t.ch).blocked = false ∧ State.raised evBrakeTest u ∧
      State.onlyEvents { s with sag := u.sag } u) ∧
  (∀ (s : State) (m : Master) (mask : Nat), State.reaches m aSGCMD s → s.sag.st ≠ 0 → driving s = true → sagClear s = true →
    ∃ t, exec (.outset m mask) s = .next t ∧ t.sag.outset = mask % 16 ∧
      (∀ k, k < 4 → Cfg.SGOUT_FUNC s k = 2 → (t.sag.outOn.testBit k = mask.testBit k)) ∧
      State.onlyEvents { s with sag := t.sag, axes := t.axes, groups := t.groups } t)

/-! ### Retirement (R32, R35) -/

/-- R32, R35: BACKOFF_END returns a channel whose backoff has run out to IN_USE, with its class's re-entry (a diagnostic run
or the retry of a power stage, a network channel judged again); RTREL_GO releases the selected retired channel, whose
stamps, backoff and PERM clear, and raises the event, a transient of the same round counting as the first after the release; without the key or of a channel that is not retired it does not. -/
def Obligations.BackoffAndRelease : Prop :=
  (∀ (s : State) (cls idx : Nat), (getRet s cls idx).st = .backoff → (getRet s cls idx).backoff = 0 →
    (cls ∈ [clsNode, clsSegment, clsCascade, clsFeedback] →
      exec (.backoffEnd cls idx) s = .next (setRet s cls idx { getRet s cls idx with st := .inUse })) ∧
    (cls = clsStage →
      ∃ t, exec (.backoffEnd cls idx) s = .next t ∧ getRet t cls idx = { getRet s cls idx with st := .inUse } ∧
        ((getAx s idx).stage.retryAtEnd = true →
          (getAx t idx).stage.retryReady = true ∧ (getAx t idx).stage.retryAtEnd = false) ∧
        ((getAx s idx).stage.diagAtEnd = true → (getAx s idx).stage.seq = .idle →
          (getAx t idx).stage.seq = .diag ∧ (getAx t idx).stage.step = 1 ∧ (getAx t idx).stage.diagAtEnd = false) ∧
        (getAx t idx).ctl = { (getAx s idx).ctl with causes := setBit (getAx s idx).ctl.causes 0x13 false } ∧
        t = { s with ret := t.ret, axes := t.axes } ∧ ∀ b, b ≠ idx → getAx t b = getAx s b) ∧
    (cls = clsChannel →
      ∃ t, exec (.backoffEnd cls idx) s = .next t ∧ getRet t cls idx = { getRet s cls idx with st := .inUse } ∧
        (getCh t idx).lost = false ∧ (getCh t idx).noReturn = 0 ∧ t = { s with ret := t.ret, link := t.link } ∧
        ∀ k, k ≠ idx → getCh t k = getCh s k) ∧
    (cls = clsSdi ∨ cls = clsTwin →
      ∃ t, exec (.backoffEnd cls idx) s = .next t ∧ getRet t cls idx = { getRet s cls idx with st := .inUse })) ∧
  (∀ (s : State) (m : Master) (w : Word) (cls idx : Nat), State.reaches m aRTREL s → bits w 31 16 = Config.key →
    bit w 0 = true → cls = bits (rtSel s m) 18 16 → idx = bits (rtSel s m) 7 0 →
    (isRetired s cls idx = true → s.ret.late.contains (retKey cls idx) = false →
      ∃ t, exec (.rtrelGo m w) s = .next t ∧ getRet t cls idx = {} ∧ State.raised evRetirement t) ∧
    (isRetired s cls idx = true → s.ret.late.contains (retKey cls idx) = true → cls = clsCascade → s.ret.cfg = [] →
      ∃ t, exec (.rtrelGo m w) s = .next t ∧ (getRet t cls idx).stamps = [s.sys.ms] ∧ State.raised evRetirement t) ∧
    (isRetired s cls idx = true → s.ret.late.contains (retKey cls idx) = false → cls ∈ [clsSegment, clsChannel, clsCascade, clsStage] →
      ∃ t, exec (.rtrelGo m w) s = .next t ∧ getRet t cls idx = {} ∧ State.raised evRetirement t ∧
        t.ret.next = (s.ret.next + 1) % 64 ∧ (tget {} t.ret.log s.ret.next).cause = 3 ∧
        (tget {} t.ret.log s.ret.next).cls = cls ∧ (tget {} t.ret.log s.ret.next).idx = idx ∧
        (cls = clsStage → axSt s idx = .retired → axSt t idx = .off) ∧
        State.onlyEvents { s with ret := t.ret, axes := t.axes, link := t.link } t) ∧
    (isRetired s cls idx = false → exec (.rtrelGo m w) s = .next s)) ∧
  (∀ (s : State) (m : Master) (w : Word), State.reaches m aRTREL s → bits w 31 16 ≠ Config.key →
    ∃ t, exec (.rtrelGo m w) s = .next t ∧ State.onlyEvents s t ∧ State.raised evRefusedWrite t) ∧
  (∀ (s : State) (w : Word), mayWrite s .compact aRTREL = false ∧ (s.sys.pwr ≠ .deep → s.sys.hstate ≠ .standby →
    ∃ t, exec (.rtrelGo .compact w) s = .next t ∧ State.onlyEvents s t ∧ State.raised evBusError t))

/-! ### Power stage (R113 to R130) -/

/-- R115, R119, R120: a completed retry ends the causes of faults 0x10 and 0x11, sets RETRYOK and reports; a test step whose
echo is back and whose voltages pass goes on to the next step, and the last one ends the sequence with PASS, which takes an
axis in PRESTART to READY; an echo missing for 4 further sample rounds ends it with NO_RESPONSE and fault 0x16. -/
def Obligations.PowerStageSteps : Prop :=
  (∀ (s : State) (a : Nat), a < 128 → (getAx s a).stage.retryReady = true →
    ∃ t, exec (.retryComplete a) s = .next t ∧
      getAx t a = { getAx s a with
        stage := { (getAx s a).stage with retryOk := true, retryReady := false }
        ctl := { (getAx s a).ctl with causes := setBit (setBit (getAx s a).ctl.causes 0x11 false) 0x10 false } } ∧
      State.raised (128 + a) t ∧ State.axisCause a caStageReady t ∧ State.onlyAxis a s t) ∧
  (∀ (s : State) (a : Nat) (x y : TestStep) (b : List Byte), a < 128 → evalDue s a = true →
    testStep (kindOf s a) (getAx s a).stage.step = some x → (getIn s a (sampleNow s)).fup = some b → echoOk x b = true →
    judgeStep s a x b = none → x.code ≠ 3 → testStep (kindOf s a) ((getAx s a).stage.step + 1) = some y →
    ∃ t, exec (.testStepEvaluation a) s = .next t ∧ (getAx t a).stage.step = (getAx s a).stage.step + 1 ∧
      (getAx t a).stage.seq = (getAx s a).stage.seq ∧ (getAx t a).ctl = (getAx s a).ctl ∧
      (getAx t a).prof = (getAx s a).prof ∧ t = { s with axes := t.axes } ∧ ∀ k, k ≠ a → getAx t k = getAx s k) ∧
  (∀ (s : State) (a : Nat) (x : TestStep) (b : List Byte), a < 128 → evalDue s a = true →
    (getAx s a).stage.seq = .prestart → (getAx s a).stage.opens = [] →
    testStep (kindOf s a) (getAx s a).stage.step = some x → (getIn s a (sampleNow s)).fup = some b → echoOk x b = true →
    judgeStep s a x b = none → x.code = 3 → fLt (Cfg.RMAX s (axW a)) (stepR s a b) = false →
    testStep (kindOf s a) ((getAx s a).stage.step + 1) = none →
    ∃ t, exec (.testStepEvaluation a) s = .next t ∧ axSt t a = .ready ∧ (getAx t a).stage.seq = .idle ∧
      (getAx t a).stage.result = 0 ∧ (getAx t a).stage.rMeas = stepR s a b ∧ State.raised (128 + a) t ∧
      State.axisCause a caPrestart t ∧ State.onlyAxis a s t) ∧
  (∀ (s : State) (a : Nat), a < 128 → noEchoNow s a = true → (getAx s a).stage.seq = .prestart → axSt s a = .prestart →
    parentOf s a = none →
    ∃ t, exec (.noResponse a) s = .next t ∧ axSt t a = .fault ∧ (getAx t a).stage.result = 6 ∧
      (getAx t a).stage.phase = 7 ∧ (getAx t a).stage.seq = .idle ∧ (getAx t a).ctl.lastCode = 0x16 ∧
      State.raised (128 + a) t ∧ State.axisCause a caPrestart t ∧ State.axisCause a caFault t ∧ State.onlyReaction s t)

/-- R124, R126: a trip of an enabled detector forces every enabled chopper channel, counts and gives every
PSOVAX axis fault 0x17; one of a detector that cannot trip does nothing. 1 ms after it the forcing ends and with it the cause,
and a channel that turns off by it loses its OVERLOAD flag and its time on; a chopper channel on beyond MAXON sets its
OVERLOAD flag once and reports it. -/
def Obligations.OverVoltage : Prop :=
  (∀ (s : State) (d : Detector), canTrip s d = true →
    ∃ t, exec (.overVoltageTrip d) s = .next t ∧
      t.ps = { s.ps with
        tripCnt := inc16 s.ps.tripCnt, tripped := true, tripRounds := 0, forced := chopEnabled s
        srcAna := s.ps.srcAna || decide (d = .analogue), srcSdi := s.ps.srcSdi || decide (d = .sigmaDelta) } ∧
      (∀ a ∈ ovAxes s, (getAx t a).ctl.causes.testBit 0x17 = true) ∧ State.raised evOverVoltage t ∧
      State.onlyReaction { s with ps := t.ps } t) ∧
  (∀ (s : State) (d : Detector), canTrip s d = false → exec (.overVoltageTrip d) s = .next s) ∧
  (∀ (s : State), s.ps.tripped = true → Config.roundsPerMs ≤ s.ps.tripRounds →
    ∃ t, exec .overVoltageForcingEnd s = .next t ∧
      t.ps = { s.ps with tripped := false, forced := 0, overload := s.ps.overload &&& s.ps.on, onRounds := t.ps.onRounds } ∧
      (∀ j, j < 4 → tget 0 t.ps.onRounds j = if s.ps.on.testBit j then tget 0 s.ps.onRounds j else 0) ∧
      (∀ a ∈ ovAxes s, (getAx t a).ctl.causes.testBit 0x17 = false) ∧ t = { s with ps := t.ps, axes := t.axes }) ∧
  (∀ (s : State), s.ps.tripped = true → s.ps.tripRounds < Config.roundsPerMs → exec .overVoltageForcingEnd s = .next s) ∧
  (∀ (s : State) (j : Nat), Cfg.PSCHOP_EN s j = true → Cfg.PSCHOP_MAXON s j ≠ 0 →
    (s.ps.on.testBit j = true ∨ s.ps.forced.testBit j = true) →
    Config.roundsPerMs * Cfg.PSCHOP_MAXON s j ≤ tget 0 s.ps.onRounds j →
    (s.ps.overload.testBit j = false →
      ∃ t, exec (.chopperOverload j) s = .next t ∧ t.ps = { s.ps with overload := setBit s.ps.overload j true } ∧
        State.raised evChopper t ∧ State.onlyEvents { s with ps := t.ps } t) ∧
    (s.ps.overload.testBit j = true → exec (.chopperOverload j) s = .next s))

/-- R128 to R130: a fast filter of an input in use reports; a faulty input counts a transient of its
class, which the rule of R32 turns into a backoff or a retirement, and reports; a comparator self-test starts on an available comparator, is refused with code 4 else, and its end gives PASS,
NOTRIP or NORELEASE, with the detector that fails unavailable from then on. -/
def Obligations.SigmaDeltaAndSelfTest : Prop :=
  (∀ (s : State) (k : Nat), Cfg.SDCFG_EN s k = true → (getRet s clsSdi k).st = .inUse →
    ∃ t, exec (.sdiFast k) s = .next t ∧ State.onlyEvents s t ∧ State.raised evSdiFast t) ∧
  (∀ (s : State) (k : Nat) (l : List Nat), Cfg.SDCFG_EN s k = true → isRetired s clsSdi k = false → anaAvail s = true →
    s.ps.lost = false → l = s.sys.ms :: (getRet s clsSdi k).stamps.filter (fun t => s.sys.ms ≤ t + (retCfgOf s clsSdi).window) →
    ∃ t, exec (.sdiFault k) s = .next t ∧ State.raised evSdiFault t ∧ (getRet t clsSdi k).stamps = l ∧
      (l.length < (retCfgOf s clsSdi).threshold → 0 < (retCfgOf s clsSdi).backoff →
        (getRet t clsSdi k).st = .backoff ∧ (getRet t clsSdi k).backoff =
          min ((retCfgOf s clsSdi).backoff * 2 ^ (l.length - 1)) (16 * (retCfgOf s clsSdi).backoff)) ∧
      (l.length < (retCfgOf s clsSdi).threshold → (retCfgOf s clsSdi).backoff = 0 →
        (getRet t clsSdi k).st = (getRet s clsSdi k).st) ∧
      ((retCfgOf s clsSdi).threshold ≤ l.length →
        (getRet t clsSdi k).st = .retired ∧ (getRet t clsSdi k).perm = false ∧ State.raised evRetirement t) ∧
      State.onlyEvents { s with ret := t.ret } t) ∧
  (∀ (s : State) (n : Nat), s.ps.testBusy = false →
    (testTargetOk s n = true → testWouldBlind s n = false →
      exec (.psctestGo n) s = .next { s with ps := { s.ps with testBusy := true, testTarget := n, testResult := 0 } }) ∧
    (testTargetOk s n = false →
      exec (.psctestGo n) s = .next { s with ps := { s.ps with testTarget := n, testResult := 4 } })) ∧
  (∀ (s : State) (n : Nat), s.ps.testBusy = true →
    exec (.psctestGo n) s = .next { s with ps := { s.ps with testResult := 4 } }) ∧
  (∀ (s : State) (trip rel : Bool), s.ps.testBusy = true → s.ps.testTarget = 9 →
    ∃ t, exec (.comparatorSelfTestEnd trip rel) s = .next t ∧ t.ps.testBusy = false ∧
      t.ps.testResult = (if !trip then 2 else if !rel then 3 else 1) ∧ t.sag.selfCmp = some (trip && rel) ∧
      t.mem = s.mem ∧ t.cfg = s.cfg) ∧
  (∀ (s : State) (trip rel : Bool), s.ps.testBusy = true → s.ps.testTarget ≠ 9 →
    ∃ t, exec (.comparatorSelfTestEnd trip rel) s = .next t ∧ t.ps.testBusy = false ∧
      t.ps.testResult = (if !trip then 2 else if !rel then 3 else 1) ∧
      t.ps.anaFail = (s.ps.anaFail || ((!trip || !rel) && s.ps.testTarget == 0)) ∧
      State.raised evComparator t ∧ State.onlyReaction { s with ps := t.ps } t)

/-! ### Lifetime recorder (R317 to R334) -/

/-- R317, R328, R332: the recorder's commands complete with their own effect. POWERED_SECOND counts SEC, saturating, in every
powered second. SAVE starts a full save and answers OK; asked for while a save runs it is the next one, and while a dip defers
flash writes it waits. SAVE_COMPLETE puts the copy with the next save number into the flash area that does not hold the latest
one, and a failed one counts, sets SAVEERR and reports; a save asked for meanwhile then starts. RECORDER_CLEAR with the
authorisation writes its record to the clear log, in flash and in its SRAM mirror, and waits for the next T0; without a scope
or from the compact core, without the authorisation, with a full log, in a deferral, and after a failed flash write it is
refused with the code of each and changes nothing else.
R331: RECORDER_PWD with the maintenance password authorises clearing while SEAL_n is low, until LOCK,
AUTHORISATION_TIMEOUT (30 minutes) or SEAL_n ends it; a length outside 8 to 32 is refused; the third wrong one in a row blocks
the next until RECORDER_PWD_BLOCK_END, 60 s later. Each of these commands completes with this effect, and each of the two
time-outs changes nothing before its time. -/
def Obligations.RecorderCommands : Prop :=
  (∀ (s : State), s.sys.inReset = false →
    ∃ t, exec .poweredSecond s = .next t ∧ t.rcd.sec = incWord s.rcd.sec ∧ t.rcd.ms = 0 ∧ t.rcd.pc = s.rcd.pc ∧
      (s.rcd.sec ≠ 0xFFFFFFFF#32 → t.rcd.sec = s.rcd.sec + 1) ∧ t.mem = s.mem ∧ t.cfg = s.cfg ∧
      t.boot.flash = s.boot.flash ∧ t.sys.round = s.sys.round ∧
      ((s.rcd.sec + 1).toNat % 3600 ≠ 0 → t = { s with rcd := { s.rcd with sec := incWord s.rcd.sec, ms := 0 } })) ∧
  (∀ (s : State), s.sys.inReset = true → exec .poweredSecond s = .next s) ∧
  (∀ (s : State) (m : Master), State.reaches m aRCCMD s →
    (s.rcd.saving = false → s.sys.dip = false → s.sys.defer = false →
      ∃ t, exec (.save m) s = .next t ∧ t.rcd = { s.rcd with
          saving := true, saveStart := s.rcd.sec, savePc := s.rcd.pc, lastCmd := 3, result := 1 } ∧
        State.onlyEvents { s with rcd := t.rcd } t) ∧
    (s.rcd.saving = true →
      exec (.save m) s = .next { s with rcd := { s.rcd with saveAgain := true, lastCmd := 3, result := 1 } }) ∧
    (s.rcd.saving = false → (s.sys.dip = true ∨ s.sys.defer = true) →
      exec (.save m) s = .next { s with rcd := { s.rcd with deferred := true, lastCmd := 3, result := 1 } })) ∧
  (∀ (s : State), s.rcd.saving = true → s.sys.dip = false → s.sys.defer = false →
    (∃ t, exec (.saveComplete true) s = .next t ∧ t.rcd = { s.rcd with
        saving := s.rcd.saveAgain, saveAgain := false, saveSeq := s.rcd.saveSeq + 1, saveSec := s.rcd.saveStart
        saveErr := false, lastCopy := if s.rcd.lastCopy = 1 then 2 else 1
        saveStart := if s.rcd.saveAgain then s.rcd.sec else s.rcd.saveStart
        savePc := if s.rcd.saveAgain then s.rcd.pc else s.rcd.savePc } ∧
      (∀ i, i < 0x10000 →
        mget 0xFF t.boot.flash ((Cfg.RCFLASH s).toNat + (if s.rcd.lastCopy = 1 then 0x10000 else 0) + i) =
          (copyBytes s (s.rcd.saveSeq + 1)).getD i 0) ∧
      (∀ x, x < (Cfg.RCFLASH s).toNat + (if s.rcd.lastCopy = 1 then 0x10000 else 0) ∨
        (Cfg.RCFLASH s).toNat + (if s.rcd.lastCopy = 1 then 0x20000 else 0x10000) ≤ x →
        mget 0xFF t.boot.flash x = mget 0xFF s.boot.flash x) ∧
      State.onlyEvents { s with rcd := t.rcd, boot := { s.boot with flash := t.boot.flash } } t) ∧
    (∃ t, exec (.saveComplete false) s = .next t ∧ t.rcd = { s.rcd with
        saving := s.rcd.saveAgain, saveAgain := false, saveFail := sat16 (s.rcd.saveFail + 1), saveErr := true
        saveStart := if s.rcd.saveAgain then s.rcd.sec else s.rcd.saveStart
        savePc := if s.rcd.saveAgain then s.rcd.pc else s.rcd.savePc } ∧
      State.raised evSaveFailed t ∧ State.onlyEvents { s with rcd := t.rcd } t)) ∧
  (∀ (s : State) (ok : Bool), (s.rcd.saving = false ∨ s.sys.dip = true ∨ s.sys.defer = true) →
    exec (.saveComplete ok) s = .next s) ∧
  (∀ (s : State) (src : Source) (scope : Nat), src ≠ .compact → scope ≠ 0 → s.rcd.auth = true → s.rcd.clrCnt < 16 →
    s.sys.dip = false → s.sys.defer = false → ∀ l, l = wordBytes (withCrc [packWord [(19, 16, scope), (15, 0, s.rcd.clrCnt + 1)],
      s.rcd.pc, s.rcd.sec, s.sys.round, BitVec.ofNat 32 s.rcd.count, BitVec.ofNat 32 s.rcd.lost,
      if src = .spi then 1#32 else 0#32]) →
    ∀ fa ma, fa = (Cfg.RCFLASH s).toNat + 0x28000 + 32 * s.rcd.clrCnt → ma = recAddr s (0xC000 + 32 * s.rcd.clrCnt) →
    ∃ t, exec (.recorderClear src scope true) s = .next t ∧ t.rcd = { s.rcd with
        clrCnt := s.rcd.clrCnt + 1, clearPend := some ((s.rcd.clearPend.getD 0) ||| scope), lastCmd := 2, result := 1 } ∧
      (∀ i, i < 32 → mget 0xFF t.boot.flash (fa + i) = l.getD i 0) ∧
      (∀ x, x < fa ∨ fa + 32 ≤ x → mget 0xFF t.boot.flash x = mget 0xFF s.boot.flash x) ∧
      (Memory.wf 0 s.mem = true → ∀ i, i < 32 → mget 0 t.mem (ma + i) = l.getD i 0) ∧
      (∀ x, x < ma ∨ ma + 32 ≤ x → mget 0 t.mem x = mget 0 s.mem x) ∧
      t = { s with rcd := t.rcd, mem := t.mem, boot := { s.boot with flash := t.boot.flash } }) ∧
  (∀ (s : State) (src : Source) (scope n : Nat) (ok : Bool),
    (n = 8 ∧ (src = .compact ∨ scope = 0) ∨ src ≠ .compact ∧ scope ≠ 0 ∧
      (n = 2 ∧ s.rcd.auth = false ∨ s.rcd.auth = true ∧
        (n = 3 ∧ 16 ≤ s.rcd.clrCnt ∨ s.rcd.clrCnt < 16 ∧
          (n = 4 ∧ (s.sys.dip = true ∨ s.sys.defer = true) ∨
            s.sys.dip = false ∧ s.sys.defer = false ∧ n = 5 ∧ ok = false)))) →
    exec (.recorderClear src scope ok) s = .next { s with rcd := { s.rcd with lastCmd := 2, result := n } }) ∧
  (∀ (s : State) (m : Master) (n : Nat), State.reaches m aRCCMD s → s.rcd.blkMs = none →
    (8 ≤ n → n ≤ 32 → sha256 (pwdBytes s.rcd.pwd n) = s.rcd.pwdHash →
      exec (.recorderPwd m n) s = .next { s with rcd := { s.rcd with
        pwd := [], auth := !s.sag.sealPin, authMs := 0, wrong := 0, lastCmd := 1, result := 1 } }) ∧
    (8 ≤ n → n ≤ 32 → sha256 (pwdBytes s.rcd.pwd n) ≠ s.rcd.pwdHash → s.rcd.wrong < 2 →
      exec (.recorderPwd m n) s = .next { s with rcd := { s.rcd with
        pwd := [], wrong := s.rcd.wrong + 1, lastCmd := 1, result := 6 } }) ∧
    (8 ≤ n → n ≤ 32 → sha256 (pwdBytes s.rcd.pwd n) ≠ s.rcd.pwdHash → 2 ≤ s.rcd.wrong →
      exec (.recorderPwd m n) s = .next { s with rcd := { s.rcd with
        pwd := [], wrong := 0, blkMs := some 60000, lastCmd := 1, result := 6 } }) ∧
    (n < 8 ∨ 32 < n →
      exec (.recorderPwd m n) s = .next { s with rcd := { s.rcd with pwd := [], lastCmd := 1, result := 8 } })) ∧
  (∀ (s : State) (m : Master) (n k : Nat), State.reaches m aRCCMD s → s.rcd.blkMs = some k →
    exec (.recorderPwd m n) s = .next { s with rcd := { s.rcd with pwd := [], lastCmd := 1, result := 7 } }) ∧
  (∀ (s : State) (m : Master), State.reaches m aRCCMD s →
    exec (.lock m) s = .next { s with rcd := { s.rcd with auth := false, authMs := 0, lastCmd := 4, result := 1 } }) ∧
  (∀ (s : State), s.rcd.auth = true → 1800000 ≤ s.rcd.authMs →
    exec .authorisationTimeout s = .next { s with rcd := { s.rcd with auth := false, authMs := 0 } }) ∧
  (∀ (s : State), (s.rcd.auth = false ∨ s.rcd.authMs < 1800000) → exec .authorisationTimeout s = .next s) ∧
  (∀ (s : State), s.rcd.blkMs = some 0 →
    exec .recorderPwdBlockEnd s = .next { s with rcd := { s.rcd with blkMs := none } }) ∧
  (∀ (s : State), s.rcd.blkMs ≠ some 0 → exec .recorderPwdBlockEnd s = .next s)

/-! ### Boot, images and fuses (R364 to R380) -/

/-- R371 to R374: the boot unit loads the first slot of its order that verifies: its configuration becomes the registers',
and the head stays in BOOT; when both fail, or the flash answers with no signature, there is no image. With image, recorder
and Saggar ready the head leaves BOOT for LISTEN, the compact core running at LDCENTRY and the watchdog at its full time. -/
def Obligations.BootAndListen : Prop :=
  (∀ (s : State) (b : BootObs) (k k' : Nat) (v : Verified), s.sys.hstate = .boot → s.sys.inReset = false →
    s.boot.verified = false → s.boot.noImage = false → b.sfdpOk = true → (s.sys.oct = true → b.xspiOk = true) →
    0x800000 ≤ b.density → slotOrder s b = [k, k'] →
    (bootVerify s b k = .good v →
      ∃ t, exec (.bootSequence b) s = .next t ∧ t.boot.verified = true ∧ t.boot.slot = k ∧ t.boot.noImage = false ∧
        t.boot.seq = v.header.seq ∧ t.boot.recLoaded = true ∧ t.boot.fallback = s.boot.fallback ∧ t.cfg = v.load.st.cfg ∧
        t.host.net = v.load.net ∧ t.sys.hstate = .boot ∧ t.sys.round = s.sys.round ∧ t.boot.fuseCells = s.boot.fuseCells) ∧
    (∀ c r, bootVerify s b k = .bad c r → bootVerify s b k' = .good v →
      ∃ t, exec (.bootSequence b) s = .next t ∧ t.boot.verified = true ∧ t.boot.slot = k' ∧ t.boot.fallback = true ∧
        t.cfg = v.load.st.cfg ∧ t.sys.hstate = .boot) ∧
    (∀ c r c' r', bootVerify s b k = .bad c r → bootVerify s b k' = .bad c' r' →
      ∃ t, exec (.bootSequence b) s = .next t ∧ t.boot.noImage = true ∧ t.boot.slot = 3 ∧ t.boot.verified = false ∧
        t = { s with boot := t.boot })) ∧
  (∀ (s : State) (b : BootObs), s.sys.hstate = .boot → s.sys.inReset = false → s.boot.verified = false →
    s.boot.noImage = false → b.sfdpOk = false →
    exec (.bootSequence b) s = .next { s with boot := { s.boot with
      density := b.density, failA := 10, failB := 10, noImage := true, slot := 3, inact := 3 } }) ∧
  (∀ (s : State), s.sys.hstate = .boot → s.sys.inReset = false → s.boot.verified = true → s.boot.recLoaded = true →
    s.sag.st ≠ 0 →
    ∃ t, exec .bootComplete s = .next t ∧ t.sys.hstate = .listen ∧ t.sys.listenTimer = (if isAlt s then 88 else 64) ∧
      t.sys.wdLeft = (if Cfg.WDCFG_TIME s = 0 then none else some (Cfg.WDCFG_TIME s)) ∧
      (tget {} t.lad.cores 4).st = 1 ∧ (tget {} t.lad.cores 4).pc = Cfg.LDCENTRY s ∧ (tget {} t.lad.cores 4).shadow = false ∧
      (∀ c, c < 4 → (tget {} t.lad.cores c).st = (if clusterOn s c then 0 else 3)) ∧ State.raised evHeadState t ∧
      (s.boot.fallback = true → State.raised evImageFallback t) ∧
      (Cfg.CSCFG_EN s = true → masterPair s = false → t.casc.st = 1) ∧
      t.mem = s.mem ∧ t.cfg = s.cfg ∧ t.axes = s.axes ∧ t.boot.flash = s.boot.flash ∧ t.sys.round = s.sys.round)

/-- R376, R377: an image command that is not refused sets BUSY and becomes the job of the inactive slot; a REBOOT with every
axis off and no deferral asks for the reset at the next T0; a refused one gives its code and the event and nothing else.
R376, R377: when the job of an image command completes, ERASE leaves the whole slot erased and IMGFILL 0, INVALIDATE the
first 4 KB of it, PROGRAM the staged words at IMGFILL behind the held header, VERIFY of a good newer image the held header
in the slot; a flash error gives code 7; each raises the event, and no byte outside the slot changes. -/
def Obligations.ImageCommandsAndJobs : Prop :=
  (∀ (s : State) (m : Master) (slot n : Nat), State.reaches m aIMGCMD s →
    (∀ c k ws, (c = .erase m slot ∧ k = 1 ∧ ws = [] ∨ c = .program m slot n ∧ k = 2 ∧ ws = (stagedWords s m).take n ∨
        c = .verify m slot ∧ k = 3 ∧ ws = [] ∨ c = .invalidate m slot ∧ k = 4 ∧ ws = []) →
      (imgRefusal s k slot (if k = 2 then n else 0) = 0 →
        exec c s = .next { s with boot := { s.boot with
          lastCmd := k, busy := true, job := some (k, if s.boot.noImage then slot else s.boot.inact, ws) } }) ∧
      (imgRefusal s k slot (if k = 2 then n else 0) ≠ 0 →
        ∃ t, exec c s = .next t ∧
          t.boot = { s.boot with lastCmd := k, result := imgRefusal s k slot (if k = 2 then n else 0) } ∧
          State.raised evImageCommand t ∧ State.onlyEvents { s with boot := t.boot } t)) ∧
    (imgRefusal s 5 0 0 = 0 → deferring s = false →
      ∃ t, exec (.reboot m) s = .next t ∧ t.sys.rebootReq = true ∧ t.boot = { s.boot with lastCmd := 5, result := 1 } ∧
        State.raised evImageCommand t ∧
        State.onlyEvents { s with boot := t.boot, sys := { s.sys with rebootReq := true } } t)) ∧
  (∀ (s : State), s.boot.busy = false → (imgRefusal s 5 0 0 = 0 ↔ (allOff s = true ∨ s.sys.hstate = .boot))) ∧
  (∀ (s : State) (k : Nat) (ws : List Word) (ret : List (Nat × Nat × Nat × Nat)), deferring s = false → k < 2 →
    (s.boot.job = some (1, k, ws) →
      ∃ t, exec (.imageCommandDone ⟨true, ret⟩) s = .next t ∧ t.boot.busy = false ∧ t.boot.job = none ∧ t.boot.result = 1 ∧
        t.boot.fill = 0 ∧ t.boot.header = [] ∧
        (∀ x, mget 0xFF t.boot.flash x = if k * 0x200000 ≤ x ∧ x < (k + 1) * 0x200000 then 0xFF else mget 0xFF s.boot.flash x) ∧
        State.raised evImageCommand t ∧ State.onlyEvents { s with boot := t.boot } t) ∧
    (s.boot.job = some (4, k, ws) →
      ∃ t, exec (.imageCommandDone ⟨true, ret⟩) s = .next t ∧ t.boot.busy = false ∧ t.boot.job = none ∧ t.boot.result = 1 ∧
        (∀ x, mget 0xFF t.boot.flash x = if k * 0x200000 ≤ x ∧ x < k * 0x200000 + 0x1000 then 0xFF
          else mget 0xFF s.boot.flash x) ∧
        State.raised evImageCommand t ∧ State.onlyEvents { s with boot := t.boot } t) ∧
    (s.boot.job = some (2, k, ws) → 64 ≤ s.boot.fill →
      ∃ t, exec (.imageCommandDone ⟨true, ret⟩) s = .next t ∧ t.boot.busy = false ∧ t.boot.job = none ∧ t.boot.result = 1 ∧
        t.boot.fill = s.boot.fill + 4 * ws.length ∧ t.boot.header = s.boot.header ∧
        (∀ i, i < 4 * ws.length →
          mget 0xFF t.boot.flash (k * 0x200000 + s.boot.fill + i) = (wordBytes ws).getD i 0) ∧
        (∀ x, x < k * 0x200000 + s.boot.fill ∨ k * 0x200000 + s.boot.fill + 4 * ws.length ≤ x →
          mget 0xFF t.boot.flash x = mget 0xFF s.boot.flash x) ∧
        State.raised evImageCommand t ∧ State.onlyEvents { s with boot := t.boot } t) ∧
    (∀ v, s.boot.job = some (3, k, ws) → verifySlot (loadBase s (retParams ret)) (heldByte s k) s.boot.density false = .good v →
      (s.boot.noImage = true ∨ later v.header.seq s.boot.seq = true) →
      ∃ t, exec (.imageCommandDone ⟨true, ret⟩) s = .next t ∧ t.boot.busy = false ∧ t.boot.result = 1 ∧
        (∀ x, mget 0xFF t.boot.flash x = if k * 0x200000 ≤ x ∧ x < k * 0x200000 + 64 then heldByte s k (x - k * 0x200000)
          else mget 0xFF s.boot.flash x) ∧
        State.raised evImageCommand t ∧ State.onlyEvents { s with boot := t.boot } t)) ∧
  (∀ (s : State) (j : Nat × Nat × List Word) (ret : List (Nat × Nat × Nat × Nat)), deferring s = false → s.boot.job = some j →
    ∃ t, exec (.imageCommandDone ⟨false, ret⟩) s = .next t ∧ t.boot = { s.boot with busy := false, job := none, result := 7 } ∧
      State.raised evImageCommand t ∧ State.onlyEvents { s with boot := t.boot } t)

/-- R378 to R380: FPCMD GO without a ground for refusal begins the programming of the selected field, and with one gives its
code; when it completes with a good read-back a field of word 10H or 14H holds its old bits and the new ones and KEYHASH the value of FPDATA, its LOCK bit
is set, no other fuse word has changed, and RESULT is OK. -/
def Obligations.FuseProgramming : Prop :=
  (∀ (s : State) (m : Master) (w : Word) (vpp : Bool), State.reaches m aFPCMD s → bits w 31 16 = Config.key → bit w 0 = true →
    s.boot.fpBusy = false →
    (fuseRefusal { s with boot := { s.boot with vpp := vpp } } = 0 →
      exec (.fpcmdGo m w vpp) s = .next { s with boot := { s.boot with
        vpp := vpp, fpBusy := true, fpField := s.boot.fpSel.toNat } }) ∧
    (fuseRefusal { s with boot := { s.boot with vpp := vpp } } ≠ 0 →
      exec (.fpcmdGo m w vpp) s = .next { s with boot := { s.boot with
        vpp := vpp, fpResult := fuseRefusal { s with boot := { s.boot with vpp := vpp } } } })) ∧
  (∀ (s : State), fuseRefusal s = 0 → s.boot.vpp = true ∧ allOff s = true ∧ sealOpen s = true ∧
    bit (fuseCell s 0x18) s.boot.fpSel.toNat = false) ∧
  (∀ (s : State), s.boot.fpBusy = true → s.boot.fpField < 6 →
    ∃ t, exec (.fuseProgramDone true) s = .next t ∧ t.boot.fpBusy = false ∧ t.boot.fpResult = 1 ∧
      fuseCell t (fuseField s.boot.fpField).1 = fuseCell s (fuseField s.boot.fpField).1 |||
        BitVec.ofNat 32 (fuseValue s s.boot.fpField * 2 ^ (fuseField s.boot.fpField).2.1) ∧
      fuseCell t 0x18 = fuseCell s 0x18 ||| BitVec.ofNat 32 (2 ^ s.boot.fpField) ∧
      (∀ o, o ≠ 0x18 → o ≠ (fuseField s.boot.fpField).1 → fuseCell t o = fuseCell s o) ∧
      t.boot.fuses = s.boot.fuses ∧ t = { s with boot := t.boot }) ∧
  (∀ (s : State), s.boot.fpBusy = true → s.boot.fpField = 6 →
    ∃ t, exec (.fuseProgramDone true) s = .next t ∧ t.boot.fpBusy = false ∧ t.boot.fpResult = 1 ∧
      (∀ i, i < 8 → fuseCell t (0x20 + 4 * i) = tget 0#32 s.boot.fpData i) ∧
      fuseCell t 0x18 = fuseCell s 0x18 ||| BitVec.ofNat 32 (2 ^ 6) ∧
      (∀ o, o ≠ 0x18 → (o < 0x20 ∨ 0x40 ≤ o) → fuseCell t o = fuseCell s o) ∧ t = { s with boot := t.boot })

/-! ### Power, supply and resets (R407 to R421) -/

/-- R412: PWRCMD with DEEP in PARK asks for DEEP PARK at the next T0, unless a flash or fuse command runs or the head is not
in PARK: then the write is refused; in DEEP PARK a wake cause starts the wake, and in no other power state. The three rounds
until PARK are the model's reading (log 22).
R416, R417: the first warning of a dip starts it with its deferral and reports it, and the
recorder, once loaded, writes its stamp and asks for a save that waits; a second rail's warning only shows; when both
have cleared the dip is counted and logged, with a long one counted too, and the deferral lasts 100 ms more; at its end a
save that waited starts. -/
def Obligations.PowerAndSupply : Prop :=
  (∀ (s : State) (m : Master), State.reaches m aPWRCMD s →
    (s.sys.pwr = .park → driving s = true → s.boot.busy = false → s.boot.fpBusy = false →
      exec (.pwrcmdDeep m) s = .next { s with sys := { s.sys with deepReq := true } }) ∧
    (s.sys.pwr ≠ .park ∨ driving s = false ∨ s.boot.busy = true ∨ s.boot.fpBusy = true →
      ∃ t, exec (.pwrcmdDeep m) s = .next t ∧ State.onlyEvents s t ∧ State.raised evRefusedWrite t)) ∧
  (∀ (s : State) (k : Nat), 1 ≤ k → k ≤ 5 → (k = 3 → Cfg.PWRCFG_EVWAKE s = true) →
    (s.sys.pwr = .deep → s.sys.waking = none →
      exec (.wake k) s = .next { s with sys := { s.sys with waking := some 3, wcause := k } }) ∧
    (s.sys.pwr ≠ .deep ∨ s.sys.waking ≠ none → exec (.wake k) s = .next s)) ∧
  (∀ (s : State), Cfg.PWRCFG_EVWAKE s = false → exec (.wake 3) s = .next s) ∧
  (∀ (s : State) (mv : Nat), s.sys.inReset = false → s.sys.dip = false →
    (∃ t, exec (.supplyWarning .core mv) s = .next t ∧ t.sys.dip = true ∧ t.sys.defer = true ∧ t.sys.corWarn = true ∧
      t.sys.spCore = mv ∧ t.sys.aonWarn = s.sys.aonWarn ∧ State.raised evSupplyWarning t ∧
      (s.sys.pwr = .deep → t.sys.waking ≠ none) ∧ t.mem = s.mem ∧ t.cfg = s.cfg ∧ t.axes = s.axes ∧
      t.boot.fuseCells = s.boot.fuseCells ∧ (s.boot.recLoaded = false → t.boot = s.boot ∧ t.rcd = s.rcd) ∧
      (s.boot.recLoaded = true → t.rcd.deferred = true ∧ t.rcd.stampPos = (s.rcd.stampPos + 1) % 1024)) ∧
    (∃ t, exec (.supplyWarning .aon mv) s = .next t ∧ t.sys.dip = true ∧ t.sys.defer = true ∧ t.sys.aonWarn = true ∧
      t.sys.spAon = mv ∧ t.sys.corWarn = s.sys.corWarn ∧ State.raised evSupplyWarning t)) ∧
  (∀ (s : State) (mv : Nat), s.sys.inReset = false → s.sys.dip = true →
    exec (.supplyWarning .aon mv) s = .next { s with sys := { s.sys with aonWarn := true, spAon := mv } }) ∧
  (∀ (s : State) (core aon : DipObs), s.sys.dip = true →
    ∃ t, exec (.supplyWarningClear core aon) s = .next t ∧ t.sys.dip = false ∧ t.sys.corWarn = false ∧
      t.sys.aonWarn = false ∧ t.sys.defer = true ∧ t.sys.deferMs = 100 ∧ t.sys.dips = inc16 s.sys.dips ∧
      t.sys.long = (if (core.warned = true ∧ 1600 < core.ticks) ∨ (aon.warned = true ∧ 1600 < aon.ticks) then inc16 s.sys.long
        else s.sys.long) ∧
      t.sys.dipCMin = (if core.warned then min core.minMv 0xFFF else s.sys.dipCMin) ∧
      t.sys.dipCDur = (if core.warned then min core.ticks 0xFFFFF else s.sys.dipCDur) ∧
      State.raised evDipRecovered t ∧ State.onlyEvents { s with sys := t.sys } t) ∧
  (∀ (s : State), s.sys.defer = true → s.sys.dip = false → s.sys.deferMs = 0 →
    (s.rcd.deferred = false → exec .deferralEnd s = .next { s with sys := { s.sys with defer := false } }) ∧
    (s.rcd.deferred = true → s.rcd.saving = false →
      ∃ t, exec .deferralEnd s = .next t ∧ t.sys.defer = false ∧
        t.rcd = { s.rcd with deferred := false, saving := true, saveStart := s.rcd.sec, savePc := s.rcd.pc } ∧
        State.onlyEvents { s with sys := { s.sys with defer := false }, rcd := t.rcd } t))

/-- R409, R418 to R420: each reset condition takes every block to its reset values with its cause recorded, but the flash,
the fuses and the safety region; at the release the straps are sampled and BOOT begins; a keyed kick restarts the
watchdog, and its expiry resets the head. The causes that the reset counter counts and PREV are the register's (R421). -/
def Obligations.Resets : Prop :=
  (∀ (s : State) (c : Instr) (k : Nat),
    (c = .porst ∧ k = 1 ∨ c = .supplyReset ∧ k = 2 ∨ c = .refclkLoss ∧ k = 3 ∨ c = .pllLockLoss ∧ k = 4 ∨
      c = .watchdogExpiry ∧ k = 6 ∧ s.sys.wdLeft = some 0 ∨
      c = .roundStart ∧ k = 5 ∧ s.sys.rebootReq = true ∧ s.sys.inReset = false) →
    ∃ t, exec c s = .next t ∧ t.sys = { (State.reset).sys with
        inReset := true, rstCause := k, rstPrev := s.sys.rstCause, rstCount := if k = 1 then 0 else inc16 s.sys.rstCount } ∧
      t.boot.flash = s.boot.flash ∧ t.boot.fuseCells = s.boot.fuseCells ∧ t.boot.verified = false ∧ t.boot.busy = false ∧
      t.sag.stored = s.sag.stored ∧ t.sag.log = s.sag.log ∧ t.sag.st = 0 ∧ t.cfg = (State.reset).cfg ∧
      t.mem = (State.reset).mem ∧ t.ret = (State.reset).ret ∧ t.ev = (State.reset).ev ∧ t.host = (State.reset).host ∧
      t.axes = (State.reset).axes ∧ t.groups = (State.reset).groups ∧ t.link = (State.reset).link ∧
      t.twin = (State.reset).twin ∧ t.casc = (State.reset).casc ∧ t.lad = (State.reset).lad ∧ t.rcd = (State.reset).rcd ∧
      t.pending = s.pending) ∧
  (∀ (s : State) (pref casc oct : Bool), s.sys.inReset = true →
    exec (.resetRelease pref casc oct) s = .next { s with
      sys := { s.sys with inReset := false, pref := pref, casc := casc, oct := oct }
      boot := { s.boot with fuses := s.boot.fuseCells } }) ∧
  (∀ (s : State), s.sys.inReset = true → exec .roundStart s = .next s) ∧
  (∀ (s : State) (m : Master) (w : Word) (t : Nat), State.reaches m aWDKICK s → bits w 31 16 = Config.key → bit w 0 = true →
    s.sys.wdLeft = some t →
    exec (.wdkick m w) s = .next { s with sys := { s.sys with wdLeft := some (Cfg.WDCFG_TIME s) } }) ∧
  (∀ (s : State) (m : Master) (w : Word), State.reaches m aWDKICK s → bits w 31 16 ≠ Config.key →
    ∃ t, exec (.wdkick m w) s = .next t ∧ State.onlyEvents s t ∧ State.raised evRefusedWrite t) ∧
  (∀ (s : State), s.sys.wdLeft ≠ some 0 → exec .watchdogExpiry s = .next s)

/-! ### Rounds and the whole machine -/

/-- R42: with a round counter that runs, ROUND_START outside BOOT, reset and a commanded restart takes the counter to the
next round, whatever else becomes due at T0; it leaves the queue of commands and every programmed fuse bit, and it touches
no reset cause and no strap. In BOOT the counter stands still. -/
def Obligations.RoundCounts : Prop :=
  (∀ (s : State), s.sys.inReset = false → s.sys.rebootReq = false → s.sys.hstate ≠ .boot → s.sys.roundRan = true →
    ∃ t, exec .roundStart s = .next t ∧ t.sys.round = s.sys.round + 1 ∧ t.sys.roundRan = true ∧ t.pending = s.pending ∧
      t.sys.inReset = false ∧ t.sys.rstCause = s.sys.rstCause ∧ t.sys.pref = s.sys.pref ∧ t.sys.casc = s.sys.casc) ∧
  (∀ (s : State), s.sys.inReset = false → s.sys.rebootReq = false → s.sys.hstate = .boot →
    ∃ t, exec .roundStart s = .next t ∧ t.sys.round = s.sys.round ∧ t.sys.hstate = .boot ∧ t.mem = s.mem ∧ t.cfg = s.cfg)

/-- R40, R42, R236, R263, R267, R276, R284, R415, R419: of all commands only the start of a round, the end of the listen
timer, a MARK, a CMARK, the expiry of the lease, the handback round and the resets with their release change the round
counter, the epochs, the record of resets or the straps: every other command leaves them all as they were. -/
def Obligations.RoundCounterKept : Prop :=
  ∀ (c : Instr) (s : State),
    match c with
    | .roundStart | .listenTimerExpiry | .markAccepted _ | .cmarkReceived _ | .leaseExpiry | .handbackRound
    | .resetRelease _ _ _ | .porst | .supplyReset | .refclkLoss | .pllLockLoss | .watchdogExpiry => True
    | _ => ∃ t, exec c s = .next t ∧ t.sys.round = s.sys.round ∧ t.sys.roundRan = s.sys.roundRan ∧
        t.sys.epoch = s.sys.epoch ∧ t.sys.lastEpoch = s.sys.lastEpoch ∧ t.sys.inReset = s.sys.inReset ∧
        t.sys.pref = s.sys.pref ∧ t.sys.casc = s.sys.casc ∧ t.sys.oct = s.sys.oct ∧ t.sys.rstCause = s.sys.rstCause ∧
        t.sys.rstPrev = s.sys.rstPrev ∧ t.sys.rstCount = s.sys.rstCount

/-- A step with command c at the front of the queue is exec of c on the state with the queue's rest. -/
def Obligations.StepRunsFront : Prop :=
  ∀ (s : State) (c : Instr) (rest : List Instr), s.pending = c :: rest → step s = exec c { s with pending := rest }

/-- Every command completes: on every state exec answers a next state for it, so no step faults or is refused, and a step
takes exactly the front command from the queue: commands act first in, first out, and none adds to the queue. -/
def Obligations.StepTakesFront : Prop :=
  (∀ (c : Instr) (s : State), ∃ t, exec c s = .next t ∧ t.pending = s.pending) ∧
  (∀ s : State, State.safeStep s) ∧
  (∀ s t : State, step s = .next t → t.pending = s.pending.tail)

/-- The canonical form of both memories (R27, R364; the model's form of MEMORY): SRAM lists addresses in rising order and no
zero byte, the flash no erased byte; every step keeps it. -/
def Obligations.MemoriesCanonical : Prop :=
  ∀ s t : State, Memory.wf 0 s.mem = true → Memory.wf 0xFF s.boot.flash = true → step s = .next t →
    Memory.wf 0 t.mem = true ∧ Memory.wf 0xFF t.boot.flash = true

/-- R378, R380: no step clears a programmed bit of the user fuse words 10H and 14H or of LOCK: neither a command nor a
reset. -/
def Obligations.FusesPermanent : Prop :=
  ∀ s t : State, step s = .next t → ∀ k, k < 0x20 → ∀ i, (fuseCell s k).getLsbD i = true → (fuseCell t k).getLsbD i = true

/-- R26, R40, R419: the machine right after reset is in BOOT with no command waiting, its memories in canonical form and
nothing listed, the reset cause power-up, every flag of the event block clear, and its axes, being at their reset values, in
OFF with no position. -/
def Obligations.ResetState : Prop :=
  (State.reset).pending = [] ∧ (State.reset).sys.hstate = .boot ∧ (State.reset).sys.rstCause = 1 ∧
  Memory.wf 0 (State.reset).mem = true ∧ Memory.wf 0xFF (State.reset).boot.flash = true ∧ (State.reset).mem = [] ∧
  (∀ e, ¬ State.raised e State.reset) ∧ (∀ a, axSt State.reset a = .off) ∧
  (∀ a, (getAx State.reset a).fb.posRel = false) ∧ (∀ g, (getGr State.reset g).fcode = 0) ∧
  (∀ cls i, (getRet State.reset cls i).st = .inUse)

/-! ### Ladle cores (R337 to R362) -/

/-- R337, R341, R348: what each integer instruction leaves in its register and in the flags, in the register set in use; no
other register, flag, core or byte of memory changes. SHF keeps C and V, as AND, OR and XOR do; MUL, MOV, MOVL and MOVH
change no flag (MUL: log 15), CMP no register, NOP nothing. -/
def Obligations.LadleInteger : Prop :=
  ∀ (s : State) (c d a b : Nat) (i : BitVec 18) (u : BitVec 16) (m : ShAmt), State.coreRuns c s →
    ∀ k, k = getCore s c → ∀ n, n = (match m with | .imm q => q % 32 | .reg r => (rd k r).toNat % 32) →
    (∀ cmd x y r, (cmd = .add c d a b ∧ x = rd k a ∧ y = rd k b ∧ r = x + y ∨
        cmd = .addi c d a i ∧ x = rd k a ∧ y = i.signExtend 32 ∧ r = x + y) →
      ∃ t f, exec cmd s = .next t ∧ State.held c k.shadow (.d d) t = r.toNat ∧ State.held c k.shadow .flags t = f ∧
        f.testBit 3 = decide (r.toInt < 0) ∧ f.testBit 2 = decide (r = 0#32) ∧
        f.testBit 1 = decide (2 ^ 32 ≤ x.toNat + y.toNat) ∧ f.testBit 0 = decide (x.toInt + y.toInt ≠ r.toInt) ∧
        State.onlyCore c [.d d, .flags] s t) ∧
    (∀ cmd rs, (cmd = .sub c d a b ∧ rs = [.d d, .flags] ∨ cmd = .cmp c a b ∧ rs = [.flags]) →
      ∃ t f, exec cmd s = .next t ∧ (cmd = .sub c d a b → State.held c k.shadow (.d d) t = (rd k a - rd k b).toNat) ∧
        State.held c k.shadow .flags t = f ∧ f.testBit 3 = decide ((rd k a - rd k b).toInt < 0) ∧
        f.testBit 2 = decide (rd k a = rd k b) ∧ f.testBit 1 = decide ((rd k b).toNat ≤ (rd k a).toNat) ∧
        f.testBit 0 = decide ((rd k a).toInt - (rd k b).toInt ≠ (rd k a - rd k b).toInt) ∧ State.onlyCore c rs s t) ∧
    (∀ cmd r, (cmd = .and c d a b ∧ r = rd k a &&& rd k b ∨ cmd = .or c d a b ∧ r = rd k a ||| rd k b ∨
        cmd = .xor c d a b ∧ r = rd k a ^^^ rd k b ∨ cmd = .shl c d a m ∧ r = rd k a <<< n ∨
        cmd = .shr c d a m ∧ r = rd k a >>> n ∨ cmd = .sar c d a m ∧ r = (rd k a).sshiftRight n ∨
        cmd = .ror c d a m ∧ r = (rd k a).rotateRight n) →
      ∃ t f, exec cmd s = .next t ∧ State.held c k.shadow (.d d) t = r.toNat ∧ State.held c k.shadow .flags t = f ∧
        f.testBit 3 = decide (r.toInt < 0) ∧ f.testBit 2 = decide (r = 0#32) ∧
        f.testBit 1 = (State.held c k.shadow .flags s).testBit 1 ∧ f.testBit 0 = (State.held c k.shadow .flags s).testBit 0 ∧
        State.onlyCore c [.d d, .flags] s t) ∧
    (∀ cmd r, (cmd = .mul c d a b ∧ r = rd k a * rd k b ∨ cmd = .mov c d a ∧ r = rd k a ∨
        cmd = .movl c d u ∧ r = u.setWidth 32 ∨
        cmd = .movh c d u ∧ r = (u.setWidth 32 <<< 16) ||| (rd k d &&& 0xFFFF#32)) →
      ∃ t, exec cmd s = .next t ∧ State.held c k.shadow (.d d) t = r.toNat ∧ State.onlyCore c [.d d] s t) ∧
    ∃ t, exec (.nop c) s = .next t ∧ State.onlyCore c [] s t

/-- R337, R341, R348: FP32 instructions flush subnormal operands and results, round once, and make every NaN result
0x7FC00000; a conversion to an integer or to Q31 gives 0 for a NaN; FCMP sets one of less, equal, greater and unordered, and
no other FP instruction changes a flag. Which operand FMIN and FMAX give for a NaN or for zeros of both signs the spec leaves
open (log 1): the statement holds for numbers that differ. -/
def Obligations.LadleFp : Prop :=
  ∀ (s : State) (c d a b : Nat), State.coreRuns c s → ∀ k, k = getCore s c → ∀ x y z, x = ftz (rd k a) → y = ftz (rd k b) →
    z = ftz (BitVec.ofNat 32 (seen k .addend (.d d))) →
    (∀ cmd r, (cmd = .fadd c d a b ∧ r = fAdd x y ∨ cmd = .fsub c d a b ∧ r = fSub x y ∨ cmd = .fmul c d a b ∧ r = fMul x y ∨
        cmd = .fma c d a b ∧ r = fFma z x y ∨ cmd = .fms c d a b ∧ r = fFma z (fNeg x) y ∨
        cmd = .fabs c d a ∧ r = fAbs x ∨ cmd = .fneg c d a ∧ r = fNeg x ∨ cmd = .frcp c d a ∧ r = fDiv fOne x) →
      ∃ t, exec cmd s = .next t ∧
        State.held c k.shadow (.d d) t = (if fIsNaN r then 0x7FC00000#32 else ftz r).toNat ∧ State.onlyCore c [.d d] s t) ∧
    (∀ cmd m, (cmd = .fmin c d a b ∧ m = fLt x y ∨ cmd = .fmax c d a b ∧ m = !fLt x y) →
      ∃ t, exec cmd s = .next t ∧ State.onlyCore c [.d d] s t ∧
        (fIsNaN x = false → fIsNaN y = false → fEq x y = false →
          State.held c k.shadow (.d d) t = (if m then x else y).toNat)) ∧
    (∃ t f, exec (.fcmp c a b) s = .next t ∧ State.held c k.shadow .flags t = f ∧ f.testBit 3 = fLt x y ∧
      f.testBit 2 = fEq x y ∧ f.testBit 1 = fLt y x ∧ f.testBit 0 = (fIsNaN x || fIsNaN y) ∧
      State.onlyCore c [.flags] s t) ∧
    (∀ cmd r, (cmd = .integerToFp c d a ∧ r = fOfInt (rd k a).toInt ∨
        cmd = .q31ToFp c d a ∧ r = fOfDyadic false (rd k a).toInt (-31) ∨
        cmd = .fpToInteger c d a ∧ r = fToIntSat 0 x ∨ cmd = .fpToQ31 c d a ∧ r = fToIntSat 31 x) →
      ∃ t, exec cmd s = .next t ∧ State.held c k.shadow (.d d) t = r.toNat ∧ State.onlyCore c [.d d] s t) ∧
    (fIsNaN x = true → fToIntSat 0 x = 0#32 ∧ fToIntSat 31 x = 0#32)

/-- R341, R348: MAC adds or subtracts the 32 × 32 product, doubled for fractional, to or from its accumulator or zero, wrapping
at 72 bits; RDA divides by 2^sh, rounds half up and saturates for sh up to 40 (above, the value is free, log 1); MVA, CLR and
RDG load, clear and read the guard bits. Each changes the register it names and nothing else. -/
def Obligations.LadleAccumulators : Prop :=
  ∀ (s : State) (c d e a b sh : Nat) (md : MacMode), State.coreRuns c s → ∀ k, k = getCore s c →
    ∀ v : BitVec 72, v = BitVec.ofNat 72 (seen k .accum (.acc e)) → ∀ w : BitVec 72, w = BitVec.ofNat 72 (seen k .accRead (.acc e)) →
    (∃ t, exec (.mac c e a b md) s = .next t ∧ State.onlyCore c [.acc e] s t ∧
      ∀ p : Int, p = (if md.uns then ((rd k a).toNat : Int) * (rd k b).toNat else (rd k a).toInt * (rd k b).toInt) *
          (if md.frac then 2 else 1) →
        State.held c k.shadow (.acc e) t =
          (BitVec.ofInt 72 ((if md.repl then 0 else v.toInt) + (if md.sub then -p else p))).toNat) ∧
    (∃ t, exec (.rda c d e sh) s = .next t ∧ State.onlyCore c [.d d] s t ∧ t.free = s.free + 1 ∧
      (sh ≤ 40 → ∀ q : Int, q = (2 * w.toInt + 2 ^ sh).fdiv (2 * 2 ^ sh) →
        State.held c k.shadow (.d d) t = (BitVec.ofInt 32 (max (-(2 ^ 31)) (min (2 ^ 31 - 1) q))).toNat)) ∧
    (∃ t, exec (.mva c e a sh) s = .next t ∧ State.onlyCore c [.acc e] s t ∧
      State.held c k.shadow (.acc e) t = (BitVec.ofInt 72 ((rd k a).toInt * 2 ^ sh)).toNat) ∧
    (∃ t, exec (.clr c e) s = .next t ∧ State.onlyCore c [.acc e] s t ∧ State.held c k.shadow (.acc e) t = 0) ∧
    (∃ t, exec (.rdg c d e) s = .next t ∧ State.onlyCore c [.d d] s t ∧
      State.held c k.shadow (.d d) t = (BitVec.ofInt 32 (w.toInt / 2 ^ 64)).toNat)

/-- R340, R347, R348, R349: PMV, PADD, MSET and MLEN write the pointer, modifier or data register the table gives; LD and LDP
of a sound, aligned SRAM address by a wide core, and LD of local memory by the compact one, load its little-endian bytes, and
ST into the LADLE partition by a wide core, or into local memory by the compact one, stores the bytes of rd there and nowhere
else, in both modes; post-modify moves the pointer by its modifier; a misaligned access halts the core with code 3. -/
def Obligations.LadlePointersAndMemory : Prop :=
  (∀ (s : State) (c d p q : Nat) (u : BitVec 16), State.coreRuns c s → ∀ k, k = getCore s c →
    ∀ cmd r (v : Word), (cmd = .pmvPFromD c p d ∧ r = .p p ∧ v = rd k d ∨ cmd = .pmvDFromP c d p ∧ r = .d d ∧ v = rp k p ∨
        cmd = .pmvMFromD c p d ∧ r = .m p ∧ v = rd k d ∨ cmd = .pmvDFromM c d p ∧ r = .d d ∧ v = rm k p ∨
        cmd = .padd c p q u ∧ r = .p p ∧ v = rp k q + u.signExtend 32 ∨ cmd = .mset c p u ∧ r = .m p ∧ v = u.setWidth 32 ∨
        cmd = .mlen c p u ∧ r = .m p ∧ v = (u.setWidth 32 <<< 16) ||| (rm k p &&& 0xFFFF#32)) →
      ∃ t, exec cmd s = .next t ∧ State.held c k.shadow r t = v.toNat ∧ State.onlyCore c [r] s t) ∧
  (∀ (s : State) (c d p : Nat) (md : MemMode) (w : MemWidth), State.coreRuns c s → ∀ k, k = getCore s c →
    offsetOk md w = true → ∀ a, a = (memAddr k p md).toNat → a % widthBytes w = 0 →
    (a < 0x400000 ∧ c < 4 ∨ inLocal a = true ∧ c = 4) →
    ∀ rs, rs = (if md = .postModify then [Res.p p] else []) →
    (s.hardErr = [] → s.softErr = [] →
      ∃ t, exec (.ld c d p md w) s = .next t ∧ State.onlyCore c (.d d :: rs) s t ∧
        State.held c k.shadow (.d d) t = (extend w (leNat (mread 0 s.mem a (widthBytes w)) 0 (widthBytes w))).toNat ∧
        (md = .postModify → State.held c k.shadow (.p p) t = (postModify (rp k p) (rm k p)).toNat)) ∧
    (w ≠ .uhalf → (c < 4 → inPart s ptLADLE a = true) → Memory.wf 0 s.mem = true →
      ∃ t, exec (.st c d p md w) s = .next t ∧ State.onlyCore c rs { s with mem := t.mem } t ∧
        (md = .postModify → State.held c k.shadow (.p p) t = (postModify (rp k p) (rm k p)).toNat) ∧
        (∀ i, i < widthBytes w → mget 0 t.mem (a + i) = (leBytes (widthBytes w) (rd k d).toNat).getD i 0) ∧
        ∀ x, x < a ∨ a + widthBytes w ≤ x → mget 0 t.mem x = mget 0 s.mem x)) ∧
  (∀ (s : State) (c p q : Nat) (u : BitVec 16), State.coreRuns c s → c < 4 → ∀ k, k = getCore s c →
    ∀ a, a = (rp k q + u.signExtend 32).toNat → a < 0x400000 → a % 4 = 0 → s.hardErr = [] → s.softErr = [] →
      ∃ t, exec (.ldp c p q u) s = .next t ∧ State.onlyCore c [.p p] s t ∧
        State.held c k.shadow (.p p) t = leNat (mread 0 s.mem a 4) 0 4) ∧
  (∀ (s : State) (d p : Nat) (cmd : Instr), State.coreRuns 4 s → ∀ k, k = getCore s 4 → inLocal (rp k p).toNat = true →
    (rp k p).toNat % 4 ≠ 0 → (cmd = .ld 4 d p (.offset 0#15) .word ∨ cmd = .st 4 d p (.offset 0#15) .word) →
      ∃ t, exec cmd s = .next t ∧ (getCore t 4).st = 2 ∧ (getCore t 4).hcause = 3 ∧ (getCore t 4).faddr = rp k p ∧
        (getCore t 4).fpc = k.pc ∧ t.mem = s.mem ∧ State.raised evLadleFault t) ∧
  (∀ p m : Word, bits m 31 16 = 0 → postModify p m = p + (m.setWidth 16).signExtend 32) ∧
  (∀ (p m : Word) (b : Nat) (x y z : Int), 0 < bits m 31 16 → bits m 31 16 ≤ 2 ^ b → (∀ e, e < b → 2 ^ e < bits m 31 16) →
    x = (p.toNat : Int) - p.toNat / 2 ^ b * 2 ^ b + (m.setWidth 16).toInt → y = (if (bits m 31 16 : Int) ≤ x then x - bits m 31 16 else x) →
    z = (if y < 0 then y + bits m 31 16 else y) →
    postModify p m = BitVec.ofInt 32 (((p.toNat / 2 ^ b * 2 ^ b : Nat) : Int) + z))

/-- R347, R348: FMAD and MACD compute as FMA and a fractional signed MAC, LD2 nothing, and each enabled load takes the word
that its pointer names before the instruction and moves that pointer by its modifier; with none enabled there is the
computation alone. So each of FMAD, MACD and LD2 completes, on a wide core with loads from SRAM and on the compact one with
loads from its local memory. Which writer of one register stands the spec does not say (log 1): a data register that two of
them write is only known to be one of those that change. A misaligned load halts the core with code 3. -/
def Obligations.LadleDual : Prop :=
  (∀ (s : State) (c d e a b : Nat) (o q : Option DualLoad), State.coreRuns c s → s.hardErr = [] → s.softErr = [] →
    ∀ k, k = getCore s c →
    (∀ x, o = some x ∨ q = some x → (rp k x.p).toNat % 4 = 0 ∧
      ((rp k x.p).toNat < 0x400000 ∧ c < 4 ∨ inLocal (rp k x.p).toNat = true ∧ c = 4)) →
    ∀ rs, rs = ([o, q].filterMap id).flatMap (fun x => [Res.d x.d, .p x.p]) →
    ∀ cmd r, (cmd = .fmad c d a b o q ∧ r = [.d d] ∨ cmd = .macd c e a b o q ∧ r = [.acc e] ∨ cmd = .ld2 c o q ∧ r = []) →
      ∃ t, exec cmd s = .next t ∧ State.onlyCore c (r ++ rs) s t ∧
        (∀ x, o = some x ∨ q = some x → State.held c k.shadow (.p x.p) t = (postModify (rp k x.p) (rm k x.p)).toNat) ∧
        (∀ x, (o = some x ∧ (∀ y, q = some y → y.d ≠ x.d) ∨ q = some x ∧ (∀ y, o = some y → y.d ≠ x.d)) →
          (r = [.d d] → x.d ≠ d) →
          State.held c k.shadow (.d x.d) t = leNat (mread 0 s.mem (rp k x.p).toNat 4) 0 4) ∧
        (cmd = .fmad c d a b o q → (∀ x, o = some x ∨ q = some x → x.d ≠ d) → State.held c k.shadow (.d d) t =
          (fpMulAdd (BitVec.ofNat 32 (seen k .addend (.d d))) (rd k a) (rd k b)).toNat) ∧
        (cmd = .macd c e a b o q → State.held c k.shadow (.acc e) t =
          (BitVec.ofNat 72 (seen k .accum (.acc e)) + BitVec.ofInt 72 ((rd k a).toInt * (rd k b).toInt * 2)).toNat)) ∧
  (∀ (s : State) (d e a b : Nat) (x : DualLoad) (cmd : Instr), State.coreRuns 4 s → ∀ k, k = getCore s 4 →
    inLocal (rp k x.p).toNat = true → (rp k x.p).toNat % 4 ≠ 0 →
    (cmd = .fmad 4 d a b (some x) none ∨ cmd = .macd 4 e a b none (some x) ∨ cmd = .ld2 4 (some x) none) →
    ∃ t, exec cmd s = .next t ∧ (getCore t 4).st = 2 ∧ (getCore t 4).hcause = 3 ∧ (getCore t 4).faddr = rp k x.p ∧
      (getCore t 4).fpc = k.pc ∧ t.mem = s.mem ∧ State.raised evLadleFault t)

/-- R344, R345, R348: B, CALL and JR outside a delay slot and the end of a body leave two delay slots before their target, or
before the way straight on; an instruction in the second slot goes to the target; REP and REPR open a level over the
instructions after them, whose end closes it or goes back to its first instruction, and a count of 0 skips the body; BRK
clears the innermost count; a branch in a delay slot halts with code 8 and a fourth level with code 5.
R343: what an instruction wrote is seen from its distance on: an ADD by the next instruction, a MUL by the one after it,
while the next still sees the value before. -/
def Obligations.LadleFlowAndDistances : Prop :=
  (∀ (s : State) (c : Nat), State.coreRuns c s → ∀ k, k = getCore s c →
    (k.delay = none → (curSet k).reps = [] → ∃ t, exec (.nop c) s = .next t ∧ (getCore t c).pc = k.pc + 4#32) ∧
    (∀ x, k.delay = some (1, some x) → ∃ t, exec (.nop c) s = .next t ∧ (getCore t c).pc = x ∧ (getCore t c).delay = none) ∧
    (∀ x, k.delay = some (2, x) → (curSet k).reps = [] →
      ∃ t, exec (.nop c) s = .next t ∧ (getCore t c).pc = k.pc + 4#32 ∧ (getCore t c).delay = some (1, x)) ∧
    (∀ r l, k.delay = none → (curSet k).reps = r :: l → r.last = k.pc → 1 < r.count →
      ∃ t, exec (.nop c) s = .next t ∧ (getCore t c).pc = r.first ∧
        (curSet (getCore t c)).reps = { r with count := r.count - 1 } :: l) ∧
    (∀ r, k.delay = none → (curSet k).reps = [r] → r.last = k.pc → r.count ≤ 1 →
      ∃ t, exec (.nop c) s = .next t ∧ (getCore t c).pc = k.pc + 4#32 ∧ (curSet (getCore t c)).reps = [])) ∧
  (∀ (s : State) (c a : Nat) (cond : BrCond) (off : BitVec 22), State.coreRuns c s → ∀ k, k = getCore s c → k.delay = none →
    (curSet k).reps = [] → ∀ x : Word, x = k.pc + (off.signExtend 32 <<< 2) →
    (∃ t, exec (.b c cond off) s = .next t ∧ (getCore t c).pc = k.pc + 4#32 ∧ State.onlyCore c [] s t ∧
      (getCore t c).delay = some (2, if condHolds cond (seen k .cond .flags) then some x else none)) ∧
    (∃ t, exec (.call c off) s = .next t ∧ (getCore t c).pc = k.pc + 4#32 ∧ (getCore t c).delay = some (2, some x) ∧
      State.held c k.shadow (.d 15) t = (k.pc + 12#32).toNat ∧ State.onlyCore c [.d 15] s t) ∧
    (∃ t, exec (.jr c a) s = .next t ∧ (getCore t c).pc = k.pc + 4#32 ∧ State.onlyCore c [] s t ∧
      (getCore t c).delay = some (2, some (BitVec.ofNat 32 (seen k .target (.d a)))))) ∧
  (∀ (s : State) (c a n len : Nat), State.coreRuns c s → ∀ k, k = getCore s c → k.delay = none → (curSet k).reps = [] →
    1 ≤ len → len ≤ 1024 →
    (∀ cmd, (cmd = .rep c n len ∨ cmd = .repr c a len ∧ seen k .target (.d a) = n) → n < 65536 →
      ∃ t, exec cmd s = .next t ∧ State.onlyCore c [] s t ∧
        (n ≠ 0 → (getCore t c).pc = k.pc + 4#32 ∧
          (curSet (getCore t c)).reps = [{ first := k.pc + 4#32, last := k.pc + BitVec.ofNat 32 (4 * len), count := n }]) ∧
        (n = 0 → (getCore t c).pc = k.pc + BitVec.ofNat 32 (4 * len) + 4#32 ∧ (curSet (getCore t c)).reps = []))) ∧
  (∀ (s : State) (c : Nat) (r : Repeat) (l : List Repeat), State.coreRuns c s → ∀ k, k = getCore s c → k.delay = none →
    (curSet k).reps = r :: l → (∀ q ∈ r :: l, q.last ≠ k.pc) →
    ∃ t, exec (.brk c) s = .next t ∧ (curSet (getCore t c)).reps = { r with count := 0 } :: l ∧
      (getCore t c).pc = k.pc + 4#32 ∧ State.onlyCore c [] s t) ∧
  (∀ (s : State), State.coreRuns 4 s →
    ((getCore s 4).delay ≠ none → ∀ off, ∃ t, exec (.call 4 off) s = .next t ∧ (getCore t 4).st = 2 ∧
      (getCore t 4).hcause = 8 ∧ State.raised evLadleFault t) ∧
    ((curSet (getCore s 4)).reps.length = 3 → ∃ t, exec (.rep 4 1 1) s = .next t ∧ (getCore t 4).st = 2 ∧
      (getCore t 4).hcause = 5 ∧ State.raised evLadleFault t)) ∧
  (∀ (s : State) (c d a b : Nat), State.coreRuns c s → ∀ k, k = getCore s c → k.delay = none → (curSet k).reps = [] →
    (∀ p ∈ k.recent, p.res ≠ .d d) →
    (∃ t, exec (.add c d a b) s = .next t ∧ rd (getCore t c) d = rd k a + rd k b) ∧
    (∃ t, exec (.mul c d a b) s = .next t ∧ rd (getCore t c) d = rd k d) ∧
    (fetchOk s c (k.pc + 4#32) = true → (c < 4 → k.clocks + 1 < k.limit) →
      ∃ t, execAll [.mul c d a b, .nop c] s = .next t ∧ rd (getCore t c) d = rd k a * rd k b))

/-- R337, R338, R348, R352, R359: WAIT ends the slice of a wide core and puts the compact core to sleep; MRS reads the depth,
set, enable and flags, MSR, EI and DI write the flags and the enable; RDC reads the clock of a wide core; the compact core
takes an enabled pending interrupt in the shadow set at LDCVEC, and RTI leads back to where it came from. -/
def Obligations.LadleSystem : Prop :=
  (∀ (s : State), State.coreRuns 4 s → (getCore s 4).delay = none →
    ∃ t, exec (.wait 4) s = .next t ∧ (getCore t 4).waiting = true ∧ (getCore t 4).st = 1 ∧ State.oneCore 4 s t) ∧
  (∀ (s : State) (c a : Nat), c < 4 → State.coreRuns c s → (getCore s c).delay = none → (getCore s c).axis = some a →
    ∃ t, exec (.wait c) s = .next t ∧ (getCore t c).st = 0 ∧ (getCore t c).axis = none ∧ (getCore t c).shadow = false ∧
      (∀ e, e ≠ c → getCore t e = getCore s e) ∧ t = { s with lad := { s.lad with cores := t.lad.cores, slices := t.lad.slices } }) ∧
  (∀ (s : State) (c d a : Nat), State.coreRuns c s → ∀ k, k = getCore s c → k.rtiPend = false →
    (∃ t, exec (.mrs c d) s = .next t ∧ State.onlyCore c [.d d] s t ∧
      ((curSet k).reps.length ≤ 3 → State.held c k.shadow (.d d) t = (seen k .operand .flags) % 16 +
        16 * b2n (curSet k).ie + 32 * b2n k.shadow + 64 * (curSet k).reps.length)) ∧
    (∃ t, exec (.msr c a) s = .next t ∧ State.oneCore c s t ∧ State.coreKept [.flags] k (getCore t c) ∧
      State.held c k.shadow .flags t = (rd k a).toNat % 16 ∧ (curSet (getCore t c)).ie = bit (rd k a) 4) ∧
    (∃ t, exec (.ei c) s = .next t ∧ State.oneCore c s t ∧ State.coreKept [] k (getCore t c) ∧
      (curSet (getCore t c)).ie = true) ∧
    (∃ t, exec (.di c) s = .next t ∧ State.oneCore c s t ∧ State.coreKept [] k (getCore t c) ∧
      (curSet (getCore t c)).ie = false) ∧
    (∃ t, exec (.rdc c d) s = .next t ∧ State.onlyCore c [.d d] s t ∧
      (c < 4 → State.held c k.shadow (.d d) t = k.clocks % 2 ^ 32))) ∧
  (∀ (s : State) (k : Core), k = getCore s 4 → k.st = 1 → k.stalled = false → (curSet k).ie = true → k.delay = none →
    s.lad.ipend &&& Cfg.LDCIRQ_EN s ≠ 0 →
    ∃ t, exec .compactCoreInterrupt s = .next t ∧ (getCore t 4).pc = Cfg.LDCVEC s ∧ (getCore t 4).shadow = true ∧
      (getCore t 4).retPc = k.pc ∧ (getCore t 4).shad.ie = false ∧ (getCore t 4).waiting = false ∧
      (getCore t 4).prim = k.prim ∧ State.oneCore 4 s t) ∧
  (∀ (s : State) (k : Core), State.coreRuns 4 s → k = getCore s 4 → k.shadow = true → k.delay = none → k.shad.reps = [] →
    fetchOk s 4 (k.pc + 4#32) = true → fetchOk s 4 (k.pc + 8#32) = true →
    ∃ t, execAll [.rti 4, .nop 4, .nop 4] s = .next t ∧ (getCore t 4).pc = k.retPc ∧ (getCore t 4).shadow = false ∧
      (getCore t 4).prim.ie = true ∧ (getCore t 4).prim.d = k.prim.d)

/-- R360: any halt of the compact core raises the Ladle-fault event and no fault of an axis, and RESTART of core 4 by the host
starts it again at LDCENTRY with the primary set. -/
def Obligations.CompactCoreHalt : Prop :=
  (∀ (s : State) (cause : Nat) (x : Word), State.raised evLadleFault (haltCore 4 cause x s) ∧
    (getCore (haltCore 4 cause x s) 4).st = 2 ∧ (getCore (haltCore 4 cause x s) 4).hcause = cause ∧
    State.onlyEvents { s with lad := { s.lad with cores := (haltCore 4 cause x s).lad.cores } } (haltCore 4 cause x s)) ∧
  (∀ (s : State), (getCore s 4).st = 2 →
    ∃ t, exec (.restart .host 4) s = .next t ∧ (getCore t 4).st = 1 ∧ (getCore t 4).pc = Cfg.LDCENTRY s ∧
      (getCore t 4).shadow = false ∧ (getCore t 4).prim = (getCore s 4).prim ∧ State.oneCore 4 s t)

/-- R349, R353, R354, R359: STOP halts a core that runs or waits with code 6, and a halted one stays; RESTART takes a halted
compact core to LDCENTRY in the primary set and a halted wide core to IDLE with the cause of fault 0x09 over; a compact
core may not command itself; a write of LDMBOX raises its interrupt. -/
def Obligations.LadleControl : Prop :=
  (∀ (s : State) (m : Master), State.reaches m aLDCMD s → m ≠ .compact →
    ((getCore s 4).st < 2 → ∃ t, exec (.stop m 4) s = .next t ∧ (getCore t 4).st = 2 ∧ (getCore t 4).hcause = 6 ∧
      (getCore t 4).fpc = (getCore s 4).pc ∧ (getCore t 4).prim = (getCore s 4).prim ∧ State.raised evLadleFault t ∧
      (∀ e, e ≠ 4 → getCore t e = getCore s e) ∧
      State.onlyEvents { s with lad := { s.lad with cores := t.lad.cores } } t) ∧
    (∀ c, c ≤ 4 → 2 ≤ (getCore s c).st → exec (.stop m c) s = .next s) ∧
    (∀ c, c < 4 → (getCore s c).st < 2 → ∃ t, exec (.stop m c) s = .next t ∧ (getCore t c).st = 2 ∧ (getCore t c).hcause = 6 ∧
      (∀ a ∈ sliceAxes s c, (getAx t a).ctl.causes.testBit 9 = true) ∧ t.mem = s.mem) ∧
    ((getCore s 4).st = 2 → ∃ t, exec (.restart m 4) s = .next t ∧ (getCore t 4).st = 1 ∧ (getCore t 4).hcause = 0 ∧
      (getCore t 4).pc = Cfg.LDCENTRY s ∧ (getCore t 4).shadow = false ∧ State.oneCore 4 s t) ∧
    (∀ c, c < 4 → (getCore s c).st = 2 → ∃ t, exec (.restart m c) s = .next t ∧ (getCore t c).st = 0 ∧
      (getCore t c).hcause = 0 ∧ (∀ a ∈ sliceAxes s c, (getAx t a).ctl.causes.testBit 9 = false) ∧
      t = { s with axes := t.axes, lad := { s.lad with cores := t.lad.cores } })) ∧
  (∀ (s : State) (cmd : Instr), State.reaches .compact aLDCMD s → (cmd = .stop .compact 4 ∨ cmd = .restart .compact 4) →
    ∃ t, exec cmd s = .next t ∧ State.onlyEvents s t ∧ State.raised evRefusedWrite t) ∧
  (∀ (s : State) (m : Master) (v : Word), State.reaches m aLDMBOX s →
    exec (.ldmboxWrite m v) s = .next { s with lad := { s.lad with mbox := v, ipend := setBit s.lad.ipend 2 true } })

/-! ### Host port (R385 to R405) -/

/-- R390, R393 to R395: a good command frame on the pair address with credit, a new sequence number and no standby to share it
with is counted, takes a credit and waits for the next round; one whose sequence number is in the window gets the kept reply,
and one that a unit answers at once its status, for a credit each; without credit it gets BUSY; a tick brings a credit, up to
32, with which the counter starts; a bad frame is counted as dropped; a port that does not answer takes nothing. -/
def Obligations.CommandFrames : Prop :=
  (∀ (s : State) (snd : Sender) (l : List Byte), s.sys.pwr ≠ .deep →
    (portOpen s snd = false → exec (.commandFrame snd l) s = .next s) ∧
    (portOpen s snd = true → parseFrame l = none →
      exec (.commandFrame snd l) s = .next { s with host := { s.host with drop := inc16 s.host.drop } }) ∧
    (∀ seq op pl, portOpen s snd = true → parseFrame l = some (seq, op, pl) →
      (0 < s.host.credits → s.host.window.find? (fun r => r.seq = seq) = none →
        s.host.waiting.any (fun c => c.seq = seq && c.snd ≠ .core) = false → atOnce s snd op pl = 0 → pairRole s = true →
        onPair s snd = true → shadowPeer s = false →
        ∃ t, exec (.commandFrame snd l) s = .next t ∧ t.host.waiting = s.host.waiting ++
            [{ snd := snd, seq := seq, op := op, pl := pl, round := s.sys.round + 1, fwd := false, ok := true }] ∧
          t.host.credits = s.host.credits - 1 ∧ t.host.rxok = inc16 s.host.rxok ∧ t.twin.unprot = true ∧
          t = { s with host := t.host, twin := { s.twin with unprot := true } }) ∧
      (∀ r, 0 < s.host.credits → s.host.window.find? (fun r => r.seq = seq) = some r →
        ∃ t, exec (.commandFrame snd l) s = .next t ∧ t.host.waiting = s.host.waiting ∧ t.host.dup = inc16 s.host.dup ∧
          t.host.credits = s.host.credits - 1 ∧ t.host.window = s.host.window ∧ State.onlyPort s t) ∧
      (0 < s.host.credits → s.host.window.find? (fun r => r.seq = seq) = none →
        s.host.waiting.any (fun c => c.seq = seq && c.snd ≠ .core) = false → atOnce s snd op pl ≠ 0 →
        ∃ t, exec (.commandFrame snd l) s = .next t ∧ t.host.waiting = s.host.waiting ∧ t.host.window = s.host.window ∧
          t.host.credits = s.host.credits - 1 ∧ State.onlyPort s t) ∧
      (0 < s.host.credits → ∃ t, exec (.commandFrame snd l) s = .next t ∧ t.host.credits = s.host.credits - 1) ∧
      (s.host.credits = 0 →
        ∃ t, exec (.commandFrame snd l) s = .next t ∧
          t = raise evHostBusy (reply snd ⟨seq, op, stBUSY, []⟩
            { s with host := { s.host with rxok := inc16 s.host.rxok, busy := inc16 s.host.busy } }) ∧
          t.host.credits = 0 ∧ t.host.waiting = s.host.waiting ∧ t.host.busy = inc16 s.host.busy ∧
          t.host.window = s.host.window ∧ State.raised evHostBusy t ∧ t.cfg = s.cfg ∧ t.mem = s.mem ∧ t.axes = s.axes))) ∧
  (∀ (s : State), s.host.credits ≤ 32 →
    exec .creditTick s = .next { s with host := { s.host with credits := min 32 (s.host.credits + 1) } }) ∧
  (State.reset).host.credits = 32

/-- R386, R396, R397: an Ethernet frame that is too short or of another type is dropped and counted, an ARP request for an
address of the head is answered, and a datagram to its port is the command frame it carries; the SPI target hands a frame
it can take to the same checks, gives the oldest ready frame, or zeros, and shows what is ready. The two dummy bytes of
READ_FRAME are free (log 1).
R385, R401: LINK follows the PHY's link bit and reports a change (FDX is free while it is 1, log 1); the end of a pulse
clears its pin. -/
def Obligations.EthernetSpiAndPhy : Prop :=
  (∀ (s : State) (l : List Byte), s.sys.inReset = false → s.host.netOk = true → s.sys.pwr ≠ .deep →
    macMine s (beNat l 0 6) = true →
    (l.length < 14 ∨ beNat l 12 2 ≠ 0x0806 ∧ beNat l 12 2 ≠ 0x0800 →
      exec (.ethernetFrame l) s = .next { s with host := { s.host with drop := inc16 s.host.drop } }) ∧
    (∀ m, 42 ≤ l.length → beNat l 12 2 = 0x0806 → beNat l 14 2 = 1 → beNat l 16 2 = 0x0800 → beNat l 18 2 = 0x0604 →
      beNat l 20 2 = 1 → macOf s (BitVec.ofNat 32 (beNat l 38 4)) = some m → s.host.link = true →
      exec (.ethernetFrame l) s = .next { s with tx := s.tx ++
        [.answer (arpFrame (beNat l 6 6) m 2 (BitVec.ofNat 32 (beNat l 38 4)) (beNat l 22 6) (BitVec.ofNat 32 (beNat l 28 4)))] }) ∧
    (∀ p d b, 14 ≤ l.length → beNat l 12 2 = 0x0800 → p = l.drop 14 → ip4Ok p = true → beNat p 9 1 = 17 →
      dstOf s (BitVec.ofNat 32 (beNat p 16 4)) (beNat l 0 6) = some d → b = (p.take (beNat p 2 2)).drop 20 →
      udpOk s (BitVec.ofNat 32 (beNat p 12 4)) (BitVec.ofNat 32 (beNat p 16 4)) b = true →
      exec (.ethernetFrame l) s =
        exec (.commandFrame (.udp (BitVec.ofNat 32 (beNat p 12 4)) (beNat b 0 2) (beNat l 6 6) d)
          ((b.take (beNat b 4 2)).drop 8)) s)) ∧
  (∀ (s : State) (l : List Byte), macMine s (beNat l 0 6) = false → exec (.ethernetFrame l) s = .next s) ∧
  (∀ (s : State) (l : List Byte), spiOpen s = true → s.sys.pwr ≠ .deep →
    exec (.writeFrame l) s = exec (.commandFrame .spi l) s ∧
    (s.host.out = [] → exec .readFrame s = .next { s with tx := s.tx ++ [.miso [0#8, 0#8]] }) ∧
    (∀ q t, s.host.out = q :: t →
      ∃ u d, exec .readFrame s = .next u ∧ u.host.out = t ∧ d.length = 2 ∧ u.tx = s.tx ++ [.miso (d ++ q.2)] ∧
        u = { s with free := s.free + 1, tx := u.tx, host := { s.host with out := t } }) ∧
    (∃ u x, exec .status s = .next u ∧ u = { s with tx := s.tx ++ [.miso [x]] } ∧
      x.getLsbD 0 = s.host.out.any (fun q => !q.1) ∧ x.getLsbD 1 = s.host.out.any (fun q => q.1) ∧ x.getLsbD 2 = true)) ∧
  (∀ (s : State) (l : List Byte), spiOpen s = false →
    exec (.writeFrame l) s = .next s ∧ exec .readFrame s = .next s ∧ exec .status s = .next s) ∧
  (∀ (s : State) (r : BitVec 16), s.sys.inReset = false → s.host.netOk = true → s.sys.pwr ≠ .deep →
    ∃ t, exec (.phyPoll r) s = .next t ∧ t.host.link = r.getLsbD 2 ∧ (r.getLsbD 2 = false → t.host.fdx = false) ∧
      (r.getLsbD 2 ≠ s.host.link → State.raised evHostLink t) ∧
      State.onlyEvents { s with free := s.free + 1, host := { s.host with link := t.host.link, fdx := t.host.fdx } } t) ∧
  (∀ (s : State) (p : Nat), p < 8 →
    ∃ t, exec (.pulseEnd p) s = .next t ∧ t.ev.pulse.getLsbD p = false ∧
      (∀ q, q ≠ p → t.ev.pulse.getLsbD q = s.ev.pulse.getLsbD q) ∧ t = { s with ev := { s.ev with pulse := t.ev.pulse } })

/-- R391 to R394: an accepted READ of register words or of SRAM without errors answers OK with the words; a WRITE into the
free SRAM stores each word, little-endian, at rising addresses and answers how many were ignored; an address the map does not
have gives ADDRESS and the bus-error event (log 16), and in every case the command leaves the queue of accepted ones and its
reply enters the window. -/
def Obligations.HostReadWrite : Prop :=
  (∀ (s : State) (c : HostCmd) (l : List HostCmd) (a n : Nat), State.nextIs c l s → c.op = 1 →
    c.pl = [BitVec.ofNat 32 a, BitVec.ofNat 32 n] → 1 ≤ n → n ≤ 255 → a + 4 * n ≤ 0x400000 → a % 4 = 0 → s.hardErr = [] →
    s.softErr = [] →
    ∃ t, exec (.read c.snd c.seq c.pl) s = .next t ∧ t.host.waiting = l ∧
      State.replied ⟨c.seq, 1, 0, (wordAddrs a n).map (memWord s)⟩ t ∧ State.onlyPort s t) ∧
  (∀ (s : State) (c : HostCmd) (l : List HostCmd) (a : Nat), State.nextIs c l s → c.op = 1 →
    c.pl = [BitVec.ofNat 32 a, 1#32] → 0x400000 ≤ a → a < 2 ^ 32 → a % 4 = 0 → (regionOf a).isSome = true →
    ∃ t, exec (.read c.snd c.seq c.pl) s = .next t ∧ t.host.waiting = l ∧
      State.replied ⟨c.seq, 1, 0, [(readWord .host a (State.withWaiting l s)).2]⟩ t ∧
      State.onlyPort { s with masters := t.masters } t) ∧
  (∀ (s : State) (c : HostCmd) (l : List HostCmd) (a : Nat) (w : Word), State.nextIs c l s → c.op = 2 →
    c.pl = [BitVec.ofNat 32 a, w] → a + 4 ≤ 0x400000 → a % 4 = 0 → (∀ i, i < 8 → inPart s i a = false) →
    Memory.wf 0 s.mem = true →
    ∃ t, exec (.write c.snd c.seq c.pl) s = .next t ∧ t.host.waiting = l ∧ State.replied ⟨c.seq, 2, 0, [0#32]⟩ t ∧
      memWord t a = w ∧ (∀ x, x < a ∨ a + 4 ≤ x → mget 0 t.mem x = mget 0 s.mem x) ∧
      State.onlyPort { s with mem := t.mem } t) ∧
  (∀ (s : State) (c : HostCmd) (l : List HostCmd) (a n : Nat) (w : Word) (cmd : Instr), State.nextIs c l s →
    (c.op = 1 ∧ c.pl = [BitVec.ofNat 32 a, BitVec.ofNat 32 n] ∧ 1 ≤ n ∧ n ≤ 255 ∧ cmd = .read c.snd c.seq c.pl ∨
      c.op = 2 ∧ c.pl = [BitVec.ofNat 32 a, w] ∧ cmd = .write c.snd c.seq c.pl) →
    a < 2 ^ 32 → (a % 4 ≠ 0 ∨ regionOf a = none) →
    ∃ t, exec cmd s = .next t ∧ t.host.waiting = l ∧ State.replied ⟨c.seq, c.op, 4, []⟩ t ∧ State.raised evBusError t ∧
      t.mem = s.mem ∧ t.cfg = s.cfg ∧ t.axes = s.axes ∧ t.boot = s.boot) ∧
  (∀ (s : State) (snd : Sender) (seq : Word) (pl : List Word), s.host.waiting = [] →
    exec (.read snd seq pl) s = .next s ∧ exec (.write snd seq pl) s = .next s)

/-- R392, R402: what each other opcode does when its command acts: QUEUE_MOVE performs the profile operation on its owner with
a staging bank of its own, BANK_WRITE stores into the inactive bank, SUBSCRIBE takes the first free of four slots for a new
sender and answers its number, RECORD_READ answers a record, IMAGE runs as the register command, and HEAD_STATE answers the
head's six words. -/
def Obligations.HostOpcodes : Prop :=
  (∀ (s u : State) (c : HostCmd) (l : List HostCmd) (w : Word) (ms : List Word) (o : Owner) (m : Move), State.nextIs c l s →
    c.op = 3 → c.pl = w :: ms → ms.length = 8 → 1 ≤ bits w 3 0 → u = State.withWaiting l s → ownerDead u o = false →
    o = (if bit w 31 then .group (bits w 22 16) else .axis (bits w 22 16)) → m = moveOf (fun i => nth 0#32 ms i) →
    (pfCheck o (bits w 3 0) m u = 0 →
      ∃ t, exec (.queueMove c.snd c.seq c.pl) s = .next t ∧ t.host.waiting = l ∧
        getProf t o = { getProf s o with accepted := (getProf s o).accepted ++ [(s.sys.round, pfCmdOf (bits w 3 0) m (lateMove s (getProf s o)))] } ∧
        State.replied ⟨c.seq, 3, 0, [BitVec.ofNat 32 (getProf s o).errCode]⟩ t ∧
        State.onlyPort { s with axes := t.axes, groups := t.groups } t) ∧
    (pfCheck o (bits w 3 0) m u ≠ 0 →
      ∃ t, exec (.queueMove c.snd c.seq c.pl) s = .next t ∧ t.host.waiting = l ∧
        (getProf t o).accepted = (getProf s o).accepted ∧ (getProf t o).queue = (getProf s o).queue ∧
        State.replied ⟨c.seq, 3, 6, [BitVec.ofNat 32 (pfCheck o (bits w 3 0) m u)]⟩ t)) ∧
  (∀ (s : State) (c : HostCmd) (l : List HostCmd) (w v : Word), State.nextIs c l s → c.op = 4 → c.pl = [w, v] →
    bit w 31 = false → bits w 22 16 < usableAxes s → (getAx s (bits w 22 16)).ctl.swapPend = false →
    windowDead s (.axis (bits w 22 16)) = false → Memory.wf 0 s.mem = true →
    ∀ a, a = coefAddr s (bits w 22 16) (!(getAx s (bits w 22 16)).ctl.bank) 0 (bits w 7 0) →
    ∃ t, exec (.bankWrite c.snd c.seq c.pl) s = .next t ∧ t.host.waiting = l ∧ memWord t a = v ∧
      (∀ x, x < a ∨ a + 4 ≤ x → mget 0 t.mem x = mget 0 s.mem x) ∧ State.onlyPort { s with mem := t.mem } t) ∧
  (∀ (s : State) (c : HostCmd) (l : List HostCmd) (i : Nat), State.nextIs c l s → c.op = 5 → bit (nth 0#32 c.pl 0) 0 = true →
    subSlot s c.snd = none →
    ((List.range 4).find? (fun i => (tget none s.host.subs i).isNone) = some i →
      ∃ t, exec (.subscribe c.snd c.seq c.pl) s = .next t ∧ t.host.waiting = l ∧
        tget none t.host.subs i = some { snd := c.snd, set := setOf (fun k => nth 0#32 c.pl (k + 1)) } ∧
        (∀ j, j ≠ i → tget none t.host.subs j = tget none s.host.subs j) ∧
        State.replied ⟨c.seq, 5, 0, [BitVec.ofNat 32 i]⟩ t ∧ State.onlyPort s t) ∧
    ((List.range 4).find? (fun i => (tget none s.host.subs i).isNone) = none →
      ∃ t, exec (.subscribe c.snd c.seq c.pl) s = .next t ∧ t.host.waiting = l ∧ t.host.subs = s.host.subs ∧
        State.replied ⟨c.seq, 5, 6, [1#32]⟩ t ∧ State.onlyPort s t)) ∧
  (∀ (s : State) (c : HostCmd) (l : List HostCmd) (a n : Nat), State.nextIs c l s → c.op = 6 →
    recordAt s (bits (nth 0#32 c.pl 0) 17 16) (bits (nth 0#32 c.pl 0) 10 0) = some (a, n) → a + 4 * n ≤ 0x400000 →
    s.hardErr = [] → s.softErr = [] →
    ∃ t, exec (.recordRead c.snd c.seq c.pl) s = .next t ∧ t.host.waiting = l ∧
      State.replied ⟨c.seq, 6, 0, (wordAddrs a n).map (memWord s)⟩ t ∧ State.onlyPort s t) ∧
  (∀ (s : State) (c : HostCmd) (l : List HostCmd) (w : Word), State.nextIs c l s → c.op = 7 → c.pl.head? = some w →
    bits w 31 16 = Config.key → imgRefusal s (bits w 3 0) (bits w 5 4) (bits w 15 8) = 0 → bits w 3 0 ≠ 5 →
    ∃ t, exec (.image c.snd c.seq c.pl) s = .next t ∧ t.host.waiting = l ∧ t.boot = { s.boot with
        lastCmd := bits w 3 0, busy := true
        job := some (bits w 3 0, if s.boot.noImage then bits w 5 4 else s.boot.inact, (c.pl.drop 1).take (bits w 15 8)) } ∧
      State.replied ⟨c.seq, 7, 0, [imgstat { s with boot := t.boot }]⟩ t ∧ State.onlyPort { s with boot := t.boot } t) ∧
  (∀ (s : State) (c : HostCmd) (l : List HostCmd), State.nextIs c l s → c.op = 8 → c.pl = [0#32] →
    ∃ t, exec (.headState c.snd c.seq c.pl) s = .next t ∧ t.host.waiting = l ∧
      State.replied ⟨c.seq, 8, 0, headWords (State.withWaiting l s)⟩ t ∧ State.onlyPort s t)

/-- R19 to R21, R27, R356, R400: a register write takes effect by its address: event flags clear where a 1 is written, a mask
keeps only valid events, SRAM outside the partitions takes the word, the LADLE partition from T0 of the next round on; a
write that the master may not make or that is misaligned is refused with the bus-error event, and one to a read-only
location is ignored with the refused-write event; neither changes anything else. -/
def Obligations.RegisterWrites : Prop :=
  (∀ (s : State) (k : Nat) (v : Word), k < 8 →
    ∃ t, exec (.registerWrite .host (0x40020000 + 4 * k) v) s = .next t ∧
      (∀ e, e < 256 → (State.raised e t ↔ State.raised e s ∧ (e / 32 = k → v.getLsbD (e % 32) = false))) ∧
      t = { s with ev := { s.ev with flags := t.ev.flags } }) ∧
  (∀ (s : State) (k : Nat) (v : Word), k < 8 →
    ∃ t, exec (.registerWrite .host (0x40020020 + 4 * k) v) s = .next t ∧
      (∀ e, e < 256 → t.ev.mask.getLsbD e =
        (if e / 32 = k then v.getLsbD (e % 32) && evValid e else s.ev.mask.getLsbD e)) ∧
      t = { s with ev := { s.ev with mask := t.ev.mask } }) ∧
  (∀ (s : State) (a : Nat) (v : Word), a + 4 ≤ 0x400000 → a % 4 = 0 → (∀ i, i < 8 → inPart s i a = false) →
    Memory.wf 0 s.mem = true →
    ∃ t, exec (.registerWrite .host a v) s = .next t ∧ memWord t a = v ∧
      (∀ x, x < a ∨ a + 4 ≤ x → mget 0 t.mem x = mget 0 s.mem x) ∧ t = { s with mem := t.mem }) ∧
  (∀ (s : State) (a : Nat) (v : Word), a + 4 ≤ 0x400000 → a % 4 = 0 → inPart s ptLADLE a = true →
    ∃ t, exec (.registerWrite .host a v) s = .next t ∧ t.mem = s.mem ∧ t.lad.held = s.lad.held ++
        [{ due := s.sys.round + 1, addr := a, bytes := leBytes 4 v.toNat, own := false }] ∧
      t = { s with lad := { s.lad with held := t.lad.held } }) ∧
  (∀ (s : State) (m : Master) (a : Nat) (v : Word), m ≠ .compact → (a % 4 ≠ 0 ∨ mayWrite s m a = false) →
    ∃ t, exec (.registerWrite m a v) s = .next t ∧ State.onlyEvents s t ∧ State.raised evBusError t) ∧
  (∀ (s : State) (a : Nat) (v : Word),
    (∃ o, a = 0x40110000 + o ∧ o < 0x10000 ∨ a = 0x40120000 + o ∧ o < 0x10000 ∨ a = 0x40410000 + o ∧ o < 0x10000) → a % 4 = 0 →
    a ≠ 0x40110100 →
    ∃ t, exec (.registerWrite .host a v) s = .next t ∧ State.onlyEvents s t ∧ State.raised evRefusedWrite t)

/-- R102: a write to a word of the active bank, or to either bank while a swap is pending, is ignored and raises the
refused-write event; one to the inactive bank is stored at once, and the active bank, which the cells use, stays as it is. -/
def Obligations.BankWriteRule : Prop :=
  ∀ (s : State) (x i : Nat) (v : Word) (b : Bool), x < usableAxes s → x < 128 → i < 256 →
    ∀ a, a = 0x41000000 + 0x1000 * x + (if b then 0xC00 else 0x800) + 4 * i →
    (b = (getAx s x).ctl.bank ∨ (getAx s x).ctl.swapPend = true →
      ∃ t, exec (.registerWrite .host a v) s = .next t ∧ State.onlyEvents s t ∧ State.raised evRefusedWrite t) ∧
    (b ≠ (getAx s x).ctl.bank → (getAx s x).ctl.swapPend = false → Memory.wf 0 s.mem = true →
      ∃ t, exec (.registerWrite .host a v) s = .next t ∧ memWord t (coefAddr s x b 0 i) = v ∧
        (∀ j, memWord t (coefAddr s x (!b) 0 (j % 256)) = memWord s (coefAddr s x (!b) 0 (j % 256))) ∧
        (∀ y, y < coefAddr s x b 0 i ∨ coefAddr s x b 0 i + 4 ≤ y → mget 0 t.mem y = mget 0 s.mem y) ∧
        t = { s with mem := t.mem })
end

