-- ==== Sys2Proof/Laws/Tab.lean ====
section
/-! SUPPORT. Laws of tables and byte memories: a read after a write, and the canonical form that every memory operation
keeps. -/

namespace Sys2Proof.Machine

/-! ### Tables -/

/-- A table read after a write. -/
theorem tget_tset {α : Type} (d : α) (t : Tab α) (k : Nat) (v : α) (j : Nat) :
    tget d (tset t k v) j = if j = k then v else tget d t j := by
  induction t with
  | nil => simp [tset, tget]
  | cons c t ih =>
    obtain ⟨k', v'⟩ := c
    unfold tset
    (repeat' split) <;> simp_all [tget] <;> grind

/-- The entry that was written reads back. -/
@[simp] theorem tget_tset_self {α : Type} (d : α) (t : Tab α) (k : Nat) (v : α) : tget d (tset t k v) k = v := by
  simp [tget_tset]

/-- Every other entry reads as before. -/
theorem tget_tset_ne {α : Type} (d : α) (t : Tab α) (k : Nat) (v : α) (j : Nat) (h : j ≠ k) :
    tget d (tset t k v) j = tget d t j := by
  simp [tget_tset, h]

/-! ### The canonical form of memories -/

/-- The canonical form as two facts about the list. -/
theorem wf_iff (d : Byte) (m : Memory) : Memory.wf d m = true ↔ (m.Pairwise (fun x y => x.1 < y.1) ∧ ∀ c ∈ m, c.2 ≠ d) := by
  induction m with
  | nil => simp [Memory.wf]
  | cons c t ih => 
    obtain ⟨k, v⟩ := c
    simp [Memory.wf, ih, List.pairwise_cons]
    constructor
    · rintro ⟨⟨a, b⟩, c, e⟩; exact ⟨⟨b, c⟩, a, e⟩
    · rintro ⟨⟨b, c⟩, a, e⟩; exact ⟨⟨a, b⟩, c, e⟩

/-- A cell after a byte is written: the new one or an old one. -/
theorem mem_mset (d : Byte) (k : Nat) (v : Byte) (m : Memory) (c : Host.Cell) (h : c ∈ mset d m k v) : c = (k, v) ∨ c ∈ m := by
  induction m with
  | nil => unfold mset at h; split at h <;> simp_all
  | cons x t ih =>
    obtain ⟨k', v'⟩ := x
    unfold mset at h
    (repeat' split at h) <;> simp only [List.mem_cons] at * <;> grind

/-- Writing a byte keeps the canonical form. -/
theorem mset_wf (d : Byte) (k : Nat) (v : Byte) (m : Memory) (h : Memory.wf d m) : Memory.wf d (mset d m k v) := by
  induction m with
  | nil => unfold mset; split <;> simp_all [Memory.wf]
  | cons c t ih =>
    obtain ⟨k', v'⟩ := c
    have hw := ih (by simp only [Memory.wf, Bool.and_eq_true] at h; exact h.2)
    rw [wf_iff] at *
    simp only [List.pairwise_cons, List.mem_cons, forall_eq_or_imp] at h
    obtain ⟨⟨h1, h2⟩, h3, h4⟩ := h
    unfold mset
    split
    · subst_vars
      split
      · exact ⟨h2, h4⟩
      · exact ⟨List.pairwise_cons.2 ⟨h1, h2⟩, by simpa using ⟨‹_›, fun a b => h4 (a, b)⟩⟩
    · split
      · split
        · exact ⟨List.pairwise_cons.2 ⟨h1, h2⟩, by simpa using ⟨h3, fun a b => h4 (a, b)⟩⟩
        · refine ⟨List.pairwise_cons.2 ⟨?_, List.pairwise_cons.2 ⟨h1, h2⟩⟩, by simpa using ⟨‹_›, h3, fun a b => h4 (a, b)⟩⟩
          intro c hc
          rcases List.mem_cons.1 hc with hc | hc
          · subst hc; assumption
          · exact Nat.lt_trans ‹k < k'› (h1 c hc)
      · refine ⟨List.pairwise_cons.2 ⟨?_, hw.1⟩, by simpa using ⟨h3, fun a b => hw.2 (a, b)⟩⟩
        intro c hc
        rcases mem_mset d k v t c hc with hc | hc
        · subst hc; simp; omega
        · exact h1 c hc

/-- Writing bytes keeps the canonical form. -/
theorem mwrite_wf (d : Byte) (bs : List Byte) : ∀ (m : Memory) (a : Nat), Memory.wf d m → Memory.wf d (mwrite d m a bs) := by
  induction bs with
  | nil => intro m a h; exact h
  | cons b bs ih => intro m a h; exact ih _ _ (mset_wf d a b m h)

/-- Dropping cells keeps the canonical form. -/
theorem filter_wf (d : Byte) (m : Memory) (p : Host.Cell → Bool) (h : Memory.wf d m) : Memory.wf d (m.filter p) := by
  rw [wf_iff] at *
  exact ⟨h.1.filter _, fun c hc => h.2 c (List.mem_filter.1 hc).1⟩

/-- Erasing keeps the canonical form. -/
theorem merase_wf (d : Byte) (m : Memory) (a n : Nat) (h : Memory.wf d m) : Memory.wf d (merase m a n) := filter_wf d m _ h

/-- The cells of a block lie inside it. -/
theorem blockCells_range (d : Byte) (bs : List Byte) : ∀ a, ∀ c ∈ blockCells d a bs, a ≤ c.1 ∧ c.1 < a + bs.length := by
  induction bs with
  | nil => intro a c h; simp [blockCells] at h
  | cons b bs ih =>
    intro a c h
    unfold blockCells at h
    split at h
    · have := ih _ _ h; simp; omega
    · rcases List.mem_cons.1 h with h | h
      · subst h; simp
      · have := ih _ _ h; simp; omega

/-- The cells of a block are canonical. -/
theorem blockCells_wf (d : Byte) (bs : List Byte) : ∀ a, Memory.wf d (blockCells d a bs) := by
  induction bs with
  | nil => intro a; rfl
  | cons b bs ih =>
    intro a
    unfold blockCells
    split
    · exact ih _
    · simp only [Memory.wf, Bool.and_eq_true, List.all_eq_true, decide_eq_true_eq]
      refine ⟨⟨by simpa, fun c hc => ?_⟩, ih _⟩
      have := blockCells_range d bs _ _ hc; omega

/-- Replacing a block keeps the canonical form. -/
theorem mblock_wf (d : Byte) (m : Memory) (a : Nat) (bs : List Byte) (h : Memory.wf d m) : Memory.wf d (mblock d m a bs) := by
  have h1 := filter_wf d m (fun c => decide (c.1 < a)) h
  have h2 := filter_wf d m (fun c => decide (a + bs.length ≤ c.1)) h
  have h3 := blockCells_wf d bs a
  have r := blockCells_range d bs a
  unfold mblock
  rw [wf_iff] at *
  refine ⟨?_, ?_⟩
  · rw [List.pairwise_append, List.pairwise_append]
    refine ⟨⟨h1.1, h3.1, ?_⟩, h2.1, ?_⟩
    · intro x hx y hy
      have := r y hy; have := (List.mem_filter.1 hx).2; simp at this; omega
    · intro x hx y hy
      have hy' := (List.mem_filter.1 hy).2; simp at hy'
      rcases List.mem_append.1 hx with hx | hx
      · have := (List.mem_filter.1 hx).2; simp at this; omega
      · have := r x hx; omega
  · intro c hc
    rcases List.mem_append.1 hc with hc | hc
    · rcases List.mem_append.1 hc with hc | hc
      · exact h1.2 c hc
      · exact h3.2 c hc
    · exact h2.2 c hc

/-! ### Reads after writes -/

/-- An address below every listed one reads as the unlisted byte. -/
theorem mget_low (d : Byte) (m : Memory) (j : Nat) (h : ∀ c ∈ m, j < c.1) : mget d m j = d := by
  induction m with
  | nil => rfl
  | cons c t ih =>
    obtain ⟨k, v⟩ := c
    have := h (k, v) (List.mem_cons_self ..)
    unfold mget
    rw [if_neg (by simp at this; omega)]
    exact ih (fun c hc => h c (List.mem_cons_of_mem _ hc))

/-- A byte read after a byte is written. -/
theorem mget_mset (d : Byte) (k : Nat) (v : Byte) (m : Memory) (hm : Memory.wf d m) (j : Nat) :
    mget d (mset d m k v) j = if j = k then v else mget d m j := by
  induction m with
  | nil => unfold mset; split <;> simp_all [mget]
  | cons c t ih =>
    obtain ⟨k', v'⟩ := c
    have hw := (wf_iff d _).1 hm
    simp only [List.pairwise_cons] at hw
    have ht : Memory.wf d t := (wf_iff d t).2 ⟨hw.1.2, fun c hc => hw.2 c (List.mem_cons_of_mem _ hc)⟩
    have lo : ∀ i, i ≤ k' → mget d t i = d := fun i hi =>
      mget_low d t i (fun c hc => Nat.lt_of_le_of_lt hi (hw.1.1 c hc))
    unfold mset
    split
    · rename_i e
      subst e
      split
      · by_cases hj : j = k
        · subst hj; simp [mget, lo j (Nat.le_refl _), *]
        · simp [mget, hj]
      · by_cases hj : j = k <;> simp [mget, hj]
    · split
      · split
        · by_cases hj : j = k
          · subst hj; simp [mget, *, lo j (by omega)]
          · simp [hj]
        · by_cases hj : j = k <;> simp [mget, hj]
      · by_cases hj : j = k
        · subst hj; simp [mget, ih ht, *]
        · simp [mget, ih ht, hj]

/-- A byte outside the bytes written reads as before. -/
theorem mget_mwrite_out (d : Byte) (bs : List Byte) : ∀ (m : Memory) (a j : Nat), Memory.wf d m →
    (j < a ∨ a + bs.length ≤ j) → mget d (mwrite d m a bs) j = mget d m j := by
  induction bs with
  | nil => intro m a j _ _; rfl
  | cons b bs ih =>
    intro m a j hm h
    unfold mwrite
    simp only [List.length_cons] at h
    rw [ih _ _ _ (mset_wf d a b m hm) (by omega), mget_mset d a b m hm, if_neg (by omega)]

/-- The bytes written read back. -/
theorem mget_mwrite_in (d : Byte) (bs : List Byte) : ∀ (m : Memory) (a i : Nat), Memory.wf d m → i < bs.length →
    mget d (mwrite d m a bs) (a + i) = bs.getD i d := by
  induction bs with
  | nil => intro m a i _ h; simp at h
  | cons b bs ih =>
    intro m a i hm h
    unfold mwrite
    cases i with
    | zero => rw [mget_mwrite_out d bs _ _ _ (mset_wf d a b m hm) (by omega), mget_mset d a b m hm]; simp
    | succ i =>
      have := ih _ (a + 1) i (mset_wf d a b m hm) (by simpa using h)
      rw [show a + (i + 1) = a + 1 + i by omega, this]; simp

end Sys2Proof.Machine
end

