-- ==== Sys2Proof/Laws/Anchor.lean ====
section
/-! SUPPORT. What few commands change: the round counter, the epochs, reset and its causes, and the straps. An
operation's lemma `<name>_anchor` says that it leaves all of them alone (`anchor (f s) = anchor s`). -/

namespace Sys2Proof.Machine

/-- The round counter and whether it has run, the epochs, reset, its causes and count, and the straps. -/
structure Anchor where
  round : Word
  roundRan : Bool
  epoch : Nat
  lastEpoch : Nat
  inReset : Bool
  pref : Bool
  casc : Bool
  oct : Bool
  rstCause : Nat
  rstPrev : Nat
  rstCount : Nat

/-- The anchor of a state. -/
def anchor (s : State) : Anchor :=
  ⟨s.sys.round, s.sys.roundRan, s.sys.epoch, s.sys.lastEpoch, s.sys.inReset, s.sys.pref, s.sys.casc, s.sys.oct,
    s.sys.rstCause, s.sys.rstPrev, s.sys.rstCount⟩

/-- An optional result that leaves the anchor alone, or a default that does. -/
theorem anchor_optD {s d : State} (o : Option State) (h : ∀ t, o = some t → anchor t = anchor s)
    (hd : anchor d = anchor s) : anchor (o.getD d) = anchor s := by
  cases o with
  | none => exact hd
  | some t => exact h t rfl

/-- The anchor of a state given by its fields. -/
@[simp] theorem anchor_mk
    (p fr tx cfg mem so ha tb sys ret ev host axes groups sax sgr ctlq inbuf clusters fbk ps link twin casc sag rcd lad boot masters pdc) :
    anchor (State.mk p fr tx cfg mem so ha tb sys ret ev host axes groups sax sgr ctlq inbuf clusters fbk ps link twin casc sag rcd
      lad boot masters pdc) = ⟨sys.round, sys.roundRan, sys.epoch, sys.lastEpoch, sys.inReset, sys.pref, sys.casc,
      sys.oct, sys.rstCause, sys.rstPrev, sys.rstCount⟩ := rfl

/-- The fields of a state are its anchor. -/
@[simp] theorem anchor_fold (t : State) :
    Anchor.mk t.sys.round t.sys.roundRan t.sys.epoch t.sys.lastEpoch t.sys.inReset t.sys.pref t.sys.casc t.sys.oct
      t.sys.rstCause t.sys.rstPrev t.sys.rstCount = anchor t := rfl

/-- A choice between states. -/
@[simp] theorem anchor_ite (c : Prop) [Decidable c] (a b : State) :
    anchor (if c then a else b) = if c then anchor a else anchor b := apply_ite ..

/-- A choice between operations. -/
@[simp] theorem anchor_iteapp (c : Prop) [Decidable c] (f g : State → State) (s : State) :
    anchor ((if c then f else g) s) = if c then anchor (f s) else anchor (g s) := by split <;> rfl

/-- An operation for every element. -/
@[simp] theorem anchor_forAll {α : Type} (s : State) (l : List α) (f : α → State → State)
    (hf : ∀ x t, anchor (f x t) = anchor t) : anchor (forAll l f s) = anchor s := by
  unfold forAll
  induction l generalizing s with
  | nil => rfl
  | cons x l ih => exact (ih _).trans (hf x s)

/-- A fold over states. -/
@[simp] theorem anchor_foldl {α : Type} (s : State) (l : List α) (f : State → α → State)
    (hf : ∀ x t, anchor (f t x) = anchor t) : anchor (l.foldl f s) = anchor s := by
  induction l generalizing s with
  | nil => rfl
  | cons x l ih => exact (ih _).trans (hf x s)

/-- An operation under a condition. -/
@[simp] theorem anchor_onlyIf (s : State) (b : Bool) (f : State → State) (hf : ∀ t, anchor (f t) = anchor t) :
    anchor (onlyIf b f s) = anchor s := by
  unfold onlyIf; split
  · exact hf _
  · rfl

end Sys2Proof.Machine
end

