-- ==== Sys2Proof/Laws/AnchorUnits.lean ====
section
/-! SUPPORT. The operations of axes, feedback, power stages, profiles and groups leave the anchor alone. -/

set_option linter.unusedSimpArgs false

namespace Sys2Proof.Machine

/-! ### Ops -/

@[simp] theorem setAx_anchor (s : State) (a : Nat) (x : Axis) : anchor (setAx s a x) = anchor s := by simp [setAx, *]

@[simp] theorem modAx_anchor (s : State) (a : Nat) (f : Axis → Axis) : anchor (modAx s a f) = anchor s :=
  by simp [modAx, *]

@[simp] theorem modCtl_anchor (s : State) (a : Nat) (f : AxCtl → AxCtl) : anchor (modCtl s a f) = anchor s :=
  by simp [modCtl, *]

@[simp] theorem modPred_anchor (s : State) (a : Nat) (f : AxPred → AxPred) : anchor (modPred s a f) = anchor s :=
  by simp [modPred, *]

@[simp] theorem modStage_anchor (s : State) (a : Nat) (f : AxStage → AxStage) : anchor (modStage s a f) = anchor s :=
  by simp [modStage, *]

@[simp] theorem modFb_anchor (s : State) (a : Nat) (f : AxFb → AxFb) : anchor (modFb s a f) = anchor s :=
  by simp [modFb, *]

@[simp] theorem setGr_anchor (s : State) (g : Nat) (x : Group) : anchor (setGr s g x) = anchor s := by simp [setGr, *]

@[simp] theorem modGr_anchor (s : State) (g : Nat) (f : Group → Group) : anchor (modGr s g f) = anchor s :=
  by simp [modGr, *]

@[simp] theorem modProf_anchor (s : State) (o : Owner) (f : Prof → Prof) : anchor (modProf s o f) = anchor s :=
  by unfold modProf; (repeat' split) <;> simp [*]

@[simp] theorem modCh_anchor (s : State) (ch : Nat) (f : Chan → Chan) : anchor (modCh s ch f) = anchor s :=
  by simp [modCh, *]

@[simp] theorem modNode_anchor (s : State) (ch n : Nat) (f : NodeSt → NodeSt) : anchor (modNode s ch n f)
    = anchor s := by simp [modNode, *]

@[simp] theorem modBrk_anchor (s : State) (b : Nat) (f : Brake → Brake) : anchor (modBrk s b f) = anchor s :=
  by simp [modBrk, *]

@[simp] theorem modMs_anchor (s : State) (m : Master) (f : MasterSt → MasterSt) : anchor (modMs s m f) = anchor s :=
  by simp [modMs, *]

@[simp] theorem State_tick_anchor (s : State) : anchor (State.tick s) = anchor s := by simp [State.tick, *]

@[simp] theorem send_anchor (t : Tx) (s : State) : anchor (send t s) = anchor s := by simp [send, *]

@[simp] theorem memPut_anchor (a : Nat) (bs : List Byte) (s : State) : anchor (memPut a bs s) = anchor s :=
  by simp [memPut, *]

@[simp] theorem memPutW_anchor (a : Nat) (w : Word) (s : State) : anchor (memPutW a w s) = anchor s :=
  by simp [memPutW, *]

@[simp] theorem wakeFrom_anchor (cause : Nat) (s : State) : anchor (wakeFrom cause s) = anchor s :=
  by simp [wakeFrom, *]

@[simp] theorem deliver_anchor (e : Nat) (s : State) : anchor (deliver e s) = anchor s := by simp [deliver, *]

@[simp] theorem raise_anchor (e : Nat) (s : State) : anchor (raise e s) = anchor s := by simp [raise, *]

@[simp] theorem raiseAx_anchor (a cause : Nat) (s : State) : anchor (raiseAx a cause s) = anchor s :=
  by simp [raiseAx, *]

@[simp] theorem raiseGr_anchor (g cause : Nat) (s : State) : anchor (raiseGr g cause s) = anchor s :=
  by simp [raiseGr, *]

@[simp] theorem raiseOw_anchor (o : Owner) (cause : Nat) (s : State) : anchor (raiseOw o cause s) = anchor s :=
  by unfold raiseOw; (repeat' split) <;> simp [*]

@[simp] theorem setHead_anchor (h : HeadState) (s : State) : anchor (setHead h s) = anchor s := by simp [setHead, *]

@[simp] theorem eccFix_anchor (w : Nat) (s : State) : anchor (eccFix w s) = anchor s := by simp [eccFix, *]

@[simp] theorem eccReport_anchor (s : State) : anchor (eccReport s) = anchor s := by simp [eccReport, *]

@[simp] theorem requestBrake_anchor (a : Nat) (s : State) : anchor (requestBrake a s) = anchor s :=
  by unfold requestBrake; (repeat' split) <;> simp [*]

@[simp] theorem requestRelease_anchor (a : Nat) (s : State) : anchor (requestRelease a s) = anchor s :=
  by simp [requestRelease, *]

@[simp] theorem setRet_anchor (s : State) (cls idx : Nat) (c : RetCh) : anchor (setRet s cls idx c) = anchor s :=
  by simp [setRet, *]

@[simp] theorem retLog_anchor (cause cls idx : Nat) (s : State) : anchor (retLog cause cls idx s) = anchor s :=
  by simp [retLog, *]

@[simp] theorem retireCore_anchor (cause cls idx : Nat) (c : RetCh) (s : State) : anchor
    (retireCore cause cls idx c s) = anchor s := by simp [retireCore, *]

@[simp] theorem faultRecord_anchor (a code cls : Nat) (s : State) : anchor (faultRecord a code cls s) = anchor s :=
  by simp [faultRecord, *]

@[simp] theorem abortPrestart_anchor (a : Nat) (s : State) : anchor (abortPrestart a s) = anchor s :=
  by simp [abortPrestart, *]

@[simp] theorem enterOff_anchor (st : AxState) (a : Nat) (s : State) : anchor (enterOff st a s) = anchor s :=
  by simp [enterOff, *]

@[simp] theorem stageStop_anchor (a : Nat) (s' : State) : anchor (stageStop a s') = anchor s' :=
  by simp [stageStop, *]

@[simp] theorem stageRetired_anchor (a : Nat) (s : State) : anchor (stageRetired a s) = anchor s :=
  by simp [stageRetired, *]

@[simp] theorem faultReact_anchor (a code cls : Nat) (s : State) : anchor (faultReact a code cls s) = anchor s :=
  by unfold faultReact; dsimp only; (repeat' split) <;> simp [*]

@[simp] theorem setCause_anchor (a code : Nat) (on : Bool) (s : State) : anchor (setCause a code on s) = anchor s :=
  by simp [setCause, *]

@[simp] theorem faultOne_anchor (a code cls : Nat) (s : State) : anchor (faultOne a code cls s) = anchor s :=
  by simp [faultOne, *]

@[simp] theorem treeQuickStop_anchor (a : Nat) (s : State) : anchor (treeQuickStop a s) = anchor s :=
  by simp [treeQuickStop, *]

@[simp] theorem faultAx_anchor (a code cls : Nat) (s : State) : anchor (faultAx a code cls s) = anchor s :=
  by unfold faultAx; dsimp only; (repeat' split) <;> simp [*]

@[simp] theorem snapAxis_anchor (a : Nat) (s : State) : anchor (snapAxis a s) = anchor s := by simp [snapAxis, *]

@[simp] theorem faultAxes_anchor (l : List Nat) (code cls : Nat) (s : State) : anchor (faultAxes l code cls s)
    = anchor s := by simp [faultAxes, *]

@[simp] theorem retireEffect_anchor (cls idx : Nat) (s : State) : anchor (retireEffect cls idx s) = anchor s :=
  by simp [retireEffect, *]

@[simp] theorem transient_anchor (cls idx : Nat) (s : State) : anchor (transient cls idx s) = anchor s :=
  by simp [transient, *]

@[simp] theorem permanent_anchor (cls idx : Nat) (s : State) : anchor (permanent cls idx s) = anchor s :=
  by simp [permanent, *]

@[simp] theorem release_anchor (cls idx : Nat) (s : State) : anchor (release cls idx s) = anchor s :=
  by simp [release, *]

@[simp] theorem modCore_anchor (c : Nat) (f : Core → Core) (s : State) : anchor (modCore c f s) = anchor s :=
  by simp [modCore, *]

@[simp] theorem modSlice_anchor (a : Nat) (f : SliceSt → SliceSt) (s : State) : anchor (modSlice a f s) = anchor s :=
  by simp [modSlice, *]

@[simp] theorem ladleFault_anchor (a last cls : Nat) (s : State) : anchor (ladleFault a last cls s) = anchor s :=
  by simp [ladleFault, *]

@[simp] theorem haltCore_anchor (c cause : Nat) (faddr : Word) (s : State) : anchor (haltCore c cause faddr s)
    = anchor s := by simp [haltCore, *]

/-! ### Sched -/

@[simp] theorem axisShown_anchor (s : State) (x : Nat) : anchor (axisShown s x) = anchor s := by simp [axisShown, *]

/-! ### Feedback -/

@[simp] theorem applyLimits_anchor (a : Nat) (s : State) : anchor (applyLimits a s) = anchor s :=
  by simp [applyLimits, *]

@[simp] theorem probeRun_anchor (a p : Nat) (p0 : Int) (ex : Bool) (b : Word) (pf : Nat) (es : List ProbeEdge) (s
    : State) : anchor (probeRun a p p0 ex b pf es s) = anchor s := by simp [probeRun, *]

@[simp] theorem compareRun_anchor (a : Nat) (pp pcU pc : Int) (n : Word) (pf : Nat) (s : State) : anchor
    (compareRun a pp pcU pc n pf s) = anchor s := by simp [compareRun, *]

@[simp] theorem takeArming_anchor (a : Nat) (m : Word) (p : Int) (s : State) : anchor (takeArming a m p s)
    = anchor s :=
  by unfold takeArming; dsimp only; (first | apply anchor_forAll | apply anchor_foldl) <;> intros <;> (try dsimp only) <;> (repeat' split) <;> simp [*]

@[simp] theorem armIdle_anchor (a : Nat) (m : Word) (s : State) : anchor (armIdle a m s) = anchor s :=
  by simp [armIdle, *]

@[simp] theorem fbTail_anchor (a : Nat) (n : Word) (prev : Option FbSample) (dev : Int) (s : State) : anchor
    (fbTail a n prev dev s) = anchor s := by unfold fbTail; (repeat' split) <;> simp [*]

@[simp] theorem fbExtrapolate_anchor (a : Nat) (n : Word) (s : State) : anchor (fbExtrapolate a n s) = anchor s :=
  by unfold fbExtrapolate; dsimp only; (repeat' split) <;> simp [*]

@[simp] theorem fbBad_anchor (a : Nat) (b : Badness) (r : FbIn) (s : State) : anchor (fbBad a b r s) = anchor s :=
  by simp [fbBad, *]

@[simp] theorem hallJudge_anchor (a last h : Nat) (s : State) : anchor (hallJudge a last h s) = anchor s :=
  by simp [hallJudge, *]

@[simp] theorem hallCheck_anchor (a : Nat) (r : Option FbIn) (s : State) : anchor (hallCheck a r s) = anchor s :=
  by unfold hallCheck; (repeat' split) <;> simp [*]

@[simp] theorem hallFup_anchor (a : Nat) (n : Word) (s : State) : anchor (hallFup a n s) = anchor s :=
  by unfold hallFup; (repeat' split) <;> simp [*]

@[simp] theorem portCount_anchor (a raw : Nat) (s : State) : anchor (portCount a raw s) = anchor s :=
  by simp [portCount, *]

@[simp] theorem fbGood_anchor (a : Nat) (n : Word) (r : FbIn) (raw fr : Nat) (s : State) : anchor
    (fbGood a n r raw fr s) = anchor s := by
  unfold fbGood
  extract_lets w sgn ssi b word f f1 ic f2 dev dCnt dFr delta f3 motion prev acc c f4 s1 s2
  have h1 : anchor s1 = anchor s := by simp only [s1, setCause_anchor, modFb_anchor]
  have h2 : anchor s2 = anchor s1 := by simp only [s2]; split <;> simp
  simp only [fbTail_anchor, portCount_anchor, h1, h2]

@[simp] theorem fbSample_anchor (a : Nat) (n : Word) (s : State) : anchor (fbSample a n s) = anchor s :=
  by unfold fbSample; dsimp only; (repeat' split) <;> simp [*]

@[simp] theorem fbEstimate_anchor (a : Nat) (n : Word) (s : State) : anchor (fbEstimate a n s) = anchor s :=
  by simp [fbEstimate, *]

@[simp] theorem fbKeep_anchor (a : Nat) (n : Word) (s : State) : anchor (fbKeep a n s) = anchor s :=
  by simp [fbKeep, *]

/-! ### PowerStage -/

@[simp] theorem checkDetection_anchor (s : State) : anchor (checkDetection s) = anchor s :=
  by simp [checkDetection, *]

@[simp] theorem diagRetry_anchor (a : Nat) (s : State) : anchor (diagRetry a s) = anchor s :=
  by unfold diagRetry; (repeat' split) <;> simp [*]

@[simp] theorem seqEnd_anchor (a res phase : Nat) (s : State) : anchor (seqEnd a res phase s) = anchor s :=
  by unfold seqEnd; (repeat' split) <;> simp [*]

@[simp] theorem testEvaluate_anchor (a : Nat) (s : State) : anchor (testEvaluate a s) = anchor s :=
  by unfold testEvaluate; dsimp only; (repeat' split) <;> simp [*]

@[simp] theorem retryComplete_anchor (a : Nat) (s : State) : anchor (retryComplete a s) = anchor s :=
  by simp [retryComplete, *]

@[simp] theorem scReport_anchor (a legs : Nat) (blank offBefore : Bool) (s : State) : anchor
    (scReport a legs blank offBefore s) = anchor s := by simp [scReport, *]

@[simp] theorem bsuvReport_anchor (a bsuv : Nat) (onLong : Bool) (s : State) : anchor (bsuvReport a bsuv onLong s)
    = anchor s := by simp [bsuvReport, *]

@[simp] theorem stageReport_anchor (a : Nat) (n : Word) (s : State) : anchor (stageReport a n s) = anchor s :=
  by unfold stageReport; (repeat' split) <;> simp [*]

@[simp] theorem pauseDiags_anchor (s : State) : anchor (pauseDiags s) = anchor s := by simp [pauseDiags, *]

@[simp] theorem resumeDiags_anchor (s : State) : anchor (resumeDiags s) = anchor s := by simp [resumeDiags, *]

@[simp] theorem ovTrip_anchor (d : Detector) (s : State) : anchor (ovTrip d s) = anchor s := by simp [ovTrip, *]

@[simp] theorem ovForcingEnd_anchor (s : State) : anchor (ovForcingEnd s) = anchor s := by simp [ovForcingEnd, *]

@[simp] theorem chopUpdate_anchor (j : Nat) (on : Bool) (s : State) : anchor (chopUpdate j on s) = anchor s :=
  by simp [chopUpdate, *]

@[simp] theorem sdLatch_anchor (k : Nat) (s : State) : anchor (sdLatch k s) = anchor s := by simp [sdLatch, *]

@[simp] theorem psctestGo_anchor (t : Nat) (s : State) : anchor (psctestGo t s) = anchor s := by simp [psctestGo, *]

@[simp] theorem comparatorEnd_anchor (tripped released : Bool) (s : State) : anchor
    (comparatorEnd tripped released s) = anchor s := by simp [comparatorEnd, *]

/-! ### Mover -/

@[simp] theorem feedbackFor_anchor (a : Nat) (n : Word) (s : State) : anchor (feedbackFor a n s) = anchor s :=
  by simp [feedbackFor, *]

@[simp] theorem fuse_anchor (g : Nat) (n : Word) (s : State) : anchor (fuse g n s) = anchor s :=
  by unfold fuse; dsimp only; (repeat' split) <;> simp [*]

@[simp] theorem weigh_anchor (g : Nat) (n : Word) (s : State) : anchor (weigh g n s) = anchor s := by simp [weigh, *]

@[simp] theorem moverRound_anchor (g : Nat) (n : Word) (s : State) : anchor (moverRound g n s) = anchor s :=
  by simp [moverRound, *]

@[simp] theorem moverTotals_anchor (g : Nat) (s : State) : anchor (moverTotals g s) = anchor s :=
  by simp [moverTotals, *]

/-! ### Compute -/

@[simp] theorem feEval_anchor (a : Nat) (n : Word) (fe : Int) (s : State) : anchor (feEval a n fe s) = anchor s :=
  by simp [feEval, *]

@[simp] theorem predRun_anchor (a : Nat) (n : Word) (idr iqr : F32) (sp : Int) (gth : Option Nat) (s : State)
    : anchor (predRun a n idr iqr sp gth s) = anchor s := by unfold predRun; dsimp only; (repeat' split) <;> simp [*]

@[simp] theorem predTrack_anchor (a : Nat) (n : Word) (sp : Int) (gth : Option Nat) (s : State) : anchor
    (predTrack a n sp gth s) = anchor s := by simp [predTrack, *]

@[simp] theorem stageWords_anchor (a : Nat) (m : Word) (allowed : Bool) (s : State) : anchor
    (stageWords a m allowed s) = anchor s := by simp [stageWords, *]

@[simp] theorem chopFollow_anchor (a : Nat) (due : List Nat) (s : State) : anchor (chopFollow a due s) = anchor s :=
  by simp [chopFollow, *]

@[simp] theorem runCells_anchor (a : Nat) (n : Word) (due : List Nat) (s : State) : anchor (runCells a n due s)
    = anchor s := by
  unfold runCells
  extract_lets e ks s0 own r t1 t2
  have h1 : anchor t1 = anchor s := by simp only [t1, s0, modAx_anchor, State_tick_anchor]
  have h2 : anchor t2 = anchor s := by simp only [t2]; split <;> simp only [setCause_anchor, h1]
  split
  · extract_lets r s1 s2 s3
    have h1 : anchor s1 = anchor s := by simp only [s1, s0, modAx_anchor, State_tick_anchor]
    have h2 : anchor s2 = anchor s := by simp only [s2]; split <;> simp only [modGr_anchor, h1]
    split <;> simp only [s3, faultAx_anchor, setCause_anchor, h2]
  · split <;> simp only [faultAx_anchor, h2]

@[simp] theorem computeAxis_anchor (a : Nat) (m : Word) (s : State) : anchor (computeAxis a m s) = anchor s :=
  by unfold computeAxis; (repeat' split) <;> simp [*]

/-! ### AxisCmd -/

@[simp] theorem swapRequest_anchor (a : Nat) (s : State) : anchor (swapRequest a s) = anchor s :=
  by simp [swapRequest, *]

@[simp] theorem bankSwap_anchor (a : Nat) (s : State) : anchor (bankSwap a s) = anchor s :=
  by unfold bankSwap; dsimp only; (repeat' split) <;> simp [*]

@[simp] theorem relatch_anchor (a : Nat) (old s : State) : anchor (relatch a old s) = anchor s := by simp [relatch, *]

@[simp] theorem enterRun_anchor (a : Nat) (s : State) : anchor (enterRun a s) = anchor s :=
  by unfold enterRun; dsimp only; (repeat' split) <;> simp [*]

@[simp] theorem refuseCmd_anchor (a : Nat) (s : State) : anchor (refuseCmd a s) = anchor s := by simp [refuseCmd, *]

theorem cmdEnable_anchor (a : Nat) (s : State) (t : State) (ht : cmdEnable a s = some t) : anchor t = anchor s :=
  by unfold cmdEnable at ht; (repeat' split at ht) <;> (try simp at ht) <;> (try subst ht) <;> simp [*]

theorem cmdRun_anchor (a : Nat) (s : State) (t : State) (ht : cmdRun a s = some t) : anchor t = anchor s :=
  by unfold cmdRun at ht; (repeat' split at ht) <;> (try simp at ht) <;> (try subst ht) <;> simp [*]

theorem cmdPark_anchor (a : Nat) (s : State) (t : State) (ht : cmdPark a s = some t) : anchor t = anchor s := by
  unfold cmdPark at ht; (try dsimp only at ht); (repeat' split at ht)
  all_goals first | (simp at ht; done) | (simp only [Option.some.injEq] at ht; subst ht; simp [*])

theorem cmdUnpark_anchor (a : Nat) (s : State) (t : State) (ht : cmdUnpark a s = some t) : anchor t = anchor s :=
  by unfold cmdUnpark at ht; (repeat' split at ht) <;> (try simp at ht) <;> (try subst ht) <;> simp [*]

theorem cmdQstop_anchor (a : Nat) (s : State) (t : State) (ht : cmdQstop a s = some t) : anchor t = anchor s :=
  by unfold cmdQstop at ht; (repeat' split at ht) <;> (try simp at ht) <;> (try subst ht) <;> simp [*]

theorem cmdDisable_anchor (a : Nat) (s : State) (t : State) (ht : cmdDisable a s = some t) : anchor t = anchor s := by
  unfold cmdDisable at ht; (try dsimp only at ht); (repeat' split at ht)
  all_goals first | (simp at ht; done) | (simp only [Option.some.injEq] at ht; subst ht; simp [*])

theorem cmdReset_anchor (a : Nat) (s : State) (t : State) (ht : cmdReset a s = some t) : anchor t = anchor s := by
  unfold cmdReset at ht; (try dsimp only at ht); (repeat' split at ht)
  all_goals first | (simp at ht; done) | (simp only [Option.some.injEq] at ht; subst ht; simp [*])

theorem axisCmd_anchor (code a : Nat) (s : State) (t : State) (ht : axisCmd code a s = some t) : anchor t
    = anchor s := by
  unfold axisCmd at ht; split at ht
  · simp only [Option.some.injEq] at ht; subst ht; rfl
  · exact cmdEnable_anchor _ _ _ ht
  · exact cmdRun_anchor _ _ _ ht
  · exact cmdPark_anchor _ _ _ ht
  · exact cmdUnpark_anchor _ _ _ ht
  · exact cmdQstop_anchor _ _ _ ht
  · exact cmdDisable_anchor _ _ _ ht
  · exact cmdReset_anchor _ _ _ ht

@[simp] theorem axisAct_anchor (code a : Nat) (s : State) : anchor (axisAct code a s) = anchor s := by
  exact anchor_optD _ (fun t h => axisCmd_anchor code a s t h) (by simp)

@[simp] theorem brakeDone_anchor (a : Nat) (s : State) : anchor (brakeDone a s) = anchor s :=
  by unfold brakeDone; dsimp only; (repeat' split) <;> simp [*]

@[simp] theorem brakeApplied_anchor (a : Nat) (s : State) : anchor (brakeApplied a s) = anchor s :=
  by simp [brakeApplied, *]

@[simp] theorem restDone_anchor (a : Nat) (s : State) : anchor (restDone a s) = anchor s :=
  by unfold restDone; dsimp only; (repeat' split) <;> simp [*]

@[simp] theorem groupActBut_anchor (skip : List Nat) (code g : Nat) (s : State) : anchor
    (groupActBut skip code g s) = anchor s := by simp [groupActBut, *]

@[simp] theorem groupAct_anchor (code g : Nat) (s : State) : anchor (groupAct code g s) = anchor s :=
  by simp [groupAct, *]

@[simp] theorem joinSegment_anchor (a : Nat) (s : State) : anchor (joinSegment a s) = anchor s :=
  by simp [joinSegment, *]

@[simp] theorem leaveSegment_anchor (a : Nat) (s : State) : anchor (leaveSegment a s) = anchor s :=
  by simp [leaveSegment, *]

@[simp] theorem changeSegments_anchor (old new : List Nat) (s : State) : anchor (changeSegments old new s)
    = anchor s := by simp [changeSegments, *]

@[simp] theorem locGo_anchor (g seg : Nat) (s : State) : anchor (locGo g seg s) = anchor s := by simp [locGo, *]

@[simp] theorem ctlAct_anchor (c : CtlCmd) (s : State) : anchor (ctlAct c s) = anchor s :=
  by unfold ctlAct; (repeat' split) <;> simp [*]

@[simp] theorem ctlAfter_anchor (q : List CtlCmd) (s : State) : anchor (ctlAfter q s) = anchor s :=
  by simp [ctlAfter, *]

@[simp] theorem ctlSubmit_anchor (c : CtlCmd) (s : State) : anchor (ctlSubmit c s).1 = anchor s :=
  by unfold ctlSubmit; (repeat' split) <;> simp [*]

@[simp] theorem runCtl_anchor (s : State) : anchor (runCtl s) = anchor s := by simp [runCtl, *]

@[simp] theorem releaseEffect_anchor (cls idx : Nat) (s : State) : anchor (releaseEffect cls idx s) = anchor s :=
  by simp [releaseEffect, *]

/-! ### Access -/

@[simp] theorem busError_anchor (s : State) : anchor (busError s) = anchor s := by simp [busError, *]

@[simp] theorem refuseWrite_anchor (s : State) : anchor (refuseWrite s) = anchor s := by simp [refuseWrite, *]

@[simp] theorem compactGate_anchor (m : Master) (f : State → State) (s : State) (h_f : ∀ t, anchor (f t)
    = anchor t) : anchor (compactGate m f s) = anchor s := by simp [compactGate, *]

@[simp] theorem withRight_anchor (m : Master) (a : Nat) (f : State → State) (s : State) (h_f : ∀ t, anchor (f t)
    = anchor t) : anchor (withRight m a f s) = anchor s := by simp [withRight, *]

@[simp] theorem keyed_anchor (w : Word) (f : State → State) (s : State) (h_f : ∀ t, anchor (f t) = anchor t)
    : anchor (keyed w f s) = anchor s := by simp [keyed, *]

/-! ### Ecc -/

@[simp] theorem recInvalid_anchor (w : Nat) (s : State) : anchor (recInvalid w s) = anchor s :=
  by simp [recInvalid, *]

@[simp] theorem queueError_anchor (w : Nat) (s : State) : anchor (queueError w s) = anchor s :=
  by unfold queueError; (repeat' split) <;> simp [*]

@[simp] theorem reloadSched_anchor (ch : Nat) (s : State) : anchor (reloadSched ch s) = anchor s :=
  by simp [reloadSched, *]

@[simp] theorem eccEffect_anchor (w : Nat) (s : State) : anchor (eccEffect w s) = anchor s := by simp [eccEffect, *]

@[simp] theorem eccRead_anchor (w : Nat) (s : State) : anchor (eccRead w s) = anchor s := by simp [eccRead, *]

@[simp] theorem eccLoad_anchor (a : Nat) (s : State) : anchor (eccLoad a s).1 = anchor s :=
  by unfold eccLoad; dsimp only; (repeat' split) <;> simp [*]

@[simp] theorem eccRange_anchor (lo hi : Nat) (s : State) : anchor (eccRange lo hi s) = anchor s :=
  by simp [eccRange, *]

@[simp] theorem eccSched_anchor (s : State) : anchor (eccSched s) = anchor s := by simp [eccSched, *]

@[simp] theorem scrubRound_anchor (s : State) : anchor (scrubRound s) = anchor s := by simp [scrubRound, *]

/-! ### Wheel -/

@[simp] theorem limitFault_anchor (a code cls : Nat) (o : Owner) (hit : Bool) (s : State) : anchor
    (limitFault a code cls o hit s) = anchor s := by simp [limitFault, *]

@[simp] theorem limitJudge_anchor (a : Nat) (s : State) : anchor (limitJudge a s) = anchor s :=
  by simp [limitJudge, *]

@[simp] theorem snapGroup_anchor (g : Nat) (s : State) : anchor (snapGroup g s) = anchor s := by simp [snapGroup, *]

@[simp] theorem pfRefuse_anchor (o : Owner) (code : Nat) (s : State) : anchor (pfRefuse o code s) = anchor s :=
  by simp [pfRefuse, *]

@[simp] theorem pfCommand_anchor (o : Owner) (op : Nat) (m : Move) (s : State) : anchor (pfCommand o op m s)
    = anchor s := by simp [pfCommand, *]

@[simp] theorem pfWrite_anchor (o : Owner) (op : Nat) (m : Master) (s : State) : anchor (pfWrite o op m s)
    = anchor s := by simp [pfWrite, *]

@[simp] theorem armProbe_anchor (a : Nat) (w : Word) (s : State) : anchor (armProbe a w s) = anchor s :=
  by simp [armProbe, *]

@[simp] theorem armCompare_anchor (a : Nat) (w0 w1 w2 w3 : Word) (s : State) : anchor (armCompare a w0 w1 w2 w3 s)
    = anchor s := by simp [armCompare, *]

@[simp] theorem jointMissed_anchor (o : Owner) (s : State) : anchor (jointMissed o s) = anchor s :=
  by simp [jointMissed, *]

@[simp] theorem cornerJoint_anchor (o : Owner) (c : CurMove) (t : Int) (m : Move) (s : State) : anchor
    (cornerJoint o c t m s) = anchor s := by unfold cornerJoint; (repeat' split) <;> simp [*]

@[simp] theorem overlapJoint_anchor (o : Owner) (c0 : CurMove) (t : Int) (m : Move) (s : State) : anchor
    (overlapJoint o c0 t m s) = anchor s := by unfold overlapJoint; (repeat' split) <;> simp [*]

@[simp] theorem decideJoint_anchor (o : Owner) (s : State) : anchor (decideJoint o s) = anchor s :=
  by unfold decideJoint; dsimp only; (repeat' split) <;> simp [*]

@[simp] theorem velSoftStop_anchor (o : Owner) (s : State) : anchor (velSoftStop o s) = anchor s :=
  by unfold velSoftStop; dsimp only; (repeat' split) <;> simp [*]

@[simp] theorem moveFails_anchor (o : Owner) (code : Nat) (l : Limits) (s : State) : anchor (moveFails o code l s)
    = anchor s := by simp [moveFails, *]

@[simp] theorem activate_anchor (o : Owner) (m : Move) (l : Limits) (s : State) : anchor (activate o m l s)
    = anchor s := by unfold activate; dsimp only; (repeat' split) <;> simp [*]

@[simp] theorem startOver_anchor (o : Owner) (c : CurMove) (s : State) : anchor (startOver o c s) = anchor s :=
  by unfold startOver; dsimp only; (repeat' split) <;> simp [*]

@[simp] theorem jointStep_anchor (o : Owner) (n : Nat) (s : State) : anchor (jointStep o n s) = anchor s :=
  by unfold jointStep; dsimp only; (repeat' split) <;> simp [*]

@[simp] theorem advance_anchor (o : Owner) (i : Nat) : ∀ (f : Nat) (s : State), anchor (advance o i f s)
    = anchor s := by
  intro f
  induction f with
  | zero => intro s; rfl
  | succ f ih =>
    intro s
    unfold advance; dsimp only
    (repeat' split) <;> simp [ih]

@[simp] theorem tickEntries_anchor (o : Owner) : ∀ (n : Nat) (es : List Entry) (s : State), anchor
    (tickEntries o n es s).2 = anchor s := by
  intro n
  induction n with
  | zero => intro es s; rfl
  | succ n ih => intro es s; unfold tickEntries; dsimp only; rw [ih]; simp

@[simp] theorem deferDecel_anchor (o : Owner) (s : State) : anchor (deferDecel o s) = anchor s :=
  by simp [deferDecel, *]

@[simp] theorem takeChglim_anchor (o : Owner) (n : Move) (s : State) : anchor (takeChglim o n s) = anchor s :=
  by unfold takeChglim; dsimp only; (repeat' split) <;> simp [*]

@[simp] theorem takeReplace_anchor (o : Owner) (m : Move) (lateNr : Option Nat) (s : State) : anchor
    (takeReplace o m lateNr s) = anchor s := by unfold takeReplace; dsimp only; (repeat' split) <;> simp [*]

@[simp] theorem refProfile_anchor (a : Nat) (ph : RefPhase) (c : CurMove) (s : State) : anchor
    (refProfile a ph c s) = anchor s := by simp [refProfile, *]

@[simp] theorem refDisarm_anchor (a : Nat) (s : State) : anchor (refDisarm a s) = anchor s := by simp [refDisarm, *]

@[simp] theorem takeRef_anchor (a : Nat) (s : State) : anchor (takeRef a s) = anchor s := by simp [takeRef, *]

@[simp] theorem refFail_anchor (a : Nat) (s : State) : anchor (refFail a s) = anchor s := by simp [refFail, *]

@[simp] theorem refShift_anchor (a : Nat) (d : Int) (s : State) : anchor (refShift a d s) = anchor s :=
  by simp [refShift, *]

@[simp] theorem refStep_anchor (a : Nat) (s : State) : anchor (refStep a s) = anchor s :=
  by unfold refStep; dsimp only; (repeat' split) <;> simp [*]

@[simp] theorem takeCmd_anchor (o : Owner) (c : PfCmd) (s : State) : anchor (takeCmd o c s) = anchor s :=
  by unfold takeCmd; (repeat' split) <;> simp [*]

@[simp] theorem takeQuick_anchor (o : Owner) (s : State) : anchor (takeQuick o s) = anchor s := by simp [takeQuick, *]

@[simp] theorem rejoin_anchor (o : Owner) (s : State) : anchor (rejoin o s) = anchor s :=
  by unfold rejoin; dsimp only; (repeat' split) <;> simp [*]

@[simp] theorem discardOwner_anchor (o : Owner) (s : State) : anchor (discardOwner o s) = anchor s :=
  by unfold discardOwner; (repeat' split) <;> simp [*]

@[simp] theorem readQueue_anchor (o : Owner) (s : State) : anchor (readQueue o s) = anchor s :=
  by unfold readQueue; (repeat' split) <;> simp [*]

@[simp] theorem storeQueue_anchor (o : Owner) (old : List Move) (s : State) : anchor (storeQueue o old s)
    = anchor s := by simp [storeQueue, *]

@[simp] theorem latchWheel_anchor (l : List Owner) (s : State) : anchor (latchWheel l s) = anchor s :=
  by simp [latchWheel, *]

@[simp] theorem planOwner_anchor (o : Owner) (s : State) : anchor (planOwner o s) = anchor s :=
  by unfold planOwner; (repeat' split) <;> simp [*]

@[simp] theorem tickOwner_anchor (o : Owner) (s : State) : anchor (tickOwner o s) = anchor s := by simp [tickOwner, *]

/-! ### Groups -/

@[simp] theorem setMembers_anchor (q : Nat × List Nat × Bool) (s : State) : anchor (setMembers q s) = anchor s :=
  by simp [setMembers, *]

@[simp] theorem moverMembership_anchor (s : State) : anchor (moverMembership s) = anchor s :=
  by simp [moverMembership, *]

@[simp] theorem deriveMembers_anchor (lead : Nat → List Entry) (g : Nat) (s : State) : anchor
    (deriveMembers lead g s) = anchor s := by simp [deriveMembers, *]

@[simp] theorem latchBases_anchor (lead : Nat → List Entry) (l : List Nat) (s : State) : anchor
    (latchBases lead l s) = anchor s := by simp [latchBases, *]

@[simp] theorem deriveGroups_anchor (lead : Nat → List Entry) (l : List Nat) (s : State) : anchor
    (deriveGroups lead l s) = anchor s := by simp [deriveGroups, *]

@[simp] theorem gantrySkew_anchor (g : Nat) (s : State) : anchor (gantrySkew g s) = anchor s :=
  by simp [gantrySkew, *]

@[simp] theorem mergeFeedback_anchor (g : Nat) (s : State) : anchor (mergeFeedback g s) = anchor s :=
  by simp [mergeFeedback, *]

@[simp] theorem mergeAll_anchor (s : State) : anchor (mergeAll s) = anchor s := by simp [mergeAll, *]

@[simp] theorem cxpSend_anchor (old s : State) : anchor (cxpSend old s) = anchor s := by simp [cxpSend, *]

@[simp] theorem wheelTick_anchor (s : State) : anchor (wheelTick s) = anchor s :=
  by unfold wheelTick; (repeat' split) <;> simp [*]

@[simp] theorem remoteKeep_anchor (g : Nat) (s : State) : anchor (remoteKeep g s) = anchor s :=
  by simp [remoteKeep, *]

@[simp] theorem remoteDerive_anchor (s : State) : anchor (remoteDerive s) = anchor s :=
  by unfold remoteDerive; (repeat' split) <;> simp [*]

end Sys2Proof.Machine
end

