-- ==== Sys2Proof/Laws/AnchorLink.lean ====
section
/-! SUPPORT. The operations of the link, Saggar, the twin and the retire block leave the anchor alone. -/

set_option linter.unusedSimpArgs false

namespace Sys2Proof.Machine

/-! ### Link -/

@[simp] theorem latViolate_anchor (s : State) : anchor (latViolate s) = anchor s := by simp [latViolate, *]

@[simp] theorem checkDelays_anchor (ch : Nat) (s : State) : anchor (checkDelays ch s) = anchor s :=
  by simp [checkDelays, *]

@[simp] theorem noteDelays_anchor (ch : Nat) (s : State) : anchor (noteDelays ch s) = anchor s :=
  by simp [noteDelays, *]

@[simp] theorem noteMargin_anchor (s : State) : anchor (noteMargin s) = anchor s :=
  by unfold noteMargin; dsimp only; (repeat' split) <;> simp [*]

@[simp] theorem sendSlot_anchor (ch start : Nat) (bytes : List Byte) (s : State) : anchor
    (sendSlot ch start bytes s) = anchor s := by simp [sendSlot, *]

@[simp] theorem sendEntry_anchor (ch : Nat) (e : SEntry) (pay : List Byte) (s : State) : anchor
    (sendEntry ch e pay s) = anchor s := by simp [sendEntry, *]

@[simp] theorem syncSent_anchor (ch n : Nat) (s : State) : anchor (syncSent ch n s) = anchor s :=
  by unfold syncSent; (repeat' split) <;> simp [*]

@[simp] theorem sendSync_anchor (ch : Nat) (e : SEntry) (s : State) : anchor (sendSync ch e s) = anchor s :=
  by simp [sendSync, *]

@[simp] theorem sendSvc_anchor (ch : Nat) (e : SEntry) (s : State) : anchor (sendSvc ch e s) = anchor s :=
  by unfold sendSvc; dsimp only; (repeat' split) <;> simp [*]

@[simp] theorem sendSchedule_anchor (ch : Nat) (s : State) : anchor (sendSchedule ch s) = anchor s :=
  by simp [sendSchedule, *]

@[simp] theorem orderReint_anchor (ch n : Nat) (s : State) : anchor (orderReint ch n s) = anchor s :=
  by simp [orderReint, *]

@[simp] theorem window_anchor (r : RxSlot) (n : Nat) (s : State) : anchor (window r n s).1 = anchor s :=
  by unfold window; dsimp only; (repeat' split) <;> simp [*]

@[simp] theorem noteContent_anchor (r : RxSlot) (e : SEntry) (s : State) : anchor (noteContent r e s) = anchor s :=
  by simp [noteContent, *]

@[simp] theorem repeatSlot_anchor (r : RxSlot) (s : State) : anchor (repeatSlot r s) = anchor s :=
  by unfold repeatSlot; (repeat' split) <;> simp [*]

@[simp] theorem acceptUp_anchor (r : RxSlot) (ty : Nat) (s' : State) : anchor (acceptUp r ty s').1 = anchor s' :=
  by unfold acceptUp; dsimp only; (repeat' split) <;> simp [*]

@[simp] theorem modIn_anchor (s : State) (a : Nat) (f : InEntry → InEntry) : anchor (modIn s a f) = anchor s :=
  by simp [modIn, *]

@[simp] theorem fupReceived_anchor (r : RxSlot) (s : State) : anchor (fupReceived r s) = anchor s := by
  unfold fupReceived
  have h0 := acceptUp_anchor r tyFUP s
  split
  all_goals (rename_i heq; rw [heq] at h0; dsimp only at h0 ⊢)
  all_goals (first | (simp [h0]; done) | ((repeat' split) <;> simp [h0]; done))

@[simp] theorem posReceived_anchor (r : RxSlot) (s : State) : anchor (posReceived r s) = anchor s := by
  unfold posReceived
  have h0 := acceptUp_anchor r tyPOS s
  split
  all_goals (rename_i heq; rw [heq] at h0; dsimp only at h0 ⊢)
  all_goals (first | (simp [h0]; done) | ((repeat' split) <;> simp [h0]; done))

@[simp] theorem diagReceived_anchor (r : RxSlot) (s : State) : anchor (diagReceived r s) = anchor s := by
  unfold diagReceived
  have h0 := acceptUp_anchor r tyDIAG s
  split
  all_goals (rename_i heq; rw [heq] at h0; dsimp only at h0 ⊢)
  all_goals (first | (simp [h0]; done) | ((repeat' split) <;> simp [h0]; done))

@[simp] theorem identityMismatch_anchor (n : Nat) (s : State) : anchor (identityMismatch n s) = anchor s :=
  by simp [identityMismatch, *]

@[simp] theorem takeReply_anchor (ch n addr : Nat) (w : Word) (s : State) : anchor (takeReply ch n addr w s)
    = anchor s := by simp [takeReply, *]

@[simp] theorem svcReply_anchor (r : RxSlot) (s : State) : anchor (svcReply r s) = anchor s := by
  unfold svcReply
  have h0 := acceptUp_anchor r tySVC s
  split
  all_goals (rename_i heq; rw [heq] at h0; dsimp only at h0 ⊢)
  all_goals (first | (simp [h0]; done) | ((repeat' split) <;> simp [h0]; done))

@[simp] theorem upstreamSilence_anchor (ch n : Nat) (s : State) : anchor (upstreamSilence ch n s) = anchor s :=
  by simp [upstreamSilence, *]

@[simp] theorem startLoading_anchor (s : State) : anchor (startLoading s) = anchor s := by simp [startLoading, *]

@[simp] theorem loadSequence_anchor (ch n : Nat) (s : State) : anchor (loadSequence ch n s) = anchor s :=
  by unfold loadSequence; (repeat' split) <;> simp [*]

@[simp] theorem loadTimeout_anchor (ch n : Nat) (s : State) : anchor (loadTimeout ch n s) = anchor s :=
  by simp [loadTimeout, *]

@[simp] theorem newBasis_anchor (n : Nat) (s : State) : anchor (newBasis n s) = anchor s := by simp [newBasis, *]

@[simp] theorem nodeAdmission_anchor (ch n : Nat) (s : State) : anchor (nodeAdmission ch n s) = anchor s :=
  by unfold nodeAdmission; dsimp only; (repeat' split) <;> simp [*]

@[simp] theorem noteWraps_anchor (ch : Nat) (s : State) : anchor (noteWraps ch s) = anchor s := by simp [noteWraps, *]

@[simp] theorem healCounted_anchor (ch seg : Nat) (s : State) : anchor (healCounted ch seg s) = anchor s :=
  by simp [healCounted, *]

@[simp] theorem judgeHeal_anchor (ch : Nat) (o : ChanObs) (old : Chan) (s : State) : anchor (judgeHeal ch o old s)
    = anchor s := by simp [judgeHeal, *]

@[simp] theorem channelLost_anchor (ch : Nat) (s : State) : anchor (channelLost ch s) = anchor s :=
  by simp [channelLost, *]

@[simp] theorem leaseRelease_anchor (s : State) : anchor (leaseRelease s) = anchor s := by simp [leaseRelease, *]

@[simp] theorem channelJudgement_anchor (ch : Nat) (o : ChanObs) (s : State) : anchor (channelJudgement ch o s)
    = anchor s := by unfold channelJudgement; dsimp only; (repeat' split) <;> simp [*]

@[simp] theorem skimEnded_anchor (s : State) : anchor (skimEnded s) = anchor s :=
  by unfold skimEnded; (repeat' split) <;> simp [*]

@[simp] theorem portLoss_anchor (ch port how : Nat) (s : State) : anchor (portLoss ch port how s) = anchor s :=
  by simp [portLoss, *]

@[simp] theorem unwrapOrder_anchor (ch : Nat) (s : State) : anchor (unwrapOrder ch s) = anchor s :=
  by unfold unwrapOrder; (repeat' split) <;> simp [*]

@[simp] theorem unwrap_anchor (ch : Nat) (s : State) : anchor (unwrap ch s) = anchor s :=
  by unfold unwrap; dsimp only; (repeat' split) <;> simp [*]

@[simp] theorem enterListen_anchor (pref alt : Nat) (s : State) : anchor (enterListen pref alt s) = anchor s :=
  by simp [enterListen, *]

@[simp] theorem storedLock_anchor (s : State) : anchor (storedLock s) = anchor s :=
  by unfold storedLock; (repeat' split) <;> simp [*]

@[simp] theorem coldAxes_anchor (s : State) : anchor (coldAxes s) = anchor s := by simp [coldAxes, *]

@[simp] theorem coldGroups_anchor (s : State) : anchor (coldGroups s) = anchor s := by simp [coldGroups, *]

@[simp] theorem becomeActive_anchor (h : HeadState) (s : State) : anchor (becomeActive h s) = anchor s :=
  by simp [becomeActive, *]

@[simp] theorem coldstartEnd_anchor (s : State) : anchor (coldstartEnd s) = anchor s := by simp [coldstartEnd, *]

@[simp] theorem idleRest_anchor (s : State) : anchor (idleRest s) = anchor s := by simp [idleRest, *]

@[simp] theorem collision_anchor (ch : Nat) (s : State) : anchor (collision ch s) = anchor s := by simp [collision, *]

@[simp] theorem stepDown_anchor (s : State) : anchor (stepDown s) = anchor s := by simp [stepDown, *]

@[simp] theorem followSkim_anchor (ch : Nat) (on : Bool) (s : State) : anchor (followSkim ch on s) = anchor s :=
  by simp [followSkim, *]

@[simp] theorem noteMark_anchor (r : RxSlot) (m : MarkInfo) (s : State) : anchor (noteMark r m s) = anchor s :=
  by simp [noteMark, *]

/-! ### Saggar -/

@[simp] theorem modSag_anchor (f : Saggar → Saggar) (s : State) : anchor (modSag f s) = anchor s :=
  by simp [modSag, *]

@[simp] theorem brakeReport_anchor (o : Owner) (released : Bool) (s : State) : anchor (brakeReport o released s)
    = anchor s := by unfold brakeReport; (repeat' split) <;> simp [*]

@[simp] theorem switchPair_anchor (k : Nat) (on : Bool) (s : State) : anchor (switchPair k on s) = anchor s :=
  by simp [switchPair, *]

@[simp] theorem outputs_anchor (s : State) : anchor (outputs s) = anchor s := by simp [outputs, *]

@[simp] theorem foundCause_anchor (c i : Nat) (s : State) : anchor (foundCause c i s) = anchor s :=
  by simp [foundCause, *]

@[simp] theorem clearCause_anchor (p : Nat × Nat → Bool) (s : State) : anchor (clearCause p s) = anchor s :=
  by simp [clearCause, *]

@[simp] theorem clearOutputs_anchor (s : State) : anchor (clearOutputs s) = anchor s := by simp [clearOutputs, *]

@[simp] theorem testEnd_anchor (res : Nat) (s : State) : anchor (testEnd res s) = anchor s :=
  by unfold testEnd; (repeat' split) <;> simp [*]

@[simp] theorem testRound_anchor (s : State) : anchor (testRound s) = anchor s :=
  by unfold testRound; (repeat' split) <;> simp [*]

@[simp] theorem btestEnd_anchor (s : State) : anchor (btestEnd s) = anchor s :=
  by unfold btestEnd; (repeat' split) <;> simp [*]

@[simp] theorem dueCheck_anchor (b : Nat) (s : State) : anchor (dueCheck b s) = anchor s := by simp [dueCheck, *]

@[simp] theorem pairsBack_anchor (s : State) : anchor (pairsBack s) = anchor s := by simp [pairsBack, *]

@[simp] theorem degStart_anchor (s : State) : anchor (degStart s) = anchor s := by simp [degStart, *]

@[simp] theorem takeReport_anchor (b low : Nat) (s : State) : anchor (takeReport b low s) = anchor s :=
  by unfold takeReport; dsimp only; (repeat' split) <;> simp [*]

@[simp] theorem formed_anchor (b link low : Nat) (s : State) : anchor (formed b link low s) = anchor s :=
  by simp [formed, *]

@[simp] theorem judgeCopies_anchor (b : Nat) (s : State) : anchor (judgeCopies b s) = anchor s :=
  by unfold judgeCopies; dsimp only; (repeat' split) <;> simp [*]

@[simp] theorem safeReceived_anchor (r : RxSlot) (s : State) : anchor (safeReceived r s) = anchor s := by
  unfold safeReceived
  have h0 := acceptUp_anchor r tySAFE s
  split
  all_goals (rename_i heq; rw [heq] at h0; dsimp only at h0 ⊢)
  all_goals (first | (simp [h0]; done) | ((repeat' split) <;> simp [h0]; done))

@[simp] theorem closePeriod_anchor (b : Nat) (s : State) : anchor (closePeriod b s) = anchor s :=
  by simp [closePeriod, *]

@[simp] theorem requestSeen_anchor (o : Owner) (s : State) : anchor (requestSeen o s) = anchor s :=
  by unfold requestSeen; (repeat' split) <;> simp [*]

@[simp] theorem decideBrake_anchor (b : Nat) (s : State) : anchor (decideBrake b s) = anchor s :=
  by simp [decideBrake, *]

@[simp] theorem nextSseq_anchor (b : Nat) (s : State) : anchor (nextSseq b s) = anchor s := by simp [nextSseq, *]

@[simp] theorem sendSafe_anchor (b : Nat) (es : List (Nat × SEntry)) (s : State) : anchor (sendSafe b es s)
    = anchor s := by simp [sendSafe, *]

@[simp] theorem safePeriod_anchor (s : State) : anchor (safePeriod s) = anchor s := by simp [safePeriod, *]

@[simp] theorem brakeTimeout_anchor (b : Nat) (s : State) : anchor (brakeTimeout b s) = anchor s :=
  by unfold brakeTimeout; dsimp only; (repeat' split) <;> simp [*]

@[simp] theorem degExceeded_anchor (s : State) : anchor (degExceeded s) = anchor s := by simp [degExceeded, *]

@[simp] theorem lockout_anchor (s : State) : anchor (lockout s) = anchor s :=
  by unfold lockout; (repeat' split) <;> simp [*]

@[simp] theorem leaveLocked_anchor (s : State) : anchor (leaveLocked s) = anchor s :=
  by unfold leaveLocked; (repeat' split) <;> simp [*]

@[simp] theorem safeReset_anchor (start : Word) (us : Nat) (s : State) : anchor (safeReset start us s) = anchor s :=
  by simp [safeReset, *]

@[simp] theorem testPulse_anchor (sealHigh resetHigh : Bool) (s : State) : anchor (testPulse sealHigh resetHigh s)
    = anchor s := by simp [testPulse, *]

@[simp] theorem hardStop_anchor (s : State) : anchor (hardStop s) = anchor s := by simp [hardStop, *]

@[simp] theorem selfTest_anchor (c : Nat) (ok : Bool) (note : Saggar → Saggar) (s : State) : anchor
    (selfTest c ok note s) = anchor s := by simp [selfTest, *]

@[simp] theorem comparatorTest_anchor (ok : Bool) (s : State) : anchor (comparatorTest ok s) = anchor s :=
  by simp [comparatorTest, *]

@[simp] theorem selfTestEnd_anchor (s : State) : anchor (selfTestEnd s) = anchor s :=
  by unfold selfTestEnd; dsimp only; (repeat' split) <;> simp [*]

@[simp] theorem sagRefuse_anchor (s : State) : anchor (sagRefuse s) = anchor s := by simp [sagRefuse, *]

@[simp] theorem clearPwd_anchor (s : State) : anchor (clearPwd s) = anchor s := by simp [clearPwd, *]

@[simp] theorem changeLog_anchor (kind id : Nat) (old new : Word) (s : State) : anchor
    (changeLog kind id old new s) = anchor s := by simp [changeLog, *]

@[simp] theorem pwdCmd_anchor (len : Nat) (s : State) : anchor (pwdCmd len s) = anchor s := by simp [pwdCmd, *]

@[simp] theorem pwdsetCmd_anchor (len : Nat) (s : State) : anchor (pwdsetCmd len s) = anchor s :=
  by simp [pwdsetCmd, *]

@[simp] theorem paramCmd_anchor (s : State) : anchor (paramCmd s) = anchor s := by simp [paramCmd, *]

@[simp] theorem applyParams_anchor (s : State) : anchor (applyParams s) = anchor s := by simp [applyParams, *]

@[simp] theorem sealcloseCmd_anchor (s : State) : anchor (sealcloseCmd s) = anchor s := by simp [sealcloseCmd, *]

@[simp] theorem logclearCmd_anchor (s : State) : anchor (logclearCmd s) = anchor s := by simp [logclearCmd, *]

@[simp] theorem btestCmd_anchor (b : Nat) (s : State) : anchor (btestCmd b s) = anchor s := by simp [btestCmd, *]

@[simp] theorem btabortCmd_anchor (s : State) : anchor (btabortCmd s) = anchor s := by simp [btabortCmd, *]

@[simp] theorem outsetCmd_anchor (mask : Nat) (s : State) : anchor (outsetCmd mask s) = anchor s :=
  by simp [outsetCmd, *]

@[simp] theorem sagCommand_anchor (w : Word) (s : State) : anchor (sagCommand w s) = anchor s :=
  by unfold sagCommand; (repeat' split) <;> simp [*]

@[simp] theorem sealPin_anchor (level : Bool) (s : State) : anchor (sealPin level s) = anchor s :=
  by simp [sealPin, *]

@[simp] theorem sagMs_anchor (s : State) : anchor (sagMs s) = anchor s := by simp [sagMs, *]

@[simp] theorem sagRounds_anchor (s : State) : anchor (sagRounds s) = anchor s := by simp [sagRounds, *]

/-! ### Twin -/

@[simp] theorem modTwin_anchor (f : Twin → Twin) (s : State) : anchor (modTwin f s) = anchor s := by simp [modTwin, *]

@[simp] theorem modCasc_anchor (f : Casc → Casc) (s : State) : anchor (modCasc f s) = anchor s := by simp [modCasc, *]

@[simp] theorem sendTwin_anchor (start ty : Nat) (pay : List Byte) (s : State) : anchor (sendTwin start ty pay s)
    = anchor s := by simp [sendTwin, *]

@[simp] theorem startEntry_anchor (s : State) : anchor (startEntry s) = anchor s := by simp [startEntry, *]

@[simp] theorem putBank_anchor (a : Nat) (bank : Bool) (ws : List Word) (s : State) : anchor (putBank a bank ws s)
    = anchor s := by simp [putBank, *]

@[simp] theorem takeCopy_anchor (c : CopyContent) (s : State) : anchor (takeCopy c s) = anchor s :=
  by unfold takeCopy; (repeat' split) <;> simp [*]

@[simp] theorem noteUnit_anchor (q : Nat × Nat) (s : State) : anchor (noteUnit q s) = anchor s :=
  by simp [noteUnit, *]

@[simp] theorem tcopyReceived_anchor (u : CopyUnit) (s : State) : anchor (tcopyReceived u s) = anchor s :=
  by simp [tcopyReceived, *]

@[simp] theorem isolate_anchor (c : Nat) (s : State) : anchor (isolate c s) = anchor s := by simp [isolate, *]

@[simp] theorem twinMismatch_anchor (s : State) : anchor (twinMismatch s) = anchor s := by simp [twinMismatch, *]

@[simp] theorem digestDiffers_anchor (s : State) : anchor (digestDiffers s) = anchor s := by simp [digestDiffers, *]

@[simp] theorem entryComplete_anchor (s : State) : anchor (entryComplete s) = anchor s := by simp [entryComplete, *]

@[simp] theorem digestAgrees_anchor (s : State) : anchor (digestAgrees s) = anchor s := by simp [digestAgrees, *]

@[simp] theorem tdigReceived_anchor (r : LaneSlot) (s : State) : anchor (tdigReceived r s) = anchor s :=
  by unfold tdigReceived; (repeat' split) <;> simp [*]

@[simp] theorem txqReceived_anchor (r : LaneSlot) (s : State) : anchor (txqReceived r s) = anchor s :=
  by unfold txqReceived; (repeat' split) <;> simp [*]

@[simp] theorem inUseAgain_anchor (cls idx : Nat) (s : State) : anchor (inUseAgain cls idx s) = anchor s :=
  by simp [inUseAgain, *]

@[simp] theorem adoptEffect_anchor (cls idx : Nat) (old : RetState) (s : State) : anchor
    (adoptEffect cls idx old s) = anchor s := by simp [adoptEffect, *]

@[simp] theorem takeRet_anchor (q : Nat × Nat × List Nat × Nat) (s : State) : anchor (takeRet q s) = anchor s :=
  by simp [takeRet, *]

@[simp] theorem tretReceived_anchor (r : LaneSlot) (s : State) : anchor (tretReceived r s) = anchor s :=
  by unfold tretReceived; (repeat' split) <;> simp [*]

@[simp] theorem tlinkReceived_anchor (r : LaneSlot) (s : State) : anchor (tlinkReceived r s) = anchor s :=
  by unfold tlinkReceived; (repeat' split) <;> simp [*]

@[simp] theorem grant_anchor (s : State) : anchor (grant s) = anchor s := by simp [grant, *]

@[simp] theorem steer_anchor (t1 t2 : Int) (s : State) : anchor (steer t1 t2 s) = anchor s := by simp [steer, *]

@[simp] theorem peerLock_anchor (st : Nat) (sagOk : Bool) (s : State) : anchor (peerLock st sagOk s) = anchor s :=
  by simp [peerLock, *]

@[simp] theorem tleaseReceived_anchor (r : LaneSlot) (s : State) : anchor (tleaseReceived r s) = anchor s :=
  by unfold tleaseReceived; (repeat' split) <;> simp [*]

@[simp] theorem newActive_anchor (takeover : Bool) (s : State) : anchor (newActive takeover s) = anchor s :=
  by simp [newActive, *]

@[simp] theorem leaseExpiry_anchor (s : State) : anchor (leaseExpiry s) = anchor s := by simp [leaseExpiry, *]

@[simp] theorem twinLinkLost_anchor (s : State) : anchor (twinLinkLost s) = anchor s := by simp [twinLinkLost, *]

@[simp] theorem laneLoss_anchor (s : State) : anchor (laneLoss s) = anchor s := by simp [laneLoss, *]

@[simp] theorem isoRejoin_anchor (s : State) : anchor (isoRejoin s) = anchor s := by simp [isoRejoin, *]

@[simp] theorem isolatedTimeout_anchor (s : State) : anchor (isolatedTimeout s) = anchor s :=
  by simp [isolatedTimeout, *]

@[simp] theorem hbreq_anchor (s : State) : anchor (hbreq s) = anchor s := by simp [hbreq, *]

@[simp] theorem modWaiting_anchor (f : List HostCmd → List HostCmd) (s : State) : anchor (modWaiting f s)
    = anchor s := by simp [modWaiting, *]

@[simp] theorem dropUnsure_anchor (s : State) : anchor (dropUnsure s) = anchor s := by simp [dropUnsure, *]

@[simp] theorem handbackEnd_anchor (s : State) : anchor (handbackEnd s) = anchor s := by simp [handbackEnd, *]

theorem yieldCmd_anchor (s : State) (t : State) (ht : yieldCmd s = some t) : anchor t = anchor s :=
  by unfold yieldCmd at ht; (repeat' split at ht) <;> (try simp at ht) <;> (try subst ht) <;> simp [*]

theorem rejoinCmd_anchor (s : State) (t : State) (ht : rejoinCmd s = some t) : anchor t = anchor s :=
  by unfold rejoinCmd at ht; (repeat' split at ht) <;> (try simp at ht) <;> (try subst ht) <;> simp [*]

theorem inhibitCmd_anchor (v : Bool) (s : State) (t : State) (ht : inhibitCmd v s = some t) : anchor t = anchor s :=
  by unfold inhibitCmd at ht; (repeat' split at ht) <;> (try simp at ht) <;> (try subst ht) <;> simp [*]

theorem twCommand_anchor (c : Nat) (s : State) (t : State) (ht : twCommand c s = some t) : anchor t = anchor s := by
  unfold twCommand at ht; (repeat' split at ht)
  · exact yieldCmd_anchor _ _ ht
  · exact rejoinCmd_anchor _ _ ht
  · exact inhibitCmd_anchor _ _ _ ht
  · exact inhibitCmd_anchor _ _ _ ht
  · cases ht

@[simp] theorem twAct_anchor (c : Nat) (s : State) : anchor (twAct c s) = anchor s :=
  by exact anchor_optD _ (fun t h => twCommand_anchor c s t h) (by simp)

@[simp] theorem forward_anchor (seq : Word) (src : Nat) (body : List Byte) (s : State) : anchor
    (forward seq src body s) = anchor s := by simp [forward, *]

@[simp] theorem tcmdReceived_anchor (r : LaneSlot) (s : State) : anchor (tcmdReceived r s) = anchor s :=
  by unfold tcmdReceived; (repeat' split) <;> simp [*]

@[simp] theorem tconfReceived_anchor (r : LaneSlot) (s : State) : anchor (tconfReceived r s) = anchor s :=
  by unfold tconfReceived; (repeat' split) <;> simp [*]

@[simp] theorem voidHand_anchor (s : State) : anchor (voidHand s) = anchor s := by
  simp [voidHand, *]

@[simp] theorem tconfTimeout_anchor (seq : Word) (s : State) : anchor (tconfTimeout seq s) = anchor s :=
  by simp [tconfTimeout, *]

@[simp] theorem tcommitReceived_anchor (r : LaneSlot) (s : State) : anchor (tcommitReceived r s) = anchor s := by
  unfold tcommitReceived
  repeat' split
  · rfl
  · apply anchor_forAll; intro q t
    (repeat' split) <;> simp
  · rfl

@[simp] theorem setCasc_anchor (st : Nat) (s : State) : anchor (setCasc st s) = anchor s := by simp [setCasc, *]

@[simp] theorem repeatCasc_anchor (r : LaneSlot) (s : State) : anchor (repeatCasc r s) = anchor s :=
  by simp [repeatCasc, *]

@[simp] theorem startTimer_anchor (s : State) : anchor (startTimer s) = anchor s := by
  unfold startTimer; split <;> simp [*]

@[simp] theorem csyncEdge_anchor (ofs : Int) (s : State) : anchor (csyncEdge ofs s) = anchor s :=
  by simp [csyncEdge, *]

@[simp] theorem csyncLost_anchor (s : State) : anchor (csyncLost s) = anchor s := by simp [csyncLost, *]

@[simp] theorem cwaitExpiry_anchor (s : State) : anchor (cwaitExpiry s) = anchor s := by simp [cwaitExpiry, *]

@[simp] theorem cascOff_anchor (s : State) : anchor (cascOff s) = anchor s := by simp [cascOff, *]

@[simp] theorem takeCxp_anchor (r : LaneSlot) (s : State) : anchor (takeCxp r s) = anchor s := by simp [takeCxp, *]

@[simp] theorem cxpReceived_anchor (r : LaneSlot) (s : State) : anchor (cxpReceived r s) = anchor s :=
  by simp [cxpReceived, *]

@[simp] theorem cascListen_anchor (s : State) : anchor (cascListen s) = anchor s := by simp [cascListen, *]

/-! ### RetireCmd -/

@[simp] theorem backoffEffect_anchor (cls idx : Nat) (s : State) : anchor (backoffEffect cls idx s) = anchor s :=
  by simp [backoffEffect, *]

@[simp] theorem backoffEnd_anchor (cls idx : Nat) (s : State) : anchor (backoffEnd cls idx s) = anchor s :=
  by simp [backoffEnd, *]

@[simp] theorem nodeRelease_anchor (n : Nat) (s : State) : anchor (nodeRelease n s) = anchor s :=
  by simp [nodeRelease, *]

@[simp] theorem releaseCore_anchor (cls idx : Nat) (s : State) : anchor (releaseCore cls idx s) = anchor s :=
  by simp [releaseCore, *]

@[simp] theorem releaseChannel_anchor (cls idx : Nat) (s : State) : anchor (releaseChannel cls idx s) = anchor s :=
  by simp [releaseChannel, *]

@[simp] theorem rtrelWrite_anchor (m : Master) (w : Word) (s : State) : anchor (rtrelWrite m w s) = anchor s :=
  by simp [rtrelWrite, *]

end Sys2Proof.Machine
end

