-- ==== Sys2Proof/Laws/AnchorBoot.lean ====
section
/-! SUPPORT. The operations of the recorder, images, boot and power leave the anchor alone. -/

set_option linter.unusedSimpArgs false

namespace Sys2Proof.Machine

/-! ### Recorder -/

@[simp] theorem modRcd_anchor (f : Recorder → Recorder) (s : State) : anchor (modRcd f s) = anchor s :=
  by simp [modRcd, *]

@[simp] theorem flashPut_anchor (a : Nat) (bs : List Byte) (s : State) : anchor (flashPut a bs s) = anchor s :=
  by simp [flashPut, *]

@[simp] theorem flashErase_anchor (a n : Nat) (s : State) : anchor (flashErase a n s) = anchor s :=
  by simp [flashErase, *]

@[simp] theorem clearHist_anchor (q : Nat) (s : State) : anchor (clearHist q s) = anchor s := by simp [clearHist, *]

@[simp] theorem clearCone_anchor (c : Nat) (s : State) : anchor (clearCone c s) = anchor s := by simp [clearCone, *]

@[simp] theorem recHead_anchor (a : Nat) (s : State) : anchor (recHead a s) = anchor s := by simp [recHead, *]

@[simp] theorem histTake_anchor (q : Nat) (x : F32) (s : State) : anchor (histTake q x s) = anchor s :=
  by simp [histTake, *]

@[simp] theorem exceed_anchor (c : Nat) (lo : Bool) (x : F32) (s : State) : anchor (exceed c lo x s) = anchor s :=
  by simp [exceed, *]

@[simp] theorem listFull_anchor (s : State) : anchor (listFull s) = anchor s := by simp [listFull, *]

@[simp] theorem bandCheck_anchor (c : Nat) (x : F32) (s : State) : anchor (bandCheck c x s) = anchor s :=
  by simp [bandCheck, *]

@[simp] theorem coneTake_anchor (c : Nat) (x : F32) (s : State) : anchor (coneTake c x s) = anchor s :=
  by simp [coneTake, *]

@[simp] theorem recTake_anchor (w : Word) (f : F32 → State → State) (s : State) (h_f : ∀ y t, anchor (f y t)
    = anchor t) : anchor (recTake w f s) = anchor s := by simp [recTake, *]

@[simp] theorem recSample_anchor (s : State) : anchor (recSample s) = anchor s := by simp [recSample, *]

@[simp] theorem stamp_anchor (kind : Nat) (s : State) : anchor (stamp kind s) = anchor s := by simp [stamp, *]

@[simp] theorem startSave_anchor (s : State) : anchor (startSave s) = anchor s := by simp [startSave, *]

@[simp] theorem saveComplete_anchor (ok : Bool) (s : State) : anchor (saveComplete ok s) = anchor s :=
  by simp [saveComplete, *]

@[simp] theorem loadCopy_anchor (a k : Nat) (q : Word) (s : State) : anchor (loadCopy a k q s) = anchor s :=
  by simp [loadCopy, *]

@[simp] theorem loadBlank_anchor (s : State) : anchor (loadBlank s) = anchor s := by simp [loadBlank, *]

theorem withMem_anchor (t : State) (m : Memory) : anchor { t with mem := m } = anchor t := rfl

@[simp] theorem recLoad_anchor (s : State) : anchor (recLoad s) = anchor s := by
  unfold recLoad; dsimp only
  rw [stamp_anchor, modRcd_anchor, withMem_anchor]
  split <;> simp

@[simp] theorem poweredHour_anchor (s : State) : anchor (poweredHour s) = anchor s := by simp [poweredHour, *]

@[simp] theorem poweredSecond_anchor (s : State) : anchor (poweredSecond s) = anchor s :=
  by unfold poweredSecond; (repeat' split) <;> simp [*]

@[simp] theorem rcResult_anchor (cmd res : Nat) (s : State) : anchor (rcResult cmd res s) = anchor s :=
  by simp [rcResult, *]

@[simp] theorem rcPwd_anchor (len : Nat) (s : State) : anchor (rcPwd len s) = anchor s := by simp [rcPwd, *]

@[simp] theorem rcClear_anchor (src : Source) (scope : Nat) (ok : Bool) (s : State) : anchor
    (rcClear src scope ok s) = anchor s := by simp [rcClear, *]

@[simp] theorem rcApplyClear_anchor (s : State) : anchor (rcApplyClear s) = anchor s :=
  by unfold rcApplyClear; (repeat' split) <;> simp [*]

@[simp] theorem rcSave_anchor (s : State) : anchor (rcSave s) = anchor s := by simp [rcSave, *]

@[simp] theorem rcLock_anchor (s : State) : anchor (rcLock s) = anchor s := by simp [rcLock, *]

@[simp] theorem rcCommand_anchor (src : Source) (w : Word) (s : State) : anchor (rcCommand src w s) = anchor s :=
  by unfold rcCommand; (repeat' split) <;> simp [*]

@[simp] theorem rcMs_anchor (s : State) : anchor (rcMs s) = anchor s := by simp [rcMs, *]

/-! ### Verify -/

@[simp] theorem withSkim_anchor (s : State) (ch : Option Nat) : anchor (withSkim s ch) = anchor s :=
  by simp [withSkim, *]

@[simp] theorem dropBeyond_anchor (s : State) : anchor (dropBeyond s) = anchor s := by simp [dropBeyond, *]

/-! ### Image -/

theorem imageStore_anchor (a : Nat) (w : Word) (s : State) (t : State) (ht : imageStore a w s = some t) : anchor t
    = anchor s := by
  unfold imageStore at ht; dsimp only at ht; (repeat' split at ht) <;> (try simp at ht) <;> (try subst ht) <;> simp [*]

/-! ### Boot -/

@[simp] theorem modBoot_anchor (f : Boot → Boot) (s : State) : anchor (modBoot f s) = anchor s := rfl

@[simp] theorem slotFailed_anchor (k code rec : Nat) (s : State) : anchor (slotFailed k code rec s) = anchor s :=
  by simp [slotFailed, *]

@[simp] theorem imageState_anchor (k : Nat) (rc : Tab RetCfg) (v : Verified) (s : State) : anchor
    (imageState k rc v s) = anchor s := by simp [imageState, *]

@[simp] theorem installImage_anchor (k : Nat) (rc : Tab RetCfg) (v : Verified) (s : State) : anchor
    (installImage k rc v s) = anchor s := by
  have h1 : anchor (imageState k rc v s) = anchor s := rfl
  unfold installImage; dsimp only
  rw [modBoot_anchor, recLoad_anchor, anchor_forAll]
  · exact h1
  · intro a t; simp

@[simp] theorem noImage_anchor (s : State) : anchor (noImage s) = anchor s := by simp [noImage, *]

@[simp] theorem bootSequence_anchor (b : BootObs) (s : State) : anchor (bootSequence b s) = anchor s :=
  by unfold bootSequence; (repeat' split) <;> simp [*]

@[simp] theorem coresStart_anchor (s : State) : anchor (coresStart s) = anchor s := by simp [coresStart, *]

@[simp] theorem bootInfo_anchor (s : State) : anchor (bootInfo s) = anchor s := by simp [bootInfo, *]

@[simp] theorem bootComplete_anchor (s : State) : anchor (bootComplete s) = anchor s := by simp [bootComplete, *]

@[simp] theorem imageCmd_anchor (cmd slot nw : Nat) (ws : List Word) (s : State) : anchor
    (imageCmd cmd slot nw ws s) = anchor s := by simp [imageCmd, *]

@[simp] theorem imgcmd_anchor (m : Master) (cmd slot nw : Nat) (s : State) : anchor (imgcmd m cmd slot nw s)
    = anchor s := by simp [imgcmd, *]

@[simp] theorem programBytes_anchor (k : Nat) (bs : List Byte) (s : State) : anchor (programBytes k bs s)
    = anchor s := by simp [programBytes, *]

@[simp] theorem verifyOutcome_anchor (k : Nat) (x : Verdict Verified) (s : State) : anchor (verifyOutcome k x s)
    = anchor s := by unfold verifyOutcome; (repeat' split) <;> simp [*]

@[simp] theorem verifyInactive_anchor (k : Nat) (rc : Tab RetCfg) (s : State) : anchor (verifyInactive k rc s)
    = anchor s := by simp [verifyInactive, *]

@[simp] theorem runImage_anchor (cmd k : Nat) (ws : List Word) (rc : Tab RetCfg) (s : State) : anchor
    (runImage cmd k ws rc s) = anchor s := by unfold runImage; (repeat' split) <;> simp [*]

@[simp] theorem imageCommandDone_anchor (ok : Bool) (rc : Tab RetCfg) (s : State) : anchor
    (imageCommandDone ok rc s) = anchor s := by unfold imageCommandDone; (repeat' split) <;> simp [*]

@[simp] theorem fpcmdGo_anchor (m : Master) (w : Word) (vpp : Bool) (s : State) : anchor (fpcmdGo m w vpp s)
    = anchor s := by
  unfold fpcmdGo
  apply withRight_anchor; intro t
  apply keyed_anchor; intro t; dsimp only
  (repeat' split) <;> simp

@[simp] theorem fuseWrite_anchor (ok : Bool) (s : State) : anchor (fuseWrite ok s) = anchor s :=
  by simp [fuseWrite, *]

@[simp] theorem fuseProgramDone_anchor (ok : Bool) (s : State) : anchor (fuseProgramDone ok s) = anchor s :=
  by simp [fuseProgramDone, *]

/-! ### Power -/

@[simp] theorem modSys_anchor (f : Sys → Sys) (s : State) : anchor (modSys f s) = anchor { s with sys := f s.sys } := rfl

@[simp] theorem setPower_anchor (p : PwrState) (s : State) : anchor (setPower p s) = anchor s := by simp [setPower, *]

@[simp] theorem deepRequest_anchor (s : State) : anchor (deepRequest s) = anchor s := by simp [deepRequest, *]

@[simp] theorem dipStamp_anchor (s : State) : anchor (dipStamp s) = anchor s := by simp [dipStamp, *]

@[simp] theorem supplyWarning_anchor (rail : Rail) (mv : Nat) (s : State) : anchor (supplyWarning rail mv s)
    = anchor s := by unfold supplyWarning; (repeat' split) <;> simp [*]

@[simp] theorem supplyClear_anchor (core aon : DipObs) (s : State) : anchor (supplyClear core aon s) = anchor s :=
  by simp [supplyClear, *]

@[simp] theorem deferralEnd_anchor (s : State) : anchor (deferralEnd s) = anchor s := by simp [deferralEnd, *]

@[simp] theorem wdKick_anchor (w : Word) (s : State) : anchor (wdKick w s) = anchor s := by simp [wdKick, *]

end Sys2Proof.Machine
end

