-- ==== Sys2Proof/Laws/AnchorLadle.lean ====
section
/-! SUPPORT. The operations of register writes and the Ladle cores leave the anchor alone. -/

set_option linter.unusedSimpArgs false

namespace Sys2Proof.Machine

/-! ### Views -/

@[simp] theorem groupShown_anchor (s : State) (g : Nat) : anchor (groupShown s g) = anchor s :=
  by simp [groupShown, *]

@[simp] theorem readWord_anchor (m : Master) (a : Nat) (s : State) : anchor (readWord m a s).1 = anchor s :=
  by unfold readWord; (repeat' split) <;> simp [*]

/-! ### LadleCore -/

@[simp] theorem restartCore_anchor (c : Nat) (s : State) : anchor (restartCore c s) = anchor s :=
  by simp [restartCore, *]

@[simp] theorem stopCore_anchor (c : Nat) (s : State) : anchor (stopCore c s) = anchor s := by simp [stopCore, *]

theorem ldCommand_anchor (m : Master) (cmd c : Nat) (s : State) (t : State) (ht : ldCommand m cmd c s = some t)
    : anchor t = anchor s :=
  by unfold ldCommand at ht; (repeat' split at ht) <;> (try simp at ht) <;> (try subst ht) <;> simp [*]

@[simp] theorem ldAct_anchor (m : Master) (cmd c : Nat) (s : State) : anchor (ldAct m cmd c s) = anchor s :=
  by exact anchor_optD _ (fun t h => ldCommand_anchor m cmd c s t h) (by simp)

@[simp] theorem mboxWrite_anchor (v : Word) (s : State) : anchor (mboxWrite v s) = anchor s := by simp [mboxWrite, *]

@[simp] theorem sliceOverrun_anchor (c : Nat) (s : State) : anchor (sliceOverrun c s) = anchor s :=
  by unfold sliceOverrun; (repeat' split) <;> simp [*]

/-! ### RegWrite -/

@[simp] theorem wIgnored_anchor (s : State) : anchor (wIgnored s).1 = anchor s := by simp [wIgnored, *]

@[simp] theorem wAccess_anchor (s : State) : anchor (wAccess s).1 = anchor s := by simp [wAccess, *]

@[simp] theorem wDone_anchor (s : State) : anchor (wDone s).1 = anchor s := by simp [wDone, *]

theorem wTry_anchor (o : Option State) (s : State) (h : ∀ t, o = some t → anchor t = anchor s) : anchor
    (wTry o s).1 = anchor s := by
  unfold wTry; split
  · exact h _ rfl
  · simp

@[simp] theorem wCode_anchor (code : Nat) (s : State) : anchor (wCode code s).1 = anchor s := by simp [wCode, *]

@[simp] theorem wKeyed_anchor (w : Word) (f : State → State × WRes) (s : State) (h : ∀ t, anchor (f t).1
    = anchor t) : anchor (wKeyed w f s).1 = anchor s := by
  unfold wKeyed; split
  · exact h s
  · simp [wDone]

@[simp] theorem sramWrite_anchor (m : Master) (a : Nat) (bs : List Byte) (s : State) : anchor
    (sramWrite m a bs s).1 = anchor s := by unfold sramWrite; (repeat' split) <;> simp [*]

@[simp] theorem modStag_anchor (m : Master) (o : Owner) (f : Move → Move) (s : State) : anchor (modStag m o f s)
    = anchor s := by simp [modStag, *]

@[simp] theorem stagWrite_anchor (m : Master) (o : Owner) (i : Nat) (v : Word) (s : State) : anchor
    (stagWrite m o i v s) = anchor s := by unfold stagWrite; (repeat' split) <;> simp [*]

@[simp] theorem armWrite_anchor (m : Master) (a k : Nat) (v : Word) (s : State) : anchor (armWrite m a k v s)
    = anchor s := by unfold armWrite; (repeat' split) <;> simp [*]

@[simp] theorem profWrite_anchor (m : Master) (o : Owner) (k : Nat) (v : Word) (s : State) : anchor
    (profWrite m o k v s).1 = anchor s := by unfold profWrite; (repeat' split) <;> simp [*]

@[simp] theorem axisWrite_anchor (m : Master) (x k : Nat) (v : Word) (s : State) : anchor (axisWrite m x k v s).1
    = anchor s := by unfold axisWrite; dsimp only; (repeat' split) <;> simp [*]

@[simp] theorem groupWrite_anchor (m : Master) (g k : Nat) (v : Word) (s : State) : anchor (groupWrite m g k v s).1
    = anchor s := by unfold groupWrite; (repeat' split) <;> simp [*]

@[simp] theorem sysWrite_anchor (m : Master) (o : Nat) (v : Word) (s : State) : anchor (sysWrite m o v s).1
    = anchor s := by
  unfold sysWrite; split
  · apply wKeyed_anchor; intro t; (repeat' split) <;> simp
  · simp
  · apply wKeyed_anchor; intro t; simp
  · simp
  · apply wKeyed_anchor; intro t; rw [wDone_anchor]; split <;> simp
  · simp

@[simp] theorem modEv_anchor (f : Events → Events) (s : State) : anchor (modEv f s) = anchor s := by simp [modEv, *]

@[simp] theorem evtWrite_anchor (o : Nat) (v : Word) (s : State) : anchor (evtWrite o v s).1 = anchor s :=
  by unfold evtWrite; (repeat' split) <;> simp [*]

@[simp] theorem bootWrite_anchor (m : Master) (o : Nat) (v : Word) (s : State) : anchor (bootWrite m o v s).1
    = anchor s := by
  unfold bootWrite
  split
  · apply wKeyed_anchor; intro t; simp
  · (repeat' split) <;> simp

@[simp] theorem sagWrite_anchor (o : Nat) (v : Word) (s : State) : anchor (sagWrite o v s).1 = anchor s := by
  unfold sagWrite
  split
  · apply wKeyed_anchor; intro t; split <;> simp
  · (repeat' split) <;> simp

@[simp] theorem recWrite_anchor (src : Source) (o : Nat) (v : Word) (s : State) : anchor (recWrite src o v s).1
    = anchor s := by unfold recWrite; (repeat' split) <;> simp [*]

@[simp] theorem ladWrite_anchor (m : Master) (o : Nat) (v : Word) (s : State) : anchor (ladWrite m o v s).1
    = anchor s := by
  unfold ladWrite
  split
  · split <;> simp
  · split
    · apply wKeyed_anchor; intro t
      exact wTry_anchor _ _ (fun u h => ldCommand_anchor _ _ _ _ _ h)
    · (repeat' split) <;> simp

@[simp] theorem unitWrite_anchor (m : Master) (src : Source) (r : Region) (o : Nat) (v : Word) (s : State) : anchor
    (unitWrite m src r o v s).1 = anchor s := by
  unfold unitWrite
  split
  all_goals first
    | (simp; done)
    | (split <;> simp; done)
    | (dsimp only; (repeat' split) <;> simp; done)
    | (split
       · rw [wKeyed_anchor]
         intro t; exact wTry_anchor _ _ (fun u h => twCommand_anchor _ _ _ h)
       · simp)

@[simp] theorem busWrite_anchor (m : Master) (src : Source) (a n : Nat) (v : Word) (s : State) : anchor
    (busWrite m src a n v s).1 = anchor s := by unfold busWrite; (repeat' split) <;> simp [*]

/-! ### Ladle -/

@[simp] theorem issue_anchor (c : Nat) (trap : State → Core → Trap) (last : Core → Word) (stall : State → Core → Nat)
    (act : Core → State → State) (s : State) (ha : ∀ k t, anchor (act k t) = anchor t) : anchor (issue c trap last stall act s) = anchor s := by
  unfold issue; dsimp only
  (repeat' split) <;> simp [ha]

@[simp] theorem issueK_anchor (c : Nat) (f : Core → Core) (s : State) : anchor (issueK c f s) = anchor s := by
  unfold issueK; apply issue_anchor; intro k t; simp

@[simp] theorem aluOp_anchor (c d : Nat) (x y : Core → Word) (f : Word → Word → Word) (fl : Core → Word → Word
    → Nat) (s : State) : anchor (aluOp c d x y f fl s) = anchor s := by simp [aluOp, *]

@[simp] theorem logicOp_anchor (c d a b : Nat) (f : Word → Word → Word) (s : State) : anchor (logicOp c d a b f s)
    = anchor s := by simp [logicOp, *]

@[simp] theorem ldNop_anchor (c : Nat) (s : State) : anchor (ldNop c s) = anchor s := by simp [ldNop, *]

@[simp] theorem ldAdd_anchor (c d a b : Nat) (s : State) : anchor (ldAdd c d a b s) = anchor s := by simp [ldAdd, *]

@[simp] theorem ldSub_anchor (c d a b : Nat) (s : State) : anchor (ldSub c d a b s) = anchor s := by simp [ldSub, *]

@[simp] theorem ldAddi_anchor (c d a : Nat) (imm : BitVec 18) (s : State) : anchor (ldAddi c d a imm s) = anchor s :=
  by simp [ldAddi, *]

@[simp] theorem ldCmp_anchor (c a b : Nat) (s : State) : anchor (ldCmp c a b s) = anchor s := by simp [ldCmp, *]

@[simp] theorem ldShift_anchor (kind c d a : Nat) (amt : ShAmt) (s : State) : anchor (ldShift kind c d a amt s)
    = anchor s := by simp [ldShift, *]

@[simp] theorem dataOp_anchor (kind : Producer) (c d : Nat) (f : Core → Word) (s : State) : anchor
    (dataOp kind c d f s) = anchor s := by simp [dataOp, *]

@[simp] theorem ldPick_anchor (min_ : Bool) (c d a b : Nat) (s : State) : anchor (ldPick min_ c d a b s) = anchor s := by
  unfold ldPick
  (try dsimp only)
  apply issue_anchor; intro k t; (try dsimp only); (repeat' split) <;> simp

@[simp] theorem ldMac_anchor (c acc a b : Nat) (md : MacMode) (s : State) : anchor (ldMac c acc a b md s)
    = anchor s := by simp [ldMac, *]

@[simp] theorem ldRda_anchor (c d acc sh : Nat) (s : State) : anchor (ldRda c d acc sh s) = anchor s := by
  unfold ldRda
  (try dsimp only)
  apply issue_anchor; intro k t; (try dsimp only); (repeat' split) <;> simp

@[simp] theorem loadN_anchor (c a n : Nat) (s : State) : anchor (loadN c a n s).1 = anchor s :=
  by unfold loadN; (repeat' split) <;> simp [*]

@[simp] theorem compactStore_anchor (a n : Nat) (v : Word) (s : State) : anchor (compactStore a n v s) = anchor s :=
  by simp [compactStore, *]

@[simp] theorem storeN_anchor (c a n : Nat) (v : Word) (s : State) : anchor (storeN c a n v s) = anchor s :=
  by simp [storeN, *]

@[simp] theorem withCore_anchor (c : Nat) (k0 : Core) (f : Core → Core) (s : State) : anchor (withCore c k0 f s)
    = anchor s := by simp [withCore, *]

@[simp] theorem zeroRefused_anchor (c : Nat) (trap : State → Core → Trap) (dest : State → Core → List Res) (s0 s1
    : State) : anchor (zeroRefused c trap dest s0 s1) = anchor s1 := by
  unfold zeroRefused; dsimp only; split <;> simp

@[simp] theorem ldLoad_anchor (c d p : Nat) (md : MemMode) (w : MemWidth) (s : State) : anchor
    (ldLoad c d p md w s) = anchor s := by
  unfold ldLoad; dsimp only; rw [zeroRefused_anchor]
  apply issue_anchor; intro k t; (try dsimp only); (repeat' split) <;> simp

@[simp] theorem ldStore_anchor (c d p : Nat) (md : MemMode) (w : MemWidth) (s : State) : anchor
    (ldStore c d p md w s) = anchor s := by simp [ldStore, *]

@[simp] theorem ldLdp_anchor (c pk pj : Nat) (imm : BitVec 16) (s : State) : anchor (ldLdp c pk pj imm s)
    = anchor s := by
  unfold ldLdp; dsimp only; rw [zeroRefused_anchor]
  apply issue_anchor; intro k t; (try dsimp only); (repeat' split) <;> simp

@[simp] theorem dualOne_anchor (c : Nat) (k0 : Core) (wr : List Nat) (l : Option DualLoad) (q : State × Core)
    : anchor (dualOne c k0 wr l q).1 = anchor q.1 := by
  unfold dualOne; split <;> simp

@[simp] theorem dualOp_anchor (c : Nat) (wr : List Nat) (f : Core → Core) (x y : Option DualLoad) (s : State)
    : anchor (dualOp c wr f x y s) = anchor s := by
  unfold dualOp; dsimp only; rw [zeroRefused_anchor]
  apply issue_anchor; intro k t; simp

@[simp] theorem ldFmad_anchor (c d a b : Nat) (x y : Option DualLoad) (s : State) : anchor (ldFmad c d a b x y s)
    = anchor s := by simp [ldFmad, *]

@[simp] theorem ldMacd_anchor (c acc a b : Nat) (x y : Option DualLoad) (s : State) : anchor
    (ldMacd c acc a b x y s) = anchor s := by simp [ldMacd, *]

@[simp] theorem ldLd2_anchor (c : Nat) (x y : Option DualLoad) (s : State) : anchor (ldLd2 c x y s) = anchor s :=
  by simp [ldLd2, *]

@[simp] theorem ptrOp_anchor (kind : Producer) (c : Nat) (r : Res) (f : Core → Word) (s : State) : anchor
    (ptrOp kind c r f s) = anchor s := by simp [ptrOp, *]

@[simp] theorem branchOp_anchor (c : Nat) (t : Core → Option Word) (f : Core → Core) (s : State) : anchor
    (branchOp c t f s) = anchor s := by
  unfold branchOp; dsimp only
  have : anchor (issue c branchTrap Core.pc noStall (fun k s => modCore c (fun _ => f k) s) s) = anchor s := by
    apply issue_anchor; intro k t; simp
  split <;> simp [this]

@[simp] theorem ldB_anchor (c : Nat) (cond : BrCond) (off : BitVec 22) (s : State) : anchor (ldB c cond off s)
    = anchor s := by simp [ldB, *]

@[simp] theorem ldCall_anchor (c : Nat) (off : BitVec 22) (s : State) : anchor (ldCall c off s) = anchor s :=
  by simp [ldCall, *]

@[simp] theorem ldJr_anchor (c a : Nat) (s : State) : anchor (ldJr c a s) = anchor s := by simp [ldJr, *]

@[simp] theorem repOp_anchor (c len : Nat) (n : Core → Nat) (s : State) : anchor (repOp c len n s) = anchor s := by
  unfold repOp
  (try dsimp only)
  apply issue_anchor; intro k t; (try dsimp only); (repeat' split) <;> simp

@[simp] theorem ldRepr_anchor (c a len : Nat) (s : State) : anchor (ldRepr c a len s) = anchor s :=
  by simp [ldRepr, *]

@[simp] theorem ldBrk_anchor (c : Nat) (s : State) : anchor (ldBrk c s) = anchor s := by simp [ldBrk, *]

@[simp] theorem sliceEnd_anchor (c : Nat) (k : Core) (s : State) : anchor (sliceEnd c k s) = anchor s :=
  by unfold sliceEnd; (repeat' split) <;> simp [*]

@[simp] theorem ldWait_anchor (c : Nat) (s : State) : anchor (ldWait c s) = anchor s := by
  unfold ldWait
  (try dsimp only)
  apply issue_anchor; intro k t; (try dsimp only); (repeat' split) <;> simp

@[simp] theorem ldRti_anchor (c : Nat) (s : State) : anchor (ldRti c s) = anchor s := by
  unfold ldRti; dsimp only
  have : anchor (issue c (rtiTrap c) Core.pc noStall (fun _ s => s.tick) s) = anchor s := by
    apply issue_anchor; intro k t; simp
  split <;> simp [this]

@[simp] theorem ldMsr_anchor (c a : Nat) (s : State) : anchor (ldMsr c a s) = anchor s := by simp [ldMsr, *]

@[simp] theorem ldIe_anchor (v : Bool) (c : Nat) (s : State) : anchor (ldIe v c s) = anchor s := by simp [ldIe, *]

@[simp] theorem ldRdc_anchor (c d : Nat) (s : State) : anchor (ldRdc c d s) = anchor s := by
  unfold ldRdc
  (try dsimp only)
  apply issue_anchor; intro k t; (try dsimp only); (repeat' split) <;> simp

@[simp] theorem compactInterrupt_anchor (s : State) : anchor (compactInterrupt s) = anchor s :=
  by simp [compactInterrupt, *]

/-! ### LadleIsa -/

@[simp] theorem ldAnd_anchor (c d a b : Nat) (s : State) : anchor (ldAnd c d a b s) = anchor s := by simp [ldAnd, *]

@[simp] theorem ldOr_anchor (c d a b : Nat) (s : State) : anchor (ldOr c d a b s) = anchor s := by simp [ldOr, *]

@[simp] theorem ldXor_anchor (c d a b : Nat) (s : State) : anchor (ldXor c d a b s) = anchor s := by simp [ldXor, *]

@[simp] theorem ldMul_anchor (c d a b : Nat) (s : State) : anchor (ldMul c d a b s) = anchor s := by simp [ldMul, *]

@[simp] theorem ldMovl_anchor (c d : Nat) (imm : BitVec 16) (s : State) : anchor (ldMovl c d imm s) = anchor s :=
  by simp [ldMovl, *]

@[simp] theorem ldMovh_anchor (c d : Nat) (imm : BitVec 16) (s : State) : anchor (ldMovh c d imm s) = anchor s :=
  by simp [ldMovh, *]

@[simp] theorem ldMov_anchor (c d a : Nat) (s : State) : anchor (ldMov c d a s) = anchor s := by simp [ldMov, *]

@[simp] theorem ldFadd_anchor (c d a b : Nat) (s : State) : anchor (ldFadd c d a b s) = anchor s :=
  by simp [ldFadd, *]

@[simp] theorem ldFsub_anchor (c d a b : Nat) (s : State) : anchor (ldFsub c d a b s) = anchor s :=
  by simp [ldFsub, *]

@[simp] theorem ldFmul_anchor (c d a b : Nat) (s : State) : anchor (ldFmul c d a b s) = anchor s :=
  by simp [ldFmul, *]

@[simp] theorem ldFma_anchor (c d a b : Nat) (s : State) : anchor (ldFma c d a b s) = anchor s := by simp [ldFma, *]

@[simp] theorem ldFms_anchor (c d a b : Nat) (s : State) : anchor (ldFms c d a b s) = anchor s := by simp [ldFms, *]

@[simp] theorem ldFcmp_anchor (c a b : Nat) (s : State) : anchor (ldFcmp c a b s) = anchor s := by simp [ldFcmp, *]

@[simp] theorem ldFabs_anchor (c d a : Nat) (s : State) : anchor (ldFabs c d a s) = anchor s := by simp [ldFabs, *]

@[simp] theorem ldFneg_anchor (c d a : Nat) (s : State) : anchor (ldFneg c d a s) = anchor s := by simp [ldFneg, *]

@[simp] theorem ldIntFp_anchor (c d a : Nat) (s : State) : anchor (ldIntFp c d a s) = anchor s := by simp [ldIntFp, *]

@[simp] theorem ldFpInt_anchor (c d a : Nat) (s : State) : anchor (ldFpInt c d a s) = anchor s := by simp [ldFpInt, *]

@[simp] theorem ldQ31Fp_anchor (c d a : Nat) (s : State) : anchor (ldQ31Fp c d a s) = anchor s := by simp [ldQ31Fp, *]

@[simp] theorem ldFpQ31_anchor (c d a : Nat) (s : State) : anchor (ldFpQ31 c d a s) = anchor s := by simp [ldFpQ31, *]

@[simp] theorem ldFrcp_anchor (c d a : Nat) (s : State) : anchor (ldFrcp c d a s) = anchor s := by simp [ldFrcp, *]

@[simp] theorem ldMva_anchor (c acc a sh : Nat) (s : State) : anchor (ldMva c acc a sh s) = anchor s :=
  by simp [ldMva, *]

@[simp] theorem ldClr_anchor (c acc : Nat) (s : State) : anchor (ldClr c acc s) = anchor s := by simp [ldClr, *]

@[simp] theorem ldRdg_anchor (c d acc : Nat) (s : State) : anchor (ldRdg c d acc s) = anchor s := by simp [ldRdg, *]

@[simp] theorem ldPmvPD_anchor (c pk d : Nat) (s : State) : anchor (ldPmvPD c pk d s) = anchor s :=
  by simp [ldPmvPD, *]

@[simp] theorem ldPmvDP_anchor (c d pk : Nat) (s : State) : anchor (ldPmvDP c d pk s) = anchor s :=
  by simp [ldPmvDP, *]

@[simp] theorem ldPmvMD_anchor (c mk d : Nat) (s : State) : anchor (ldPmvMD c mk d s) = anchor s :=
  by simp [ldPmvMD, *]

@[simp] theorem ldPmvDM_anchor (c d mk : Nat) (s : State) : anchor (ldPmvDM c d mk s) = anchor s :=
  by simp [ldPmvDM, *]

@[simp] theorem ldPadd_anchor (c pk pj : Nat) (imm : BitVec 16) (s : State) : anchor (ldPadd c pk pj imm s)
    = anchor s := by simp [ldPadd, *]

@[simp] theorem ldMset_anchor (c mk : Nat) (imm : BitVec 16) (s : State) : anchor (ldMset c mk imm s) = anchor s :=
  by simp [ldMset, *]

@[simp] theorem ldMlen_anchor (c mk : Nat) (imm : BitVec 16) (s : State) : anchor (ldMlen c mk imm s) = anchor s :=
  by simp [ldMlen, *]

@[simp] theorem ldRep_anchor (c count len : Nat) (s : State) : anchor (ldRep c count len s) = anchor s :=
  by simp [ldRep, *]

@[simp] theorem ldMrs_anchor (c d : Nat) (s : State) : anchor (ldMrs c d s) = anchor s := by simp [ldMrs, *]

/-! ### Slices -/

theorem decodeLadle_anchor (c : Nat) (w : Word) (f : State → State) (h : decodeLadle c w = some f) (s : State)
    : anchor (f s) = anchor s := by
  unfold decodeLadle at h; dsimp only at h
  split at h
  · unfold decodeAlu at h; dsimp only at h
    (repeat' split at h) <;> cases h <;> simp
  · split at h
    · unfold decodeMem at h; dsimp only at h
      generalize (match bits w 18 17 with
        | 0 => some (MemMode.offset (BitVec.ofNat 15 (bits w 14 0)))
        | 1 => if bits w 14 0 = 0 then some MemMode.postModify else none
        | _ => none) = md at h
      split at h
      · rcases Option.map_eq_some_iff.1 h with ⟨m, _, rfl⟩; simp
      · rcases Option.map_eq_some_iff.1 h with ⟨m, _, rfl⟩; simp
      · (repeat' split at h) <;> cases h <;> simp
    · split at h
      · unfold decodeFlow at h; dsimp only at h
        split at h
        · rcases Option.map_eq_some_iff.1 h with ⟨q, _, rfl⟩; simp
        all_goals ((repeat' split at h) <;> cases h <;> simp)
      · split at h
        · unfold decodeSys at h; dsimp only at h
          (repeat' split at h) <;> cases h <;> simp
        · split at h
          · unfold decodeDual at h; dsimp only at h
            (repeat' split at h) <;> cases h <;> simp
          · cases h

@[simp] theorem stepCore_anchor (c : Nat) (s : State) : anchor (stepCore c s) = anchor s := by
  unfold stepCore; dsimp only
  split
  · rfl
  · split
    · simp
    · split
      · simp
      · split
        · rename_i h; exact (decodeLadle_anchor _ _ _ h _).trans (by simp)
        · simp

@[simp] theorem runCore_anchor (c : Nat) : ∀ (n : Nat) (s : State), anchor (runCore n c s) = anchor s := by
  intro n
  induction n with
  | zero => intro s; rfl
  | succ n ih => intro s; unfold runCore; split <;> simp [ih]

@[simp] theorem runSlice_anchor (a st : Nat) (n : Word) (s : State) : anchor (runSlice a st n s) = anchor s := by
  unfold runSlice; dsimp only
  (repeat' split) <;> simp

end Sys2Proof.Machine
end

