-- ==== Sys2Proof/Laws/AnchorHost.lean ====
section
/-! SUPPORT. The operations of the clusters, local ports, the host port, the shadow state and the round leave the anchor alone. -/

set_option linter.unusedSimpArgs false

namespace Sys2Proof.Machine

/-! ### Cluster -/

@[simp] theorem showGroups_anchor (a : Nat) (n : Word) (s : State) : anchor (showGroups a n s) = anchor s :=
  by simp [showGroups, *]

@[simp] theorem eccAxis_anchor (a : Nat) (s : State) : anchor (eccAxis a s) = anchor s := by simp [eccAxis, *]

@[simp] theorem axisTurn_anchor (turns : List Turn) (a : Nat) (m : Word) (s : State) : anchor
    (axisTurn turns a m s) = anchor s := by
  unfold axisTurn
  extract_lets n s0 s1 s2
  have h0 : anchor s0 = anchor s := by simp only [s0, computeAxis_anchor]; split <;> simp
  have h1 : anchor s1 = anchor s := by
    simp only [s1]; rw [anchor_onlyIf]
    · exact h0
    · intro t; simp only [snapAxis_anchor]; split <;> simp
  have h2 : anchor s2 = anchor s := by simp [s2, h1]
  clear_value s2
  split
  · exact h2
  · extract_lets s3
    have h3 : anchor s3 = anchor s := by simp only [s3]; (repeat' split) <;> simp [h2]
    simp [h3]

@[simp] theorem clusterWake_anchor (c : Nat) (s : State) : anchor (clusterWake c s) = anchor s :=
  by simp [clusterWake, *]

@[simp] theorem sendLost_anchor (a : Nat) (pay : List Byte) (s : State) : anchor (sendLost a pay s) = anchor s :=
  by unfold sendLost; dsimp only; (repeat' split) <;> simp [*]

@[simp] theorem fdnDeparture_anchor (a : Nat) (s : State) : anchor (fdnDeparture a s) = anchor s :=
  by unfold fdnDeparture; dsimp only; (repeat' split) <;> simp [*]

/-! ### Local -/

@[simp] theorem modPort_anchor (k : Nat) (f : Port → Port) (s : State) : anchor (modPort k f s) = anchor s :=
  by simp [modPort, *]

@[simp] theorem localProbe_anchor (pin : Nat) (level : Bool) (clk len : Nat) (s : State) : anchor
    (localProbe pin level clk len s) = anchor s := by simp [localProbe, *]

@[simp] theorem localEncoder_anchor (k : Nat) (a b z : Bool) (s : State) : anchor (localEncoder k a b z s)
    = anchor s := by simp [localEncoder, *]

@[simp] theorem ssiStart_anchor (k : Nat) (s : State) : anchor (ssiStart k s) = anchor s := by simp [ssiStart, *]

@[simp] theorem ssiEnd_anchor (k : Nat) (startOk : Bool) (l : List Bool) (s : State) : anchor
    (ssiEnd k startOk l s) = anchor s := by simp [ssiEnd, *]

@[simp] theorem portSamples_anchor (s : State) : anchor (portSamples s) = anchor s := by
  unfold portSamples; dsimp only
  rw [anchor_forAll, anchor_forAll]
  · intro a t; simp
  · intro k t; simp

/-! ### Host -/

@[simp] theorem modHost_anchor (f : HostPort → HostPort) (s : State) : anchor (modHost f s) = anchor s :=
  by simp [modHost, *]

@[simp] theorem spiPut_anchor (note : Bool) (l : List Byte) (s : State) : anchor (spiPut note l s) = anchor s :=
  by unfold spiPut; dsimp only; (repeat' split) <;> simp [*]

@[simp] theorem sendFrame_anchor (note : Bool) (snd : Sender) (l : List Byte) (s : State) : anchor
    (sendFrame note snd l s) = anchor s := by unfold sendFrame; (repeat' split) <;> simp [*]

@[simp] theorem reply_anchor (snd : Sender) (r : Reply) (s : State) : anchor (reply snd r s) = anchor s :=
  by simp [reply, *]

@[simp] theorem dropFrame_anchor (s : State) : anchor (dropFrame s) = anchor s := by simp [dropFrame, *]

@[simp] theorem takeCommand_anchor (snd : Sender) (seq : Word) (op : Nat) (pl : List Word) (s : State) : anchor
    (takeCommand snd seq op pl s) = anchor s := by simp [takeCommand, *]

@[simp] theorem replyBusy_anchor (snd : Sender) (seq : Word) (op : Nat) (s : State) : anchor
    (replyBusy snd seq op s) = anchor s := by simp [replyBusy, *]

@[simp] theorem dispatchFrame_anchor (snd : Sender) (seq : Word) (op : Nat) (pl : List Word) (s : State) : anchor
    (dispatchFrame snd seq op pl s) = anchor s := by unfold dispatchFrame; (repeat' split) <;> simp [*]

@[simp] theorem bufferFrame_anchor (snd : Option Sender) (l : List Byte) (s : State) : anchor (bufferFrame snd l s)
    = anchor s := by simp [bufferFrame, *]

@[simp] theorem frameNow_anchor (snd : Sender) (l : List Byte) (s : State) : anchor (frameNow snd l s) = anchor s :=
  by unfold frameNow; (repeat' split) <;> simp [*]

@[simp] theorem commandFrame_anchor (snd : Sender) (l : List Byte) (s : State) : anchor (commandFrame snd l s)
    = anchor s := by simp [commandFrame, *]

@[simp] theorem sendAnswer_anchor (l : List Byte) (s : State) : anchor (sendAnswer l s) = anchor s :=
  by simp [sendAnswer, *]

@[simp] theorem takeArp_anchor (l : List Byte) (s : State) : anchor (takeArp l s) = anchor s :=
  by unfold takeArp; (repeat' split) <;> simp [*]

@[simp] theorem takeIp_anchor (l : List Byte) (s : State) : anchor (takeIp l s) = anchor s :=
  by unfold takeIp; dsimp only; (repeat' split) <;> simp [*]

@[simp] theorem ethernetNow_anchor (l : List Byte) (s : State) : anchor (ethernetNow l s) = anchor s :=
  by simp [ethernetNow, *]

@[simp] theorem ethernetFrame_anchor (l : List Byte) (s : State) : anchor (ethernetFrame l s) = anchor s :=
  by simp [ethernetFrame, *]

@[simp] theorem takeBuffered_anchor (s : State) : anchor (takeBuffered s) = anchor s := by
  unfold takeBuffered
  rw [anchor_forAll]
  · simp
  · intro q t; split <;> simp

@[simp] theorem takeOut_anchor (s : State) : anchor (takeOut s) = anchor s := by simp [takeOut, *]

@[simp] theorem finish_anchor (c : HostCmd) (r : Reply) (s : State) : anchor (finish c r s) = anchor s :=
  by simp [finish, *]

@[simp] theorem runCommand_anchor (snd : Sender) (seq : Word) (op : Nat) (pl : List Word) (f : State
    → State × Nat × List Word) (s : State)
    (h : ∀ t, anchor (f t).1 = anchor t) : anchor (runCommand snd seq op pl f s) = anchor s := by
  unfold runCommand; split
  · simp [h]
  · rfl

@[simp] theorem refusal_anchor (code : Option Nat) (s : State) : anchor (refusal code s).1 = anchor s :=
  by unfold refusal; (repeat' split) <;> simp [*]

@[simp] theorem hostRead_anchor (m : Master) (a : Nat) (s : State) : anchor (hostRead m a s).1 = anchor s :=
  by unfold hostRead; (repeat' split) <;> simp [*]

@[simp] theorem hostReads_anchor (m : Master) : ∀ (n a : Nat) (s : State), anchor (hostReads m n a s).1
    = anchor s := by
  intro n
  induction n with
  | zero => intro a s; rfl
  | succ n ih => intro a s; unfold hostReads; dsimp only; rw [ih, hostRead_anchor]

@[simp] theorem opRead_anchor (m : Master) (pl : List Word) (s : State) : anchor (opRead m pl s).1 = anchor s := by
  unfold opRead; dsimp only; (repeat' split) <;> simp

@[simp] theorem hostWrites_anchor (m : Master) (src : Source) : ∀ (ws : List Word) (a : Nat) (x : WSum) (s
    : State), anchor (hostWrites m src a ws x s).1 = anchor s := by
  intro ws
  induction ws with
  | nil => intro a x s; rfl
  | cons w ws ih => intro a x s; unfold hostWrites; dsimp only; rw [ih, busWrite_anchor]

@[simp] theorem opWrite_anchor (m : Master) (src : Source) (pl : List Word) (s : State) : anchor
    (opWrite m src pl s).1 = anchor s := by
  unfold opWrite; dsimp only; (repeat' split) <;> simp

@[simp] theorem opQueueMove_anchor (pl : List Word) (s : State) : anchor (opQueueMove pl s).1 = anchor s :=
  by unfold opQueueMove; dsimp only; (repeat' split) <;> simp [*]

@[simp] theorem opBankWrite_anchor (pl : List Word) (s : State) : anchor (opBankWrite pl s).1 = anchor s := by
  unfold opBankWrite; dsimp only; (repeat' split) <;> simp

@[simp] theorem setSub_anchor (i : Nat) (b : Option Subscriber) (s : State) : anchor (setSub i b s) = anchor s :=
  by simp [setSub, *]

@[simp] theorem opSubscribe_anchor (snd : Sender) (pl : List Word) (s : State) : anchor (opSubscribe snd pl s).1
    = anchor s := by unfold opSubscribe; (repeat' split) <;> simp [*]

@[simp] theorem opRecordRead_anchor (pl : List Word) (s : State) : anchor (opRecordRead pl s).1 = anchor s := by
  unfold opRecordRead; dsimp only; (repeat' split) <;> simp

@[simp] theorem opImage_anchor (pl : List Word) (s : State) : anchor (opImage pl s).1 = anchor s :=
  by unfold opImage; dsimp only; (repeat' split) <;> simp [*]

@[simp] theorem opHeadState_anchor (pl : List Word) (s : State) : anchor (opHeadState pl s).1 = anchor s := by
  unfold opHeadState; dsimp only
  split
  · rfl
  · split
    · simp
    · split
      · rename_i h; exact twCommand_anchor _ _ _ h
      · simp

@[simp] theorem writeFrame_anchor (l : List Byte) (s : State) : anchor (writeFrame l s) = anchor s :=
  by simp [writeFrame, *]

@[simp] theorem readFrame_anchor (s : State) : anchor (readFrame s) = anchor s :=
  by unfold readFrame; (repeat' split) <;> simp [*]

@[simp] theorem phyPoll_anchor (reg1 : BitVec 16) (s : State) : anchor (phyPoll reg1 s) = anchor s :=
  by simp [phyPoll, *]

@[simp] theorem notify_anchor (n : Word) (s : State) : anchor (notify n s) = anchor s := by
  unfold notify; split
  · rfl
  · apply anchor_forAll; intro i t
    split
    · rfl
    · split
      · simp
      · split
        · rfl
        · dsimp only; split <;> simp

/-! ### Shadow -/

@[simp] theorem copyRun_anchor : ∀ (n : Nat) (s : State), anchor (copyRun n s) = anchor s := by
  intro n
  induction n with
  | zero => intro s; rfl
  | succ n ih => intro s; unfold copyRun; dsimp only; (repeat' split) <;> simp [ih]

@[simp] theorem prepareCopies_anchor (s : State) : anchor (prepareCopies s) = anchor s := by
  unfold prepareCopies; dsimp only; split <;> simp

@[simp] theorem closePast_anchor (s : State) : anchor (closePast s) = anchor s := by simp [closePast, *]

@[simp] theorem switchBuffers_anchor (s : State) : anchor (switchBuffers s) = anchor s := by simp [switchBuffers, *]

@[simp] theorem actCommand_anchor (c : HostCmd) (s : State) : anchor (actCommand c s) = anchor s :=
  by unfold actCommand; (repeat' split) <;> simp [*]

/-! ### RoundStart -/

@[simp] theorem closeDigest_anchor (s : State) : anchor (closeDigest s) = anchor s := by simp [closeDigest, *]

@[simp] theorem closeSilence_anchor (s : State) : anchor (closeSilence s) = anchor s := by simp [closeSilence, *]

@[simp] theorem closeCounts_anchor (s : State) : anchor (closeCounts s) = anchor s := by simp [closeCounts, *]

@[simp] theorem closeLink_anchor (s : State) : anchor (closeLink s) = anchor s := by simp [closeLink, *]

@[simp] theorem closePdc_anchor (s : State) : anchor (closePdc s) = anchor s := by simp [closePdc, *]

@[simp] theorem closeClusters_anchor (s : State) : anchor (closeClusters s) = anchor s := by simp [closeClusters, *]

@[simp] theorem markMissing_anchor (s : State) : anchor (markMissing s) = anchor s := by simp [markMissing, *]

@[simp] theorem applyHeld_anchor (s : State) : anchor (applyHeld s) = anchor s := by simp [applyHeld, *]

@[simp] theorem roundTick_anchor (s : State) : anchor (roundTick s) = anchor s :=
  by unfold roundTick; (repeat' split) <;> simp [*]

@[simp] theorem noteSagOk_anchor (s : State) : anchor (noteSagOk s) = anchor s := by simp [noteSagOk, *]

@[simp] theorem judgePower_anchor (s : State) : anchor (judgePower s) = anchor s := by simp [judgePower, *]

@[simp] theorem wakeUp_anchor (s : State) : anchor (wakeUp s) = anchor s := by simp [wakeUp, *]

@[simp] theorem countWake_anchor (s : State) : anchor (countWake s) = anchor s :=
  by unfold countWake; (repeat' split) <;> simp [*]

@[simp] theorem trimStep_anchor (s : State) : anchor (trimStep s) = anchor s :=
  by unfold trimStep; (repeat' split) <;> simp [*]

@[simp] theorem streamSlot_anchor (ty : Nat) (pay : List Byte) (q : Nat × State) :
    anchor (streamSlot ty pay q).2 = anchor q.2 := by
  unfold streamSlot; dsimp only; split <;> simp

@[simp] theorem sendConf_anchor : ∀ (n : Nat) (l : List Word) (q : Nat × State), anchor (sendConf n l q).2 = anchor q.2 := by
  intro n
  induction n with
  | zero => intro l q; rfl
  | succ n ih =>
    intro l q; unfold sendConf; split
    · rfl
    · exact (ih _ _).trans (by simp)

@[simp] theorem sendCmds_anchor : ∀ (n : Nat) (q : Nat × State), anchor (sendCmds n q).2 = anchor q.2 := by
  intro n
  induction n with
  | zero => intro q; rfl
  | succ n ih =>
    intro q; unfold sendCmds; split
    · rfl
    · split
      · exact (ih _).trans (by simp)
      · rfl

theorem streamAll_anchor (ty : Nat) (l : List (List Byte)) (q : Nat × State) :
    anchor (l.foldl (fun q p => streamSlot ty p q) q).2 = anchor q.2 := by
  induction l generalizing q with
  | nil => rfl
  | cons p l ih => exact (ih _).trans (by simp)

@[simp] theorem sendStream_anchor (s : State) : anchor (sendStream s) = anchor s := by
  unfold sendStream
  extract_lets cs q1 q2 q3 q4 q5
  have h1 : anchor q1.2 = anchor s := by simp only [q1]; split <;> simp
  have h3 : anchor q3.2 = anchor s := by simp [q3, q2, h1]
  have h4 : anchor q4.2 = anchor s := by simp only [q4]; exact (streamAll_anchor _ _ _).trans h3
  have h5 : anchor q5.2 = anchor s := by simp only [q5]; exact (streamAll_anchor _ _ _).trans h4
  rw [anchor_foldl]
  · simp [h5]
  · intro u t; simp

@[simp] theorem sendTwinSlots_anchor (s : State) : anchor (sendTwinSlots s) = anchor s :=
  by unfold sendTwinSlots; (repeat' split) <;> simp [*]

@[simp] theorem sendCascade_anchor (s : State) : anchor (sendCascade s) = anchor s := by simp [sendCascade, *]

@[simp] theorem gratuitousArp_anchor (s : State) : anchor (gratuitousArp s) = anchor s :=
  by unfold gratuitousArp; (repeat' split) <;> simp [*]

@[simp] theorem retMs_anchor (s : State) : anchor (retMs s) = anchor s := by simp [retMs, *]

@[simp] theorem wdMs_anchor (s : State) : anchor (wdMs s) = anchor s := by simp [wdMs, *]

@[simp] theorem tjMs_anchor (s : State) : anchor (tjMs s) = anchor s := by simp [tjMs, *]

@[simp] theorem tickMs_anchor (s : State) : anchor (tickMs s) = anchor s := by simp [tickMs, *]

@[simp] theorem stageRounds_anchor (s : State) : anchor (stageRounds s) = anchor s := by simp [stageRounds, *]

@[simp] theorem msTick_anchor (s' : State) : anchor (msTick s') = anchor s' := by simp [msTick, *]

@[simp] theorem railTick_anchor (s : State) : anchor (railTick s) = anchor s := by simp [railTick, *]

@[simp] theorem roundInputs_anchor (s' : State) : anchor (roundInputs s') = anchor s' := by simp [roundInputs, *]

@[simp] theorem roundActions_anchor (s : State) : anchor (roundActions s) = anchor s := by simp [roundActions, *]

end Sys2Proof.Machine
end

