-- ==== Sys2Proof/Laws/State.lean ====
section
/-! SUPPORT. A record read after it was replaced: axes, groups, channels, nodes, brakes, masters and retire channels. -/

namespace Sys2Proof.Machine

/-! ### Axes -/

@[simp] theorem setAx_eq (s : State) (a : Nat) (x : Axis) : setAx s a x = { s with axes := tset s.axes a x } := rfl

/-- An axis after another one, or itself, was replaced. -/
theorem getAx_set (s : State) (a : Nat) (x : Axis) (b : Nat) :
    getAx { s with axes := tset s.axes a x } b = if b = a then x else getAx s b := tget_tset ..

@[simp] theorem getAx_set_self (s : State) (a : Nat) (x : Axis) : getAx { s with axes := tset s.axes a x } a = x :=
  tget_tset_self ..

@[simp] theorem getAx_modAx_self (s : State) (a : Nat) (f : Axis → Axis) : getAx (modAx s a f) a = f (getAx s a) :=
  tget_tset_self ..

@[simp] theorem getAx_modAx_ne (s : State) (a : Nat) (f : Axis → Axis) (b : Nat) (h : b ≠ a) :
    getAx (modAx s a f) b = getAx s b := tget_tset_ne _ _ _ _ _ h

@[simp] theorem modCtl_getAx_self (s : State) (a : Nat) (f : AxCtl → AxCtl) :
    getAx (modCtl s a f) a = { getAx s a with ctl := f (getAx s a).ctl } := tget_tset_self ..

@[simp] theorem modCtl_getAx_ne (s : State) (a : Nat) (f : AxCtl → AxCtl) (b : Nat) (h : b ≠ a) :
    getAx (modCtl s a f) b = getAx s b := tget_tset_ne _ _ _ _ _ h

@[simp] theorem modStage_getAx_self (s : State) (a : Nat) (f : AxStage → AxStage) :
    getAx (modStage s a f) a = { getAx s a with stage := f (getAx s a).stage } := tget_tset_self ..

@[simp] theorem modFb_getAx_self (s : State) (a : Nat) (f : AxFb → AxFb) :
    getAx (modFb s a f) a = { getAx s a with fb := f (getAx s a).fb } := tget_tset_self ..

@[simp] theorem modPred_getAx_self (s : State) (a : Nat) (f : AxPred → AxPred) :
    getAx (modPred s a f) a = { getAx s a with pred := f (getAx s a).pred } := tget_tset_self ..

/-! ### Groups -/

@[simp] theorem modGr_getGr_self (s : State) (g : Nat) (f : Group → Group) : getGr (modGr s g f) g = f (getGr s g) :=
  tget_tset_self ..

@[simp] theorem modGr_getGr_ne (s : State) (g : Nat) (f : Group → Group) (h : Nat) (n : h ≠ g) :
    getGr (modGr s g f) h = getGr s h := tget_tset_ne _ _ _ _ _ n

/-! ### Channels, nodes, brakes, masters, retire channels -/

@[simp] theorem modCh_getCh_self (s : State) (ch : Nat) (f : Chan → Chan) : getCh (modCh s ch f) ch = f (getCh s ch) :=
  tget_tset_self ..

@[simp] theorem modCh_getCh_ne (s : State) (ch : Nat) (f : Chan → Chan) (k : Nat) (h : k ≠ ch) :
    getCh (modCh s ch f) k = getCh s k := tget_tset_ne _ _ _ _ _ h

@[simp] theorem modBrk_getBrk_self (s : State) (b : Nat) (f : Brake → Brake) : getBrk (modBrk s b f) b = f (getBrk s b) :=
  tget_tset_self ..

@[simp] theorem modMs_getMs_self (s : State) (m : Master) (f : MasterSt → MasterSt) :
    getMs (modMs s m f) m = f (getMs s m) := tget_tset_self ..

@[simp] theorem setRet_getRet_self (s : State) (cls idx : Nat) (c : RetCh) : getRet (setRet s cls idx c) cls idx = c :=
  tget_tset_self ..

end Sys2Proof.Machine
end

