-- ==== Sys2Proof/Laws/Events.lean ====
section
/-! SUPPORT. Everything that raising an event can do (R400): its flag stands, and nothing changes but the event unit, the
compact core's pending interrupts, the subscribers and the wake from DEEP PARK. -/

namespace Sys2Proof.Machine

/-- A state is itself. -/
@[simp] theorem onlyEvents_refl (s : State) : State.onlyEvents s s := ⟨rfl, fun _ h => h⟩

/-- Only what such a change may touch differs, and no flag falls. -/
theorem onlyEvents_mk {s t : State} (h : t = { s with
      ev := t.ev
      lad := { s.lad with ipend := t.lad.ipend }
      host := { s.host with subs := t.host.subs }
      sys := { s.sys with waking := t.sys.waking, wcause := t.sys.wcause } })
    (k : t.ev.flags = s.ev.flags) : State.onlyEvents s t :=
  ⟨h, fun e he => by unfold State.raised at *; rw [k]; exact he⟩

/-- Two such changes in a row. -/
theorem onlyEvents_trans {s t u : State} (h : State.onlyEvents s t) (k : State.onlyEvents t u) : State.onlyEvents s u := by
  unfold State.onlyEvents at *
  refine ⟨?_, fun e he => k.2 e (h.2 e he)⟩
  rw [k.1, h.1]

/-- A wake cause, by fields. -/
theorem wakeFrom_eq (c : Nat) (s : State) : wakeFrom c s = { s with sys := { s.sys with
    waking := (wakeFrom c s).sys.waking
    wcause := (wakeFrom c s).sys.wcause } } := by
  unfold wakeFrom; split <;> rfl

/-- A wake cause touches the wake alone. -/
theorem wakeFrom_onlyEvents (c : Nat) (s : State) : State.onlyEvents s (wakeFrom c s) := by
  unfold wakeFrom; split <;> apply onlyEvents_mk <;> rfl

/-- The flags after a delivery. -/
@[simp] theorem deliver_flags (e : Nat) (s : State) : (deliver e s).ev.flags = s.ev.flags := by
  unfold deliver
  dsimp only
  split
  · unfold wakeFrom
    split <;> (dsimp only; split <;> rfl)
  · dsimp only [id]
    split <;> rfl

/-- Delivery. -/
theorem deliver_onlyEvents (e : Nat) (s : State) : State.onlyEvents s (deliver e s) := by
  refine onlyEvents_mk ?_ (deliver_flags e s)
  unfold deliver
  dsimp only
  cases bit (evRoute s e) 9 <;> split
  case true.isTrue | false.isTrue => rw [wakeFrom_eq]; rfl
  all_goals rfl

/-- Raising an event. -/
theorem raise_onlyEvents (e : Nat) (s : State) : State.onlyEvents s (raise e s) := by
  have h : State.onlyEvents s { s with ev := { s.ev with flags := s.ev.flags ||| BitVec.ofNat 256 (2 ^ e) } } :=
    ⟨rfl, fun i hi => by unfold State.raised at *; simp only [BitVec.getLsbD_or, hi, Bool.true_or]⟩
  unfold raise
  split
  · dsimp only
    split
    · exact onlyEvents_trans h (deliver_onlyEvents _ _)
    · exact h
  · exact onlyEvents_refl s

/-- Raising an event of an axis. -/
theorem raiseAx_onlyEvents (a c : Nat) (s : State) : State.onlyEvents s (raiseAx a c s) := by
  refine onlyEvents_trans ?_ (raise_onlyEvents _ _); apply onlyEvents_mk <;> rfl

/-- Raising an event of a group. -/
theorem raiseGr_onlyEvents (g c : Nat) (s : State) : State.onlyEvents s (raiseGr g c s) := by
  refine onlyEvents_trans ?_ (raise_onlyEvents _ _); apply onlyEvents_mk <;> rfl

/-- The flag stands. -/
theorem raise_raised (e : Nat) (s : State) (h : evValid e = true) (hl : e < 256) : State.raised e (raise e s) := by
  have k : (s.ev.flags ||| BitVec.ofNat 256 (2 ^ e)).getLsbD e = true := by
    rw [BitVec.getLsbD_or, BitVec.getLsbD_ofNat, Nat.testBit_two_pow_self]
    simp [hl]
  unfold State.raised raise
  rw [if_pos h]
  dsimp only
  split
  · rw [deliver_flags]; exact k
  · exact k

/-! ### Field by field -/

@[simp] theorem raise_pending (e : Nat) (s : State) : (raise e s).pending = s.pending := by rw [(raise_onlyEvents e s).1]

@[simp] theorem raise_free (e : Nat) (s : State) : (raise e s).free = s.free := by rw [(raise_onlyEvents e s).1]

@[simp] theorem raise_tx (e : Nat) (s : State) : (raise e s).tx = s.tx := by rw [(raise_onlyEvents e s).1]

@[simp] theorem raise_cfg (e : Nat) (s : State) : (raise e s).cfg = s.cfg := by rw [(raise_onlyEvents e s).1]

@[simp] theorem raise_mem (e : Nat) (s : State) : (raise e s).mem = s.mem := by rw [(raise_onlyEvents e s).1]

@[simp] theorem raise_softErr (e : Nat) (s : State) : (raise e s).softErr = s.softErr := by rw [(raise_onlyEvents e s).1]

@[simp] theorem raise_hardErr (e : Nat) (s : State) : (raise e s).hardErr = s.hardErr := by rw [(raise_onlyEvents e s).1]

@[simp] theorem raise_ret (e : Nat) (s : State) : (raise e s).ret = s.ret := by rw [(raise_onlyEvents e s).1]

@[simp] theorem raise_axes (e : Nat) (s : State) : (raise e s).axes = s.axes := by rw [(raise_onlyEvents e s).1]

@[simp] theorem raise_groups (e : Nat) (s : State) : (raise e s).groups = s.groups := by rw [(raise_onlyEvents e s).1]

@[simp] theorem raise_ctlq (e : Nat) (s : State) : (raise e s).ctlq = s.ctlq := by rw [(raise_onlyEvents e s).1]

@[simp] theorem raise_inbuf (e : Nat) (s : State) : (raise e s).inbuf = s.inbuf := by rw [(raise_onlyEvents e s).1]

@[simp] theorem raise_clusters (e : Nat) (s : State) : (raise e s).clusters = s.clusters := by rw [(raise_onlyEvents e s).1]

@[simp] theorem raise_fbk (e : Nat) (s : State) : (raise e s).fbk = s.fbk := by rw [(raise_onlyEvents e s).1]

@[simp] theorem raise_ps (e : Nat) (s : State) : (raise e s).ps = s.ps := by rw [(raise_onlyEvents e s).1]

@[simp] theorem raise_link (e : Nat) (s : State) : (raise e s).link = s.link := by rw [(raise_onlyEvents e s).1]

@[simp] theorem raise_twin (e : Nat) (s : State) : (raise e s).twin = s.twin := by rw [(raise_onlyEvents e s).1]

@[simp] theorem raise_casc (e : Nat) (s : State) : (raise e s).casc = s.casc := by rw [(raise_onlyEvents e s).1]

@[simp] theorem raise_sag (e : Nat) (s : State) : (raise e s).sag = s.sag := by rw [(raise_onlyEvents e s).1]

@[simp] theorem raise_rcd (e : Nat) (s : State) : (raise e s).rcd = s.rcd := by rw [(raise_onlyEvents e s).1]

@[simp] theorem raise_boot (e : Nat) (s : State) : (raise e s).boot = s.boot := by rw [(raise_onlyEvents e s).1]

@[simp] theorem raise_masters (e : Nat) (s : State) : (raise e s).masters = s.masters := by rw [(raise_onlyEvents e s).1]

@[simp] theorem raise_pdc (e : Nat) (s : State) : (raise e s).pdc = s.pdc := by rw [(raise_onlyEvents e s).1]

@[simp] theorem raise_sys_hstate (e : Nat) (s : State) : (raise e s).sys.hstate = s.sys.hstate := by rw [(raise_onlyEvents e s).1]

@[simp] theorem raise_sys_round (e : Nat) (s : State) : (raise e s).sys.round = s.sys.round := by rw [(raise_onlyEvents e s).1]

@[simp] theorem raise_sys_roundRan (e : Nat) (s : State) : (raise e s).sys.roundRan = s.sys.roundRan := by rw [(raise_onlyEvents e s).1]

@[simp] theorem raise_sys_epoch (e : Nat) (s : State) : (raise e s).sys.epoch = s.sys.epoch := by rw [(raise_onlyEvents e s).1]

@[simp] theorem raise_sys_pwr (e : Nat) (s : State) : (raise e s).sys.pwr = s.sys.pwr := by rw [(raise_onlyEvents e s).1]

@[simp] theorem raise_sys_ms (e : Nat) (s : State) : (raise e s).sys.ms = s.sys.ms := by rw [(raise_onlyEvents e s).1]

@[simp] theorem raise_sys_inReset (e : Nat) (s : State) : (raise e s).sys.inReset = s.sys.inReset := by rw [(raise_onlyEvents e s).1]

@[simp] theorem raise_sys_lockedFrom (e : Nat) (s : State) : (raise e s).sys.lockedFrom = s.sys.lockedFrom := by rw [(raise_onlyEvents e s).1]

@[simp] theorem raise_lad_cores (e : Nat) (s : State) : (raise e s).lad.cores = s.lad.cores := by rw [(raise_onlyEvents e s).1]

@[simp] theorem raise_lad_slices (e : Nat) (s : State) : (raise e s).lad.slices = s.lad.slices := by rw [(raise_onlyEvents e s).1]

@[simp] theorem raise_lad_mbox (e : Nat) (s : State) : (raise e s).lad.mbox = s.lad.mbox := by rw [(raise_onlyEvents e s).1]

@[simp] theorem raise_lad_held (e : Nat) (s : State) : (raise e s).lad.held = s.lad.held := by rw [(raise_onlyEvents e s).1]

@[simp] theorem raise_host_window (e : Nat) (s : State) : (raise e s).host.window = s.host.window := by rw [(raise_onlyEvents e s).1]

@[simp] theorem raise_host_waiting (e : Nat) (s : State) : (raise e s).host.waiting = s.host.waiting := by rw [(raise_onlyEvents e s).1]

@[simp] theorem raise_host_credits (e : Nat) (s : State) : (raise e s).host.credits = s.host.credits := by rw [(raise_onlyEvents e s).1]

@[simp] theorem raise_host_out (e : Nat) (s : State) : (raise e s).host.out = s.host.out := by rw [(raise_onlyEvents e s).1]

/-- An axis is as it was when an event is raised. -/
@[simp] theorem getAx_raise (e : Nat) (s : State) (a : Nat) : getAx (raise e s) a = getAx s a := by simp [getAx]

/-- A group is as it was when an event is raised. -/
@[simp] theorem getGr_raise (e : Nat) (s : State) (g : Nat) : getGr (raise e s) g = getGr s g := by simp [getGr]

@[simp] theorem getAx_raiseAx (a c : Nat) (s : State) (b : Nat) : getAx (raiseAx a c s) b = getAx s b := by simp [raiseAx, getAx]

@[simp] theorem getGr_raiseGr (g c : Nat) (s : State) (h : Nat) : getGr (raiseGr g c s) h = getGr s h := by simp [raiseGr, getGr]

end Sys2Proof.Machine
end

