-- ==== Sys2Proof/Laws/Faults.lean ====
section
/-! SUPPORT. Everything that a fault of an axis can touch (R105, R106, R192): the axes, the groups, the retire block, and
what raising an event touches. -/

namespace Sys2Proof.Machine

/-- A state is itself. -/
@[simp] theorem onlyReaction_refl (s : State) : State.onlyReaction s s := ⟨rfl, fun _ h => h⟩

/-- Only axes, groups and the retire block differ. -/
theorem onlyReaction_mk {s t : State} (h : t = { s with axes := t.axes, groups := t.groups, ret := t.ret }) :
    State.onlyReaction s t := by
  unfold State.onlyReaction
  exact ⟨by rw [h], fun e he => by rw [h]; exact he⟩

/-- Two reactions in a row. -/
theorem onlyReaction_trans {s t u : State} (h : State.onlyReaction s t) (k : State.onlyReaction t u) :
    State.onlyReaction s u := by
  unfold State.onlyReaction State.onlyEvents at *
  refine ⟨?_, fun e he => k.2 e (h.2 e he)⟩
  rw [k.1, h.1]

/-- Raising events is one. -/
theorem onlyReaction_of_events {s t : State} (h : State.onlyEvents s t) : State.onlyReaction s t := by
  unfold State.onlyReaction State.onlyEvents at *
  exact ⟨by rw [h.1], h.2⟩

/-- A reaction to a condition. -/
theorem onlyReaction_forAll {α : Type} (l : List α) (f : α → State → State) (s : State)
    (h : ∀ x t, State.onlyReaction t (f x t)) : State.onlyReaction s (forAll l f s) := by
  unfold forAll
  induction l generalizing s with
  | nil => exact onlyReaction_refl s
  | cons x l ih => exact onlyReaction_trans (h x s) (ih _)

theorem modCtl_onlyReaction (s : State) (a : Nat) (f : AxCtl → AxCtl) : State.onlyReaction s (modCtl s a f) := by apply onlyReaction_mk; rfl

theorem modStage_onlyReaction (s : State) (a : Nat) (f : AxStage → AxStage) : State.onlyReaction s (modStage s a f) := by apply onlyReaction_mk; rfl

theorem modGr_onlyReaction (s : State) (g : Nat) (f : Group → Group) : State.onlyReaction s (modGr s g f) := by apply onlyReaction_mk; rfl

theorem modProf_onlyReaction (s : State) (o : Owner) (f : Prof → Prof) : State.onlyReaction s (modProf s o f) := by
  cases o <;> (apply onlyReaction_mk; rfl)

theorem setRet_onlyReaction (s : State) (cls idx : Nat) (c : RetCh) : State.onlyReaction s (setRet s cls idx c) := by apply onlyReaction_mk; rfl

theorem raise_onlyReaction (e : Nat) (s : State) : State.onlyReaction s (raise e s) :=
  onlyReaction_of_events (raise_onlyEvents e s)

theorem raiseAx_onlyReaction (a c : Nat) (s : State) : State.onlyReaction s (raiseAx a c s) :=
  onlyReaction_of_events (raiseAx_onlyEvents a c s)

theorem setCause_onlyReaction (a code : Nat) (on : Bool) (s : State) : State.onlyReaction s (setCause a code on s) := by apply onlyReaction_mk; rfl

theorem faultRecord_onlyReaction (a code cls : Nat) (s : State) : State.onlyReaction s (faultRecord a code cls s) := by
  unfold faultRecord
  dsimp only
  split
  · exact onlyReaction_trans (modCtl_onlyReaction _ _ _) (raiseAx_onlyReaction _ _ _)
  · exact modCtl_onlyReaction _ _ _

theorem requestBrake_onlyReaction (a : Nat) (s : State) : State.onlyReaction s (requestBrake a s) := by
  unfold requestBrake
  dsimp only
  (repeat' split) <;>
    first
    | exact onlyReaction_trans (modCtl_onlyReaction _ _ _) (modGr_onlyReaction _ _ _)
    | exact modCtl_onlyReaction _ _ _

theorem abortPrestart_onlyReaction (a : Nat) (s : State) : State.onlyReaction s (abortPrestart a s) := by
  unfold abortPrestart
  split
  · exact onlyReaction_trans (modStage_onlyReaction _ _ _) (raiseAx_onlyReaction _ _ _)
  · exact onlyReaction_refl s

theorem enterOff_onlyReaction (st : AxState) (a : Nat) (s : State) : State.onlyReaction s (enterOff st a s) :=
  onlyReaction_trans (abortPrestart_onlyReaction a s) (modCtl_onlyReaction _ _ _)

theorem stageStop_onlyReaction (a : Nat) (s : State) : State.onlyReaction s (stageStop a s) :=
  have h : State.onlyReaction s (if (getAx s a).stage.seq = .diag then raiseAx a caPrestart s else s) := by
    split
    · exact raiseAx_onlyReaction _ _ _
    · exact onlyReaction_refl s
  onlyReaction_trans h (onlyReaction_trans (modStage_onlyReaction _ _ _) (modCtl_onlyReaction _ _ _))

theorem stageRetired_onlyReaction (a : Nat) (s : State) : State.onlyReaction s (stageRetired a s) :=
  onlyReaction_trans (onlyReaction_trans (stageStop_onlyReaction a s) (enterOff_onlyReaction _ a _)) (requestBrake_onlyReaction _ _)

theorem retireCore_onlyReaction (cause cls idx : Nat) (c : RetCh) (s : State) :
    State.onlyReaction s (retireCore cause cls idx c s) := by
  unfold retireCore
  exact onlyReaction_trans (by apply onlyReaction_mk; rfl) (raise_onlyReaction _ _)

theorem faultReact_onlyReaction (a code cls : Nat) (s : State) : State.onlyReaction s (faultReact a code cls s) := by
  unfold faultReact
  dsimp only
  split
  · exact onlyReaction_refl s
  · split
    · split
      · exact onlyReaction_refl s
      · have h := onlyReaction_trans (modCtl_onlyReaction s a (reactKeep code 4 s.sys.round)) (stageRetired_onlyReaction a _)
        split
        · exact h
        · exact onlyReaction_trans h (retireCore_onlyReaction _ _ _ _ _)
    · split
      · exact onlyReaction_refl s
      · have h := modCtl_onlyReaction s a (reactKeep code cls s.sys.round)
        split
        · exact onlyReaction_trans h (modCtl_onlyReaction _ _ _)
        · split
          · exact h
          · exact onlyReaction_trans h (onlyReaction_trans (enterOff_onlyReaction _ _ _) (requestBrake_onlyReaction _ _))

theorem faultOne_onlyReaction (a code cls : Nat) (s : State) : State.onlyReaction s (faultOne a code cls s) :=
  onlyReaction_trans (faultRecord_onlyReaction a code cls s) (faultReact_onlyReaction _ _ _ _)

theorem treeQuickStop_onlyReaction (a : Nat) (s : State) : State.onlyReaction s (treeQuickStop a s) := by
  unfold treeQuickStop
  dsimp only
  refine onlyReaction_trans (modProf_onlyReaction s _ _) (onlyReaction_forAll _ _ _ ?_)
  intro b t
  split
  · exact modCtl_onlyReaction _ _ _
  · exact onlyReaction_refl t

/-- A fault of an axis, with what a tree makes of it. -/
theorem faultAx_onlyReaction (a code cls : Nat) (s : State) : State.onlyReaction s (faultAx a code cls s) := by
  have h1 := faultOne_onlyReaction a code cls s
  unfold faultAx
  dsimp only
  split
  · exact h1
  · split
    · exact onlyReaction_trans h1 (treeQuickStop_onlyReaction _ _)
    · split
      · exact h1
      · split
        · exact h1
        · have h2 : ∀ (o : Owner) (l : List Nat) (c : Nat) (u : State), State.onlyReaction s u →
              State.onlyReaction s (forAll l (fun b s => if b = a then s
                else faultOne b 0x40 c (modCtl (setCause b 0x40 true s) b (fun c => { c with from40 := a :: c.from40.filter (fun x => x ≠ a) }))) u) := by
            intro o l c u hu
            refine onlyReaction_trans hu (onlyReaction_forAll _ _ _ ?_)
            intro b t
            split
            · exact onlyReaction_refl t
            · exact onlyReaction_trans (setCause_onlyReaction b _ _ t)
                (onlyReaction_trans (modCtl_onlyReaction _ _ _) (faultOne_onlyReaction _ _ _ _))
          cases topOwner s a with
          | axis b =>
            dsimp only
            split
            · exact onlyReaction_trans (h2 (.axis b) _ _ _ h1) (modProf_onlyReaction _ _ _)
            · exact h2 (.axis b) _ _ _ h1
          | group q =>
            have h3 := onlyReaction_trans h1 (modGr_onlyReaction _ q (fun x => { x with fcode := 0x40 }))
            dsimp only
            split
            · exact onlyReaction_trans (h2 (.group q) _ _ _ h3) (modProf_onlyReaction _ _ _)
            · exact h2 (.group q) _ _ _ h3

/-- The same fault of several axes. -/
theorem faultAxes_onlyReaction (l : List Nat) (code cls : Nat) (s : State) : State.onlyReaction s (faultAxes l code cls s) :=
  onlyReaction_forAll _ _ _ (fun a t => faultAx_onlyReaction a code cls t)

end Sys2Proof.Machine
end

