-- ==== Sys2Proof/WellFormed.lean ====
section
/-! DEFINITION. The well-formed commands: every number that names a resource is one the head has (R11 to R13, R31,
R136, R151, R335, R336). -/

namespace Sys2Proof

/-- A master of R21: the wide cores are 0 to 3. -/
def Master.wf : Master → Bool
  | .wide c => c < 4
  | .host => true
  | .compact => true
  | .boot => true
  | .saggar => true

/-- An axis 0 to 127 or a group 0 to 127. -/
def Owner.wf : Owner → Bool
  | .axis a => a < 128
  | .group g => g < 128

/-- A sender: a UDP port has 16 bits and a MAC address 48. -/
def Sender.wf : Sender → Bool
  | .udp _ port mac _ => port < 65536 && mac < 281474976710656
  | .spi => true
  | .core => true

/-- A received slot: channel, port, and a START inside the round. -/
def RxSlot.wf (r : RxSlot) : Bool := r.ch < 2 && r.port < 2 && r.start < 2500

/-- A lane slot: it ends inside the round. -/
def LaneSlot.wf (r : LaneSlot) : Bool := r.clk < 3125

/-- What a copy unit names exists (R11 to R13). -/
def CopyContent.wf : CopyContent → Bool
  | .bank a b0 b1 _ _ _ => a < 128 && b0.length ≤ 256 && b1.length ≤ 256
  | .slow _ _ _ _ _ _ _ _ _ _ => true
  | .ladle c bytes => c < 4 && bytes.length ≤ 16384
  | .owner o _ _ => Owner.wf o
  | .group g _ => g < 128
  | .axis a _ => a < 128
  | .mover g _ ms => g < 128 && ms.all (fun q => q.1 < 128)

/-- A shift amount: five bits or a data register. -/
def ShAmt.wf : ShAmt → Bool
  | .imm n => n < 32
  | .reg r => r < 16

/-- A dual load: d0 to d15 and p0 to p7 (R347). -/
def DualLoad.wf : Option DualLoad → Bool
  | some x => x.d < 16 && x.p < 8
  | none => true

/-- A well-formed command. -/
def Instr.wf : Instr → Bool
  | .roundStart => true
  | .fupReceived r => RxSlot.wf r
  | .posReceived r => RxSlot.wf r
  | .diagReceived r => RxSlot.wf r
  | .svcReply r => RxSlot.wf r
  | .upstreamSilence ch node => ch < 2 && node < 64
  | .clusterWake c => c < 4
  | .sliceOverrun c => c < 4
  | .fdnSlotDeparture a => a < 128
  | .wheelTick => true
  | .cxpReceived r => LaneSlot.wf r
  | .remoteGearDerivation => true
  | .bankSwap a => a < 128
  | .enable a => a < 128
  | .run a => a < 128
  | .park a => a < 128
  | .unpark a => a < 128
  | .qstop a => a < 128
  | .disable a => a < 128
  | .reset a => a < 128
  | .swap a => a < 128
  | .brakeAppliedReport a => a < 128
  | .groupEnable g => g < 128
  | .groupRun g => g < 128
  | .groupPark g => g < 128
  | .groupUnpark g => g < 128
  | .groupQstop g => g < 128
  | .groupDisable g => g < 128
  | .groupReset g => g < 128
  | .locgo g seg => g < 128 && seg < 128
  | .append o m => Owner.wf o && Master.wf m
  | .replace o m => Owner.wf o && Master.wf m
  | .chglim o m => Owner.wf o && Master.wf m
  | .clear o m => Owner.wf o && Master.wf m
  | .ref o m => Owner.wf o && Master.wf m
  | .compareArming a _ _ _ _ => a < 128
  | .probeArming a _ => a < 128
  | .localProbeEdge pin _ clk _ => pin < 8 && clk < 3125
  | .localEncoderEdge port _ _ _ => port < 8
  | .ssiFrameStart port => port < 8
  | .ssiFrameEnd port _ _ => port < 8
  | .backoffEnd cls idx => cls < 8 && idx < 256
  | .rtrelGo m _ => Master.wf m
  | .retryComplete a => a < 128
  | .testStepEvaluation a => a < 128
  | .noResponse a => a < 128
  | .overVoltageTrip _ => true
  | .overVoltageForcingEnd => true
  | .chopperOverload j => j < 4
  | .sdiFast k => k < 8
  | .sdiFault k => k < 8
  | .psctestGo target => target < 16
  | .comparatorSelfTestEnd _ _ => true
  | .listenTimerExpiry => true
  | .markAccepted r => RxSlot.wf r
  | .coldstartEnd => true
  | .loadSequence ch node => ch < 2 && node < 64
  | .loadTimeout ch node => ch < 2 && node < 64
  | .nodeAdmission ch node => ch < 2 && node < 64
  | .channelJudgement ch _ => ch < 2
  | .skimEnded => true
  | .portLoss ch f => ch < 2 && f.port < 2 && f.how < 3
  | .unwrapOrder ch => ch < 2
  | .unwrap ch => ch < 2
  | .tleaseReceived r => LaneSlot.wf r
  | .tdigReceived r => LaneSlot.wf r
  | .leaseExpiry => true
  | .twinLinkLost => true
  | .tcmdReceived r => LaneSlot.wf r
  | .tconfReceived r => LaneSlot.wf r
  | .tconfTimeout _ => true
  | .tcommitReceived r => LaneSlot.wf r
  | .tcopyReceived u => CopyContent.wf u.content
  | .hbreq => true
  | .handbackRound => true
  | .handbackEnd => true
  | .isolatedTimeout => true
  | .yield m => Master.wf m
  | .rejoin m => Master.wf m
  | .inhibit m => Master.wf m
  | .allow m => Master.wf m
  | .cmarkReceived r => LaneSlot.wf r
  | .csyncEdge _ => true
  | .csyncLost => true
  | .cwaitExpiry => true
  | .cascadeLaneLoss => true
  | .safeReceived r => RxSlot.wf r
  | .safePeriod => true
  | .brakeFeedbackTimeout k => k < 32
  | .degtimeExceeded => true
  | .lockoutCause cause idx => cause < 16 && idx < 256
  | .lockout => true
  | .safeReset _ _ => true
  | .testPulse _ _ => true
  | .darkPulse k _ _ => k < 4
  | .saggarWatchdogExpiry => true
  | .saggarSupplyTrip => true
  | .cpuSelfTest _ => true
  | .ramScrub _ => true
  | .romCrc _ => true
  | .clockComparison _ => true
  | .inputComparatorSelfTest _ => true
  | .marchTest _ => true
  | .saggarSelfTestEnd => true
  | .pwd m len => Master.wf m && len < 256
  | .pwdset m len => Master.wf m && len < 256
  | .param m => Master.wf m
  | .sealclose m => Master.wf m
  | .logclear m => Master.wf m
  | .btest m k => Master.wf m && k < 256
  | .btestEnd => true
  | .btabort m => Master.wf m
  | .outset m mask => Master.wf m && mask < 16
  | .sealPinChange _ => true
  | .sealTimeout => true
  | .passwordBlockEnd => true
  | .poweredSecond => true
  | .recorderPwd m len => Master.wf m && len < 256
  | .recorderClear _ scope _ => scope < 16
  | .save m => Master.wf m
  | .lock m => Master.wf m
  | .saveComplete _ => true
  | .authorisationTimeout => true
  | .recorderPwdBlockEnd => true
  | .nop c => c < 5
  | .add c rd rs rt => c < 5 && rd < 16 && rs < 16 && rt < 16
  | .sub c rd rs rt => c < 5 && rd < 16 && rs < 16 && rt < 16
  | .and c rd rs rt => c < 5 && rd < 16 && rs < 16 && rt < 16
  | .or c rd rs rt => c < 5 && rd < 16 && rs < 16 && rt < 16
  | .xor c rd rs rt => c < 5 && rd < 16 && rs < 16 && rt < 16
  | .shl c rd rs amt => c < 5 && rd < 16 && rs < 16 && ShAmt.wf amt
  | .shr c rd rs amt => c < 5 && rd < 16 && rs < 16 && ShAmt.wf amt
  | .sar c rd rs amt => c < 5 && rd < 16 && rs < 16 && ShAmt.wf amt
  | .ror c rd rs amt => c < 5 && rd < 16 && rs < 16 && ShAmt.wf amt
  | .mul c rd rs rt => c < 5 && rd < 16 && rs < 16 && rt < 16
  | .addi c rd rs _ => c < 5 && rd < 16 && rs < 16
  | .movl c rd _ => c < 5 && rd < 16
  | .movh c rd _ => c < 5 && rd < 16
  | .cmp c rs rt => c < 5 && rs < 16 && rt < 16
  | .mov c rd rs => c < 5 && rd < 16 && rs < 16
  | .fadd c rd rs rt => c < 5 && rd < 16 && rs < 16 && rt < 16
  | .fsub c rd rs rt => c < 5 && rd < 16 && rs < 16 && rt < 16
  | .fmul c rd rs rt => c < 5 && rd < 16 && rs < 16 && rt < 16
  | .fma c rd rs rt => c < 5 && rd < 16 && rs < 16 && rt < 16
  | .fms c rd rs rt => c < 5 && rd < 16 && rs < 16 && rt < 16
  | .fcmp c rs rt => c < 5 && rs < 16 && rt < 16
  | .fabs c rd rs => c < 5 && rd < 16 && rs < 16
  | .fneg c rd rs => c < 5 && rd < 16 && rs < 16
  | .fmin c rd rs rt => c < 5 && rd < 16 && rs < 16 && rt < 16
  | .fmax c rd rs rt => c < 5 && rd < 16 && rs < 16 && rt < 16
  | .integerToFp c rd rs => c < 5 && rd < 16 && rs < 16
  | .fpToInteger c rd rs => c < 5 && rd < 16 && rs < 16
  | .q31ToFp c rd rs => c < 5 && rd < 16 && rs < 16
  | .fpToQ31 c rd rs => c < 5 && rd < 16 && rs < 16
  | .frcp c rd rs => c < 5 && rd < 16 && rs < 16
  | .mac c acc rs rt _ => c < 5 && acc < 4 && rs < 16 && rt < 16
  | .rda c rd acc sh => c < 5 && rd < 16 && acc < 4 && sh < 64
  | .mva c acc rs sh => c < 5 && acc < 4 && rs < 16 && sh < 64
  | .clr c acc => c < 5 && acc < 4
  | .rdg c rd acc => c < 5 && rd < 16 && acc < 4
  | .ld c rd p _ _ => c < 5 && rd < 16 && p < 8
  | .st c rd p _ _ => c < 5 && rd < 16 && p < 8
  | .pmvPFromD c pk d => c < 5 && pk < 8 && d < 16
  | .pmvDFromP c d pk => c < 5 && d < 16 && pk < 8
  | .pmvMFromD c mk d => c < 5 && mk < 8 && d < 16
  | .pmvDFromM c d mk => c < 5 && d < 16 && mk < 8
  | .padd c pk pj _ => c < 5 && pk < 8 && pj < 8
  | .mset c mk _ => c < 5 && mk < 8
  | .mlen c mk _ => c < 5 && mk < 8
  | .ldp c pk pj _ => c < 5 && pk < 8 && pj < 8
  | .b c _ _ => c < 5
  | .call c _ => c < 5
  | .jr c rs => c < 5 && rs < 16
  | .rep c count len => c < 5 && count < 65536 && 1 ≤ len && len ≤ 1024
  | .repr c rs len => c < 5 && rs < 16 && 1 ≤ len && len ≤ 1024
  | .brk c => c < 5
  | .wait c => c < 5
  | .rti c => c < 5
  | .mrs c rd => c < 5 && rd < 16
  | .msr c rs => c < 5 && rs < 16
  | .ei c => c < 5
  | .di c => c < 5
  | .rdc c rd => c < 5 && rd < 16
  | .fmad c rd rs rt x y => c < 5 && rd < 4 && rs < 16 && rt < 16 && DualLoad.wf x && DualLoad.wf y
  | .macd c acc rs rt x y => c < 5 && acc < 4 && rs < 16 && rt < 16 && DualLoad.wf x && DualLoad.wf y
  | .ld2 c x y => c < 5 && DualLoad.wf x && DualLoad.wf y
  | .compactCoreInterrupt => true
  | .ldmboxWrite m _ => Master.wf m
  | .restart m c => Master.wf m && c < 5
  | .stop m c => Master.wf m && c < 5
  | .bootSequence _ => true
  | .bootComplete => true
  | .erase m slot => Master.wf m && slot < 2
  | .program m slot nwords => Master.wf m && slot < 2 && nwords ≤ 256
  | .verify m slot => Master.wf m && slot < 2
  | .invalidate m slot => Master.wf m && slot < 2
  | .reboot m => Master.wf m
  | .imageCommandDone _ => true
  | .fpcmdGo m _ _ => Master.wf m
  | .fuseProgramDone _ => true
  | .ethernetFrame _ => true
  | .commandFrame snd _ => Sender.wf snd
  | .read snd _ _ => Sender.wf snd
  | .write snd _ _ => Sender.wf snd
  | .queueMove snd _ _ => Sender.wf snd
  | .bankWrite snd _ _ => Sender.wf snd
  | .subscribe snd _ _ => Sender.wf snd
  | .recordRead snd _ _ => Sender.wf snd
  | .image snd _ _ => Sender.wf snd
  | .headState snd _ _ => Sender.wf snd
  | .writeFrame _ => true
  | .readFrame => true
  | .status => true
  | .phyPoll _ => true
  | .creditTick => true
  | .pulseEnd pin => pin < 8
  | .registerWrite m addr _ => Master.wf m && addr < 4294967296
  | .pwrcmdDeep m => Master.wf m
  | .wake cause => cause < 32
  | .supplyWarning _ mv => mv < 4096
  | .supplyWarningClear _ _ => true
  | .deferralEnd => true
  | .supplyReset => true
  | .refclkLoss => true
  | .pllLockLoss => true
  | .porst => true
  | .resetRelease _ _ _ => true
  | .watchdogExpiry => true
  | .wdkick m _ => Master.wf m
  | .tretReceived r => LaneSlot.wf r
  | .txqReceived r => LaneSlot.wf r
  | .tlinkReceived r => LaneSlot.wf r
  | .twinLaneLossOfLock => true
  | .twinLaneLocked => true
  | .sfbMatchTimeout k => k < 4

end Sys2Proof
end

