-- ==== Sys2Proof/Laws/PerInstr.lean ====
section
/-! SUPPORT. The family Bounds, by command: what a well-formed command names exists. A Ladle instruction names one of the
five cores (R335) and registers of R336; a command of an axis names one of 128 (R11), a group command one of 128 groups. -/

namespace Sys2Proof.Laws.Bounds

/-- The Ladle core a command names. -/
def core : Instr → Option Nat
  | .nop c => some c
  | .add c _ _ _ => some c
  | .sub c _ _ _ => some c
  | .and c _ _ _ => some c
  | .or c _ _ _ => some c
  | .xor c _ _ _ => some c
  | .shl c _ _ _ => some c
  | .shr c _ _ _ => some c
  | .sar c _ _ _ => some c
  | .ror c _ _ _ => some c
  | .mul c _ _ _ => some c
  | .addi c _ _ _ => some c
  | .movl c _ _ => some c
  | .movh c _ _ => some c
  | .cmp c _ _ => some c
  | .mov c _ _ => some c
  | .fadd c _ _ _ => some c
  | .fsub c _ _ _ => some c
  | .fmul c _ _ _ => some c
  | .fma c _ _ _ => some c
  | .fms c _ _ _ => some c
  | .fcmp c _ _ => some c
  | .fabs c _ _ => some c
  | .fneg c _ _ => some c
  | .fmin c _ _ _ => some c
  | .fmax c _ _ _ => some c
  | .integerToFp c _ _ => some c
  | .fpToInteger c _ _ => some c
  | .q31ToFp c _ _ => some c
  | .fpToQ31 c _ _ => some c
  | .frcp c _ _ => some c
  | .mac c _ _ _ _ => some c
  | .rda c _ _ _ => some c
  | .mva c _ _ _ => some c
  | .clr c _ => some c
  | .rdg c _ _ => some c
  | .ld c _ _ _ _ => some c
  | .st c _ _ _ _ => some c
  | .pmvPFromD c _ _ => some c
  | .pmvDFromP c _ _ => some c
  | .pmvMFromD c _ _ => some c
  | .pmvDFromM c _ _ => some c
  | .padd c _ _ _ => some c
  | .mset c _ _ => some c
  | .mlen c _ _ => some c
  | .ldp c _ _ _ => some c
  | .b c _ _ => some c
  | .call c _ => some c
  | .jr c _ => some c
  | .rep c _ _ => some c
  | .repr c _ _ => some c
  | .brk c => some c
  | .wait c => some c
  | .rti c => some c
  | .mrs c _ => some c
  | .msr c _ => some c
  | .ei c => some c
  | .di c => some c
  | .rdc c _ => some c
  | .fmad c _ _ _ _ _ => some c
  | .macd c _ _ _ _ _ => some c
  | .ld2 c _ _ => some c
  | .restart _ c => some c
  | .stop _ c => some c
  | _ => none

/-- The data registers a Ladle instruction names. -/
def dregs : Instr → List Nat
  | .add _ rd rs rt => [rd, rs, rt]
  | .sub _ rd rs rt => [rd, rs, rt]
  | .and _ rd rs rt => [rd, rs, rt]
  | .or _ rd rs rt => [rd, rs, rt]
  | .xor _ rd rs rt => [rd, rs, rt]
  | .shl _ rd rs _ => [rd, rs]
  | .shr _ rd rs _ => [rd, rs]
  | .sar _ rd rs _ => [rd, rs]
  | .ror _ rd rs _ => [rd, rs]
  | .mul _ rd rs rt => [rd, rs, rt]
  | .addi _ rd rs _ => [rd, rs]
  | .movl _ rd _ => [rd]
  | .movh _ rd _ => [rd]
  | .cmp _ rs rt => [rs, rt]
  | .mov _ rd rs => [rd, rs]
  | .fadd _ rd rs rt => [rd, rs, rt]
  | .fsub _ rd rs rt => [rd, rs, rt]
  | .fmul _ rd rs rt => [rd, rs, rt]
  | .fma _ rd rs rt => [rd, rs, rt]
  | .fms _ rd rs rt => [rd, rs, rt]
  | .fcmp _ rs rt => [rs, rt]
  | .fabs _ rd rs => [rd, rs]
  | .fneg _ rd rs => [rd, rs]
  | .fmin _ rd rs rt => [rd, rs, rt]
  | .fmax _ rd rs rt => [rd, rs, rt]
  | .integerToFp _ rd rs => [rd, rs]
  | .fpToInteger _ rd rs => [rd, rs]
  | .q31ToFp _ rd rs => [rd, rs]
  | .fpToQ31 _ rd rs => [rd, rs]
  | .frcp _ rd rs => [rd, rs]
  | .mac _ _ rs rt _ => [rs, rt]
  | .rda _ rd _ _ => [rd]
  | .mva _ _ rs _ => [rs]
  | .rdg _ rd _ => [rd]
  | .ld _ rd _ _ _ => [rd]
  | .st _ rd _ _ _ => [rd]
  | .pmvPFromD _ _ d => [d]
  | .pmvDFromP _ d _ => [d]
  | .pmvMFromD _ _ d => [d]
  | .pmvDFromM _ d _ => [d]
  | .jr _ rs => [rs]
  | .repr _ rs _ => [rs]
  | .mrs _ rd => [rd]
  | .msr _ rs => [rs]
  | .rdc _ rd => [rd]
  | .fmad _ rd rs rt _ _ => [rd, rs, rt]
  | .macd _ _ rs rt _ _ => [rs, rt]
  | _ => []

/-- The pointers and modifiers a Ladle instruction names. -/
def pregs : Instr → List Nat
  | .ld _ _ p _ _ => [p]
  | .st _ _ p _ _ => [p]
  | .pmvPFromD _ pk _ => [pk]
  | .pmvDFromP _ _ pk => [pk]
  | .pmvMFromD _ mk _ => [mk]
  | .pmvDFromM _ _ mk => [mk]
  | .padd _ pk pj _ => [pk, pj]
  | .mset _ mk _ => [mk]
  | .mlen _ mk _ => [mk]
  | .ldp _ pk pj _ => [pk, pj]
  | _ => []

/-- The axis a command names. -/
def axis : Instr → Option Nat
  | .fdnSlotDeparture a => some a
  | .bankSwap a => some a
  | .enable a => some a
  | .run a => some a
  | .park a => some a
  | .unpark a => some a
  | .qstop a => some a
  | .disable a => some a
  | .reset a => some a
  | .swap a => some a
  | .brakeAppliedReport a => some a
  | .compareArming a _ _ _ _ => some a
  | .probeArming a _ => some a
  | .retryComplete a => some a
  | .testStepEvaluation a => some a
  | .noResponse a => some a
  | _ => none

/-- The group a command names. -/
def group : Instr → Option Nat
  | .groupEnable g => some g
  | .groupRun g => some g
  | .groupPark g => some g
  | .groupUnpark g => some g
  | .groupQstop g => some g
  | .groupDisable g => some g
  | .groupReset g => some g
  | .locgo g _ => some g
  | _ => none

/-- What a well-formed command names exists. -/
def Statement (i : Instr) : Prop :=
  i.wf = true →
    (∀ c ∈ core i, c < 5) ∧ (∀ r ∈ dregs i, r < 16) ∧ (∀ r ∈ pregs i, r < 8) ∧ (∀ a ∈ axis i, a < 128) ∧ ∀ g ∈ group i, g < 128

theorem none_lt (n : Nat) : ∀ x ∈ (none : Option Nat), x < n := fun _ h => nomatch h
theorem some_lt {c n : Nat} (h : c < n) : ∀ x ∈ some c, x < n := fun _ e => Option.some.inj e ▸ h
theorem nil_lt (n : Nat) : ∀ x ∈ ([] : List Nat), x < n := fun _ h => nomatch h
theorem cons_lt {a n : Nat} {l : List Nat} (h : a < n) (t : ∀ x ∈ l, x < n) : ∀ x ∈ a :: l, x < n
  | _, .head _ => h
  | x, .tail _ m => t x m

theorem roundStart : Statement (.roundStart) := fun _ =>
  ⟨none_lt 5, nil_lt 16, nil_lt 8, none_lt 128, none_lt 128⟩
theorem fupReceived (r : RxSlot) : Statement (.fupReceived r) := fun _ =>
  ⟨none_lt 5, nil_lt 16, nil_lt 8, none_lt 128, none_lt 128⟩
theorem posReceived (r : RxSlot) : Statement (.posReceived r) := fun _ =>
  ⟨none_lt 5, nil_lt 16, nil_lt 8, none_lt 128, none_lt 128⟩
theorem diagReceived (r : RxSlot) : Statement (.diagReceived r) := fun _ =>
  ⟨none_lt 5, nil_lt 16, nil_lt 8, none_lt 128, none_lt 128⟩
theorem svcReply (r : RxSlot) : Statement (.svcReply r) := fun _ =>
  ⟨none_lt 5, nil_lt 16, nil_lt 8, none_lt 128, none_lt 128⟩
theorem upstreamSilence (ch : Nat) (node : Nat) : Statement (.upstreamSilence ch node) := fun _ =>
  ⟨none_lt 5, nil_lt 16, nil_lt 8, none_lt 128, none_lt 128⟩
theorem clusterWake (c : Nat) : Statement (.clusterWake c) := fun _ =>
  ⟨none_lt 5, nil_lt 16, nil_lt 8, none_lt 128, none_lt 128⟩
theorem sliceOverrun (c : Nat) : Statement (.sliceOverrun c) := fun _ =>
  ⟨none_lt 5, nil_lt 16, nil_lt 8, none_lt 128, none_lt 128⟩
theorem fdnSlotDeparture (a : Nat) : Statement (.fdnSlotDeparture a) := by
  intro h
  change (decide (a < 128)) = true at h
  simp only [decide_eq_true_eq] at h
  exact ⟨none_lt 5, nil_lt 16, nil_lt 8, some_lt (by omega), none_lt 128⟩
theorem wheelTick : Statement (.wheelTick) := fun _ =>
  ⟨none_lt 5, nil_lt 16, nil_lt 8, none_lt 128, none_lt 128⟩
theorem cxpReceived (r : LaneSlot) : Statement (.cxpReceived r) := fun _ =>
  ⟨none_lt 5, nil_lt 16, nil_lt 8, none_lt 128, none_lt 128⟩
theorem remoteGearDerivation : Statement (.remoteGearDerivation) := fun _ =>
  ⟨none_lt 5, nil_lt 16, nil_lt 8, none_lt 128, none_lt 128⟩
theorem bankSwap (a : Nat) : Statement (.bankSwap a) := by
  intro h
  change (decide (a < 128)) = true at h
  simp only [decide_eq_true_eq] at h
  exact ⟨none_lt 5, nil_lt 16, nil_lt 8, some_lt (by omega), none_lt 128⟩
theorem enable (a : Nat) : Statement (.enable a) := by
  intro h
  change (decide (a < 128)) = true at h
  simp only [decide_eq_true_eq] at h
  exact ⟨none_lt 5, nil_lt 16, nil_lt 8, some_lt (by omega), none_lt 128⟩
theorem run (a : Nat) : Statement (.run a) := by
  intro h
  change (decide (a < 128)) = true at h
  simp only [decide_eq_true_eq] at h
  exact ⟨none_lt 5, nil_lt 16, nil_lt 8, some_lt (by omega), none_lt 128⟩
theorem park (a : Nat) : Statement (.park a) := by
  intro h
  change (decide (a < 128)) = true at h
  simp only [decide_eq_true_eq] at h
  exact ⟨none_lt 5, nil_lt 16, nil_lt 8, some_lt (by omega), none_lt 128⟩
theorem unpark (a : Nat) : Statement (.unpark a) := by
  intro h
  change (decide (a < 128)) = true at h
  simp only [decide_eq_true_eq] at h
  exact ⟨none_lt 5, nil_lt 16, nil_lt 8, some_lt (by omega), none_lt 128⟩
theorem qstop (a : Nat) : Statement (.qstop a) := by
  intro h
  change (decide (a < 128)) = true at h
  simp only [decide_eq_true_eq] at h
  exact ⟨none_lt 5, nil_lt 16, nil_lt 8, some_lt (by omega), none_lt 128⟩
theorem disable (a : Nat) : Statement (.disable a) := by
  intro h
  change (decide (a < 128)) = true at h
  simp only [decide_eq_true_eq] at h
  exact ⟨none_lt 5, nil_lt 16, nil_lt 8, some_lt (by omega), none_lt 128⟩
theorem reset (a : Nat) : Statement (.reset a) := by
  intro h
  change (decide (a < 128)) = true at h
  simp only [decide_eq_true_eq] at h
  exact ⟨none_lt 5, nil_lt 16, nil_lt 8, some_lt (by omega), none_lt 128⟩
theorem swap (a : Nat) : Statement (.swap a) := by
  intro h
  change (decide (a < 128)) = true at h
  simp only [decide_eq_true_eq] at h
  exact ⟨none_lt 5, nil_lt 16, nil_lt 8, some_lt (by omega), none_lt 128⟩
theorem brakeAppliedReport (a : Nat) : Statement (.brakeAppliedReport a) := by
  intro h
  change (decide (a < 128)) = true at h
  simp only [decide_eq_true_eq] at h
  exact ⟨none_lt 5, nil_lt 16, nil_lt 8, some_lt (by omega), none_lt 128⟩
theorem groupEnable (g : Nat) : Statement (.groupEnable g) := by
  intro h
  change (decide (g < 128)) = true at h
  simp only [decide_eq_true_eq] at h
  exact ⟨none_lt 5, nil_lt 16, nil_lt 8, none_lt 128, some_lt (by omega)⟩
theorem groupRun (g : Nat) : Statement (.groupRun g) := by
  intro h
  change (decide (g < 128)) = true at h
  simp only [decide_eq_true_eq] at h
  exact ⟨none_lt 5, nil_lt 16, nil_lt 8, none_lt 128, some_lt (by omega)⟩
theorem groupPark (g : Nat) : Statement (.groupPark g) := by
  intro h
  change (decide (g < 128)) = true at h
  simp only [decide_eq_true_eq] at h
  exact ⟨none_lt 5, nil_lt 16, nil_lt 8, none_lt 128, some_lt (by omega)⟩
theorem groupUnpark (g : Nat) : Statement (.groupUnpark g) := by
  intro h
  change (decide (g < 128)) = true at h
  simp only [decide_eq_true_eq] at h
  exact ⟨none_lt 5, nil_lt 16, nil_lt 8, none_lt 128, some_lt (by omega)⟩
theorem groupQstop (g : Nat) : Statement (.groupQstop g) := by
  intro h
  change (decide (g < 128)) = true at h
  simp only [decide_eq_true_eq] at h
  exact ⟨none_lt 5, nil_lt 16, nil_lt 8, none_lt 128, some_lt (by omega)⟩
theorem groupDisable (g : Nat) : Statement (.groupDisable g) := by
  intro h
  change (decide (g < 128)) = true at h
  simp only [decide_eq_true_eq] at h
  exact ⟨none_lt 5, nil_lt 16, nil_lt 8, none_lt 128, some_lt (by omega)⟩
theorem groupReset (g : Nat) : Statement (.groupReset g) := by
  intro h
  change (decide (g < 128)) = true at h
  simp only [decide_eq_true_eq] at h
  exact ⟨none_lt 5, nil_lt 16, nil_lt 8, none_lt 128, some_lt (by omega)⟩
theorem locgo (g : Nat) (seg : Nat) : Statement (.locgo g seg) := by
  intro h
  change (decide (g < 128) && decide (seg < 128)) = true at h
  simp only [Bool.and_eq_true, decide_eq_true_eq] at h
  exact ⟨none_lt 5, nil_lt 16, nil_lt 8, none_lt 128, some_lt (by omega)⟩
theorem append (o : Owner) (m : Master) : Statement (.append o m) := fun _ =>
  ⟨none_lt 5, nil_lt 16, nil_lt 8, none_lt 128, none_lt 128⟩
theorem replace (o : Owner) (m : Master) : Statement (.replace o m) := fun _ =>
  ⟨none_lt 5, nil_lt 16, nil_lt 8, none_lt 128, none_lt 128⟩
theorem chglim (o : Owner) (m : Master) : Statement (.chglim o m) := fun _ =>
  ⟨none_lt 5, nil_lt 16, nil_lt 8, none_lt 128, none_lt 128⟩
theorem clear (o : Owner) (m : Master) : Statement (.clear o m) := fun _ =>
  ⟨none_lt 5, nil_lt 16, nil_lt 8, none_lt 128, none_lt 128⟩
theorem ref (o : Owner) (m : Master) : Statement (.ref o m) := fun _ =>
  ⟨none_lt 5, nil_lt 16, nil_lt 8, none_lt 128, none_lt 128⟩
theorem compareArming (a : Nat) (w0 : Word) (w1 : Word) (w2 : Word) (w3 : Word) : Statement (.compareArming a w0 w1 w2 w3) := by
  intro h
  change (decide (a < 128)) = true at h
  simp only [decide_eq_true_eq] at h
  exact ⟨none_lt 5, nil_lt 16, nil_lt 8, some_lt (by omega), none_lt 128⟩
theorem probeArming (a : Nat) (w : Word) : Statement (.probeArming a w) := by
  intro h
  change (decide (a < 128)) = true at h
  simp only [decide_eq_true_eq] at h
  exact ⟨none_lt 5, nil_lt 16, nil_lt 8, some_lt (by omega), none_lt 128⟩
theorem localProbeEdge (pin : Nat) (level : Bool) (clk : Nat) (len : Nat) : Statement (.localProbeEdge pin level clk len) := fun _ =>
  ⟨none_lt 5, nil_lt 16, nil_lt 8, none_lt 128, none_lt 128⟩
theorem localEncoderEdge (port : Nat) (pinA : Bool) (pinB : Bool) (pinZ : Bool) : Statement (.localEncoderEdge port pinA pinB pinZ) := fun _ =>
  ⟨none_lt 5, nil_lt 16, nil_lt 8, none_lt 128, none_lt 128⟩
theorem ssiFrameStart (port : Nat) : Statement (.ssiFrameStart port) := fun _ =>
  ⟨none_lt 5, nil_lt 16, nil_lt 8, none_lt 128, none_lt 128⟩
theorem ssiFrameEnd (port : Nat) (startOk : Bool) (bits : List Bool) : Statement (.ssiFrameEnd port startOk bits) := fun _ =>
  ⟨none_lt 5, nil_lt 16, nil_lt 8, none_lt 128, none_lt 128⟩
theorem backoffEnd (cls : Nat) (idx : Nat) : Statement (.backoffEnd cls idx) := fun _ =>
  ⟨none_lt 5, nil_lt 16, nil_lt 8, none_lt 128, none_lt 128⟩
theorem rtrelGo (m : Master) (w : Word) : Statement (.rtrelGo m w) := fun _ =>
  ⟨none_lt 5, nil_lt 16, nil_lt 8, none_lt 128, none_lt 128⟩
theorem retryComplete (a : Nat) : Statement (.retryComplete a) := by
  intro h
  change (decide (a < 128)) = true at h
  simp only [decide_eq_true_eq] at h
  exact ⟨none_lt 5, nil_lt 16, nil_lt 8, some_lt (by omega), none_lt 128⟩
theorem testStepEvaluation (a : Nat) : Statement (.testStepEvaluation a) := by
  intro h
  change (decide (a < 128)) = true at h
  simp only [decide_eq_true_eq] at h
  exact ⟨none_lt 5, nil_lt 16, nil_lt 8, some_lt (by omega), none_lt 128⟩
theorem noResponse (a : Nat) : Statement (.noResponse a) := by
  intro h
  change (decide (a < 128)) = true at h
  simp only [decide_eq_true_eq] at h
  exact ⟨none_lt 5, nil_lt 16, nil_lt 8, some_lt (by omega), none_lt 128⟩
theorem overVoltageTrip (d : Detector) : Statement (.overVoltageTrip d) := fun _ =>
  ⟨none_lt 5, nil_lt 16, nil_lt 8, none_lt 128, none_lt 128⟩
theorem overVoltageForcingEnd : Statement (.overVoltageForcingEnd) := fun _ =>
  ⟨none_lt 5, nil_lt 16, nil_lt 8, none_lt 128, none_lt 128⟩
theorem chopperOverload (j : Nat) : Statement (.chopperOverload j) := fun _ =>
  ⟨none_lt 5, nil_lt 16, nil_lt 8, none_lt 128, none_lt 128⟩
theorem sdiFast (k : Nat) : Statement (.sdiFast k) := fun _ =>
  ⟨none_lt 5, nil_lt 16, nil_lt 8, none_lt 128, none_lt 128⟩
theorem sdiFault (k : Nat) : Statement (.sdiFault k) := fun _ =>
  ⟨none_lt 5, nil_lt 16, nil_lt 8, none_lt 128, none_lt 128⟩
theorem psctestGo (target : Nat) : Statement (.psctestGo target) := fun _ =>
  ⟨none_lt 5, nil_lt 16, nil_lt 8, none_lt 128, none_lt 128⟩
theorem comparatorSelfTestEnd (tripped : Bool) (released : Bool) : Statement (.comparatorSelfTestEnd tripped released) := fun _ =>
  ⟨none_lt 5, nil_lt 16, nil_lt 8, none_lt 128, none_lt 128⟩
theorem listenTimerExpiry : Statement (.listenTimerExpiry) := fun _ =>
  ⟨none_lt 5, nil_lt 16, nil_lt 8, none_lt 128, none_lt 128⟩
theorem markAccepted (r : RxSlot) : Statement (.markAccepted r) := fun _ =>
  ⟨none_lt 5, nil_lt 16, nil_lt 8, none_lt 128, none_lt 128⟩
theorem coldstartEnd : Statement (.coldstartEnd) := fun _ =>
  ⟨none_lt 5, nil_lt 16, nil_lt 8, none_lt 128, none_lt 128⟩
theorem loadSequence (ch : Nat) (node : Nat) : Statement (.loadSequence ch node) := fun _ =>
  ⟨none_lt 5, nil_lt 16, nil_lt 8, none_lt 128, none_lt 128⟩
theorem loadTimeout (ch : Nat) (node : Nat) : Statement (.loadTimeout ch node) := fun _ =>
  ⟨none_lt 5, nil_lt 16, nil_lt 8, none_lt 128, none_lt 128⟩
theorem nodeAdmission (ch : Nat) (node : Nat) : Statement (.nodeAdmission ch node) := fun _ =>
  ⟨none_lt 5, nil_lt 16, nil_lt 8, none_lt 128, none_lt 128⟩
theorem channelJudgement (ch : Nat) (o : ChanObs) : Statement (.channelJudgement ch o) := fun _ =>
  ⟨none_lt 5, nil_lt 16, nil_lt 8, none_lt 128, none_lt 128⟩
theorem skimEnded : Statement (.skimEnded) := fun _ =>
  ⟨none_lt 5, nil_lt 16, nil_lt 8, none_lt 128, none_lt 128⟩
theorem portLoss (ch : Nat) (f : PortFault) : Statement (.portLoss ch f) := fun _ =>
  ⟨none_lt 5, nil_lt 16, nil_lt 8, none_lt 128, none_lt 128⟩
theorem unwrapOrder (ch : Nat) : Statement (.unwrapOrder ch) := fun _ =>
  ⟨none_lt 5, nil_lt 16, nil_lt 8, none_lt 128, none_lt 128⟩
theorem unwrap (ch : Nat) : Statement (.unwrap ch) := fun _ =>
  ⟨none_lt 5, nil_lt 16, nil_lt 8, none_lt 128, none_lt 128⟩
theorem tleaseReceived (r : LaneSlot) : Statement (.tleaseReceived r) := fun _ =>
  ⟨none_lt 5, nil_lt 16, nil_lt 8, none_lt 128, none_lt 128⟩
theorem tdigReceived (r : LaneSlot) : Statement (.tdigReceived r) := fun _ =>
  ⟨none_lt 5, nil_lt 16, nil_lt 8, none_lt 128, none_lt 128⟩
theorem leaseExpiry : Statement (.leaseExpiry) := fun _ =>
  ⟨none_lt 5, nil_lt 16, nil_lt 8, none_lt 128, none_lt 128⟩
theorem twinLinkLost : Statement (.twinLinkLost) := fun _ =>
  ⟨none_lt 5, nil_lt 16, nil_lt 8, none_lt 128, none_lt 128⟩
theorem tcmdReceived (r : LaneSlot) : Statement (.tcmdReceived r) := fun _ =>
  ⟨none_lt 5, nil_lt 16, nil_lt 8, none_lt 128, none_lt 128⟩
theorem tconfReceived (r : LaneSlot) : Statement (.tconfReceived r) := fun _ =>
  ⟨none_lt 5, nil_lt 16, nil_lt 8, none_lt 128, none_lt 128⟩
theorem tconfTimeout (seq : Word) : Statement (.tconfTimeout seq) := fun _ =>
  ⟨none_lt 5, nil_lt 16, nil_lt 8, none_lt 128, none_lt 128⟩
theorem tcommitReceived (r : LaneSlot) : Statement (.tcommitReceived r) := fun _ =>
  ⟨none_lt 5, nil_lt 16, nil_lt 8, none_lt 128, none_lt 128⟩
theorem tcopyReceived (u : CopyUnit) : Statement (.tcopyReceived u) := fun _ =>
  ⟨none_lt 5, nil_lt 16, nil_lt 8, none_lt 128, none_lt 128⟩
theorem hbreq : Statement (.hbreq) := fun _ =>
  ⟨none_lt 5, nil_lt 16, nil_lt 8, none_lt 128, none_lt 128⟩
theorem handbackRound : Statement (.handbackRound) := fun _ =>
  ⟨none_lt 5, nil_lt 16, nil_lt 8, none_lt 128, none_lt 128⟩
theorem handbackEnd : Statement (.handbackEnd) := fun _ =>
  ⟨none_lt 5, nil_lt 16, nil_lt 8, none_lt 128, none_lt 128⟩
theorem isolatedTimeout : Statement (.isolatedTimeout) := fun _ =>
  ⟨none_lt 5, nil_lt 16, nil_lt 8, none_lt 128, none_lt 128⟩
theorem yield (m : Master) : Statement (.yield m) := fun _ =>
  ⟨none_lt 5, nil_lt 16, nil_lt 8, none_lt 128, none_lt 128⟩
theorem rejoin (m : Master) : Statement (.rejoin m) := fun _ =>
  ⟨none_lt 5, nil_lt 16, nil_lt 8, none_lt 128, none_lt 128⟩
theorem inhibit (m : Master) : Statement (.inhibit m) := fun _ =>
  ⟨none_lt 5, nil_lt 16, nil_lt 8, none_lt 128, none_lt 128⟩
theorem allow (m : Master) : Statement (.allow m) := fun _ =>
  ⟨none_lt 5, nil_lt 16, nil_lt 8, none_lt 128, none_lt 128⟩
theorem cmarkReceived (r : LaneSlot) : Statement (.cmarkReceived r) := fun _ =>
  ⟨none_lt 5, nil_lt 16, nil_lt 8, none_lt 128, none_lt 128⟩
theorem csyncEdge (ofs : Int) : Statement (.csyncEdge ofs) := fun _ =>
  ⟨none_lt 5, nil_lt 16, nil_lt 8, none_lt 128, none_lt 128⟩
theorem csyncLost : Statement (.csyncLost) := fun _ =>
  ⟨none_lt 5, nil_lt 16, nil_lt 8, none_lt 128, none_lt 128⟩
theorem cwaitExpiry : Statement (.cwaitExpiry) := fun _ =>
  ⟨none_lt 5, nil_lt 16, nil_lt 8, none_lt 128, none_lt 128⟩
theorem cascadeLaneLoss : Statement (.cascadeLaneLoss) := fun _ =>
  ⟨none_lt 5, nil_lt 16, nil_lt 8, none_lt 128, none_lt 128⟩
theorem safeReceived (r : RxSlot) : Statement (.safeReceived r) := fun _ =>
  ⟨none_lt 5, nil_lt 16, nil_lt 8, none_lt 128, none_lt 128⟩
theorem safePeriod : Statement (.safePeriod) := fun _ =>
  ⟨none_lt 5, nil_lt 16, nil_lt 8, none_lt 128, none_lt 128⟩
theorem brakeFeedbackTimeout (b : Nat) : Statement (.brakeFeedbackTimeout b) := fun _ =>
  ⟨none_lt 5, nil_lt 16, nil_lt 8, none_lt 128, none_lt 128⟩
theorem degtimeExceeded : Statement (.degtimeExceeded) := fun _ =>
  ⟨none_lt 5, nil_lt 16, nil_lt 8, none_lt 128, none_lt 128⟩
theorem lockoutCause (cause : Nat) (idx : Nat) : Statement (.lockoutCause cause idx) := fun _ =>
  ⟨none_lt 5, nil_lt 16, nil_lt 8, none_lt 128, none_lt 128⟩
theorem lockout : Statement (.lockout) := fun _ =>
  ⟨none_lt 5, nil_lt 16, nil_lt 8, none_lt 128, none_lt 128⟩
theorem safeReset (startRound : Word) (us : Nat) : Statement (.safeReset startRound us) := fun _ =>
  ⟨none_lt 5, nil_lt 16, nil_lt 8, none_lt 128, none_lt 128⟩
theorem testPulse (sealHigh : Bool) (resetHigh : Bool) : Statement (.testPulse sealHigh resetHigh) := fun _ =>
  ⟨none_lt 5, nil_lt 16, nil_lt 8, none_lt 128, none_lt 128⟩
theorem darkPulse (k : Nat) (fell : Bool) (rose : Bool) : Statement (.darkPulse k fell rose) := fun _ =>
  ⟨none_lt 5, nil_lt 16, nil_lt 8, none_lt 128, none_lt 128⟩
theorem saggarWatchdogExpiry : Statement (.saggarWatchdogExpiry) := fun _ =>
  ⟨none_lt 5, nil_lt 16, nil_lt 8, none_lt 128, none_lt 128⟩
theorem saggarSupplyTrip : Statement (.saggarSupplyTrip) := fun _ =>
  ⟨none_lt 5, nil_lt 16, nil_lt 8, none_lt 128, none_lt 128⟩
theorem cpuSelfTest (ok : Bool) : Statement (.cpuSelfTest ok) := fun _ =>
  ⟨none_lt 5, nil_lt 16, nil_lt 8, none_lt 128, none_lt 128⟩
theorem ramScrub (ok : Bool) : Statement (.ramScrub ok) := fun _ =>
  ⟨none_lt 5, nil_lt 16, nil_lt 8, none_lt 128, none_lt 128⟩
theorem romCrc (ok : Bool) : Statement (.romCrc ok) := fun _ =>
  ⟨none_lt 5, nil_lt 16, nil_lt 8, none_lt 128, none_lt 128⟩
theorem clockComparison (ok : Bool) : Statement (.clockComparison ok) := fun _ =>
  ⟨none_lt 5, nil_lt 16, nil_lt 8, none_lt 128, none_lt 128⟩
theorem inputComparatorSelfTest (ok : Bool) : Statement (.inputComparatorSelfTest ok) := fun _ =>
  ⟨none_lt 5, nil_lt 16, nil_lt 8, none_lt 128, none_lt 128⟩
theorem marchTest (ok : Bool) : Statement (.marchTest ok) := fun _ =>
  ⟨none_lt 5, nil_lt 16, nil_lt 8, none_lt 128, none_lt 128⟩
theorem saggarSelfTestEnd : Statement (.saggarSelfTestEnd) := fun _ =>
  ⟨none_lt 5, nil_lt 16, nil_lt 8, none_lt 128, none_lt 128⟩
theorem pwd (m : Master) (len : Nat) : Statement (.pwd m len) := fun _ =>
  ⟨none_lt 5, nil_lt 16, nil_lt 8, none_lt 128, none_lt 128⟩
theorem pwdset (m : Master) (len : Nat) : Statement (.pwdset m len) := fun _ =>
  ⟨none_lt 5, nil_lt 16, nil_lt 8, none_lt 128, none_lt 128⟩
theorem param (m : Master) : Statement (.param m) := fun _ =>
  ⟨none_lt 5, nil_lt 16, nil_lt 8, none_lt 128, none_lt 128⟩
theorem sealclose (m : Master) : Statement (.sealclose m) := fun _ =>
  ⟨none_lt 5, nil_lt 16, nil_lt 8, none_lt 128, none_lt 128⟩
theorem logclear (m : Master) : Statement (.logclear m) := fun _ =>
  ⟨none_lt 5, nil_lt 16, nil_lt 8, none_lt 128, none_lt 128⟩
theorem btest (m : Master) (b : Nat) : Statement (.btest m b) := fun _ =>
  ⟨none_lt 5, nil_lt 16, nil_lt 8, none_lt 128, none_lt 128⟩
theorem btestEnd : Statement (.btestEnd) := fun _ =>
  ⟨none_lt 5, nil_lt 16, nil_lt 8, none_lt 128, none_lt 128⟩
theorem btabort (m : Master) : Statement (.btabort m) := fun _ =>
  ⟨none_lt 5, nil_lt 16, nil_lt 8, none_lt 128, none_lt 128⟩
theorem outset (m : Master) (mask : Nat) : Statement (.outset m mask) := fun _ =>
  ⟨none_lt 5, nil_lt 16, nil_lt 8, none_lt 128, none_lt 128⟩
theorem sealPinChange (level : Bool) : Statement (.sealPinChange level) := fun _ =>
  ⟨none_lt 5, nil_lt 16, nil_lt 8, none_lt 128, none_lt 128⟩
theorem sealTimeout : Statement (.sealTimeout) := fun _ =>
  ⟨none_lt 5, nil_lt 16, nil_lt 8, none_lt 128, none_lt 128⟩
theorem passwordBlockEnd : Statement (.passwordBlockEnd) := fun _ =>
  ⟨none_lt 5, nil_lt 16, nil_lt 8, none_lt 128, none_lt 128⟩
theorem poweredSecond : Statement (.poweredSecond) := fun _ =>
  ⟨none_lt 5, nil_lt 16, nil_lt 8, none_lt 128, none_lt 128⟩
theorem recorderPwd (m : Master) (len : Nat) : Statement (.recorderPwd m len) := fun _ =>
  ⟨none_lt 5, nil_lt 16, nil_lt 8, none_lt 128, none_lt 128⟩
theorem recorderClear (src : Source) (scope : Nat) (ok : Bool) : Statement (.recorderClear src scope ok) := fun _ =>
  ⟨none_lt 5, nil_lt 16, nil_lt 8, none_lt 128, none_lt 128⟩
theorem save (m : Master) : Statement (.save m) := fun _ =>
  ⟨none_lt 5, nil_lt 16, nil_lt 8, none_lt 128, none_lt 128⟩
theorem lock (m : Master) : Statement (.lock m) := fun _ =>
  ⟨none_lt 5, nil_lt 16, nil_lt 8, none_lt 128, none_lt 128⟩
theorem saveComplete (ok : Bool) : Statement (.saveComplete ok) := fun _ =>
  ⟨none_lt 5, nil_lt 16, nil_lt 8, none_lt 128, none_lt 128⟩
theorem authorisationTimeout : Statement (.authorisationTimeout) := fun _ =>
  ⟨none_lt 5, nil_lt 16, nil_lt 8, none_lt 128, none_lt 128⟩
theorem recorderPwdBlockEnd : Statement (.recorderPwdBlockEnd) := fun _ =>
  ⟨none_lt 5, nil_lt 16, nil_lt 8, none_lt 128, none_lt 128⟩
theorem nop (c : Nat) : Statement (.nop c) := by
  intro h
  change (decide (c < 5)) = true at h
  simp only [decide_eq_true_eq] at h
  exact ⟨some_lt (by omega), nil_lt 16, nil_lt 8, none_lt 128, none_lt 128⟩
theorem add (c : Nat) (rd : Nat) (rs : Nat) (rt : Nat) : Statement (.add c rd rs rt) := by
  intro h
  change (decide (c < 5) && decide (rd < 16) && decide (rs < 16) && decide (rt < 16)) = true at h
  simp only [Bool.and_eq_true, decide_eq_true_eq] at h
  exact ⟨some_lt (by omega), cons_lt (by omega) (cons_lt (by omega) (cons_lt (by omega) (nil_lt 16))), nil_lt 8, none_lt 128, none_lt 128⟩
theorem sub (c : Nat) (rd : Nat) (rs : Nat) (rt : Nat) : Statement (.sub c rd rs rt) := by
  intro h
  change (decide (c < 5) && decide (rd < 16) && decide (rs < 16) && decide (rt < 16)) = true at h
  simp only [Bool.and_eq_true, decide_eq_true_eq] at h
  exact ⟨some_lt (by omega), cons_lt (by omega) (cons_lt (by omega) (cons_lt (by omega) (nil_lt 16))), nil_lt 8, none_lt 128, none_lt 128⟩
theorem and (c : Nat) (rd : Nat) (rs : Nat) (rt : Nat) : Statement (.and c rd rs rt) := by
  intro h
  change (decide (c < 5) && decide (rd < 16) && decide (rs < 16) && decide (rt < 16)) = true at h
  simp only [Bool.and_eq_true, decide_eq_true_eq] at h
  exact ⟨some_lt (by omega), cons_lt (by omega) (cons_lt (by omega) (cons_lt (by omega) (nil_lt 16))), nil_lt 8, none_lt 128, none_lt 128⟩
theorem or (c : Nat) (rd : Nat) (rs : Nat) (rt : Nat) : Statement (.or c rd rs rt) := by
  intro h
  change (decide (c < 5) && decide (rd < 16) && decide (rs < 16) && decide (rt < 16)) = true at h
  simp only [Bool.and_eq_true, decide_eq_true_eq] at h
  exact ⟨some_lt (by omega), cons_lt (by omega) (cons_lt (by omega) (cons_lt (by omega) (nil_lt 16))), nil_lt 8, none_lt 128, none_lt 128⟩
theorem xor (c : Nat) (rd : Nat) (rs : Nat) (rt : Nat) : Statement (.xor c rd rs rt) := by
  intro h
  change (decide (c < 5) && decide (rd < 16) && decide (rs < 16) && decide (rt < 16)) = true at h
  simp only [Bool.and_eq_true, decide_eq_true_eq] at h
  exact ⟨some_lt (by omega), cons_lt (by omega) (cons_lt (by omega) (cons_lt (by omega) (nil_lt 16))), nil_lt 8, none_lt 128, none_lt 128⟩
theorem shl (c : Nat) (rd : Nat) (rs : Nat) (amt : ShAmt) : Statement (.shl c rd rs amt) := by
  intro h
  change (decide (c < 5) && decide (rd < 16) && decide (rs < 16) && ShAmt.wf amt) = true at h
  simp only [Bool.and_eq_true, decide_eq_true_eq] at h
  exact ⟨some_lt (by omega), cons_lt (by omega) (cons_lt (by omega) (nil_lt 16)), nil_lt 8, none_lt 128, none_lt 128⟩
theorem shr (c : Nat) (rd : Nat) (rs : Nat) (amt : ShAmt) : Statement (.shr c rd rs amt) := by
  intro h
  change (decide (c < 5) && decide (rd < 16) && decide (rs < 16) && ShAmt.wf amt) = true at h
  simp only [Bool.and_eq_true, decide_eq_true_eq] at h
  exact ⟨some_lt (by omega), cons_lt (by omega) (cons_lt (by omega) (nil_lt 16)), nil_lt 8, none_lt 128, none_lt 128⟩
theorem sar (c : Nat) (rd : Nat) (rs : Nat) (amt : ShAmt) : Statement (.sar c rd rs amt) := by
  intro h
  change (decide (c < 5) && decide (rd < 16) && decide (rs < 16) && ShAmt.wf amt) = true at h
  simp only [Bool.and_eq_true, decide_eq_true_eq] at h
  exact ⟨some_lt (by omega), cons_lt (by omega) (cons_lt (by omega) (nil_lt 16)), nil_lt 8, none_lt 128, none_lt 128⟩
theorem ror (c : Nat) (rd : Nat) (rs : Nat) (amt : ShAmt) : Statement (.ror c rd rs amt) := by
  intro h
  change (decide (c < 5) && decide (rd < 16) && decide (rs < 16) && ShAmt.wf amt) = true at h
  simp only [Bool.and_eq_true, decide_eq_true_eq] at h
  exact ⟨some_lt (by omega), cons_lt (by omega) (cons_lt (by omega) (nil_lt 16)), nil_lt 8, none_lt 128, none_lt 128⟩
theorem mul (c : Nat) (rd : Nat) (rs : Nat) (rt : Nat) : Statement (.mul c rd rs rt) := by
  intro h
  change (decide (c < 5) && decide (rd < 16) && decide (rs < 16) && decide (rt < 16)) = true at h
  simp only [Bool.and_eq_true, decide_eq_true_eq] at h
  exact ⟨some_lt (by omega), cons_lt (by omega) (cons_lt (by omega) (cons_lt (by omega) (nil_lt 16))), nil_lt 8, none_lt 128, none_lt 128⟩
theorem addi (c : Nat) (rd : Nat) (rs : Nat) (imm : BitVec 18) : Statement (.addi c rd rs imm) := by
  intro h
  change (decide (c < 5) && decide (rd < 16) && decide (rs < 16)) = true at h
  simp only [Bool.and_eq_true, decide_eq_true_eq] at h
  exact ⟨some_lt (by omega), cons_lt (by omega) (cons_lt (by omega) (nil_lt 16)), nil_lt 8, none_lt 128, none_lt 128⟩
theorem movl (c : Nat) (rd : Nat) (imm : BitVec 16) : Statement (.movl c rd imm) := by
  intro h
  change (decide (c < 5) && decide (rd < 16)) = true at h
  simp only [Bool.and_eq_true, decide_eq_true_eq] at h
  exact ⟨some_lt (by omega), cons_lt (by omega) (nil_lt 16), nil_lt 8, none_lt 128, none_lt 128⟩
theorem movh (c : Nat) (rd : Nat) (imm : BitVec 16) : Statement (.movh c rd imm) := by
  intro h
  change (decide (c < 5) && decide (rd < 16)) = true at h
  simp only [Bool.and_eq_true, decide_eq_true_eq] at h
  exact ⟨some_lt (by omega), cons_lt (by omega) (nil_lt 16), nil_lt 8, none_lt 128, none_lt 128⟩
theorem cmp (c : Nat) (rs : Nat) (rt : Nat) : Statement (.cmp c rs rt) := by
  intro h
  change (decide (c < 5) && decide (rs < 16) && decide (rt < 16)) = true at h
  simp only [Bool.and_eq_true, decide_eq_true_eq] at h
  exact ⟨some_lt (by omega), cons_lt (by omega) (cons_lt (by omega) (nil_lt 16)), nil_lt 8, none_lt 128, none_lt 128⟩
theorem mov (c : Nat) (rd : Nat) (rs : Nat) : Statement (.mov c rd rs) := by
  intro h
  change (decide (c < 5) && decide (rd < 16) && decide (rs < 16)) = true at h
  simp only [Bool.and_eq_true, decide_eq_true_eq] at h
  exact ⟨some_lt (by omega), cons_lt (by omega) (cons_lt (by omega) (nil_lt 16)), nil_lt 8, none_lt 128, none_lt 128⟩
theorem fadd (c : Nat) (rd : Nat) (rs : Nat) (rt : Nat) : Statement (.fadd c rd rs rt) := by
  intro h
  change (decide (c < 5) && decide (rd < 16) && decide (rs < 16) && decide (rt < 16)) = true at h
  simp only [Bool.and_eq_true, decide_eq_true_eq] at h
  exact ⟨some_lt (by omega), cons_lt (by omega) (cons_lt (by omega) (cons_lt (by omega) (nil_lt 16))), nil_lt 8, none_lt 128, none_lt 128⟩
theorem fsub (c : Nat) (rd : Nat) (rs : Nat) (rt : Nat) : Statement (.fsub c rd rs rt) := by
  intro h
  change (decide (c < 5) && decide (rd < 16) && decide (rs < 16) && decide (rt < 16)) = true at h
  simp only [Bool.and_eq_true, decide_eq_true_eq] at h
  exact ⟨some_lt (by omega), cons_lt (by omega) (cons_lt (by omega) (cons_lt (by omega) (nil_lt 16))), nil_lt 8, none_lt 128, none_lt 128⟩
theorem fmul (c : Nat) (rd : Nat) (rs : Nat) (rt : Nat) : Statement (.fmul c rd rs rt) := by
  intro h
  change (decide (c < 5) && decide (rd < 16) && decide (rs < 16) && decide (rt < 16)) = true at h
  simp only [Bool.and_eq_true, decide_eq_true_eq] at h
  exact ⟨some_lt (by omega), cons_lt (by omega) (cons_lt (by omega) (cons_lt (by omega) (nil_lt 16))), nil_lt 8, none_lt 128, none_lt 128⟩
theorem fma (c : Nat) (rd : Nat) (rs : Nat) (rt : Nat) : Statement (.fma c rd rs rt) := by
  intro h
  change (decide (c < 5) && decide (rd < 16) && decide (rs < 16) && decide (rt < 16)) = true at h
  simp only [Bool.and_eq_true, decide_eq_true_eq] at h
  exact ⟨some_lt (by omega), cons_lt (by omega) (cons_lt (by omega) (cons_lt (by omega) (nil_lt 16))), nil_lt 8, none_lt 128, none_lt 128⟩
theorem fms (c : Nat) (rd : Nat) (rs : Nat) (rt : Nat) : Statement (.fms c rd rs rt) := by
  intro h
  change (decide (c < 5) && decide (rd < 16) && decide (rs < 16) && decide (rt < 16)) = true at h
  simp only [Bool.and_eq_true, decide_eq_true_eq] at h
  exact ⟨some_lt (by omega), cons_lt (by omega) (cons_lt (by omega) (cons_lt (by omega) (nil_lt 16))), nil_lt 8, none_lt 128, none_lt 128⟩
theorem fcmp (c : Nat) (rs : Nat) (rt : Nat) : Statement (.fcmp c rs rt) := by
  intro h
  change (decide (c < 5) && decide (rs < 16) && decide (rt < 16)) = true at h
  simp only [Bool.and_eq_true, decide_eq_true_eq] at h
  exact ⟨some_lt (by omega), cons_lt (by omega) (cons_lt (by omega) (nil_lt 16)), nil_lt 8, none_lt 128, none_lt 128⟩
theorem fabs (c : Nat) (rd : Nat) (rs : Nat) : Statement (.fabs c rd rs) := by
  intro h
  change (decide (c < 5) && decide (rd < 16) && decide (rs < 16)) = true at h
  simp only [Bool.and_eq_true, decide_eq_true_eq] at h
  exact ⟨some_lt (by omega), cons_lt (by omega) (cons_lt (by omega) (nil_lt 16)), nil_lt 8, none_lt 128, none_lt 128⟩
theorem fneg (c : Nat) (rd : Nat) (rs : Nat) : Statement (.fneg c rd rs) := by
  intro h
  change (decide (c < 5) && decide (rd < 16) && decide (rs < 16)) = true at h
  simp only [Bool.and_eq_true, decide_eq_true_eq] at h
  exact ⟨some_lt (by omega), cons_lt (by omega) (cons_lt (by omega) (nil_lt 16)), nil_lt 8, none_lt 128, none_lt 128⟩
theorem fmin (c : Nat) (rd : Nat) (rs : Nat) (rt : Nat) : Statement (.fmin c rd rs rt) := by
  intro h
  change (decide (c < 5) && decide (rd < 16) && decide (rs < 16) && decide (rt < 16)) = true at h
  simp only [Bool.and_eq_true, decide_eq_true_eq] at h
  exact ⟨some_lt (by omega), cons_lt (by omega) (cons_lt (by omega) (cons_lt (by omega) (nil_lt 16))), nil_lt 8, none_lt 128, none_lt 128⟩
theorem fmax (c : Nat) (rd : Nat) (rs : Nat) (rt : Nat) : Statement (.fmax c rd rs rt) := by
  intro h
  change (decide (c < 5) && decide (rd < 16) && decide (rs < 16) && decide (rt < 16)) = true at h
  simp only [Bool.and_eq_true, decide_eq_true_eq] at h
  exact ⟨some_lt (by omega), cons_lt (by omega) (cons_lt (by omega) (cons_lt (by omega) (nil_lt 16))), nil_lt 8, none_lt 128, none_lt 128⟩
theorem integerToFp (c : Nat) (rd : Nat) (rs : Nat) : Statement (.integerToFp c rd rs) := by
  intro h
  change (decide (c < 5) && decide (rd < 16) && decide (rs < 16)) = true at h
  simp only [Bool.and_eq_true, decide_eq_true_eq] at h
  exact ⟨some_lt (by omega), cons_lt (by omega) (cons_lt (by omega) (nil_lt 16)), nil_lt 8, none_lt 128, none_lt 128⟩
theorem fpToInteger (c : Nat) (rd : Nat) (rs : Nat) : Statement (.fpToInteger c rd rs) := by
  intro h
  change (decide (c < 5) && decide (rd < 16) && decide (rs < 16)) = true at h
  simp only [Bool.and_eq_true, decide_eq_true_eq] at h
  exact ⟨some_lt (by omega), cons_lt (by omega) (cons_lt (by omega) (nil_lt 16)), nil_lt 8, none_lt 128, none_lt 128⟩
theorem q31ToFp (c : Nat) (rd : Nat) (rs : Nat) : Statement (.q31ToFp c rd rs) := by
  intro h
  change (decide (c < 5) && decide (rd < 16) && decide (rs < 16)) = true at h
  simp only [Bool.and_eq_true, decide_eq_true_eq] at h
  exact ⟨some_lt (by omega), cons_lt (by omega) (cons_lt (by omega) (nil_lt 16)), nil_lt 8, none_lt 128, none_lt 128⟩
theorem fpToQ31 (c : Nat) (rd : Nat) (rs : Nat) : Statement (.fpToQ31 c rd rs) := by
  intro h
  change (decide (c < 5) && decide (rd < 16) && decide (rs < 16)) = true at h
  simp only [Bool.and_eq_true, decide_eq_true_eq] at h
  exact ⟨some_lt (by omega), cons_lt (by omega) (cons_lt (by omega) (nil_lt 16)), nil_lt 8, none_lt 128, none_lt 128⟩
theorem frcp (c : Nat) (rd : Nat) (rs : Nat) : Statement (.frcp c rd rs) := by
  intro h
  change (decide (c < 5) && decide (rd < 16) && decide (rs < 16)) = true at h
  simp only [Bool.and_eq_true, decide_eq_true_eq] at h
  exact ⟨some_lt (by omega), cons_lt (by omega) (cons_lt (by omega) (nil_lt 16)), nil_lt 8, none_lt 128, none_lt 128⟩
theorem mac (c : Nat) (acc : Nat) (rs : Nat) (rt : Nat) (md : MacMode) : Statement (.mac c acc rs rt md) := by
  intro h
  change (decide (c < 5) && decide (acc < 4) && decide (rs < 16) && decide (rt < 16)) = true at h
  simp only [Bool.and_eq_true, decide_eq_true_eq] at h
  exact ⟨some_lt (by omega), cons_lt (by omega) (cons_lt (by omega) (nil_lt 16)), nil_lt 8, none_lt 128, none_lt 128⟩
theorem rda (c : Nat) (rd : Nat) (acc : Nat) (sh : Nat) : Statement (.rda c rd acc sh) := by
  intro h
  change (decide (c < 5) && decide (rd < 16) && decide (acc < 4) && decide (sh < 64)) = true at h
  simp only [Bool.and_eq_true, decide_eq_true_eq] at h
  exact ⟨some_lt (by omega), cons_lt (by omega) (nil_lt 16), nil_lt 8, none_lt 128, none_lt 128⟩
theorem mva (c : Nat) (acc : Nat) (rs : Nat) (sh : Nat) : Statement (.mva c acc rs sh) := by
  intro h
  change (decide (c < 5) && decide (acc < 4) && decide (rs < 16) && decide (sh < 64)) = true at h
  simp only [Bool.and_eq_true, decide_eq_true_eq] at h
  exact ⟨some_lt (by omega), cons_lt (by omega) (nil_lt 16), nil_lt 8, none_lt 128, none_lt 128⟩
theorem clr (c : Nat) (acc : Nat) : Statement (.clr c acc) := by
  intro h
  change (decide (c < 5) && decide (acc < 4)) = true at h
  simp only [Bool.and_eq_true, decide_eq_true_eq] at h
  exact ⟨some_lt (by omega), nil_lt 16, nil_lt 8, none_lt 128, none_lt 128⟩
theorem rdg (c : Nat) (rd : Nat) (acc : Nat) : Statement (.rdg c rd acc) := by
  intro h
  change (decide (c < 5) && decide (rd < 16) && decide (acc < 4)) = true at h
  simp only [Bool.and_eq_true, decide_eq_true_eq] at h
  exact ⟨some_lt (by omega), cons_lt (by omega) (nil_lt 16), nil_lt 8, none_lt 128, none_lt 128⟩
theorem ld (c : Nat) (rd : Nat) (p : Nat) (md : MemMode) (w : MemWidth) : Statement (.ld c rd p md w) := by
  intro h
  change (decide (c < 5) && decide (rd < 16) && decide (p < 8)) = true at h
  simp only [Bool.and_eq_true, decide_eq_true_eq] at h
  exact ⟨some_lt (by omega), cons_lt (by omega) (nil_lt 16), cons_lt (by omega) (nil_lt 8), none_lt 128, none_lt 128⟩
theorem st (c : Nat) (rd : Nat) (p : Nat) (md : MemMode) (w : MemWidth) : Statement (.st c rd p md w) := by
  intro h
  change (decide (c < 5) && decide (rd < 16) && decide (p < 8)) = true at h
  simp only [Bool.and_eq_true, decide_eq_true_eq] at h
  exact ⟨some_lt (by omega), cons_lt (by omega) (nil_lt 16), cons_lt (by omega) (nil_lt 8), none_lt 128, none_lt 128⟩
theorem pmvPFromD (c : Nat) (pk : Nat) (d : Nat) : Statement (.pmvPFromD c pk d) := by
  intro h
  change (decide (c < 5) && decide (pk < 8) && decide (d < 16)) = true at h
  simp only [Bool.and_eq_true, decide_eq_true_eq] at h
  exact ⟨some_lt (by omega), cons_lt (by omega) (nil_lt 16), cons_lt (by omega) (nil_lt 8), none_lt 128, none_lt 128⟩
theorem pmvDFromP (c : Nat) (d : Nat) (pk : Nat) : Statement (.pmvDFromP c d pk) := by
  intro h
  change (decide (c < 5) && decide (d < 16) && decide (pk < 8)) = true at h
  simp only [Bool.and_eq_true, decide_eq_true_eq] at h
  exact ⟨some_lt (by omega), cons_lt (by omega) (nil_lt 16), cons_lt (by omega) (nil_lt 8), none_lt 128, none_lt 128⟩
theorem pmvMFromD (c : Nat) (mk : Nat) (d : Nat) : Statement (.pmvMFromD c mk d) := by
  intro h
  change (decide (c < 5) && decide (mk < 8) && decide (d < 16)) = true at h
  simp only [Bool.and_eq_true, decide_eq_true_eq] at h
  exact ⟨some_lt (by omega), cons_lt (by omega) (nil_lt 16), cons_lt (by omega) (nil_lt 8), none_lt 128, none_lt 128⟩
theorem pmvDFromM (c : Nat) (d : Nat) (mk : Nat) : Statement (.pmvDFromM c d mk) := by
  intro h
  change (decide (c < 5) && decide (d < 16) && decide (mk < 8)) = true at h
  simp only [Bool.and_eq_true, decide_eq_true_eq] at h
  exact ⟨some_lt (by omega), cons_lt (by omega) (nil_lt 16), cons_lt (by omega) (nil_lt 8), none_lt 128, none_lt 128⟩
theorem padd (c : Nat) (pk : Nat) (pj : Nat) (imm : BitVec 16) : Statement (.padd c pk pj imm) := by
  intro h
  change (decide (c < 5) && decide (pk < 8) && decide (pj < 8)) = true at h
  simp only [Bool.and_eq_true, decide_eq_true_eq] at h
  exact ⟨some_lt (by omega), nil_lt 16, cons_lt (by omega) (cons_lt (by omega) (nil_lt 8)), none_lt 128, none_lt 128⟩
theorem mset (c : Nat) (mk : Nat) (imm : BitVec 16) : Statement (.mset c mk imm) := by
  intro h
  change (decide (c < 5) && decide (mk < 8)) = true at h
  simp only [Bool.and_eq_true, decide_eq_true_eq] at h
  exact ⟨some_lt (by omega), nil_lt 16, cons_lt (by omega) (nil_lt 8), none_lt 128, none_lt 128⟩
theorem mlen (c : Nat) (mk : Nat) (imm : BitVec 16) : Statement (.mlen c mk imm) := by
  intro h
  change (decide (c < 5) && decide (mk < 8)) = true at h
  simp only [Bool.and_eq_true, decide_eq_true_eq] at h
  exact ⟨some_lt (by omega), nil_lt 16, cons_lt (by omega) (nil_lt 8), none_lt 128, none_lt 128⟩
theorem ldp (c : Nat) (pk : Nat) (pj : Nat) (imm : BitVec 16) : Statement (.ldp c pk pj imm) := by
  intro h
  change (decide (c < 5) && decide (pk < 8) && decide (pj < 8)) = true at h
  simp only [Bool.and_eq_true, decide_eq_true_eq] at h
  exact ⟨some_lt (by omega), nil_lt 16, cons_lt (by omega) (cons_lt (by omega) (nil_lt 8)), none_lt 128, none_lt 128⟩
theorem b (c : Nat) (cond : BrCond) (off : BitVec 22) : Statement (.b c cond off) := by
  intro h
  change (decide (c < 5)) = true at h
  simp only [decide_eq_true_eq] at h
  exact ⟨some_lt (by omega), nil_lt 16, nil_lt 8, none_lt 128, none_lt 128⟩
theorem call (c : Nat) (off : BitVec 22) : Statement (.call c off) := by
  intro h
  change (decide (c < 5)) = true at h
  simp only [decide_eq_true_eq] at h
  exact ⟨some_lt (by omega), nil_lt 16, nil_lt 8, none_lt 128, none_lt 128⟩
theorem jr (c : Nat) (rs : Nat) : Statement (.jr c rs) := by
  intro h
  change (decide (c < 5) && decide (rs < 16)) = true at h
  simp only [Bool.and_eq_true, decide_eq_true_eq] at h
  exact ⟨some_lt (by omega), cons_lt (by omega) (nil_lt 16), nil_lt 8, none_lt 128, none_lt 128⟩
theorem rep (c : Nat) (count : Nat) (len : Nat) : Statement (.rep c count len) := by
  intro h
  change (decide (c < 5) && decide (count < 65536) && decide (1 ≤ len) && decide (len ≤ 1024)) = true at h
  simp only [Bool.and_eq_true, decide_eq_true_eq] at h
  exact ⟨some_lt (by omega), nil_lt 16, nil_lt 8, none_lt 128, none_lt 128⟩
theorem repr (c : Nat) (rs : Nat) (len : Nat) : Statement (.repr c rs len) := by
  intro h
  change (decide (c < 5) && decide (rs < 16) && decide (1 ≤ len) && decide (len ≤ 1024)) = true at h
  simp only [Bool.and_eq_true, decide_eq_true_eq] at h
  exact ⟨some_lt (by omega), cons_lt (by omega) (nil_lt 16), nil_lt 8, none_lt 128, none_lt 128⟩
theorem brk (c : Nat) : Statement (.brk c) := by
  intro h
  change (decide (c < 5)) = true at h
  simp only [decide_eq_true_eq] at h
  exact ⟨some_lt (by omega), nil_lt 16, nil_lt 8, none_lt 128, none_lt 128⟩
theorem wait (c : Nat) : Statement (.wait c) := by
  intro h
  change (decide (c < 5)) = true at h
  simp only [decide_eq_true_eq] at h
  exact ⟨some_lt (by omega), nil_lt 16, nil_lt 8, none_lt 128, none_lt 128⟩
theorem rti (c : Nat) : Statement (.rti c) := by
  intro h
  change (decide (c < 5)) = true at h
  simp only [decide_eq_true_eq] at h
  exact ⟨some_lt (by omega), nil_lt 16, nil_lt 8, none_lt 128, none_lt 128⟩
theorem mrs (c : Nat) (rd : Nat) : Statement (.mrs c rd) := by
  intro h
  change (decide (c < 5) && decide (rd < 16)) = true at h
  simp only [Bool.and_eq_true, decide_eq_true_eq] at h
  exact ⟨some_lt (by omega), cons_lt (by omega) (nil_lt 16), nil_lt 8, none_lt 128, none_lt 128⟩
theorem msr (c : Nat) (rs : Nat) : Statement (.msr c rs) := by
  intro h
  change (decide (c < 5) && decide (rs < 16)) = true at h
  simp only [Bool.and_eq_true, decide_eq_true_eq] at h
  exact ⟨some_lt (by omega), cons_lt (by omega) (nil_lt 16), nil_lt 8, none_lt 128, none_lt 128⟩
theorem ei (c : Nat) : Statement (.ei c) := by
  intro h
  change (decide (c < 5)) = true at h
  simp only [decide_eq_true_eq] at h
  exact ⟨some_lt (by omega), nil_lt 16, nil_lt 8, none_lt 128, none_lt 128⟩
theorem di (c : Nat) : Statement (.di c) := by
  intro h
  change (decide (c < 5)) = true at h
  simp only [decide_eq_true_eq] at h
  exact ⟨some_lt (by omega), nil_lt 16, nil_lt 8, none_lt 128, none_lt 128⟩
theorem rdc (c : Nat) (rd : Nat) : Statement (.rdc c rd) := by
  intro h
  change (decide (c < 5) && decide (rd < 16)) = true at h
  simp only [Bool.and_eq_true, decide_eq_true_eq] at h
  exact ⟨some_lt (by omega), cons_lt (by omega) (nil_lt 16), nil_lt 8, none_lt 128, none_lt 128⟩
theorem fmad (c : Nat) (rd : Nat) (rs : Nat) (rt : Nat) (x : Option DualLoad) (y : Option DualLoad) : Statement (.fmad c rd rs rt x y) := by
  intro h
  change (decide (c < 5) && decide (rd < 4) && decide (rs < 16) && decide (rt < 16) && DualLoad.wf x && DualLoad.wf y) = true at h
  simp only [Bool.and_eq_true, decide_eq_true_eq] at h
  exact ⟨some_lt (by omega), cons_lt (by omega) (cons_lt (by omega) (cons_lt (by omega) (nil_lt 16))), nil_lt 8, none_lt 128, none_lt 128⟩
theorem macd (c : Nat) (acc : Nat) (rs : Nat) (rt : Nat) (x : Option DualLoad) (y : Option DualLoad) : Statement (.macd c acc rs rt x y) := by
  intro h
  change (decide (c < 5) && decide (acc < 4) && decide (rs < 16) && decide (rt < 16) && DualLoad.wf x && DualLoad.wf y) = true at h
  simp only [Bool.and_eq_true, decide_eq_true_eq] at h
  exact ⟨some_lt (by omega), cons_lt (by omega) (cons_lt (by omega) (nil_lt 16)), nil_lt 8, none_lt 128, none_lt 128⟩
theorem ld2 (c : Nat) (x : Option DualLoad) (y : Option DualLoad) : Statement (.ld2 c x y) := by
  intro h
  change (decide (c < 5) && DualLoad.wf x && DualLoad.wf y) = true at h
  simp only [Bool.and_eq_true, decide_eq_true_eq] at h
  exact ⟨some_lt (by omega), nil_lt 16, nil_lt 8, none_lt 128, none_lt 128⟩
theorem compactCoreInterrupt : Statement (.compactCoreInterrupt) := fun _ =>
  ⟨none_lt 5, nil_lt 16, nil_lt 8, none_lt 128, none_lt 128⟩
theorem ldmboxWrite (m : Master) (v : Word) : Statement (.ldmboxWrite m v) := fun _ =>
  ⟨none_lt 5, nil_lt 16, nil_lt 8, none_lt 128, none_lt 128⟩
theorem restart (m : Master) (c : Nat) : Statement (.restart m c) := by
  intro h
  change (Master.wf m && decide (c < 5)) = true at h
  simp only [Bool.and_eq_true, decide_eq_true_eq] at h
  exact ⟨some_lt (by omega), nil_lt 16, nil_lt 8, none_lt 128, none_lt 128⟩
theorem stop (m : Master) (c : Nat) : Statement (.stop m c) := by
  intro h
  change (Master.wf m && decide (c < 5)) = true at h
  simp only [Bool.and_eq_true, decide_eq_true_eq] at h
  exact ⟨some_lt (by omega), nil_lt 16, nil_lt 8, none_lt 128, none_lt 128⟩
theorem bootSequence (b : BootObs) : Statement (.bootSequence b) := fun _ =>
  ⟨none_lt 5, nil_lt 16, nil_lt 8, none_lt 128, none_lt 128⟩
theorem bootComplete : Statement (.bootComplete) := fun _ =>
  ⟨none_lt 5, nil_lt 16, nil_lt 8, none_lt 128, none_lt 128⟩
theorem erase (m : Master) (slot : Nat) : Statement (.erase m slot) := fun _ =>
  ⟨none_lt 5, nil_lt 16, nil_lt 8, none_lt 128, none_lt 128⟩
theorem program (m : Master) (slot : Nat) (nwords : Nat) : Statement (.program m slot nwords) := fun _ =>
  ⟨none_lt 5, nil_lt 16, nil_lt 8, none_lt 128, none_lt 128⟩
theorem verify (m : Master) (slot : Nat) : Statement (.verify m slot) := fun _ =>
  ⟨none_lt 5, nil_lt 16, nil_lt 8, none_lt 128, none_lt 128⟩
theorem invalidate (m : Master) (slot : Nat) : Statement (.invalidate m slot) := fun _ =>
  ⟨none_lt 5, nil_lt 16, nil_lt 8, none_lt 128, none_lt 128⟩
theorem reboot (m : Master) : Statement (.reboot m) := fun _ =>
  ⟨none_lt 5, nil_lt 16, nil_lt 8, none_lt 128, none_lt 128⟩
theorem imageCommandDone (e : JobEnd) : Statement (.imageCommandDone e) := fun _ =>
  ⟨none_lt 5, nil_lt 16, nil_lt 8, none_lt 128, none_lt 128⟩
theorem fpcmdGo (m : Master) (w : Word) (vpp : Bool) : Statement (.fpcmdGo m w vpp) := fun _ =>
  ⟨none_lt 5, nil_lt 16, nil_lt 8, none_lt 128, none_lt 128⟩
theorem fuseProgramDone (readBackOk : Bool) : Statement (.fuseProgramDone readBackOk) := fun _ =>
  ⟨none_lt 5, nil_lt 16, nil_lt 8, none_lt 128, none_lt 128⟩
theorem ethernetFrame (bytes : List Byte) : Statement (.ethernetFrame bytes) := fun _ =>
  ⟨none_lt 5, nil_lt 16, nil_lt 8, none_lt 128, none_lt 128⟩
theorem commandFrame (snd : Sender) (bytes : List Byte) : Statement (.commandFrame snd bytes) := fun _ =>
  ⟨none_lt 5, nil_lt 16, nil_lt 8, none_lt 128, none_lt 128⟩
theorem read (snd : Sender) (seq : Word) (pl : List Word) : Statement (.read snd seq pl) := fun _ =>
  ⟨none_lt 5, nil_lt 16, nil_lt 8, none_lt 128, none_lt 128⟩
theorem write (snd : Sender) (seq : Word) (pl : List Word) : Statement (.write snd seq pl) := fun _ =>
  ⟨none_lt 5, nil_lt 16, nil_lt 8, none_lt 128, none_lt 128⟩
theorem queueMove (snd : Sender) (seq : Word) (pl : List Word) : Statement (.queueMove snd seq pl) := fun _ =>
  ⟨none_lt 5, nil_lt 16, nil_lt 8, none_lt 128, none_lt 128⟩
theorem bankWrite (snd : Sender) (seq : Word) (pl : List Word) : Statement (.bankWrite snd seq pl) := fun _ =>
  ⟨none_lt 5, nil_lt 16, nil_lt 8, none_lt 128, none_lt 128⟩
theorem subscribe (snd : Sender) (seq : Word) (pl : List Word) : Statement (.subscribe snd seq pl) := fun _ =>
  ⟨none_lt 5, nil_lt 16, nil_lt 8, none_lt 128, none_lt 128⟩
theorem recordRead (snd : Sender) (seq : Word) (pl : List Word) : Statement (.recordRead snd seq pl) := fun _ =>
  ⟨none_lt 5, nil_lt 16, nil_lt 8, none_lt 128, none_lt 128⟩
theorem image (snd : Sender) (seq : Word) (pl : List Word) : Statement (.image snd seq pl) := fun _ =>
  ⟨none_lt 5, nil_lt 16, nil_lt 8, none_lt 128, none_lt 128⟩
theorem headState (snd : Sender) (seq : Word) (pl : List Word) : Statement (.headState snd seq pl) := fun _ =>
  ⟨none_lt 5, nil_lt 16, nil_lt 8, none_lt 128, none_lt 128⟩
theorem writeFrame (bytes : List Byte) : Statement (.writeFrame bytes) := fun _ =>
  ⟨none_lt 5, nil_lt 16, nil_lt 8, none_lt 128, none_lt 128⟩
theorem readFrame : Statement (.readFrame) := fun _ =>
  ⟨none_lt 5, nil_lt 16, nil_lt 8, none_lt 128, none_lt 128⟩
theorem status : Statement (.status) := fun _ =>
  ⟨none_lt 5, nil_lt 16, nil_lt 8, none_lt 128, none_lt 128⟩
theorem phyPoll (reg1 : BitVec 16) : Statement (.phyPoll reg1) := fun _ =>
  ⟨none_lt 5, nil_lt 16, nil_lt 8, none_lt 128, none_lt 128⟩
theorem creditTick : Statement (.creditTick) := fun _ =>
  ⟨none_lt 5, nil_lt 16, nil_lt 8, none_lt 128, none_lt 128⟩
theorem pulseEnd (pin : Nat) : Statement (.pulseEnd pin) := fun _ =>
  ⟨none_lt 5, nil_lt 16, nil_lt 8, none_lt 128, none_lt 128⟩
theorem registerWrite (m : Master) (addr : Nat) (v : Word) : Statement (.registerWrite m addr v) := fun _ =>
  ⟨none_lt 5, nil_lt 16, nil_lt 8, none_lt 128, none_lt 128⟩
theorem pwrcmdDeep (m : Master) : Statement (.pwrcmdDeep m) := fun _ =>
  ⟨none_lt 5, nil_lt 16, nil_lt 8, none_lt 128, none_lt 128⟩
theorem wake (cause : Nat) : Statement (.wake cause) := fun _ =>
  ⟨none_lt 5, nil_lt 16, nil_lt 8, none_lt 128, none_lt 128⟩
theorem supplyWarning (rail : Rail) (mv : Nat) : Statement (.supplyWarning rail mv) := fun _ =>
  ⟨none_lt 5, nil_lt 16, nil_lt 8, none_lt 128, none_lt 128⟩
theorem supplyWarningClear (core : DipObs) (aon : DipObs) : Statement (.supplyWarningClear core aon) := fun _ =>
  ⟨none_lt 5, nil_lt 16, nil_lt 8, none_lt 128, none_lt 128⟩
theorem deferralEnd : Statement (.deferralEnd) := fun _ =>
  ⟨none_lt 5, nil_lt 16, nil_lt 8, none_lt 128, none_lt 128⟩
theorem supplyReset : Statement (.supplyReset) := fun _ =>
  ⟨none_lt 5, nil_lt 16, nil_lt 8, none_lt 128, none_lt 128⟩
theorem refclkLoss : Statement (.refclkLoss) := fun _ =>
  ⟨none_lt 5, nil_lt 16, nil_lt 8, none_lt 128, none_lt 128⟩
theorem pllLockLoss : Statement (.pllLockLoss) := fun _ =>
  ⟨none_lt 5, nil_lt 16, nil_lt 8, none_lt 128, none_lt 128⟩
theorem porst : Statement (.porst) := fun _ =>
  ⟨none_lt 5, nil_lt 16, nil_lt 8, none_lt 128, none_lt 128⟩
theorem resetRelease (pref : Bool) (casc : Bool) (oct : Bool) : Statement (.resetRelease pref casc oct) := fun _ =>
  ⟨none_lt 5, nil_lt 16, nil_lt 8, none_lt 128, none_lt 128⟩
theorem watchdogExpiry : Statement (.watchdogExpiry) := fun _ =>
  ⟨none_lt 5, nil_lt 16, nil_lt 8, none_lt 128, none_lt 128⟩
theorem wdkick (m : Master) (w : Word) : Statement (.wdkick m w) := fun _ =>
  ⟨none_lt 5, nil_lt 16, nil_lt 8, none_lt 128, none_lt 128⟩
theorem tretReceived (r : LaneSlot) : Statement (.tretReceived r) := fun _ =>
  ⟨none_lt 5, nil_lt 16, nil_lt 8, none_lt 128, none_lt 128⟩
theorem txqReceived (r : LaneSlot) : Statement (.txqReceived r) := fun _ =>
  ⟨none_lt 5, nil_lt 16, nil_lt 8, none_lt 128, none_lt 128⟩
theorem tlinkReceived (r : LaneSlot) : Statement (.tlinkReceived r) := fun _ =>
  ⟨none_lt 5, nil_lt 16, nil_lt 8, none_lt 128, none_lt 128⟩
theorem twinLaneLossOfLock : Statement (.twinLaneLossOfLock) := fun _ =>
  ⟨none_lt 5, nil_lt 16, nil_lt 8, none_lt 128, none_lt 128⟩
theorem twinLaneLocked : Statement (.twinLaneLocked) := fun _ =>
  ⟨none_lt 5, nil_lt 16, nil_lt 8, none_lt 128, none_lt 128⟩
theorem sfbMatchTimeout (k : Nat) : Statement (.sfbMatchTimeout k) := fun _ =>
  ⟨none_lt 5, nil_lt 16, nil_lt 8, none_lt 128, none_lt 128⟩

end Sys2Proof.Laws.Bounds
end

