-- ==== Sys2Proof/Laws/Storage.lean ====
section
/-! SUPPORT. What most operations leave alone: the queue, SRAM, the flash and the fuse cells. An operation's lemma
`<name>_storage` says that it leaves all four (`storage (f s) = storage s`), or, for the few that write one of them,
that it keeps the queue, the canonical form of both memories and every programmed bit of the fuse words. -/

namespace Sys2Proof.Machine

/-- The queue, SRAM, the flash and the fuse cells. -/
structure Storage where
  pending : List Instr
  mem : Memory
  flash : Memory
  fuses : Tab Word

/-- The part of a state that most operations leave alone. -/
def storage (s : State) : Storage := ⟨s.pending, s.mem, s.boot.flash, s.boot.fuseCells⟩

/-- An unprogrammed fuse word: GRADE reads 2 (notes/assumptions/6.md). -/
def fuseDflt (k : Nat) : Word := if k = 0x10 then 2#32 else 0#32

/-- b keeps of a: the queue; the canonical form of SRAM and flash; every programmed bit below offset 0x20. -/
def Storage.Kept (a b : Storage) : Prop :=
  b.pending = a.pending ∧ (Memory.wf 0 a.mem → Memory.wf 0 b.mem) ∧
  (Memory.wf 0xFF a.flash → Memory.wf 0xFF b.flash) ∧
  ∀ k, k < 0x20 → ∀ i, (tget (fuseDflt k) a.fuses k).getLsbD i → (tget (fuseDflt k) b.fuses k).getLsbD i = true

/-- Every state keeps its own storage. -/
theorem kept_refl (s : State) : Storage.Kept (storage s) (storage s) := ⟨rfl, id, id, fun _ _ _ h => h⟩

/-- An operation that leaves the storage alone keeps it. -/
theorem kept_of_eq {s t : State} (h : storage t = storage s) : Storage.Kept (storage s) (storage t) := by
  rw [h]; exact kept_refl s

/-- An optional result that leaves the storage alone, or a default that does. -/
theorem storage_optD {s d : State} (o : Option State) (h : ∀ t, o = some t → storage t = storage s)
    (hd : storage d = storage s) : storage (o.getD d) = storage s := by
  cases o with
  | none => exact hd
  | some t => exact h t rfl

/-- The storage of a state given by its fields. -/
@[simp] theorem storage_mk
    (p fr tx cfg mem so ha tb sys ret ev host axes groups sax sgr ctlq inbuf clusters fbk ps link twin casc sag rcd lad boot masters pdc) :
    storage (State.mk p fr tx cfg mem so ha tb sys ret ev host axes groups sax sgr ctlq inbuf clusters fbk ps link twin casc sag rcd
      lad boot masters pdc) = ⟨p, mem, boot.flash, boot.fuseCells⟩ := rfl

/-- The four fields of a state are its storage. -/
@[simp] theorem storage_fold (t : State) :
    Storage.mk t.pending t.mem t.boot.flash t.boot.fuseCells = storage t := rfl

/-- A choice between states. -/
@[simp] theorem storage_ite (c : Prop) [Decidable c] (a b : State) :
    storage (if c then a else b) = if c then storage a else storage b := apply_ite ..

/-- Both branches of a choice. -/
theorem storage_both {c : Prop} [Decidable c] {a b s : State} (ha : storage a = storage s) (hb : storage b = storage s) :
    storage (if c then a else b) = storage s := by split <;> assumption

/-- A choice between operations. -/
@[simp] theorem storage_iteapp (c : Prop) [Decidable c] (f g : State → State) (s : State) :
    storage ((if c then f else g) s) = if c then storage (f s) else storage (g s) := by split <;> rfl

/-- An operation for every element. -/
@[simp] theorem storage_forAll {α : Type} (s : State) (l : List α) (f : α → State → State)
    (hf : ∀ x t, storage (f x t) = storage t) : storage (forAll l f s) = storage s := by
  unfold forAll
  induction l generalizing s with
  | nil => rfl
  | cons x l ih => exact (ih _).trans (hf x s)

/-- A fold over states. -/
@[simp] theorem storage_foldl {α : Type} (s : State) (l : List α) (f : State → α → State)
    (hf : ∀ x t, storage (f t x) = storage t) : storage (l.foldl f s) = storage s := by
  induction l generalizing s with
  | nil => rfl
  | cons x l ih => exact (ih _).trans (hf x s)

/-- An operation under a condition. -/
@[simp] theorem storage_onlyIf (s : State) (b : Bool) (f : State → State) (hf : ∀ t, storage (f t) = storage t) :
    storage (onlyIf b f s) = storage s := by
  unfold onlyIf; split
  · exact hf _
  · rfl

/-! ### The same for operations that write the storage -/

/-- An operation for every element. -/
theorem kept_forAll {α : Type} (s0 s : State) (l : List α) (f : α → State → State)
    (h : Storage.Kept (storage s0) (storage s))
    (hf : ∀ x t, Storage.Kept (storage s0) (storage t) → Storage.Kept (storage s0) (storage (f x t))) :
    Storage.Kept (storage s0) (storage (forAll l f s)) := by
  unfold forAll
  induction l generalizing s with
  | nil => exact h
  | cons x l ih => exact ih _ (hf x s h)

/-- A fold over states. -/
theorem kept_foldl {α : Type} (s0 s : State) (l : List α) (f : State → α → State)
    (h : Storage.Kept (storage s0) (storage s))
    (hf : ∀ x t, Storage.Kept (storage s0) (storage t) → Storage.Kept (storage s0) (storage (f t x))) :
    Storage.Kept (storage s0) (storage (l.foldl f s)) := by
  induction l generalizing s with
  | nil => exact h
  | cons x l ih => exact ih _ (hf x s h)

/-- An operation under a condition. -/
theorem kept_onlyIf (s0 s : State) (b : Bool) (f : State → State) (h : Storage.Kept (storage s0) (storage s))
    (hf : ∀ t, Storage.Kept (storage s0) (storage t) → Storage.Kept (storage s0) (storage (f t))) :
    Storage.Kept (storage s0) (storage (onlyIf b f s)) := by
  unfold onlyIf; split
  · exact hf _ h
  · exact h

/-- A choice between states. -/
theorem kept_ite (s0 a b : State) (c : Prop) [Decidable c] (ha : c → Storage.Kept (storage s0) (storage a))
    (hb : ¬ c → Storage.Kept (storage s0) (storage b)) :
    Storage.Kept (storage s0) (storage (if c then a else b)) := by
  split
  · exact ha ‹_›
  · exact hb ‹_›

end Sys2Proof.Machine
end

