-- ==== Sys2Proof/Laws/StorageUnits.lean ====
section
/-! SUPPORT. What the operations of axes, feedback, power stages, profiles and groups do to the queue, SRAM, flash and fuse cells: nothing, or what keeps them well formed. -/

set_option linter.unusedSimpArgs false

namespace Sys2Proof.Machine

/-! ### Ops -/

@[simp] theorem setAx_storage (s : State) (a : Nat) (x : Axis) : storage (setAx s a x) = storage s :=
  by simp [setAx, *]

@[simp] theorem modAx_storage (s : State) (a : Nat) (f : Axis → Axis) : storage (modAx s a f) = storage s :=
  by simp [modAx, *]

@[simp] theorem modCtl_storage (s : State) (a : Nat) (f : AxCtl → AxCtl) : storage (modCtl s a f) = storage s :=
  by simp [modCtl, *]

@[simp] theorem modPred_storage (s : State) (a : Nat) (f : AxPred → AxPred) : storage (modPred s a f) = storage s :=
  by simp [modPred, *]

@[simp] theorem modStage_storage (s : State) (a : Nat) (f : AxStage → AxStage) : storage (modStage s a f)
    = storage s := by simp [modStage, *]

@[simp] theorem modFb_storage (s : State) (a : Nat) (f : AxFb → AxFb) : storage (modFb s a f) = storage s :=
  by simp [modFb, *]

@[simp] theorem setGr_storage (s : State) (g : Nat) (x : Group) : storage (setGr s g x) = storage s :=
  by simp [setGr, *]

@[simp] theorem modGr_storage (s : State) (g : Nat) (f : Group → Group) : storage (modGr s g f) = storage s :=
  by simp [modGr, *]

@[simp] theorem modProf_storage (s : State) (o : Owner) (f : Prof → Prof) : storage (modProf s o f) = storage s :=
  by unfold modProf; (repeat' split) <;> simp [*]

@[simp] theorem modCh_storage (s : State) (ch : Nat) (f : Chan → Chan) : storage (modCh s ch f) = storage s :=
  by simp [modCh, *]

@[simp] theorem modNode_storage (s : State) (ch n : Nat) (f : NodeSt → NodeSt) : storage (modNode s ch n f)
    = storage s := by simp [modNode, *]

@[simp] theorem modBrk_storage (s : State) (b : Nat) (f : Brake → Brake) : storage (modBrk s b f) = storage s :=
  by simp [modBrk, *]

@[simp] theorem modMs_storage (s : State) (m : Master) (f : MasterSt → MasterSt) : storage (modMs s m f)
    = storage s := by simp [modMs, *]

@[simp] theorem State_tick_storage (s : State) : storage (State.tick s) = storage s := by simp [State.tick, *]

@[simp] theorem send_storage (t : Tx) (s : State) : storage (send t s) = storage s := by simp [send, *]

theorem memPut_storage (s0 : State) (a : Nat) (bs : List Byte) (s : State) (hK : Storage.Kept (storage s0)
    (storage s)) : Storage.Kept (storage s0) (storage (memPut a bs s)) :=
  by exact ⟨hK.1, fun x => mwrite_wf _ _ _ _ (hK.2.1 x), hK.2.2⟩

theorem memPutW_storage (s0 : State) (a : Nat) (w : Word) (s : State) (hK : Storage.Kept (storage s0) (storage s))
    : Storage.Kept (storage s0) (storage (memPutW a w s)) := by exact memPut_storage s0 a _ s hK

@[simp] theorem wakeFrom_storage (cause : Nat) (s : State) : storage (wakeFrom cause s) = storage s :=
  by simp [wakeFrom, *]

@[simp] theorem deliver_storage (e : Nat) (s : State) : storage (deliver e s) = storage s := by simp [deliver, *]

@[simp] theorem raise_storage (e : Nat) (s : State) : storage (raise e s) = storage s := by simp [raise, *]

@[simp] theorem raiseAx_storage (a cause : Nat) (s : State) : storage (raiseAx a cause s) = storage s :=
  by simp [raiseAx, *]

@[simp] theorem raiseGr_storage (g cause : Nat) (s : State) : storage (raiseGr g cause s) = storage s :=
  by simp [raiseGr, *]

@[simp] theorem raiseOw_storage (o : Owner) (cause : Nat) (s : State) : storage (raiseOw o cause s) = storage s :=
  by unfold raiseOw; (repeat' split) <;> simp [*]

@[simp] theorem setHead_storage (h : HeadState) (s : State) : storage (setHead h s) = storage s :=
  by simp [setHead, *]

@[simp] theorem eccFix_storage (w : Nat) (s : State) : storage (eccFix w s) = storage s := by simp [eccFix, *]

@[simp] theorem eccReport_storage (s : State) : storage (eccReport s) = storage s := by simp [eccReport, *]

@[simp] theorem requestBrake_storage (a : Nat) (s : State) : storage (requestBrake a s) = storage s :=
  by unfold requestBrake; (repeat' split) <;> simp [*]

@[simp] theorem requestRelease_storage (a : Nat) (s : State) : storage (requestRelease a s) = storage s :=
  by simp [requestRelease, *]

@[simp] theorem setRet_storage (s : State) (cls idx : Nat) (c : RetCh) : storage (setRet s cls idx c) = storage s :=
  by simp [setRet, *]

@[simp] theorem retLog_storage (cause cls idx : Nat) (s : State) : storage (retLog cause cls idx s) = storage s :=
  by simp [retLog, *]

@[simp] theorem retireCore_storage (cause cls idx : Nat) (c : RetCh) (s : State) : storage
    (retireCore cause cls idx c s) = storage s := by simp [retireCore, *]

@[simp] theorem faultRecord_storage (a code cls : Nat) (s : State) : storage (faultRecord a code cls s) = storage s :=
  by simp [faultRecord, *]

@[simp] theorem abortPrestart_storage (a : Nat) (s : State) : storage (abortPrestart a s) = storage s :=
  by simp [abortPrestart, *]

@[simp] theorem enterOff_storage (st : AxState) (a : Nat) (s : State) : storage (enterOff st a s) = storage s :=
  by simp [enterOff, *]

@[simp] theorem stageStop_storage (a : Nat) (s' : State) : storage (stageStop a s') = storage s' :=
  by simp [stageStop, *]

@[simp] theorem stageRetired_storage (a : Nat) (s : State) : storage (stageRetired a s) = storage s :=
  by simp [stageRetired, *]

@[simp] theorem faultReact_storage (a code cls : Nat) (s : State) : storage (faultReact a code cls s) = storage s :=
  by simp [faultReact, *]

@[simp] theorem setCause_storage (a code : Nat) (on : Bool) (s : State) : storage (setCause a code on s)
    = storage s := by simp [setCause, *]

@[simp] theorem faultOne_storage (a code cls : Nat) (s : State) : storage (faultOne a code cls s) = storage s :=
  by simp [faultOne, *]

@[simp] theorem treeQuickStop_storage (a : Nat) (s : State) : storage (treeQuickStop a s) = storage s :=
  by simp [treeQuickStop, *]

@[simp] theorem faultAx_storage (a code cls : Nat) (s : State) : storage (faultAx a code cls s) = storage s :=
  by unfold faultAx; dsimp only; (repeat' split) <;> simp [*]

@[simp] theorem snapAxis_storage (a : Nat) (s : State) : storage (snapAxis a s) = storage s := by simp [snapAxis, *]

@[simp] theorem faultAxes_storage (l : List Nat) (code cls : Nat) (s : State) : storage (faultAxes l code cls s)
    = storage s := by simp [faultAxes, *]

@[simp] theorem retireEffect_storage (cls idx : Nat) (s : State) : storage (retireEffect cls idx s) = storage s :=
  by simp [retireEffect, *]

@[simp] theorem transient_storage (cls idx : Nat) (s : State) : storage (transient cls idx s) = storage s :=
  by simp [transient, *]

@[simp] theorem permanent_storage (cls idx : Nat) (s : State) : storage (permanent cls idx s) = storage s :=
  by simp [permanent, *]

@[simp] theorem release_storage (cls idx : Nat) (s : State) : storage (release cls idx s) = storage s :=
  by simp [release, *]

@[simp] theorem modCore_storage (c : Nat) (f : Core → Core) (s : State) : storage (modCore c f s) = storage s :=
  by simp [modCore, *]

@[simp] theorem modSlice_storage (a : Nat) (f : SliceSt → SliceSt) (s : State) : storage (modSlice a f s)
    = storage s := by simp [modSlice, *]

@[simp] theorem ladleFault_storage (a last cls : Nat) (s : State) : storage (ladleFault a last cls s) = storage s :=
  by simp [ladleFault, *]

@[simp] theorem haltCore_storage (c cause : Nat) (faddr : Word) (s : State) : storage (haltCore c cause faddr s)
    = storage s := by simp [haltCore, *]

/-! ### Sched -/

@[simp] theorem axisShown_storage (s : State) (x : Nat) : storage (axisShown s x) = storage s :=
  by simp [axisShown, *]

/-! ### Feedback -/

@[simp] theorem applyLimits_storage (a : Nat) (s : State) : storage (applyLimits a s) = storage s :=
  by simp [applyLimits, *]

@[simp] theorem probeRun_storage (a p : Nat) (p0 : Int) (ex : Bool) (b : Word) (pf : Nat) (es : List ProbeEdge) (s
    : State) : storage (probeRun a p p0 ex b pf es s) = storage s := by simp [probeRun, *]

@[simp] theorem compareRun_storage (a : Nat) (pp pcU pc : Int) (n : Word) (pf : Nat) (s : State) : storage
    (compareRun a pp pcU pc n pf s) = storage s := by simp [compareRun, *]

@[simp] theorem takeArming_storage (a : Nat) (m : Word) (p : Int) (s : State) : storage (takeArming a m p s)
    = storage s :=
  by unfold takeArming; dsimp only; (first | apply storage_forAll | apply storage_foldl) <;> intros <;> (try dsimp only) <;> (repeat' split) <;> simp [*]

@[simp] theorem armIdle_storage (a : Nat) (m : Word) (s : State) : storage (armIdle a m s) = storage s :=
  by simp [armIdle, *]

@[simp] theorem fbTail_storage (a : Nat) (n : Word) (prev : Option FbSample) (dev : Int) (s : State) : storage
    (fbTail a n prev dev s) = storage s := by unfold fbTail; (repeat' split) <;> simp [*]

@[simp] theorem fbExtrapolate_storage (a : Nat) (n : Word) (s : State) : storage (fbExtrapolate a n s) = storage s :=
  by unfold fbExtrapolate; dsimp only; (repeat' split) <;> simp [*]

@[simp] theorem fbBad_storage (a : Nat) (b : Badness) (r : FbIn) (s : State) : storage (fbBad a b r s) = storage s :=
  by simp [fbBad, *]

@[simp] theorem hallJudge_storage (a last h : Nat) (s : State) : storage (hallJudge a last h s) = storage s :=
  by simp [hallJudge, *]

@[simp] theorem hallCheck_storage (a : Nat) (r : Option FbIn) (s : State) : storage (hallCheck a r s) = storage s :=
  by unfold hallCheck; (repeat' split) <;> simp [*]

@[simp] theorem hallFup_storage (a : Nat) (n : Word) (s : State) : storage (hallFup a n s) = storage s :=
  by unfold hallFup; (repeat' split) <;> simp [*]

@[simp] theorem portCount_storage (a raw : Nat) (s : State) : storage (portCount a raw s) = storage s :=
  by simp [portCount, *]

@[simp] theorem fbGood_storage (a : Nat) (n : Word) (r : FbIn) (raw fr : Nat) (s : State) : storage
    (fbGood a n r raw fr s) = storage s := by
  unfold fbGood
  extract_lets w sgn ssi b word f f1 ic f2 dev dCnt dFr delta f3 motion prev acc c f4 s1 s2
  have h1 : storage s1 = storage s := by simp only [s1, setCause_storage, modFb_storage]
  have h2 : storage s2 = storage s1 := by simp only [s2]; split <;> simp
  simp only [fbTail_storage, portCount_storage, h1, h2]

@[simp] theorem fbSample_storage (a : Nat) (n : Word) (s : State) : storage (fbSample a n s) = storage s :=
  by unfold fbSample; dsimp only; (repeat' split) <;> simp [*]

@[simp] theorem fbEstimate_storage (a : Nat) (n : Word) (s : State) : storage (fbEstimate a n s) = storage s :=
  by simp [fbEstimate, *]

@[simp] theorem fbKeep_storage (a : Nat) (n : Word) (s : State) : storage (fbKeep a n s) = storage s :=
  by simp [fbKeep, *]

/-! ### PowerStage -/

@[simp] theorem checkDetection_storage (s : State) : storage (checkDetection s) = storage s :=
  by simp [checkDetection, *]

@[simp] theorem diagRetry_storage (a : Nat) (s : State) : storage (diagRetry a s) = storage s :=
  by unfold diagRetry; (repeat' split) <;> simp [*]

@[simp] theorem seqEnd_storage (a res phase : Nat) (s : State) : storage (seqEnd a res phase s) = storage s :=
  by unfold seqEnd; (repeat' split) <;> simp [*]

@[simp] theorem testEvaluate_storage (a : Nat) (s : State) : storage (testEvaluate a s) = storage s :=
  by unfold testEvaluate; dsimp only; (repeat' split) <;> simp [*]

@[simp] theorem retryComplete_storage (a : Nat) (s : State) : storage (retryComplete a s) = storage s :=
  by simp [retryComplete, *]

@[simp] theorem scReport_storage (a legs : Nat) (blank offBefore : Bool) (s : State) : storage
    (scReport a legs blank offBefore s) = storage s := by simp [scReport, *]

@[simp] theorem bsuvReport_storage (a bsuv : Nat) (onLong : Bool) (s : State) : storage
    (bsuvReport a bsuv onLong s) = storage s := by simp [bsuvReport, *]

@[simp] theorem stageReport_storage (a : Nat) (n : Word) (s : State) : storage (stageReport a n s) = storage s :=
  by unfold stageReport; (repeat' split) <;> simp [*]

@[simp] theorem pauseDiags_storage (s : State) : storage (pauseDiags s) = storage s := by simp [pauseDiags, *]

@[simp] theorem resumeDiags_storage (s : State) : storage (resumeDiags s) = storage s := by simp [resumeDiags, *]

@[simp] theorem ovTrip_storage (d : Detector) (s : State) : storage (ovTrip d s) = storage s := by simp [ovTrip, *]

@[simp] theorem ovForcingEnd_storage (s : State) : storage (ovForcingEnd s) = storage s := by simp [ovForcingEnd, *]

@[simp] theorem chopUpdate_storage (j : Nat) (on : Bool) (s : State) : storage (chopUpdate j on s) = storage s :=
  by simp [chopUpdate, *]

theorem sdLatch_storage (s0 : State) (k : Nat) (s : State) (hK : Storage.Kept (storage s0) (storage s))
    : Storage.Kept (storage s0) (storage (sdLatch k s)) := by
  unfold sdLatch; (try dsimp only)
  repeat' (first | with_reducible exact hK | with_reducible assumption | with_reducible apply memPutW_storage
                 | with_reducible apply kept_ite | with_reducible apply kept_forAll
                 | with_reducible apply kept_foldl | with_reducible apply kept_onlyIf | intro _
                 | simp only [storage_mk, storage_fold, storage_iteapp, and_self, implies_true, State_tick_storage]
                 | (dsimp only; split) | split | (simp; done))

@[simp] theorem psctestGo_storage (t : Nat) (s : State) : storage (psctestGo t s) = storage s :=
  by simp [psctestGo, *]

@[simp] theorem comparatorEnd_storage (tripped released : Bool) (s : State) : storage
    (comparatorEnd tripped released s) = storage s := by simp [comparatorEnd, *]

/-! ### Mover -/

@[simp] theorem feedbackFor_storage (a : Nat) (n : Word) (s : State) : storage (feedbackFor a n s) = storage s :=
  by simp [feedbackFor, *]

@[simp] theorem fuse_storage (g : Nat) (n : Word) (s : State) : storage (fuse g n s) = storage s :=
  by unfold fuse; dsimp only; (repeat' split) <;> simp [*]

@[simp] theorem weigh_storage (g : Nat) (n : Word) (s : State) : storage (weigh g n s) = storage s :=
  by simp [weigh, *]

@[simp] theorem moverRound_storage (g : Nat) (n : Word) (s : State) : storage (moverRound g n s) = storage s :=
  by simp [moverRound, *]

@[simp] theorem moverTotals_storage (g : Nat) (s : State) : storage (moverTotals g s) = storage s :=
  by simp [moverTotals, *]

/-! ### Compute -/

@[simp] theorem feEval_storage (a : Nat) (n : Word) (fe : Int) (s : State) : storage (feEval a n fe s) = storage s :=
  by simp [feEval, *]

@[simp] theorem predRun_storage (a : Nat) (n : Word) (idr iqr : F32) (sp : Int) (gth : Option Nat) (s : State)
    : storage (predRun a n idr iqr sp gth s) = storage s :=
  by unfold predRun; dsimp only; (repeat' split) <;> simp [*]

@[simp] theorem predTrack_storage (a : Nat) (n : Word) (sp : Int) (gth : Option Nat) (s : State) : storage
    (predTrack a n sp gth s) = storage s := by simp [predTrack, *]

@[simp] theorem stageWords_storage (a : Nat) (m : Word) (allowed : Bool) (s : State) : storage
    (stageWords a m allowed s) = storage s := by simp [stageWords, *]

@[simp] theorem chopFollow_storage (a : Nat) (due : List Nat) (s : State) : storage (chopFollow a due s)
    = storage s := by simp [chopFollow, *]

@[simp] theorem runCells_storage (a : Nat) (n : Word) (due : List Nat) (s : State) : storage (runCells a n due s)
    = storage s := by
  unfold runCells
  extract_lets e ks s0 own r t1 t2
  have h1 : storage t1 = storage s := by simp only [t1, s0, modAx_storage, State_tick_storage]
  have h2 : storage t2 = storage s := by simp only [t2]; split <;> simp only [setCause_storage, h1]
  split
  · extract_lets r s1 s2 s3
    have h1 : storage s1 = storage s := by simp only [s1, s0, modAx_storage, State_tick_storage]
    have h2 : storage s2 = storage s := by simp only [s2]; split <;> simp only [modGr_storage, h1]
    split <;> simp only [s3, faultAx_storage, setCause_storage, h2]
  · split <;> simp only [faultAx_storage, h2]

@[simp] theorem computeAxis_storage (a : Nat) (m : Word) (s : State) : storage (computeAxis a m s) = storage s :=
  by unfold computeAxis; (repeat' split) <;> simp [*]

/-! ### AxisCmd -/

@[simp] theorem swapRequest_storage (a : Nat) (s : State) : storage (swapRequest a s) = storage s :=
  by simp [swapRequest, *]

@[simp] theorem bankSwap_storage (a : Nat) (s : State) : storage (bankSwap a s) = storage s := by simp [bankSwap, *]

@[simp] theorem relatch_storage (a : Nat) (old s : State) : storage (relatch a old s) = storage s :=
  by simp [relatch, *]

@[simp] theorem enterRun_storage (a : Nat) (s : State) : storage (enterRun a s) = storage s :=
  by unfold enterRun; dsimp only; (repeat' split) <;> simp [*]

@[simp] theorem refuseCmd_storage (a : Nat) (s : State) : storage (refuseCmd a s) = storage s :=
  by simp [refuseCmd, *]

theorem cmdEnable_storage (a : Nat) (s : State) (t : State) (ht : cmdEnable a s = some t) : storage t = storage s :=
  by unfold cmdEnable at ht; (repeat' split at ht) <;> (try simp at ht) <;> (try subst ht) <;> simp [*]

theorem cmdRun_storage (a : Nat) (s : State) (t : State) (ht : cmdRun a s = some t) : storage t = storage s :=
  by unfold cmdRun at ht; (repeat' split at ht) <;> (try simp at ht) <;> (try subst ht) <;> simp [*]

theorem cmdPark_storage (a : Nat) (s : State) (t : State) (ht : cmdPark a s = some t) : storage t = storage s := by
  unfold cmdPark at ht; (try dsimp only at ht); (repeat' split at ht)
  all_goals first | (simp at ht; done) | (simp only [Option.some.injEq] at ht; subst ht; simp [*])

theorem cmdUnpark_storage (a : Nat) (s : State) (t : State) (ht : cmdUnpark a s = some t) : storage t = storage s :=
  by unfold cmdUnpark at ht; (repeat' split at ht) <;> (try simp at ht) <;> (try subst ht) <;> simp [*]

theorem cmdQstop_storage (a : Nat) (s : State) (t : State) (ht : cmdQstop a s = some t) : storage t = storage s :=
  by unfold cmdQstop at ht; (repeat' split at ht) <;> (try simp at ht) <;> (try subst ht) <;> simp [*]

theorem cmdDisable_storage (a : Nat) (s : State) (t : State) (ht : cmdDisable a s = some t) : storage t = storage s := by
  unfold cmdDisable at ht; (try dsimp only at ht); (repeat' split at ht)
  all_goals first | (simp at ht; done) | (simp only [Option.some.injEq] at ht; subst ht; simp [*])

theorem cmdReset_storage (a : Nat) (s : State) (t : State) (ht : cmdReset a s = some t) : storage t = storage s := by
  unfold cmdReset at ht; (try dsimp only at ht); (repeat' split at ht)
  all_goals first | (simp at ht; done) | (simp only [Option.some.injEq] at ht; subst ht; simp [*])

theorem axisCmd_storage (code a : Nat) (s : State) (t : State) (ht : axisCmd code a s = some t) : storage t
    = storage s := by
  unfold axisCmd at ht; split at ht
  · simp only [Option.some.injEq] at ht; subst ht; rfl
  · exact cmdEnable_storage _ _ _ ht
  · exact cmdRun_storage _ _ _ ht
  · exact cmdPark_storage _ _ _ ht
  · exact cmdUnpark_storage _ _ _ ht
  · exact cmdQstop_storage _ _ _ ht
  · exact cmdDisable_storage _ _ _ ht
  · exact cmdReset_storage _ _ _ ht

@[simp] theorem axisAct_storage (code a : Nat) (s : State) : storage (axisAct code a s) = storage s := by
  exact storage_optD _ (fun t h => axisCmd_storage code a s t h) (by simp)

@[simp] theorem brakeDone_storage (a : Nat) (s : State) : storage (brakeDone a s) = storage s :=
  by unfold brakeDone; dsimp only; (repeat' split) <;> simp [*]

@[simp] theorem brakeApplied_storage (a : Nat) (s : State) : storage (brakeApplied a s) = storage s :=
  by simp [brakeApplied, *]

@[simp] theorem restDone_storage (a : Nat) (s : State) : storage (restDone a s) = storage s :=
  by unfold restDone; dsimp only; (repeat' split) <;> simp [*]

@[simp] theorem groupActBut_storage (skip : List Nat) (code g : Nat) (s : State) : storage
    (groupActBut skip code g s) = storage s := by simp [groupActBut, *]

@[simp] theorem groupAct_storage (code g : Nat) (s : State) : storage (groupAct code g s) = storage s :=
  by simp [groupAct, *]

@[simp] theorem joinSegment_storage (a : Nat) (s : State) : storage (joinSegment a s) = storage s :=
  by simp [joinSegment, *]

@[simp] theorem leaveSegment_storage (a : Nat) (s : State) : storage (leaveSegment a s) = storage s :=
  by simp [leaveSegment, *]

@[simp] theorem changeSegments_storage (old new : List Nat) (s : State) : storage (changeSegments old new s)
    = storage s := by simp [changeSegments, *]

@[simp] theorem locGo_storage (g seg : Nat) (s : State) : storage (locGo g seg s) = storage s := by simp [locGo, *]

@[simp] theorem ctlAct_storage (c : CtlCmd) (s : State) : storage (ctlAct c s) = storage s :=
  by unfold ctlAct; (repeat' split) <;> simp [*]

@[simp] theorem ctlAfter_storage (q : List CtlCmd) (s : State) : storage (ctlAfter q s) = storage s :=
  by simp [ctlAfter, *]

@[simp] theorem ctlSubmit_storage (c : CtlCmd) (s : State) : storage (ctlSubmit c s).1 = storage s :=
  by unfold ctlSubmit; (repeat' split) <;> simp [*]

@[simp] theorem runCtl_storage (s : State) : storage (runCtl s) = storage s := by simp [runCtl, *]

@[simp] theorem releaseEffect_storage (cls idx : Nat) (s : State) : storage (releaseEffect cls idx s) = storage s :=
  by simp [releaseEffect, *]

/-! ### Access -/

@[simp] theorem busError_storage (s : State) : storage (busError s) = storage s := by simp [busError, *]

@[simp] theorem refuseWrite_storage (s : State) : storage (refuseWrite s) = storage s := by simp [refuseWrite, *]

@[simp] theorem compactGate_storage (m : Master) (f : State → State) (s : State) (h_f : ∀ t, storage (f t)
    = storage t) : storage (compactGate m f s) = storage s := by simp [compactGate, *]

@[simp] theorem withRight_storage (m : Master) (a : Nat) (f : State → State) (s : State) (h_f : ∀ t, storage (f t)
    = storage t) : storage (withRight m a f s) = storage s := by simp [withRight, *]

@[simp] theorem keyed_storage (w : Word) (f : State → State) (s : State) (h_f : ∀ t, storage (f t) = storage t)
    : storage (keyed w f s) = storage s := by simp [keyed, *]

/-! ### Ecc -/

theorem recInvalid_storage (s0 : State) (w : Nat) (s : State) (hK : Storage.Kept (storage s0) (storage s))
    : Storage.Kept (storage s0) (storage (recInvalid w s)) := by
  unfold recInvalid; (try dsimp only)
  repeat' (first | with_reducible exact hK | with_reducible assumption | with_reducible apply memPutW_storage
                 | with_reducible apply kept_ite | with_reducible apply kept_forAll
                 | with_reducible apply kept_foldl | with_reducible apply kept_onlyIf | intro _
                 | simp only [storage_mk, storage_fold, storage_iteapp, and_self, implies_true]
                 | (dsimp only; split) | split | (simp; done))

@[simp] theorem queueError_storage (w : Nat) (s : State) : storage (queueError w s) = storage s :=
  by unfold queueError; (repeat' split) <;> simp [*]

@[simp] theorem reloadSched_storage (ch : Nat) (s : State) : storage (reloadSched ch s) = storage s :=
  by simp [reloadSched, *]

theorem eccEffect_storage (s0 : State) (w : Nat) (s : State) (hK : Storage.Kept (storage s0) (storage s))
    : Storage.Kept (storage s0) (storage (eccEffect w s)) := by
  unfold eccEffect; (try dsimp only)
  repeat' (first | with_reducible exact hK | with_reducible assumption | with_reducible apply recInvalid_storage
                 | with_reducible apply kept_ite | with_reducible apply kept_forAll
                 | with_reducible apply kept_foldl | with_reducible apply kept_onlyIf | intro _
                 | simp only [storage_mk, storage_fold, storage_iteapp, and_self, implies_true, faultAx_storage,
                   setCause_storage, transient_storage, reloadSched_storage, queueError_storage, haltCore_storage,
                   modCh_storage, State_tick_storage] | (dsimp only; split) | split | (simp; done))

theorem eccRead_storage (s0 : State) (w : Nat) (s : State) (hK : Storage.Kept (storage s0) (storage s))
    : Storage.Kept (storage s0) (storage (eccRead w s)) := by
  unfold eccRead; (try dsimp only)
  repeat' (first | with_reducible exact hK | with_reducible assumption | with_reducible apply eccEffect_storage
                 | with_reducible apply kept_ite | with_reducible apply kept_forAll
                 | with_reducible apply kept_foldl | with_reducible apply kept_onlyIf | intro _
                 | simp only [storage_mk, storage_fold, storage_iteapp, and_self, implies_true, eccReport_storage, eccFix_storage] | (dsimp only; split) | split | (simp; done))

theorem eccLoad_storage (s0 : State) (a : Nat) (s : State) (hK : Storage.Kept (storage s0) (storage s))
    : Storage.Kept (storage s0) (storage ((eccLoad a s).1)) := by
  unfold eccLoad; (try dsimp only)
  repeat' (first | with_reducible exact hK | with_reducible assumption | with_reducible apply eccRead_storage
                 | with_reducible apply kept_ite | with_reducible apply kept_forAll
                 | with_reducible apply kept_foldl | with_reducible apply kept_onlyIf | intro _
                 | simp only [storage_mk, storage_fold, storage_iteapp, and_self, implies_true, State_tick_storage]
                 | (dsimp only; split) | split | (simp; done))

theorem eccRange_storage (s0 : State) (lo hi : Nat) (s : State) (hK : Storage.Kept (storage s0) (storage s))
    : Storage.Kept (storage s0) (storage (eccRange lo hi s)) := by
  unfold eccRange; (try dsimp only)
  repeat' (first | with_reducible exact hK | with_reducible assumption | with_reducible apply eccRead_storage
                 | with_reducible apply kept_ite | with_reducible apply kept_forAll
                 | with_reducible apply kept_foldl | with_reducible apply kept_onlyIf | intro _
                 | simp only [storage_mk, storage_fold, storage_iteapp, and_self, implies_true]
                 | (dsimp only; split) | split | (simp; done))

theorem eccSched_storage (s0 : State) (s : State) (hK : Storage.Kept (storage s0) (storage s)) : Storage.Kept
    (storage s0) (storage (eccSched s)) := by
  unfold eccSched; (try dsimp only)
  repeat' (first | with_reducible exact hK | with_reducible assumption | with_reducible apply eccRange_storage
                 | with_reducible apply kept_ite | with_reducible apply kept_forAll
                 | with_reducible apply kept_foldl | with_reducible apply kept_onlyIf | intro _
                 | simp only [storage_mk, storage_fold, storage_iteapp, and_self, implies_true]
                 | (dsimp only; split) | split | (simp; done))

theorem scrubRound_storage (s0 : State) (s : State) (hK : Storage.Kept (storage s0) (storage s)) : Storage.Kept
    (storage s0) (storage (scrubRound s)) := by
  unfold scrubRound; (try dsimp only)
  repeat' (first | with_reducible exact hK | with_reducible assumption | with_reducible apply eccRead_storage
                 | with_reducible apply kept_ite | with_reducible apply kept_forAll
                 | with_reducible apply kept_foldl | with_reducible apply kept_onlyIf | intro _
                 | simp only [storage_mk, storage_fold, storage_iteapp, and_self, implies_true]
                 | (dsimp only; split) | split | (simp; done))

/-! ### Wheel -/

@[simp] theorem limitFault_storage (a code cls : Nat) (o : Owner) (hit : Bool) (s : State) : storage
    (limitFault a code cls o hit s) = storage s := by simp [limitFault, *]

@[simp] theorem limitJudge_storage (a : Nat) (s : State) : storage (limitJudge a s) = storage s :=
  by simp [limitJudge, *]

@[simp] theorem snapGroup_storage (g : Nat) (s : State) : storage (snapGroup g s) = storage s :=
  by simp [snapGroup, *]

@[simp] theorem pfRefuse_storage (o : Owner) (code : Nat) (s : State) : storage (pfRefuse o code s) = storage s :=
  by simp [pfRefuse, *]

@[simp] theorem pfCommand_storage (o : Owner) (op : Nat) (m : Move) (s : State) : storage (pfCommand o op m s)
    = storage s := by simp [pfCommand, *]

@[simp] theorem pfWrite_storage (o : Owner) (op : Nat) (m : Master) (s : State) : storage (pfWrite o op m s)
    = storage s := by simp [pfWrite, *]

@[simp] theorem armProbe_storage (a : Nat) (w : Word) (s : State) : storage (armProbe a w s) = storage s :=
  by simp [armProbe, *]

@[simp] theorem armCompare_storage (a : Nat) (w0 w1 w2 w3 : Word) (s : State) : storage
    (armCompare a w0 w1 w2 w3 s) = storage s := by simp [armCompare, *]

@[simp] theorem jointMissed_storage (o : Owner) (s : State) : storage (jointMissed o s) = storage s :=
  by simp [jointMissed, *]

@[simp] theorem cornerJoint_storage (o : Owner) (c : CurMove) (t : Int) (m : Move) (s : State) : storage
    (cornerJoint o c t m s) = storage s := by unfold cornerJoint; (repeat' split) <;> simp [*]

@[simp] theorem overlapJoint_storage (o : Owner) (c0 : CurMove) (t : Int) (m : Move) (s : State) : storage
    (overlapJoint o c0 t m s) = storage s := by unfold overlapJoint; (repeat' split) <;> simp [*]

@[simp] theorem decideJoint_storage (o : Owner) (s : State) : storage (decideJoint o s) = storage s :=
  by unfold decideJoint; dsimp only; (repeat' split) <;> simp [*]

@[simp] theorem velSoftStop_storage (o : Owner) (s : State) : storage (velSoftStop o s) = storage s :=
  by unfold velSoftStop; dsimp only; (repeat' split) <;> simp [*]

@[simp] theorem moveFails_storage (o : Owner) (code : Nat) (l : Limits) (s : State) : storage
    (moveFails o code l s) = storage s := by simp [moveFails, *]

@[simp] theorem activate_storage (o : Owner) (m : Move) (l : Limits) (s : State) : storage (activate o m l s)
    = storage s := by unfold activate; dsimp only; (repeat' split) <;> simp [*]

@[simp] theorem startOver_storage (o : Owner) (c : CurMove) (s : State) : storage (startOver o c s) = storage s :=
  by unfold startOver; dsimp only; (repeat' split) <;> simp [*]

@[simp] theorem jointStep_storage (o : Owner) (n : Nat) (s : State) : storage (jointStep o n s) = storage s :=
  by unfold jointStep; dsimp only; (repeat' split) <;> simp [*]

@[simp] theorem advance_storage (o : Owner) (i : Nat) : ∀ (f : Nat) (s : State), storage (advance o i f s)
    = storage s := by
  intro f
  induction f with
  | zero => intro s; rfl
  | succ f ih =>
    intro s
    unfold advance; dsimp only
    (repeat' split) <;> simp [ih]

@[simp] theorem tickEntries_storage (o : Owner) : ∀ (n : Nat) (es : List Entry) (s : State), storage
    (tickEntries o n es s).2 = storage s := by
  intro n
  induction n with
  | zero => intro es s; rfl
  | succ n ih => intro es s; unfold tickEntries; dsimp only; rw [ih]; simp

@[simp] theorem deferDecel_storage (o : Owner) (s : State) : storage (deferDecel o s) = storage s :=
  by simp [deferDecel, *]

@[simp] theorem takeChglim_storage (o : Owner) (n : Move) (s : State) : storage (takeChglim o n s) = storage s :=
  by unfold takeChglim; dsimp only; (repeat' split) <;> simp [*]

@[simp] theorem takeReplace_storage (o : Owner) (m : Move) (lateNr : Option Nat) (s : State) : storage
    (takeReplace o m lateNr s) = storage s := by unfold takeReplace; dsimp only; (repeat' split) <;> simp [*]

@[simp] theorem refProfile_storage (a : Nat) (ph : RefPhase) (c : CurMove) (s : State) : storage
    (refProfile a ph c s) = storage s := by simp [refProfile, *]

@[simp] theorem refDisarm_storage (a : Nat) (s : State) : storage (refDisarm a s) = storage s :=
  by simp [refDisarm, *]

@[simp] theorem takeRef_storage (a : Nat) (s : State) : storage (takeRef a s) = storage s := by simp [takeRef, *]

@[simp] theorem refFail_storage (a : Nat) (s : State) : storage (refFail a s) = storage s := by simp [refFail, *]

@[simp] theorem refShift_storage (a : Nat) (d : Int) (s : State) : storage (refShift a d s) = storage s :=
  by simp [refShift, *]

@[simp] theorem refStep_storage (a : Nat) (s : State) : storage (refStep a s) = storage s :=
  by unfold refStep; dsimp only; (repeat' split) <;> simp [*]

@[simp] theorem takeCmd_storage (o : Owner) (c : PfCmd) (s : State) : storage (takeCmd o c s) = storage s :=
  by unfold takeCmd; (repeat' split) <;> simp [*]

@[simp] theorem takeQuick_storage (o : Owner) (s : State) : storage (takeQuick o s) = storage s :=
  by simp [takeQuick, *]

@[simp] theorem rejoin_storage (o : Owner) (s : State) : storage (rejoin o s) = storage s :=
  by unfold rejoin; dsimp only; (repeat' split) <;> simp [*]

@[simp] theorem discardOwner_storage (o : Owner) (s : State) : storage (discardOwner o s) = storage s :=
  by unfold discardOwner; (repeat' split) <;> simp [*]

theorem readQueue_storage (s0 : State) (o : Owner) (s : State) (hK : Storage.Kept (storage s0) (storage s))
    : Storage.Kept (storage s0) (storage (readQueue o s)) := by
  unfold readQueue; (try dsimp only)
  repeat' (first | with_reducible exact hK | with_reducible assumption | with_reducible apply eccRange_storage
                 | with_reducible apply kept_ite | with_reducible apply kept_forAll
                 | with_reducible apply kept_foldl | with_reducible apply kept_onlyIf | intro _
                 | simp only [storage_mk, storage_fold, storage_iteapp, and_self, implies_true]
                 | (dsimp only; split) | split | (simp; done))

theorem storeQueue_storage (s0 : State) (o : Owner) (old : List Move) (s : State) (hK : Storage.Kept (storage s0)
    (storage s)) : Storage.Kept (storage s0) (storage (storeQueue o old s)) := by
  unfold storeQueue; (try dsimp only)
  repeat' (first | with_reducible exact hK | with_reducible assumption | with_reducible apply memPut_storage
                 | with_reducible apply kept_ite | with_reducible apply kept_forAll
                 | with_reducible apply kept_foldl | with_reducible apply kept_onlyIf | intro _
                 | simp only [storage_mk, storage_fold, storage_iteapp, and_self, implies_true]
                 | (dsimp only; split) | split | (simp; done))

@[simp] theorem latchWheel_storage (l : List Owner) (s : State) : storage (latchWheel l s) = storage s :=
  by simp [latchWheel, *]

@[simp] theorem planOwner_storage (o : Owner) (s : State) : storage (planOwner o s) = storage s :=
  by unfold planOwner; (repeat' split) <;> simp [*]

theorem tickOwner_storage (s0 : State) (o : Owner) (s : State) (hK : Storage.Kept (storage s0) (storage s))
    : Storage.Kept (storage s0) (storage (tickOwner o s)) := by
  unfold tickOwner
  extract_lets old s1 r
  have h1 : Storage.Kept (storage s0) (storage s1) := by
    simp only [s1]; split
    · rw [planOwner_storage]; exact readQueue_storage _ _ _ hK
    · simpa using hK
  have h3 : Storage.Kept (storage s0) (storage r.2) := by simp only [r, tickEntries_storage]; exact h1
  exact storeQueue_storage _ _ _ _ (by rw [modProf_storage]; exact h3)

/-! ### Groups -/

@[simp] theorem setMembers_storage (q : Nat × List Nat × Bool) (s : State) : storage (setMembers q s) = storage s :=
  by simp [setMembers, *]

@[simp] theorem moverMembership_storage (s : State) : storage (moverMembership s) = storage s :=
  by simp [moverMembership, *]

@[simp] theorem deriveMembers_storage (lead : Nat → List Entry) (g : Nat) (s : State) : storage
    (deriveMembers lead g s) = storage s := by simp [deriveMembers, *]

@[simp] theorem latchBases_storage (lead : Nat → List Entry) (l : List Nat) (s : State) : storage
    (latchBases lead l s) = storage s := by simp [latchBases, *]

@[simp] theorem deriveGroups_storage (lead : Nat → List Entry) (l : List Nat) (s : State) : storage
    (deriveGroups lead l s) = storage s := by simp [deriveGroups, *]

@[simp] theorem gantrySkew_storage (g : Nat) (s : State) : storage (gantrySkew g s) = storage s :=
  by simp [gantrySkew, *]

@[simp] theorem mergeFeedback_storage (g : Nat) (s : State) : storage (mergeFeedback g s) = storage s :=
  by simp [mergeFeedback, *]

@[simp] theorem mergeAll_storage (s : State) : storage (mergeAll s) = storage s := by simp [mergeAll, *]

@[simp] theorem cxpSend_storage (old s : State) : storage (cxpSend old s) = storage s := by simp [cxpSend, *]

theorem wheelTick_storage (s0 : State) (s : State) (hK : Storage.Kept (storage s0) (storage s)) : Storage.Kept
    (storage s0) (storage (wheelTick s)) := by
  unfold wheelTick; (try dsimp only)
  repeat' (first | with_reducible exact hK | with_reducible assumption | with_reducible apply tickOwner_storage
                 | with_reducible apply kept_ite | with_reducible apply kept_forAll
                 | with_reducible apply kept_foldl | with_reducible apply kept_onlyIf | intro _
                 | simp only [storage_mk, storage_fold, storage_iteapp, and_self, implies_true,
                   moverMembership_storage, deriveGroups_storage, cxpSend_storage, mergeAll_storage,
                   snapGroup_storage, restDone_storage] | (dsimp only; split) | split | (simp; done))

@[simp] theorem remoteKeep_storage (g : Nat) (s : State) : storage (remoteKeep g s) = storage s :=
  by simp [remoteKeep, *]

@[simp] theorem remoteDerive_storage (s : State) : storage (remoteDerive s) = storage s := by simp [remoteDerive, *]

end Sys2Proof.Machine
end

