-- ==== Sys2Proof/Laws/StorageLink.lean ====
section
/-! SUPPORT. What the operations of the link, Saggar, the twin and the retire block do to the queue, SRAM, flash and fuse cells: nothing, or what keeps them well formed. -/

set_option linter.unusedSimpArgs false

namespace Sys2Proof.Machine

/-! ### Link -/

@[simp] theorem latViolate_storage (s : State) : storage (latViolate s) = storage s := by simp [latViolate, *]

@[simp] theorem checkDelays_storage (ch : Nat) (s : State) : storage (checkDelays ch s) = storage s :=
  by simp [checkDelays, *]

@[simp] theorem noteDelays_storage (ch : Nat) (s : State) : storage (noteDelays ch s) = storage s :=
  by simp [noteDelays, *]

@[simp] theorem noteMargin_storage (s : State) : storage (noteMargin s) = storage s :=
  by unfold noteMargin; dsimp only; (repeat' split) <;> simp [*]

@[simp] theorem sendSlot_storage (ch start : Nat) (bytes : List Byte) (s : State) : storage
    (sendSlot ch start bytes s) = storage s := by simp [sendSlot, *]

@[simp] theorem sendEntry_storage (ch : Nat) (e : SEntry) (pay : List Byte) (s : State) : storage
    (sendEntry ch e pay s) = storage s := by simp [sendEntry, *]

@[simp] theorem syncSent_storage (ch n : Nat) (s : State) : storage (syncSent ch n s) = storage s :=
  by unfold syncSent; (repeat' split) <;> simp [*]

@[simp] theorem sendSync_storage (ch : Nat) (e : SEntry) (s : State) : storage (sendSync ch e s) = storage s :=
  by simp [sendSync, *]

@[simp] theorem sendSvc_storage (ch : Nat) (e : SEntry) (s : State) : storage (sendSvc ch e s) = storage s :=
  by unfold sendSvc; dsimp only; (repeat' split) <;> simp [*]

@[simp] theorem sendSchedule_storage (ch : Nat) (s : State) : storage (sendSchedule ch s) = storage s :=
  by simp [sendSchedule, *]

@[simp] theorem orderReint_storage (ch n : Nat) (s : State) : storage (orderReint ch n s) = storage s :=
  by simp [orderReint, *]

@[simp] theorem window_storage (r : RxSlot) (n : Nat) (s : State) : storage (window r n s).1 = storage s :=
  by unfold window; dsimp only; (repeat' split) <;> simp [*]

@[simp] theorem noteContent_storage (r : RxSlot) (e : SEntry) (s : State) : storage (noteContent r e s) = storage s :=
  by simp [noteContent, *]

@[simp] theorem repeatSlot_storage (r : RxSlot) (s : State) : storage (repeatSlot r s) = storage s :=
  by unfold repeatSlot; (repeat' split) <;> simp [*]

@[simp] theorem acceptUp_storage (r : RxSlot) (ty : Nat) (s' : State) : storage (acceptUp r ty s').1 = storage s' :=
  by unfold acceptUp; dsimp only; (repeat' split) <;> simp [*]

@[simp] theorem modIn_storage (s : State) (a : Nat) (f : InEntry → InEntry) : storage (modIn s a f) = storage s :=
  by simp [modIn, *]

@[simp] theorem fupReceived_storage (r : RxSlot) (s : State) : storage (fupReceived r s) = storage s := by
  unfold fupReceived
  have h0 := acceptUp_storage r tyFUP s
  split
  all_goals (rename_i heq; rw [heq] at h0; dsimp only at h0 ⊢)
  all_goals (first | (simp [h0]; done) | ((repeat' split) <;> simp [h0]; done))

@[simp] theorem posReceived_storage (r : RxSlot) (s : State) : storage (posReceived r s) = storage s := by
  unfold posReceived
  have h0 := acceptUp_storage r tyPOS s
  split
  all_goals (rename_i heq; rw [heq] at h0; dsimp only at h0 ⊢)
  all_goals (first | (simp [h0]; done) | ((repeat' split) <;> simp [h0]; done))

@[simp] theorem diagReceived_storage (r : RxSlot) (s : State) : storage (diagReceived r s) = storage s := by
  unfold diagReceived
  have h0 := acceptUp_storage r tyDIAG s
  split
  all_goals (rename_i heq; rw [heq] at h0; dsimp only at h0 ⊢)
  all_goals (first | (simp [h0]; done) | ((repeat' split) <;> simp [h0]; done))

@[simp] theorem identityMismatch_storage (n : Nat) (s : State) : storage (identityMismatch n s) = storage s :=
  by simp [identityMismatch, *]

@[simp] theorem takeReply_storage (ch n addr : Nat) (w : Word) (s : State) : storage (takeReply ch n addr w s)
    = storage s := by simp [takeReply, *]

@[simp] theorem svcReply_storage (r : RxSlot) (s : State) : storage (svcReply r s) = storage s := by
  unfold svcReply
  have h0 := acceptUp_storage r tySVC s
  split
  all_goals (rename_i heq; rw [heq] at h0; dsimp only at h0 ⊢)
  all_goals (first | (simp [h0]; done) | ((repeat' split) <;> simp [h0]; done))

@[simp] theorem upstreamSilence_storage (ch n : Nat) (s : State) : storage (upstreamSilence ch n s) = storage s :=
  by simp [upstreamSilence, *]

@[simp] theorem startLoading_storage (s : State) : storage (startLoading s) = storage s := by simp [startLoading, *]

@[simp] theorem loadSequence_storage (ch n : Nat) (s : State) : storage (loadSequence ch n s) = storage s :=
  by unfold loadSequence; (repeat' split) <;> simp [*]

@[simp] theorem loadTimeout_storage (ch n : Nat) (s : State) : storage (loadTimeout ch n s) = storage s :=
  by simp [loadTimeout, *]

@[simp] theorem newBasis_storage (n : Nat) (s : State) : storage (newBasis n s) = storage s := by simp [newBasis, *]

@[simp] theorem nodeAdmission_storage (ch n : Nat) (s : State) : storage (nodeAdmission ch n s) = storage s :=
  by unfold nodeAdmission; dsimp only; (repeat' split) <;> simp [*]

@[simp] theorem noteWraps_storage (ch : Nat) (s : State) : storage (noteWraps ch s) = storage s :=
  by simp [noteWraps, *]

@[simp] theorem healCounted_storage (ch seg : Nat) (s : State) : storage (healCounted ch seg s) = storage s :=
  by simp [healCounted, *]

@[simp] theorem judgeHeal_storage (ch : Nat) (o : ChanObs) (old : Chan) (s : State) : storage
    (judgeHeal ch o old s) = storage s := by simp [judgeHeal, *]

@[simp] theorem channelLost_storage (ch : Nat) (s : State) : storage (channelLost ch s) = storage s :=
  by simp [channelLost, *]

@[simp] theorem leaseRelease_storage (s : State) : storage (leaseRelease s) = storage s := by simp [leaseRelease, *]

@[simp] theorem channelJudgement_storage (ch : Nat) (o : ChanObs) (s : State) : storage (channelJudgement ch o s)
    = storage s := by unfold channelJudgement; dsimp only; (repeat' split) <;> simp [*]

@[simp] theorem skimEnded_storage (s : State) : storage (skimEnded s) = storage s :=
  by unfold skimEnded; (repeat' split) <;> simp [*]

@[simp] theorem portLoss_storage (ch port how : Nat) (s : State) : storage (portLoss ch port how s) = storage s :=
  by simp [portLoss, *]

@[simp] theorem unwrapOrder_storage (ch : Nat) (s : State) : storage (unwrapOrder ch s) = storage s :=
  by unfold unwrapOrder; (repeat' split) <;> simp [*]

@[simp] theorem unwrap_storage (ch : Nat) (s : State) : storage (unwrap ch s) = storage s :=
  by unfold unwrap; dsimp only; (repeat' split) <;> simp [*]

@[simp] theorem enterListen_storage (pref alt : Nat) (s : State) : storage (enterListen pref alt s) = storage s :=
  by simp [enterListen, *]

@[simp] theorem setEpoch_storage (e : Nat) (s : State) : storage (setEpoch e s) = storage s := by simp [setEpoch, *]

@[simp] theorem storedLock_storage (s : State) : storage (storedLock s) = storage s :=
  by unfold storedLock; (repeat' split) <;> simp [*]

@[simp] theorem coldAxes_storage (s : State) : storage (coldAxes s) = storage s := by simp [coldAxes, *]

@[simp] theorem coldGroups_storage (s : State) : storage (coldGroups s) = storage s := by simp [coldGroups, *]

@[simp] theorem listenExpiry_storage (s : State) : storage (listenExpiry s) = storage s := by simp [listenExpiry, *]

@[simp] theorem becomeActive_storage (h : HeadState) (s : State) : storage (becomeActive h s) = storage s :=
  by simp [becomeActive, *]

@[simp] theorem coldstartEnd_storage (s : State) : storage (coldstartEnd s) = storage s := by simp [coldstartEnd, *]

@[simp] theorem idleRest_storage (s : State) : storage (idleRest s) = storage s := by simp [idleRest, *]

@[simp] theorem collision_storage (ch : Nat) (s : State) : storage (collision ch s) = storage s :=
  by simp [collision, *]

@[simp] theorem joinPair_storage (m : MarkInfo) (s : State) : storage (joinPair m s) = storage s :=
  by simp [joinPair, *]

@[simp] theorem stepDown_storage (s : State) : storage (stepDown s) = storage s := by
  simp [stepDown, *]

@[simp] theorem followSkim_storage (ch : Nat) (on : Bool) (s : State) : storage (followSkim ch on s) = storage s := by
  unfold followSkim; (repeat' split) <;> simp [*]

@[simp] theorem noteMark_storage (r : RxSlot) (m : MarkInfo) (s : State) : storage (noteMark r m s) = storage s :=
  by simp [noteMark, *]

@[simp] theorem markAccepted_storage (r : RxSlot) (s' : State) : storage (markAccepted r s') = storage s' := by
  unfold markAccepted
  extract_lets s m s0 y s1 z
  have h : storage s = storage s' := by simp [s]
  clear_value s
  refine storage_both h (storage_both (by simpa using h) (storage_both (by simpa using h)
    (storage_both (by simpa using h) ?_)))
  refine storage_both (by simpa using h) (storage_both (by simpa using h) ?_)
  have h1 : storage s1 = storage s' := (show storage s1 = storage s0 from rfl).trans (by simp [s0, h])
  clear_value z s1 y s0 m
  refine storage_both h1 ?_
  (repeat' split) <;> simp only [followSkim_storage, joinPair_storage, setEpoch_storage, stepDown_storage,
    collision_storage, storage_mk, storage_fold, h1]

/-! ### Saggar -/

@[simp] theorem modSag_storage (f : Saggar → Saggar) (s : State) : storage (modSag f s) = storage s :=
  by simp [modSag, *]

@[simp] theorem brakeReport_storage (o : Owner) (released : Bool) (s : State) : storage (brakeReport o released s)
    = storage s := by unfold brakeReport; (repeat' split) <;> simp [*]

@[simp] theorem switchPair_storage (k : Nat) (on : Bool) (s : State) : storage (switchPair k on s) = storage s :=
  by simp [switchPair, *]

@[simp] theorem outputs_storage (s : State) : storage (outputs s) = storage s := by simp [outputs, *]

@[simp] theorem foundCause_storage (c i : Nat) (s : State) : storage (foundCause c i s) = storage s :=
  by simp [foundCause, *]

@[simp] theorem clearCause_storage (p : Nat × Nat → Bool) (s : State) : storage (clearCause p s) = storage s :=
  by simp [clearCause, *]

@[simp] theorem clearOutputs_storage (s : State) : storage (clearOutputs s) = storage s := by simp [clearOutputs, *]

@[simp] theorem testEnd_storage (res : Nat) (s : State) : storage (testEnd res s) = storage s :=
  by unfold testEnd; (repeat' split) <;> simp [*]

@[simp] theorem testRound_storage (s : State) : storage (testRound s) = storage s :=
  by unfold testRound; (repeat' split) <;> simp [*]

@[simp] theorem btestEnd_storage (s : State) : storage (btestEnd s) = storage s :=
  by unfold btestEnd; (repeat' split) <;> simp [*]

@[simp] theorem dueCheck_storage (b : Nat) (s : State) : storage (dueCheck b s) = storage s := by simp [dueCheck, *]

@[simp] theorem pairsBack_storage (s : State) : storage (pairsBack s) = storage s := by simp [pairsBack, *]

@[simp] theorem degStart_storage (s : State) : storage (degStart s) = storage s := by simp [degStart, *]

@[simp] theorem takeReport_storage (b low : Nat) (s : State) : storage (takeReport b low s) = storage s :=
  by unfold takeReport; dsimp only; (repeat' split) <;> simp [*]

@[simp] theorem formed_storage (b link low : Nat) (s : State) : storage (formed b link low s) = storage s :=
  by simp [formed, *]

@[simp] theorem judgeCopies_storage (b : Nat) (s : State) : storage (judgeCopies b s) = storage s :=
  by unfold judgeCopies; dsimp only; (repeat' split) <;> simp [*]

@[simp] theorem safeReceived_storage (r : RxSlot) (s : State) : storage (safeReceived r s) = storage s := by
  unfold safeReceived
  have h0 := acceptUp_storage r tySAFE s
  split
  all_goals (rename_i heq; rw [heq] at h0; dsimp only at h0 ⊢)
  all_goals (first | (simp [h0]; done) | ((repeat' split) <;> simp [h0]; done))

@[simp] theorem closePeriod_storage (b : Nat) (s : State) : storage (closePeriod b s) = storage s :=
  by simp [closePeriod, *]

@[simp] theorem requestSeen_storage (o : Owner) (s : State) : storage (requestSeen o s) = storage s :=
  by unfold requestSeen; (repeat' split) <;> simp [*]

@[simp] theorem decideBrake_storage (b : Nat) (s : State) : storage (decideBrake b s) = storage s :=
  by simp [decideBrake, *]

@[simp] theorem nextSseq_storage (b : Nat) (s : State) : storage (nextSseq b s) = storage s := by simp [nextSseq, *]

@[simp] theorem sendSafe_storage (b : Nat) (es : List (Nat × SEntry)) (s : State) : storage (sendSafe b es s)
    = storage s := by simp [sendSafe, *]

@[simp] theorem safePeriod_storage (s : State) : storage (safePeriod s) = storage s := by simp [safePeriod, *]

@[simp] theorem brakeTimeout_storage (b : Nat) (s : State) : storage (brakeTimeout b s) = storage s :=
  by unfold brakeTimeout; dsimp only; (repeat' split) <;> simp [*]

@[simp] theorem degExceeded_storage (s : State) : storage (degExceeded s) = storage s := by simp [degExceeded, *]

@[simp] theorem lockout_storage (s : State) : storage (lockout s) = storage s :=
  by unfold lockout; (repeat' split) <;> simp [*]

@[simp] theorem leaveLocked_storage (s : State) : storage (leaveLocked s) = storage s :=
  by unfold leaveLocked; (repeat' split) <;> simp [*]

@[simp] theorem safeReset_storage (start : Word) (us : Nat) (s : State) : storage (safeReset start us s)
    = storage s := by simp [safeReset, *]

@[simp] theorem testPulse_storage (sealHigh resetHigh : Bool) (s : State) : storage
    (testPulse sealHigh resetHigh s) = storage s := by simp [testPulse, *]

@[simp] theorem hardStop_storage (s : State) : storage (hardStop s) = storage s := by simp [hardStop, *]

@[simp] theorem selfTest_storage (c : Nat) (ok : Bool) (note : Saggar → Saggar) (s : State) : storage
    (selfTest c ok note s) = storage s := by simp [selfTest, *]

@[simp] theorem comparatorTest_storage (ok : Bool) (s : State) : storage (comparatorTest ok s) = storage s :=
  by simp [comparatorTest, *]

@[simp] theorem selfTestEnd_storage (s : State) : storage (selfTestEnd s) = storage s :=
  by unfold selfTestEnd; dsimp only; (repeat' split) <;> simp [*]

@[simp] theorem sagRefuse_storage (s : State) : storage (sagRefuse s) = storage s := by simp [sagRefuse, *]

@[simp] theorem clearPwd_storage (s : State) : storage (clearPwd s) = storage s := by simp [clearPwd, *]

@[simp] theorem changeLog_storage (kind id : Nat) (old new : Word) (s : State) : storage
    (changeLog kind id old new s) = storage s := by simp [changeLog, *]

@[simp] theorem pwdCmd_storage (len : Nat) (s : State) : storage (pwdCmd len s) = storage s := by simp [pwdCmd, *]

@[simp] theorem pwdsetCmd_storage (len : Nat) (s : State) : storage (pwdsetCmd len s) = storage s :=
  by simp [pwdsetCmd, *]

@[simp] theorem paramCmd_storage (s : State) : storage (paramCmd s) = storage s := by simp [paramCmd, *]

@[simp] theorem applyParams_storage (s : State) : storage (applyParams s) = storage s := by simp [applyParams, *]

@[simp] theorem sealcloseCmd_storage (s : State) : storage (sealcloseCmd s) = storage s := by simp [sealcloseCmd, *]

@[simp] theorem logclearCmd_storage (s : State) : storage (logclearCmd s) = storage s := by simp [logclearCmd, *]

@[simp] theorem btestCmd_storage (b : Nat) (s : State) : storage (btestCmd b s) = storage s := by simp [btestCmd, *]

@[simp] theorem btabortCmd_storage (s : State) : storage (btabortCmd s) = storage s := by simp [btabortCmd, *]

@[simp] theorem outsetCmd_storage (mask : Nat) (s : State) : storage (outsetCmd mask s) = storage s :=
  by simp [outsetCmd, *]

@[simp] theorem sagCommand_storage (w : Word) (s : State) : storage (sagCommand w s) = storage s :=
  by unfold sagCommand; (repeat' split) <;> simp [*]

@[simp] theorem sealPin_storage (level : Bool) (s : State) : storage (sealPin level s) = storage s :=
  by simp [sealPin, *]

@[simp] theorem sagMs_storage (s : State) : storage (sagMs s) = storage s := by simp [sagMs, *]

@[simp] theorem sagRounds_storage (s : State) : storage (sagRounds s) = storage s := by simp [sagRounds, *]

/-! ### Twin -/

@[simp] theorem modTwin_storage (f : Twin → Twin) (s : State) : storage (modTwin f s) = storage s :=
  by simp [modTwin, *]

@[simp] theorem modCasc_storage (f : Casc → Casc) (s : State) : storage (modCasc f s) = storage s :=
  by simp [modCasc, *]

@[simp] theorem sendTwin_storage (start ty : Nat) (pay : List Byte) (s : State) : storage (sendTwin start ty pay s)
    = storage s := by simp [sendTwin, *]

@[simp] theorem startEntry_storage (s : State) : storage (startEntry s) = storage s := by simp [startEntry, *]

theorem putBank_storage (s0 : State) (a : Nat) (bank : Bool) (ws : List Word) (s : State) (hK : Storage.Kept
    (storage s0) (storage s)) : Storage.Kept (storage s0) (storage (putBank a bank ws s)) := by
  unfold putBank; (try dsimp only)
  repeat' (first | with_reducible exact hK | with_reducible assumption | with_reducible apply memPut_storage
                 | with_reducible apply kept_ite | with_reducible apply kept_forAll
                 | with_reducible apply kept_foldl | with_reducible apply kept_onlyIf | intro _
                 | simp only [storage_mk, storage_fold, storage_iteapp, and_self, implies_true]
                 | (dsimp only; split) | split | (simp; done))

theorem takeCopy_storage (s0 : State) (c : CopyContent) (s : State) (hK : Storage.Kept (storage s0) (storage s))
    : Storage.Kept (storage s0) (storage (takeCopy c s)) := by
  unfold takeCopy; (try dsimp only)
  repeat' (first | with_reducible exact hK | with_reducible assumption | with_reducible apply putBank_storage
                 | with_reducible apply memPut_storage | with_reducible apply kept_ite
                 | with_reducible apply kept_forAll | with_reducible apply kept_foldl
                 | with_reducible apply kept_onlyIf | intro _
                 | simp only [storage_mk, storage_fold, storage_iteapp, and_self, implies_true, modCtl_storage, window_storage, modProf_storage, setGr_storage, modAx_storage, setAx_storage] | (dsimp only; split) | split | (simp; done))

@[simp] theorem noteUnit_storage (q : Nat × Nat) (s : State) : storage (noteUnit q s) = storage s :=
  by simp [noteUnit, *]

theorem tcopyReceived_storage (s0 : State) (u : CopyUnit) (s : State) (hK : Storage.Kept (storage s0) (storage s))
    : Storage.Kept (storage s0) (storage (tcopyReceived u s)) := by
  unfold tcopyReceived; (try dsimp only)
  repeat' (first | with_reducible exact hK | with_reducible assumption | with_reducible apply takeCopy_storage
                 | with_reducible apply kept_ite | with_reducible apply kept_forAll
                 | with_reducible apply kept_foldl | with_reducible apply kept_onlyIf | intro _
                 | simp only [storage_mk, storage_fold, storage_iteapp, and_self, implies_true, noteUnit_storage,
                   modTwin_storage] | (dsimp only; split) | split | (simp; done))

@[simp] theorem isolate_storage (c : Nat) (s : State) : storage (isolate c s) = storage s := by simp [isolate, *]

@[simp] theorem twinMismatch_storage (s : State) : storage (twinMismatch s) = storage s := by simp [twinMismatch, *]

@[simp] theorem digestDiffers_storage (s : State) : storage (digestDiffers s) = storage s :=
  by simp [digestDiffers, *]

@[simp] theorem entryComplete_storage (s : State) : storage (entryComplete s) = storage s :=
  by simp [entryComplete, *]

@[simp] theorem digestAgrees_storage (s : State) : storage (digestAgrees s) = storage s := by simp [digestAgrees, *]

@[simp] theorem tdigReceived_storage (r : LaneSlot) (s : State) : storage (tdigReceived r s) = storage s :=
  by unfold tdigReceived; (repeat' split) <;> simp [*]

@[simp] theorem txqReceived_storage (r : LaneSlot) (s : State) : storage (txqReceived r s) = storage s :=
  by unfold txqReceived; (repeat' split) <;> simp [*]

@[simp] theorem inUseAgain_storage (cls idx : Nat) (s : State) : storage (inUseAgain cls idx s) = storage s :=
  by simp [inUseAgain, *]

@[simp] theorem adoptEffect_storage (cls idx : Nat) (old : RetState) (s : State) : storage
    (adoptEffect cls idx old s) = storage s := by simp [adoptEffect, *]

@[simp] theorem takeRet_storage (q : Nat × Nat × List Nat × Nat) (s : State) : storage (takeRet q s) = storage s :=
  by simp [takeRet, *]

@[simp] theorem tretReceived_storage (r : LaneSlot) (s : State) : storage (tretReceived r s) = storage s :=
  by unfold tretReceived; (repeat' split) <;> simp [*]

@[simp] theorem tlinkReceived_storage (r : LaneSlot) (s : State) : storage (tlinkReceived r s) = storage s :=
  by unfold tlinkReceived; (repeat' split) <;> simp [*]

@[simp] theorem grant_storage (s : State) : storage (grant s) = storage s := by simp [grant, *]

@[simp] theorem steer_storage (t1 t2 : Int) (s : State) : storage (steer t1 t2 s) = storage s := by simp [steer, *]

@[simp] theorem peerLock_storage (st : Nat) (sagOk : Bool) (s : State) : storage (peerLock st sagOk s) = storage s :=
  by simp [peerLock, *]

@[simp] theorem tleaseReceived_storage (r : LaneSlot) (s : State) : storage (tleaseReceived r s) = storage s :=
  by unfold tleaseReceived; (repeat' split) <;> simp [*]

@[simp] theorem newActive_storage (takeover : Bool) (s : State) : storage (newActive takeover s) = storage s :=
  by simp [newActive, *]

@[simp] theorem takeOver_storage (s : State) : storage (takeOver s) = storage s := by simp [takeOver, *]

@[simp] theorem takeoverRound_storage (s : State) : storage (takeoverRound s) = storage s :=
  by simp [takeoverRound, *]

@[simp] theorem leaseExpiry_storage (s : State) : storage (leaseExpiry s) = storage s := by simp [leaseExpiry, *]

@[simp] theorem twinLinkLost_storage (s : State) : storage (twinLinkLost s) = storage s := by simp [twinLinkLost, *]

@[simp] theorem laneLoss_storage (s : State) : storage (laneLoss s) = storage s := by simp [laneLoss, *]

@[simp] theorem isoRejoin_storage (s : State) : storage (isoRejoin s) = storage s := by simp [isoRejoin, *]

@[simp] theorem isolatedTimeout_storage (s : State) : storage (isolatedTimeout s) = storage s :=
  by simp [isolatedTimeout, *]

@[simp] theorem hbreq_storage (s : State) : storage (hbreq s) = storage s := by simp [hbreq, *]

@[simp] theorem modWaiting_storage (f : List HostCmd → List HostCmd) (s : State) : storage (modWaiting f s)
    = storage s := by simp [modWaiting, *]

@[simp] theorem dropUnsure_storage (s : State) : storage (dropUnsure s) = storage s := by simp [dropUnsure, *]

@[simp] theorem handbackRound_storage (s : State) : storage (handbackRound s) = storage s :=
  by simp [handbackRound, *]

@[simp] theorem handbackEnd_storage (s : State) : storage (handbackEnd s) = storage s := by simp [handbackEnd, *]

theorem yieldCmd_storage (s : State) (t : State) (ht : yieldCmd s = some t) : storage t = storage s :=
  by unfold yieldCmd at ht; (repeat' split at ht) <;> (try simp at ht) <;> (try subst ht) <;> simp [*]

theorem rejoinCmd_storage (s : State) (t : State) (ht : rejoinCmd s = some t) : storage t = storage s :=
  by unfold rejoinCmd at ht; (repeat' split at ht) <;> (try simp at ht) <;> (try subst ht) <;> simp [*]

theorem inhibitCmd_storage (v : Bool) (s : State) (t : State) (ht : inhibitCmd v s = some t) : storage t
    = storage s :=
  by unfold inhibitCmd at ht; (repeat' split at ht) <;> (try simp at ht) <;> (try subst ht) <;> simp [*]

theorem twCommand_storage (c : Nat) (s : State) (t : State) (ht : twCommand c s = some t) : storage t = storage s := by
  unfold twCommand at ht; (repeat' split at ht)
  · exact yieldCmd_storage _ _ ht
  · exact rejoinCmd_storage _ _ ht
  · exact inhibitCmd_storage _ _ _ ht
  · exact inhibitCmd_storage _ _ _ ht
  · cases ht

@[simp] theorem twAct_storage (c : Nat) (s : State) : storage (twAct c s) = storage s :=
  by exact storage_optD _ (fun t h => twCommand_storage c s t h) (by simp)

@[simp] theorem forward_storage (seq : Word) (src : Nat) (body : List Byte) (s : State) : storage
    (forward seq src body s) = storage s := by simp [forward, *]

@[simp] theorem tcmdReceived_storage (r : LaneSlot) (s : State) : storage (tcmdReceived r s) = storage s :=
  by unfold tcmdReceived; (repeat' split) <;> simp [*]

@[simp] theorem tconfReceived_storage (r : LaneSlot) (s : State) : storage (tconfReceived r s) = storage s :=
  by unfold tconfReceived; (repeat' split) <;> simp [*]

@[simp] theorem voidHand_storage (s : State) : storage (voidHand s) = storage s := by
  simp [voidHand, *]

@[simp] theorem tconfTimeout_storage (seq : Word) (s : State) : storage (tconfTimeout seq s) = storage s :=
  by simp [tconfTimeout, *]

@[simp] theorem tcommitReceived_storage (r : LaneSlot) (s : State) : storage (tcommitReceived r s) = storage s := by
  unfold tcommitReceived
  repeat' split
  · rfl
  · apply storage_forAll; intro q t
    (repeat' split) <;> simp
  · rfl

@[simp] theorem setCasc_storage (st : Nat) (s : State) : storage (setCasc st s) = storage s := by simp [setCasc, *]

@[simp] theorem repeatCasc_storage (r : LaneSlot) (s : State) : storage (repeatCasc r s) = storage s :=
  by simp [repeatCasc, *]

@[simp] theorem takeCmark_storage (r : LaneSlot) (s : State) : storage (takeCmark r s) = storage s :=
  by simp [takeCmark, *]

@[simp] theorem cmarkReceived_storage (r : LaneSlot) (s : State) : storage (cmarkReceived r s) = storage s :=
  by simp [cmarkReceived, *]

@[simp] theorem startTimer_storage (s : State) : storage (startTimer s) = storage s := by
  unfold startTimer; split <;> simp [*]

@[simp] theorem csyncEdge_storage (ofs : Int) (s : State) : storage (csyncEdge ofs s) = storage s :=
  by simp [csyncEdge, *]

@[simp] theorem csyncLost_storage (s : State) : storage (csyncLost s) = storage s := by simp [csyncLost, *]

@[simp] theorem cwaitExpiry_storage (s : State) : storage (cwaitExpiry s) = storage s := by simp [cwaitExpiry, *]

@[simp] theorem cascOff_storage (s : State) : storage (cascOff s) = storage s := by simp [cascOff, *]

@[simp] theorem takeCxp_storage (r : LaneSlot) (s : State) : storage (takeCxp r s) = storage s := by simp [takeCxp, *]

@[simp] theorem cxpReceived_storage (r : LaneSlot) (s : State) : storage (cxpReceived r s) = storage s :=
  by simp [cxpReceived, *]

@[simp] theorem cascListen_storage (s : State) : storage (cascListen s) = storage s := by simp [cascListen, *]

/-! ### RetireCmd -/

@[simp] theorem backoffEffect_storage (cls idx : Nat) (s : State) : storage (backoffEffect cls idx s) = storage s :=
  by simp [backoffEffect, *]

@[simp] theorem backoffEnd_storage (cls idx : Nat) (s : State) : storage (backoffEnd cls idx s) = storage s :=
  by simp [backoffEnd, *]

@[simp] theorem nodeRelease_storage (n : Nat) (s : State) : storage (nodeRelease n s) = storage s :=
  by simp [nodeRelease, *]

@[simp] theorem releaseCore_storage (cls idx : Nat) (s : State) : storage (releaseCore cls idx s) = storage s :=
  by simp [releaseCore, *]

@[simp] theorem releaseChannel_storage (cls idx : Nat) (s : State) : storage (releaseChannel cls idx s) = storage s :=
  by simp [releaseChannel, *]

@[simp] theorem rtrelWrite_storage (m : Master) (w : Word) (s : State) : storage (rtrelWrite m w s) = storage s :=
  by simp [rtrelWrite, *]

end Sys2Proof.Machine
end

