-- ==== Sys2Proof/Laws/StorageBoot.lean ====
section
/-! SUPPORT. What the operations of the recorder, images, boot and power do to the queue, SRAM, flash and fuse cells: nothing, or what keeps them well formed. -/

set_option linter.unusedSimpArgs false

namespace Sys2Proof.Machine

/-! ### Recorder -/

@[simp] theorem modRcd_storage (f : Recorder → Recorder) (s : State) : storage (modRcd f s) = storage s :=
  by simp [modRcd, *]

theorem flashPut_storage (s0 : State) (a : Nat) (bs : List Byte) (s : State) (hK : Storage.Kept (storage s0)
    (storage s)) : Storage.Kept (storage s0) (storage (flashPut a bs s)) :=
  by exact ⟨hK.1, hK.2.1, fun x => mblock_wf _ _ _ _ (hK.2.2.1 x), hK.2.2.2⟩

theorem flashErase_storage (s0 : State) (a n : Nat) (s : State) (hK : Storage.Kept (storage s0) (storage s))
    : Storage.Kept (storage s0) (storage (flashErase a n s)) :=
  by exact ⟨hK.1, hK.2.1, fun x => merase_wf _ _ _ _ (hK.2.2.1 x), hK.2.2.2⟩

theorem clearHist_storage (s0 : State) (q : Nat) (s : State) (hK : Storage.Kept (storage s0) (storage s))
    : Storage.Kept (storage s0) (storage (clearHist q s)) := by
  unfold clearHist; (try dsimp only)
  repeat' (first | with_reducible exact hK | with_reducible assumption | with_reducible apply memPut_storage
                 | with_reducible apply kept_ite | with_reducible apply kept_forAll
                 | with_reducible apply kept_foldl | with_reducible apply kept_onlyIf | intro _
                 | simp only [storage_mk, storage_fold, storage_iteapp, and_self, implies_true]
                 | (dsimp only; split) | split | (simp; done))

theorem clearCone_storage (s0 : State) (c : Nat) (s : State) (hK : Storage.Kept (storage s0) (storage s))
    : Storage.Kept (storage s0) (storage (clearCone c s)) := by
  unfold clearCone; (try dsimp only)
  repeat' (first | with_reducible exact hK | with_reducible assumption | with_reducible apply memPut_storage
                 | with_reducible apply kept_ite | with_reducible apply kept_forAll
                 | with_reducible apply kept_foldl | with_reducible apply kept_onlyIf | intro _
                 | simp only [storage_mk, storage_fold, storage_iteapp, and_self, implies_true]
                 | (dsimp only; split) | split | (simp; done))

theorem recHead_storage (s0 : State) (a : Nat) (s : State) (hK : Storage.Kept (storage s0) (storage s))
    : Storage.Kept (storage s0) (storage (recHead a s)) := by
  unfold recHead; (try dsimp only)
  repeat' (first | with_reducible exact hK | with_reducible assumption | with_reducible apply eccLoad_storage
                 | with_reducible apply memPutW_storage | with_reducible apply eccRead_storage
                 | with_reducible apply kept_ite | with_reducible apply kept_forAll
                 | with_reducible apply kept_foldl | with_reducible apply kept_onlyIf | intro _
                 | simp only [storage_mk, storage_fold, storage_iteapp, and_self, implies_true]
                 | (dsimp only; split) | split | (simp; done))

theorem histTake_storage (s0 : State) (q : Nat) (x : F32) (s : State) (hK : Storage.Kept (storage s0) (storage s))
    : Storage.Kept (storage s0) (storage (histTake q x s)) := by
  unfold histTake; (try dsimp only)
  repeat' (first | with_reducible exact hK | with_reducible assumption | with_reducible apply recHead_storage
                 | with_reducible apply eccLoad_storage | with_reducible apply memPutW_storage
                 | with_reducible apply kept_ite | with_reducible apply kept_forAll
                 | with_reducible apply kept_foldl | with_reducible apply kept_onlyIf | intro _
                 | simp only [storage_mk, storage_fold, storage_iteapp, and_self, implies_true]
                 | (dsimp only; split) | split | (simp; done))

theorem exceed_storage (s0 : State) (c : Nat) (lo : Bool) (x : F32) (s : State) (hK : Storage.Kept (storage s0)
    (storage s)) : Storage.Kept (storage s0) (storage (exceed c lo x s)) := by
  unfold exceed; (try dsimp only)
  repeat' (first | with_reducible exact hK | with_reducible assumption | with_reducible apply memPut_storage
                 | with_reducible apply kept_ite | with_reducible apply kept_forAll
                 | with_reducible apply kept_foldl | with_reducible apply kept_onlyIf | intro _
                 | simp only [storage_mk, storage_fold, storage_iteapp, and_self, implies_true, raise_storage, modRcd_storage] | (dsimp only; split) | split | (simp; done))

@[simp] theorem listFull_storage (s : State) : storage (listFull s) = storage s := by simp [listFull, *]

theorem bandCheck_storage (s0 : State) (c : Nat) (x : F32) (s : State) (hK : Storage.Kept (storage s0) (storage s))
    : Storage.Kept (storage s0) (storage (bandCheck c x s)) := by
  unfold bandCheck; (try dsimp only)
  repeat' (first | with_reducible exact hK | with_reducible assumption | with_reducible apply exceed_storage
                 | with_reducible apply kept_ite | with_reducible apply kept_forAll
                 | with_reducible apply kept_foldl | with_reducible apply kept_onlyIf | intro _
                 | simp only [storage_mk, storage_fold, storage_iteapp, and_self, implies_true, listFull_storage, modRcd_storage] | (dsimp only; split) | split | (simp; done))

theorem coneTake_storage (s0 : State) (c : Nat) (x : F32) (s : State) (hK : Storage.Kept (storage s0) (storage s))
    : Storage.Kept (storage s0) (storage (coneTake c x s)) := by
  unfold coneTake; (try dsimp only)
  repeat' (first | with_reducible exact hK | with_reducible assumption | with_reducible apply eccLoad_storage
                 | with_reducible apply recHead_storage | with_reducible apply memPutW_storage
                 | with_reducible apply memPut_storage | with_reducible apply bandCheck_storage
                 | with_reducible apply kept_ite | with_reducible apply kept_forAll
                 | with_reducible apply kept_foldl | with_reducible apply kept_onlyIf | intro _
                 | simp only [storage_mk, storage_fold, storage_iteapp, and_self, implies_true]
                 | (dsimp only; split) | split | (simp; done))

theorem recTake_storage (s0 : State) (w : Word) (f : F32 → State → State) (s : State) (hK : Storage.Kept
    (storage s0) (storage s)) (hf : ∀ x t, Storage.Kept (storage s0) (storage t) → Storage.Kept (storage s0)
    (storage (f x t))) : Storage.Kept (storage s0) (storage (recTake w f s)) := by
  unfold recTake
  split
  · extract_lets t x
    have ht : Storage.Kept (storage s0) (storage t) := by
      simp only [t]; split
      · exact eccRead_storage _ _ _ hK
      · exact hK
    clear_value t
    split
    · exact hf _ _ ht
    · simpa using ht
  · exact hK

theorem recSample_storage (s0 : State) (s : State) (hK : Storage.Kept (storage s0) (storage s)) : Storage.Kept
    (storage s0) (storage (recSample s)) := by
  unfold recSample
  split
  · exact hK
  · refine kept_forAll _ _ _ _ (kept_forAll _ _ _ _ hK ?_) ?_ <;> intro x t ht <;>
      refine recTake_storage _ _ _ _ ht ?_ <;> intro y u hu
    · exact histTake_storage _ _ _ _ hu
    · exact coneTake_storage _ _ _ _ hu

theorem stamp_storage (s0 : State) (kind : Nat) (s : State) (hK : Storage.Kept (storage s0) (storage s))
    : Storage.Kept (storage s0) (storage (stamp kind s)) := by
  unfold stamp; (try dsimp only)
  repeat' (first | with_reducible exact hK | with_reducible assumption | with_reducible apply flashPut_storage
                 | with_reducible apply flashErase_storage | with_reducible apply kept_ite
                 | with_reducible apply kept_forAll | with_reducible apply kept_foldl
                 | with_reducible apply kept_onlyIf | intro _
                 | simp only [storage_mk, storage_fold, storage_iteapp, and_self, implies_true, modRcd_storage]
                 | (dsimp only; split) | split | (simp; done))

@[simp] theorem startSave_storage (s : State) : storage (startSave s) = storage s := by simp [startSave, *]

theorem saveComplete_storage (s0 : State) (ok : Bool) (s : State) (hK : Storage.Kept (storage s0) (storage s))
    : Storage.Kept (storage s0) (storage (saveComplete ok s)) := by
  unfold saveComplete; (try dsimp only)
  repeat' (first | with_reducible exact hK | with_reducible assumption | with_reducible apply flashPut_storage
                 | with_reducible apply kept_ite | with_reducible apply kept_forAll
                 | with_reducible apply kept_foldl | with_reducible apply kept_onlyIf | intro _
                 | simp only [storage_mk, storage_fold, storage_iteapp, and_self, implies_true, modRcd_storage, raise_storage, startSave_storage] | (dsimp only; split) | split | (simp; done))

theorem loadCopy_storage (s0 : State) (a k : Nat) (q : Word) (s : State) (hK : Storage.Kept (storage s0)
    (storage s)) : Storage.Kept (storage s0) (storage (loadCopy a k q s)) := by
  unfold loadCopy
  rw [modRcd_storage]
  exact ⟨hK.1, fun x => mblock_wf _ _ _ _ (hK.2.1 x), hK.2.2⟩

theorem loadBlank_storage (s0 : State) (s : State) (hK : Storage.Kept (storage s0) (storage s)) : Storage.Kept
    (storage s0) (storage (loadBlank s)) := by
  unfold loadBlank
  rw [raise_storage, modRcd_storage]
  refine kept_forAll _ _ _ _ ⟨hK.1, fun x => merase_wf _ _ _ _ (hK.2.1 x), hK.2.2⟩ ?_
  intro c t ht
  exact memPut_storage _ _ _ _ ht

theorem memBlock_storage (s0 s : State) (a : Nat) (bs : List Byte) (hK : Storage.Kept (storage s0) (storage s)) :
    Storage.Kept (storage s0) (storage { s with mem := mblock 0 s.mem a bs }) :=
  ⟨hK.1, fun x => mblock_wf _ _ _ _ (hK.2.1 x), hK.2.2⟩

theorem recLoad_storage (s0 : State) (s : State) (hK : Storage.Kept (storage s0) (storage s)) : Storage.Kept
    (storage s0) (storage (recLoad s)) := by
  unfold recLoad; dsimp only
  refine stamp_storage _ _ _ ?_
  rw [modRcd_storage]
  refine memBlock_storage _ _ _ _ ?_
  split
  · exact loadCopy_storage _ _ _ _ _ hK
  · exact loadBlank_storage _ _ hK

@[simp] theorem poweredHour_storage (s : State) : storage (poweredHour s) = storage s := by simp [poweredHour, *]

@[simp] theorem poweredSecond_storage (s : State) : storage (poweredSecond s) = storage s :=
  by simp [poweredSecond, *]

@[simp] theorem rcResult_storage (cmd res : Nat) (s : State) : storage (rcResult cmd res s) = storage s :=
  by simp [rcResult, *]

@[simp] theorem rcPwd_storage (len : Nat) (s : State) : storage (rcPwd len s) = storage s := by simp [rcPwd, *]

theorem rcClear_storage (s0 : State) (src : Source) (scope : Nat) (ok : Bool) (s : State) (hK : Storage.Kept
    (storage s0) (storage s)) : Storage.Kept (storage s0) (storage (rcClear src scope ok s)) := by
  unfold rcClear; (try dsimp only)
  repeat' (first | with_reducible exact hK | with_reducible assumption | with_reducible apply flashPut_storage
                 | with_reducible apply memPut_storage | with_reducible apply kept_ite
                 | with_reducible apply kept_forAll | with_reducible apply kept_foldl
                 | with_reducible apply kept_onlyIf | intro _
                 | simp only [storage_mk, storage_fold, storage_iteapp, and_self, implies_true, rcResult_storage, modRcd_storage] | (dsimp only; split) | split | (simp; done))

theorem rcApplyClear_storage (s0 : State) (s : State) (hK : Storage.Kept (storage s0) (storage s)) : Storage.Kept
    (storage s0) (storage (rcApplyClear s)) := by
  unfold rcApplyClear; (try dsimp only)
  repeat' (first | with_reducible exact hK | with_reducible assumption | with_reducible apply clearHist_storage
                 | with_reducible apply clearCone_storage | with_reducible apply kept_ite
                 | with_reducible apply kept_forAll | with_reducible apply kept_foldl
                 | with_reducible apply kept_onlyIf | intro _
                 | simp only [storage_mk, storage_fold, storage_iteapp, and_self, implies_true, modRcd_storage, raise_storage, startSave_storage] | (dsimp only; split) | split | (simp; done))

@[simp] theorem rcSave_storage (s : State) : storage (rcSave s) = storage s := by simp [rcSave, *]

@[simp] theorem rcLock_storage (s : State) : storage (rcLock s) = storage s := by simp [rcLock, *]

theorem rcCommand_storage (s0 : State) (src : Source) (w : Word) (s : State) (hK : Storage.Kept (storage s0)
    (storage s)) : Storage.Kept (storage s0) (storage (rcCommand src w s)) := by
  unfold rcCommand; (try dsimp only)
  repeat' (first | with_reducible exact hK | with_reducible assumption | with_reducible apply rcClear_storage
                 | with_reducible apply kept_ite | with_reducible apply kept_forAll
                 | with_reducible apply kept_foldl | with_reducible apply kept_onlyIf | intro _
                 | simp only [storage_mk, storage_fold, storage_iteapp, and_self, implies_true, rcPwd_storage, rcSave_storage, rcLock_storage, rcResult_storage] | (dsimp only; split) | split | (simp; done))

@[simp] theorem rcMs_storage (s : State) : storage (rcMs s) = storage s := by simp [rcMs, *]

/-! ### Verify -/

@[simp] theorem withSkim_storage (s : State) (ch : Option Nat) : storage (withSkim s ch) = storage s :=
  by simp [withSkim, *]

@[simp] theorem dropBeyond_storage (s : State) : storage (dropBeyond s) = storage s := by simp [dropBeyond, *]

/-! ### Boot -/

theorem imageStore_wf (a : Nat) (w : Word) (s t : State) (h : imageStore a w s = some t) (hs : Memory.wf 0 s.mem)
    : Memory.wf 0 t.mem := by
  unfold imageStore at h; dsimp only at h
  repeat' split at h
  all_goals first | (cases h; done) | (cases h; exact mwrite_wf _ _ _ _ hs) | (cases h; exact hs)

theorem imageStores_wf : ∀ (ws : List Word) (a : Nat) (s t : State), imageStores a ws s = some t
    → Memory.wf 0 s.mem → Memory.wf 0 t.mem := by
  intro ws
  induction ws with
  | nil => intro a s t h hs; unfold imageStores at h; cases h; exact hs
  | cons w ws ih =>
    intro a s t h hs
    unfold imageStores at h
    rcases Option.bind_eq_some_iff.1 h with ⟨u, hu, ht⟩
    exact ih _ _ _ ht (imageStore_wf _ _ _ _ hu hs)

@[simp] theorem modBoot_storage (f : Boot → Boot) (s : State) (h : ∀ b, (f b).flash = b.flash ∧ (f b).fuseCells
    = b.fuseCells) : storage (modBoot f s) = storage s := by
  show Storage.mk _ _ _ _ = Storage.mk _ _ _ _; simp [modBoot, h]

theorem applyRecord_wf (i ty : Nat) (isLocal : Bool) (v : List Byte) (l m : Load) (h : applyRecord i ty isLocal v l
    = some m)
    (hl : Memory.wf 0 l.st.mem) : Memory.wf 0 m.st.mem := by
  unfold applyRecord at h; dsimp only at h
  split at h
  · cases h
  · split at h
    · split at h <;> cases h; exact hl
    · split at h
      · cases h
        have : ∀ (ks : List Nat) (g : Nat → Word) (s : State), Memory.wf 0 s.mem → Memory.wf 0 (forAll ks (fun k (s : State) => { s with cfg := tset s.cfg (0x80000000 + 4 * k) (g k) }) s).mem := by
          intro ks g
          induction ks with
          | nil => intro s h; exact h
          | cons k ks ih => intro s h; exact ih { s with cfg := tset s.cfg (0x80000000 + 4 * k) (g k) } h
        exact this _ _ _ hl
      · cases h
    · split at h
      · rcases Option.map_eq_some_iff.1 h with ⟨s, hs, rfl⟩
        exact imageStores_wf _ _ _ _ hs hl
      · cases h
    · split at h
      · rcases Option.map_eq_some_iff.1 h with ⟨s, hs, rfl⟩
        exact imageStores_wf _ _ _ _ hs hl
      · cases h
    · split at h <;> cases h; exact hl
    · cases h

theorem readRecords_wf (rd : Nat → Byte) (len : Nat) : ∀ (k i o : Nat) (l m : Load), readRecords rd len k i o l
    = .good m →
    Memory.wf 0 l.st.mem → Memory.wf 0 m.st.mem := by
  intro k
  induction k with
  | zero => intro i o l m h hl; unfold readRecords at h; split at h <;> cases h; exact hl
  | succ k ih =>
    intro i o l m h hl
    unfold readRecords at h; dsimp only at h
    split at h
    · cases h
    · split at h
      · cases h
      · split at h
        · cases h
        · split at h
          · cases h
          · rename_i heq
            refine ih _ _ _ _ h ?_
            have := applyRecord_wf _ _ _ _ _ _ heq hl
            split <;> exact this

theorem verifySlot_wf (base : State) (rd : Nat → Byte) (d : Nat) (err : Bool) (v : Verified)
    (h : verifySlot base rd d err = .good v) (hb : Memory.wf 0 base.mem) : Memory.wf 0 v.load.st.mem := by
  unfold verifySlot at h
  split at h
  · cases h
  split at h
  · cases h
  split at h
  · cases h
  rename_i l heq
  split at h
  · cases h
  extract_lets q at h
  split at h
  · cases h; exact (readRecords_wf _ _ _ _ _ _ _ heq hb : Memory.wf 0 l.st.mem = true)
  · cases h

@[simp] theorem slotFailed_storage (k code rec : Nat) (s : State) : storage (slotFailed k code rec s) = storage s :=
  by unfold slotFailed; (repeat' split) <;> simp [*]

theorem installImage_storage (s0 : State) (k : Nat) (rc : Tab RetCfg) (v : Verified) (s : State) (hv
    : Memory.wf 0 v.load.st.mem) (hK : Storage.Kept (storage s0) (storage s)) : Storage.Kept (storage s0) (storage
    (installImage k rc v s)) := by
  have h1 : Storage.Kept (storage s0) (storage (imageState k rc v s)) := ⟨hK.1, fun _ => hv, hK.2.2⟩
  unfold installImage; dsimp only
  rw [modBoot_storage]
  · refine recLoad_storage _ _ ?_
    rw [storage_forAll]
    · exact h1
    · intro a t; simp
  · intro b; simp

@[simp] theorem noImage_storage (s : State) : storage (noImage s) = storage s := by simp [noImage, *]

theorem bootSequence_storage (s0 : State) (b : BootObs) (s : State) (hK : Storage.Kept (storage s0) (storage s))
    : Storage.Kept (storage s0) (storage (bootSequence b s)) := by
  unfold bootSequence
  split
  · exact hK
  · extract_lets q
    have hq : storage q = storage s := by simp [q]
    split
    · simp [hq, hK]
    · split
      · split
        · rename_i h
          exact installImage_storage _ _ _ _ _ (verifySlot_wf _ _ _ _ _ h rfl) (by rw [hq]; exact hK)
        · extract_lets t1
          have ht : storage t1 = storage s := by simp [t1, hq]
          split
          · rename_i h
            exact installImage_storage _ _ _ _ _ (verifySlot_wf _ _ _ _ _ h rfl) (by simp [ht, hK])
          · simp [ht, hK]
      · rw [hq]; exact hK

@[simp] theorem coresStart_storage (s : State) : storage (coresStart s) = storage s := by simp [coresStart, *]

@[simp] theorem bootInfo_storage (s : State) : storage (bootInfo s) = storage s := by simp [bootInfo, *]

@[simp] theorem bootComplete_storage (s : State) : storage (bootComplete s) = storage s := by simp [bootComplete, *]

@[simp] theorem imageCmd_storage (cmd slot nw : Nat) (ws : List Word) (s : State) : storage
    (imageCmd cmd slot nw ws s) = storage s := by simp [imageCmd, *]

@[simp] theorem imgcmd_storage (m : Master) (cmd slot nw : Nat) (s : State) : storage (imgcmd m cmd slot nw s)
    = storage s := by simp [imgcmd, *]

theorem programBytes_storage (s0 : State) (k : Nat) (bs : List Byte) (s : State) (hK : Storage.Kept (storage s0)
    (storage s)) : Storage.Kept (storage s0) (storage (programBytes k bs s)) := by
  unfold programBytes; (try dsimp only)
  repeat' (first | with_reducible exact hK | with_reducible assumption | with_reducible apply flashPut_storage
                 | with_reducible apply kept_ite | with_reducible apply kept_forAll
                 | with_reducible apply kept_foldl | with_reducible apply kept_onlyIf | intro _
                 | simp only [storage_mk, storage_fold, storage_iteapp, and_self, implies_true, modBoot_storage]
                 | (dsimp only; split) | split | (simp; done))

theorem verifyOutcome_storage (s0 : State) (k : Nat) (x : Verdict Verified) (s : State) (hK : Storage.Kept
    (storage s0) (storage s)) : Storage.Kept (storage s0) (storage (verifyOutcome k x s)) := by
  unfold verifyOutcome; split
  · simpa using hK
  · split
    · rw [modBoot_storage]
      · exact flashPut_storage _ _ _ _ hK
      · intro b; simp
    · simpa using hK

theorem verifyInactive_storage (s0 : State) (k : Nat) (rc : Tab RetCfg) (s : State) (hK : Storage.Kept (storage s0)
    (storage s)) : Storage.Kept (storage s0) (storage (verifyInactive k rc s)) :=
  by exact verifyOutcome_storage _ _ _ _ hK

theorem runImage_storage (s0 : State) (cmd k : Nat) (ws : List Word) (rc : Tab RetCfg) (s : State) (hK
    : Storage.Kept (storage s0) (storage s)) : Storage.Kept (storage s0) (storage (runImage cmd k ws rc s)) := by
  unfold runImage; (try dsimp only)
  repeat' (first | with_reducible exact hK | with_reducible assumption | with_reducible apply flashErase_storage
                 | with_reducible apply programBytes_storage | with_reducible apply verifyInactive_storage
                 | with_reducible apply kept_ite | with_reducible apply kept_forAll
                 | with_reducible apply kept_foldl | with_reducible apply kept_onlyIf | intro _
                 | simp only [storage_mk, storage_fold, storage_iteapp, and_self, implies_true, modBoot_storage]
                 | (dsimp only; split) | split | (simp; done))

theorem imageCommandDone_storage (s0 : State) (ok : Bool) (rc : Tab RetCfg) (s : State) (hK : Storage.Kept
    (storage s0) (storage s)) : Storage.Kept (storage s0) (storage (imageCommandDone ok rc s)) := by
  unfold imageCommandDone; (try dsimp only)
  repeat' (first | with_reducible exact hK | with_reducible assumption | with_reducible apply runImage_storage
                 | with_reducible apply kept_ite | with_reducible apply kept_forAll
                 | with_reducible apply kept_foldl | with_reducible apply kept_onlyIf | intro _
                 | simp only [storage_mk, storage_fold, storage_iteapp, and_self, implies_true, modBoot_storage, raise_storage] | (dsimp only; split) | split | (simp; done))

@[simp] theorem fpcmdGo_storage (m : Master) (w : Word) (vpp : Bool) (s : State) : storage (fpcmdGo m w vpp s)
    = storage s := by
  unfold fpcmdGo
  apply withRight_storage; intro t
  apply keyed_storage; intro t; dsimp only
  (repeat' split) <;> simp

theorem fuseCell_eq (s : State) (k : Nat) : fuseCell s k = tget
    (fuseDflt k) s.boot.fuseCells k := by unfold fuseCell fuseDflt; rfl

theorem fusePut_storage (s0 s : State) (o : Nat) (w : Word) (hK : Storage.Kept (storage s0) (storage s))
    (h : o < 0x20 → ∀ i, (fuseCell s o).getLsbD i → w.getLsbD i = true) :
    Storage.Kept (storage s0) (storage (modBoot (fun b => { b with fuseCells := tset b.fuseCells o w }) s)) := by
  refine ⟨hK.1, hK.2.1, hK.2.2.1, ?_⟩
  intro k hk i hi
  have := hK.2.2.2 k hk i hi
  show (tget (fuseDflt k) (tset s.boot.fuseCells o w) k).getLsbD i = true
  rw [tget_tset]
  split
  · subst_vars
    exact h hk i (by rw [fuseCell_eq]; exact this)
  · exact this

theorem fuseWrite_storage (s0 : State) (ok : Bool) (s : State) (hK : Storage.Kept (storage s0) (storage s))
    : Storage.Kept (storage s0) (storage (fuseWrite ok s)) := by
  unfold fuseWrite; dsimp only
  split
  · apply kept_forAll _ _ _ _ hK
    intro i t ht
    refine fusePut_storage _ _ _ _ ?_ (fun h => ?_)
    · split
      · exact ht
      · rw [State_tick_storage]; exact ht
    · omega
  · refine fusePut_storage _ _ _ _ ?_ (fun h i hi => ?_)
    · split
      · exact hK
      · rw [State_tick_storage]; exact hK
    · have : fuseCell (if ok = true then s else s.tick) (fuseField s.boot.fpField).fst = fuseCell s (fuseField s.boot.fpField).fst := by
        split <;> rfl
      rw [this] at hi
      simp [hi]

theorem fuseProgramDone_storage (s0 : State) (ok : Bool) (s : State) (hK : Storage.Kept (storage s0) (storage s))
    : Storage.Kept (storage s0) (storage (fuseProgramDone ok s)) := by
  unfold fuseProgramDone
  split
  · exact hK
  · extract_lets s1
    have h1 := fuseWrite_storage s0 ok s hK
    have e : storage (modBoot (fun b => { b with fpBusy := false, fpResult := if ok = true then 1 else 7, fuseCells := tset b.fuseCells 0x18 (BitVec.ofNat 32 (setBit (fuseCell s1 0x18).toNat b.fpField true)) }) s1)
        = storage (modBoot (fun b => { b with fuseCells := tset b.fuseCells 0x18 (BitVec.ofNat 32 (setBit (fuseCell s1 0x18).toNat s1.boot.fpField true)) }) s1) := rfl
    rw [e]
    refine fusePut_storage _ _ _ _ h1 (fun h i hi => ?_)
    have hlt : i < 32 := BitVec.lt_of_getLsbD hi
    simp [setBit, hlt]
    left; exact hi

/-! ### Power -/

@[simp] theorem modSys_storage (f : Sys → Sys) (s : State) : storage (modSys f s) = storage s := by simp [modSys, *]

@[simp] theorem setPower_storage (p : PwrState) (s : State) : storage (setPower p s) = storage s :=
  by simp [setPower, *]

@[simp] theorem deepRequest_storage (s : State) : storage (deepRequest s) = storage s := by simp [deepRequest, *]

theorem dipStamp_storage (s0 : State) (s : State) (hK : Storage.Kept (storage s0) (storage s)) : Storage.Kept
    (storage s0) (storage (dipStamp s)) := by
  have h := stamp_storage s0 2 s hK
  simpa [dipStamp] using h

theorem supplyWarning_storage (s0 : State) (rail : Rail) (mv : Nat) (s : State) (hK : Storage.Kept (storage s0)
    (storage s)) : Storage.Kept (storage s0) (storage (supplyWarning rail mv s)) := by
  unfold supplyWarning; (try dsimp only)
  repeat' (first | with_reducible exact hK | with_reducible assumption | with_reducible apply dipStamp_storage
                 | with_reducible apply kept_ite | with_reducible apply kept_forAll
                 | with_reducible apply kept_foldl | with_reducible apply kept_onlyIf | intro _
                 | simp only [storage_mk, storage_fold, storage_iteapp, and_self, implies_true, modSys_storage, wakeFrom_storage, raise_storage] | (dsimp only; split) | split | (simp; done))

@[simp] theorem supplyClear_storage (core aon : DipObs) (s : State) : storage (supplyClear core aon s) = storage s :=
  by simp [supplyClear, *]

@[simp] theorem deferralEnd_storage (s : State) : storage (deferralEnd s) = storage s := by simp [deferralEnd, *]

theorem resetHead_storage (s0 : State) (cause : Nat) (s : State) (hK : Storage.Kept (storage s0) (storage s))
    : Storage.Kept (storage s0) (storage (resetHead cause s)) := by exact ⟨hK.1, fun _ => rfl, hK.2.2⟩

@[simp] theorem resetRelease_storage (pref casc oct : Bool) (s : State) : storage (resetRelease pref casc oct s)
    = storage s := by simp [resetRelease, *]

@[simp] theorem wdKick_storage (w : Word) (s : State) : storage (wdKick w s) = storage s := by simp [wdKick, *]

end Sys2Proof.Machine
end

