-- ==== Sys2Proof/Laws/StorageLadle.lean ====
section
/-! SUPPORT. What the operations of register writes and the Ladle cores do to the queue, SRAM, flash and fuse cells: nothing, or what keeps them well formed. -/

set_option linter.unusedSimpArgs false

namespace Sys2Proof.Machine

/-! ### Views -/

@[simp] theorem groupShown_storage (s : State) (g : Nat) : storage (groupShown s g) = storage s :=
  by simp [groupShown, *]

@[simp] theorem readWord_storage (m : Master) (a : Nat) (s : State) : storage (readWord m a s).1 = storage s :=
  by unfold readWord; (repeat' split) <;> simp [*]

/-! ### LadleCore -/

@[simp] theorem restartCore_storage (c : Nat) (s : State) : storage (restartCore c s) = storage s :=
  by simp [restartCore, *]

@[simp] theorem stopCore_storage (c : Nat) (s : State) : storage (stopCore c s) = storage s := by simp [stopCore, *]

theorem ldCommand_storage (m : Master) (cmd c : Nat) (s : State) (t : State) (ht : ldCommand m cmd c s = some t)
    : storage t = storage s :=
  by unfold ldCommand at ht; (repeat' split at ht) <;> (try simp at ht) <;> (try subst ht) <;> simp [*]

@[simp] theorem ldAct_storage (m : Master) (cmd c : Nat) (s : State) : storage (ldAct m cmd c s) = storage s :=
  by exact storage_optD _ (fun t h => ldCommand_storage m cmd c s t h) (by simp)

@[simp] theorem mboxWrite_storage (v : Word) (s : State) : storage (mboxWrite v s) = storage s :=
  by simp [mboxWrite, *]

@[simp] theorem sliceOverrun_storage (c : Nat) (s : State) : storage (sliceOverrun c s) = storage s :=
  by unfold sliceOverrun; (repeat' split) <;> simp [*]

/-! ### RegWrite -/

@[simp] theorem wIgnored_storage (s : State) : storage (wIgnored s).1 = storage s := by simp [wIgnored, *]

@[simp] theorem wAccess_storage (s : State) : storage (wAccess s).1 = storage s := by simp [wAccess, *]

@[simp] theorem wDone_storage (s : State) : storage (wDone s).1 = storage s := by simp [wDone, *]

theorem wKeyed_k (s0 : State) (w : Word) (f : State → State × WRes) (s : State) (hK : Storage.Kept (storage s0)
    (storage s)) (h : ∀ t, Storage.Kept (storage s0) (storage t) → Storage.Kept (storage s0) (storage (f t).1))
    : Storage.Kept (storage s0) (storage (wKeyed w f s).1) := by
  unfold wKeyed; split
  · exact h s hK
  · simpa [wDone] using hK

theorem wTry_storage (o : Option State) (s : State) (h : ∀ t, o = some t → storage t = storage s) : storage
    (wTry o s).1 = storage s := by
  unfold wTry; split
  · exact h _ rfl
  · simp

@[simp] theorem wCode_storage (code : Nat) (s : State) : storage (wCode code s).1 = storage s := by simp [wCode, *]

@[simp] theorem wKeyed_storage (w : Word) (f : State → State × WRes) (s : State) (h : ∀ t, storage (f t).1
    = storage t) : storage (wKeyed w f s).1 = storage s := by
  unfold wKeyed; split
  · exact h s
  · simp [wDone]

theorem sramWrite_storage (s0 : State) (m : Master) (a : Nat) (bs : List Byte) (s : State) (hK : Storage.Kept
    (storage s0) (storage s)) : Storage.Kept (storage s0) (storage ((sramWrite m a bs s).1)) := by
  unfold sramWrite; (try dsimp only)
  repeat' (first | with_reducible exact hK | with_reducible assumption | with_reducible apply memPut_storage
                 | with_reducible apply kept_ite | with_reducible apply kept_forAll
                 | with_reducible apply kept_foldl | with_reducible apply kept_onlyIf | intro _
                 | simp only [storage_mk, storage_fold, storage_iteapp, and_self, implies_true, wDone_storage, wIgnored_storage] | (dsimp only; split) | split | (simp; done))

@[simp] theorem modStag_storage (m : Master) (o : Owner) (f : Move → Move) (s : State) : storage (modStag m o f s)
    = storage s := by simp [modStag, *]

@[simp] theorem stagWrite_storage (m : Master) (o : Owner) (i : Nat) (v : Word) (s : State) : storage
    (stagWrite m o i v s) = storage s := by unfold stagWrite; (repeat' split) <;> simp [*]

@[simp] theorem armWrite_storage (m : Master) (a k : Nat) (v : Word) (s : State) : storage (armWrite m a k v s)
    = storage s := by unfold armWrite; (repeat' split) <;> simp [*]

@[simp] theorem profWrite_storage (m : Master) (o : Owner) (k : Nat) (v : Word) (s : State) : storage
    (profWrite m o k v s).1 = storage s := by unfold profWrite; (repeat' split) <;> simp [*]

theorem axisWrite_storage (s0 : State) (m : Master) (x k : Nat) (v : Word) (s : State) (hK : Storage.Kept
    (storage s0) (storage s)) : Storage.Kept (storage s0) (storage ((axisWrite m x k v s).1)) := by
  unfold axisWrite; (try dsimp only)
  repeat' (first | with_reducible exact hK | with_reducible assumption | with_reducible apply memPutW_storage
                 | with_reducible apply kept_ite | with_reducible apply kept_forAll
                 | with_reducible apply kept_foldl | with_reducible apply kept_onlyIf | intro _
                 | simp only [storage_mk, storage_fold, storage_iteapp, and_self, implies_true, ctlSubmit_storage,
                   swapRequest_storage, wCode_storage, wDone_storage, modCtl_storage, profWrite_storage,
                   wIgnored_storage] | (dsimp only; split) | split | (simp; done))

@[simp] theorem groupWrite_storage (m : Master) (g k : Nat) (v : Word) (s : State) : storage
    (groupWrite m g k v s).1 = storage s := by unfold groupWrite; (repeat' split) <;> simp [*]

@[simp] theorem sysWrite_storage (m : Master) (o : Nat) (v : Word) (s : State) : storage (sysWrite m o v s).1
    = storage s := by
  unfold sysWrite; split
  · apply wKeyed_storage; intro t; (repeat' split) <;> simp
  · simp
  · apply wKeyed_storage; intro t; simp
  · simp
  · apply wKeyed_storage; intro t; rw [wDone_storage]; split <;> simp
  · simp

@[simp] theorem modEv_storage (f : Events → Events) (s : State) : storage (modEv f s) = storage s :=
  by simp [modEv, *]

@[simp] theorem evtWrite_storage (o : Nat) (v : Word) (s : State) : storage (evtWrite o v s).1 = storage s :=
  by unfold evtWrite; (repeat' split) <;> simp [*]

@[simp] theorem bootWrite_storage (m : Master) (o : Nat) (v : Word) (s : State) : storage (bootWrite m o v s).1
    = storage s := by
  unfold bootWrite
  split
  · apply wKeyed_storage; intro t; simp
  · (repeat' split) <;> simp

@[simp] theorem sagWrite_storage (o : Nat) (v : Word) (s : State) : storage (sagWrite o v s).1 = storage s := by
  unfold sagWrite
  split
  · apply wKeyed_storage; intro t; split <;> simp
  · (repeat' split) <;> simp

theorem recWrite_storage (s0 : State) (src : Source) (o : Nat) (v : Word) (s : State) (hK : Storage.Kept
    (storage s0) (storage s)) : Storage.Kept (storage s0) (storage ((recWrite src o v s).1)) := by
  unfold recWrite
  split
  · apply wKeyed_k _ _ _ _ hK; intro t ht; dsimp only
    rw [wCode_storage]; exact rcCommand_storage _ _ _ _ ht
  · (repeat' split) <;> simpa using hK

@[simp] theorem ladWrite_storage (m : Master) (o : Nat) (v : Word) (s : State) : storage (ladWrite m o v s).1
    = storage s := by
  unfold ladWrite
  split
  · split <;> simp
  · split
    · apply wKeyed_storage; intro t
      exact wTry_storage _ _ (fun u h => ldCommand_storage _ _ _ _ _ h)
    · (repeat' split) <;> simp

theorem unitWrite_storage (s0 : State) (m : Master) (src : Source) (r : Region) (o : Nat) (v : Word) (s : State)
    (hK : Storage.Kept (storage s0) (storage s)) : Storage.Kept (storage s0) (storage
    ((unitWrite m src r o v s).1)) := by
  unfold unitWrite
  split
  · rw [sysWrite_storage]; exact hK
  · rw [evtWrite_storage]; exact hK
  · rw [bootWrite_storage]; exact hK
  · split <;> simpa using hK
  · split
    · simpa using hK
    · split
      · dsimp only; rw [wCode_storage]; split <;> simpa using hK
      · simpa using hK
  · split
    · rw [wKeyed_storage]
      · exact hK
      · intro t; exact wTry_storage _ _ (fun u h => twCommand_storage _ _ _ h)
    · simpa using hK
  · rw [sagWrite_storage]; exact hK
  · exact recWrite_storage _ _ _ _ _ hK
  · rw [ladWrite_storage]; exact hK
  · exact axisWrite_storage _ _ _ _ _ _ hK
  · rw [groupWrite_storage]; exact hK
  · simpa using hK

theorem busWrite_storage (s0 : State) (m : Master) (src : Source) (a n : Nat) (v : Word) (s : State) (hK
    : Storage.Kept (storage s0) (storage s)) : Storage.Kept (storage s0) (storage ((busWrite m src a n v s).1)) := by
  unfold busWrite; (try dsimp only)
  repeat' (first | with_reducible exact hK | with_reducible assumption | with_reducible apply sramWrite_storage
                 | with_reducible apply memPut_storage | with_reducible apply unitWrite_storage
                 | with_reducible apply kept_ite | with_reducible apply kept_forAll
                 | with_reducible apply kept_foldl | with_reducible apply kept_onlyIf | intro _
                 | simp only [storage_mk, storage_fold, storage_iteapp, and_self, implies_true, wAccess_storage, wDone_storage, wIgnored_storage] | (dsimp only; split) | split | (simp; done))

/-! ### Ladle -/

theorem issue_k (s0 : State) (c : Nat) (trap : State → Core → Trap) (last : Core → Word) (stall : State → Core → Nat)
    (act : Core → State → State) (s : State) (hK : Storage.Kept (storage s0) (storage s))
    (ha : ∀ k t, Storage.Kept (storage s0) (storage t) → Storage.Kept (storage s0) (storage (act k t))) : Storage.Kept (storage s0) (storage (issue c trap last stall act s)) := by
  unfold issue; dsimp only
  (repeat' split) <;> (try simp only [haltCore_storage, modCore_storage, busError_storage, eccReport_storage]) <;> first | exact hK | exact ha _ _ hK

@[simp] theorem issue_storage (c : Nat) (trap : State → Core → Trap) (last : Core → Word) (stall : State → Core → Nat)
    (act : Core → State → State) (s : State) (ha : ∀ k t, storage (act k t) = storage t) : storage (issue c trap last stall act s) = storage s := by
  unfold issue; dsimp only
  (repeat' split) <;> simp [ha]

@[simp] theorem issueK_storage (c : Nat) (f : Core → Core) (s : State) : storage (issueK c f s) = storage s := by
  unfold issueK; apply issue_storage; intro k t; simp

@[simp] theorem aluOp_storage (c d : Nat) (x y : Core → Word) (f : Word → Word → Word) (fl : Core → Word → Word
    → Nat) (s : State) : storage (aluOp c d x y f fl s) = storage s := by simp [aluOp, *]

@[simp] theorem logicOp_storage (c d a b : Nat) (f : Word → Word → Word) (s : State) : storage
    (logicOp c d a b f s) = storage s := by simp [logicOp, *]

@[simp] theorem ldNop_storage (c : Nat) (s : State) : storage (ldNop c s) = storage s := by simp [ldNop, *]

@[simp] theorem ldAdd_storage (c d a b : Nat) (s : State) : storage (ldAdd c d a b s) = storage s :=
  by simp [ldAdd, *]

@[simp] theorem ldSub_storage (c d a b : Nat) (s : State) : storage (ldSub c d a b s) = storage s :=
  by simp [ldSub, *]

@[simp] theorem ldAddi_storage (c d a : Nat) (imm : BitVec 18) (s : State) : storage (ldAddi c d a imm s)
    = storage s := by simp [ldAddi, *]

@[simp] theorem ldCmp_storage (c a b : Nat) (s : State) : storage (ldCmp c a b s) = storage s := by simp [ldCmp, *]

@[simp] theorem ldShift_storage (kind c d a : Nat) (amt : ShAmt) (s : State) : storage (ldShift kind c d a amt s)
    = storage s := by simp [ldShift, *]

@[simp] theorem dataOp_storage (kind : Producer) (c d : Nat) (f : Core → Word) (s : State) : storage
    (dataOp kind c d f s) = storage s := by simp [dataOp, *]

@[simp] theorem ldPick_storage (min_ : Bool) (c d a b : Nat) (s : State) : storage (ldPick min_ c d a b s)
    = storage s := by
  unfold ldPick
  (try dsimp only)
  apply issue_storage; intro k t; (try dsimp only); (repeat' split) <;> simp

@[simp] theorem ldMac_storage (c acc a b : Nat) (md : MacMode) (s : State) : storage (ldMac c acc a b md s)
    = storage s := by simp [ldMac, *]

@[simp] theorem ldRda_storage (c d acc sh : Nat) (s : State) : storage (ldRda c d acc sh s) = storage s := by
  unfold ldRda
  (try dsimp only)
  apply issue_storage; intro k t; (try dsimp only); (repeat' split) <;> simp

@[simp] theorem loadN_storage (c a n : Nat) (s : State) : storage (loadN c a n s).1 = storage s :=
  by unfold loadN; (repeat' split) <;> simp [*]

theorem compactStore_storage (s0 : State) (a n : Nat) (v : Word) (s : State) (hK : Storage.Kept (storage s0)
    (storage s)) : Storage.Kept (storage s0) (storage (compactStore a n v s)) := by
  unfold compactStore; (try dsimp only)
  repeat' (first | with_reducible exact hK | with_reducible assumption | with_reducible apply busWrite_storage
                 | with_reducible apply kept_ite | with_reducible apply kept_forAll
                 | with_reducible apply kept_foldl | with_reducible apply kept_onlyIf | intro _
                 | simp only [storage_mk, storage_fold, storage_iteapp, and_self, implies_true, forward_storage, modCore_storage, modWaiting_storage, State_tick_storage] | (dsimp only; split) | split | (simp; done))

theorem storeN_storage (s0 : State) (c a n : Nat) (v : Word) (s : State) (hK : Storage.Kept (storage s0)
    (storage s)) : Storage.Kept (storage s0) (storage (storeN c a n v s)) := by
  unfold storeN; (try dsimp only)
  repeat' (first | with_reducible exact hK | with_reducible assumption | with_reducible apply memPut_storage
                 | with_reducible apply compactStore_storage | with_reducible apply busWrite_storage
                 | with_reducible apply kept_ite | with_reducible apply kept_forAll
                 | with_reducible apply kept_foldl | with_reducible apply kept_onlyIf | intro _
                 | simp only [storage_mk, storage_fold, storage_iteapp, and_self, implies_true, modCore_storage]
                 | (dsimp only; split) | split | (simp; done))

@[simp] theorem withCore_storage (c : Nat) (k0 : Core) (f : Core → Core) (s : State) : storage (withCore c k0 f s)
    = storage s := by simp [withCore, *]

@[simp] theorem zeroRefused_storage (c : Nat) (trap : State → Core → Trap) (dest : State → Core → List Res) (s0 s1
    : State) : storage (zeroRefused c trap dest s0 s1) = storage s1 := by
  unfold zeroRefused; dsimp only; split <;> simp

@[simp] theorem ldLoad_storage (c d p : Nat) (md : MemMode) (w : MemWidth) (s : State) : storage
    (ldLoad c d p md w s) = storage s := by
  unfold ldLoad; dsimp only; rw [zeroRefused_storage]
  apply issue_storage; intro k t; (try dsimp only); (repeat' split) <;> simp

theorem ldStore_storage (s0 : State) (c d p : Nat) (md : MemMode) (w : MemWidth) (s : State) (hK : Storage.Kept
    (storage s0) (storage s)) : Storage.Kept (storage s0) (storage (ldStore c d p md w s)) := by
  unfold ldStore
  apply issue_k _ _ _ _ _ _ _ hK; intro k t ht
  rw [withCore_storage]; exact storeN_storage _ _ _ _ _ _ ht

@[simp] theorem ldLdp_storage (c pk pj : Nat) (imm : BitVec 16) (s : State) : storage (ldLdp c pk pj imm s)
    = storage s := by
  unfold ldLdp; dsimp only; rw [zeroRefused_storage]
  apply issue_storage; intro k t; (try dsimp only); (repeat' split) <;> simp

@[simp] theorem dualOne_storage (c : Nat) (k0 : Core) (wr : List Nat) (l : Option DualLoad) (q : State × Core)
    : storage (dualOne c k0 wr l q).1 = storage q.1 := by
  unfold dualOne; split <;> simp

@[simp] theorem dualOp_storage (c : Nat) (wr : List Nat) (f : Core → Core) (x y : Option DualLoad) (s : State)
    : storage (dualOp c wr f x y s) = storage s := by
  unfold dualOp; dsimp only; rw [zeroRefused_storage]
  apply issue_storage; intro k t; simp

@[simp] theorem ldFmad_storage (c d a b : Nat) (x y : Option DualLoad) (s : State) : storage (ldFmad c d a b x y s)
    = storage s := by simp [ldFmad, *]

@[simp] theorem ldMacd_storage (c acc a b : Nat) (x y : Option DualLoad) (s : State) : storage
    (ldMacd c acc a b x y s) = storage s := by simp [ldMacd, *]

@[simp] theorem ldLd2_storage (c : Nat) (x y : Option DualLoad) (s : State) : storage (ldLd2 c x y s) = storage s :=
  by simp [ldLd2, *]

@[simp] theorem ptrOp_storage (kind : Producer) (c : Nat) (r : Res) (f : Core → Word) (s : State) : storage
    (ptrOp kind c r f s) = storage s := by simp [ptrOp, *]

@[simp] theorem branchOp_storage (c : Nat) (t : Core → Option Word) (f : Core → Core) (s : State) : storage
    (branchOp c t f s) = storage s := by
  unfold branchOp; dsimp only
  have : storage (issue c branchTrap Core.pc noStall (fun k s => modCore c (fun _ => f k) s) s) = storage s := by
    apply issue_storage; intro k t; simp
  split <;> simp [this]

@[simp] theorem ldB_storage (c : Nat) (cond : BrCond) (off : BitVec 22) (s : State) : storage (ldB c cond off s)
    = storage s := by simp [ldB, *]

@[simp] theorem ldCall_storage (c : Nat) (off : BitVec 22) (s : State) : storage (ldCall c off s) = storage s :=
  by simp [ldCall, *]

@[simp] theorem ldJr_storage (c a : Nat) (s : State) : storage (ldJr c a s) = storage s := by simp [ldJr, *]

@[simp] theorem repOp_storage (c len : Nat) (n : Core → Nat) (s : State) : storage (repOp c len n s) = storage s := by
  unfold repOp
  (try dsimp only)
  apply issue_storage; intro k t; (try dsimp only); (repeat' split) <;> simp

@[simp] theorem ldRepr_storage (c a len : Nat) (s : State) : storage (ldRepr c a len s) = storage s :=
  by simp [ldRepr, *]

@[simp] theorem ldBrk_storage (c : Nat) (s : State) : storage (ldBrk c s) = storage s := by simp [ldBrk, *]

@[simp] theorem sliceEnd_storage (c : Nat) (k : Core) (s : State) : storage (sliceEnd c k s) = storage s :=
  by unfold sliceEnd; (repeat' split) <;> simp [*]

@[simp] theorem ldWait_storage (c : Nat) (s : State) : storage (ldWait c s) = storage s := by
  unfold ldWait
  (try dsimp only)
  apply issue_storage; intro k t; (try dsimp only); (repeat' split) <;> simp

@[simp] theorem ldRti_storage (c : Nat) (s : State) : storage (ldRti c s) = storage s := by
  unfold ldRti; dsimp only
  have : storage (issue c (rtiTrap c) Core.pc noStall (fun _ s => s.tick) s) = storage s := by
    apply issue_storage; intro k t; simp
  split <;> simp [this]

@[simp] theorem ldMsr_storage (c a : Nat) (s : State) : storage (ldMsr c a s) = storage s := by simp [ldMsr, *]

@[simp] theorem ldIe_storage (v : Bool) (c : Nat) (s : State) : storage (ldIe v c s) = storage s := by simp [ldIe, *]

@[simp] theorem ldRdc_storage (c d : Nat) (s : State) : storage (ldRdc c d s) = storage s := by
  unfold ldRdc
  (try dsimp only)
  apply issue_storage; intro k t; (try dsimp only); (repeat' split) <;> simp

@[simp] theorem compactInterrupt_storage (s : State) : storage (compactInterrupt s) = storage s :=
  by simp [compactInterrupt, *]

/-! ### LadleIsa -/

@[simp] theorem ldAnd_storage (c d a b : Nat) (s : State) : storage (ldAnd c d a b s) = storage s :=
  by simp [ldAnd, *]

@[simp] theorem ldOr_storage (c d a b : Nat) (s : State) : storage (ldOr c d a b s) = storage s := by simp [ldOr, *]

@[simp] theorem ldXor_storage (c d a b : Nat) (s : State) : storage (ldXor c d a b s) = storage s :=
  by simp [ldXor, *]

@[simp] theorem ldMul_storage (c d a b : Nat) (s : State) : storage (ldMul c d a b s) = storage s :=
  by simp [ldMul, *]

@[simp] theorem ldMovl_storage (c d : Nat) (imm : BitVec 16) (s : State) : storage (ldMovl c d imm s) = storage s :=
  by simp [ldMovl, *]

@[simp] theorem ldMovh_storage (c d : Nat) (imm : BitVec 16) (s : State) : storage (ldMovh c d imm s) = storage s :=
  by simp [ldMovh, *]

@[simp] theorem ldMov_storage (c d a : Nat) (s : State) : storage (ldMov c d a s) = storage s := by simp [ldMov, *]

@[simp] theorem ldFadd_storage (c d a b : Nat) (s : State) : storage (ldFadd c d a b s) = storage s :=
  by simp [ldFadd, *]

@[simp] theorem ldFsub_storage (c d a b : Nat) (s : State) : storage (ldFsub c d a b s) = storage s :=
  by simp [ldFsub, *]

@[simp] theorem ldFmul_storage (c d a b : Nat) (s : State) : storage (ldFmul c d a b s) = storage s :=
  by simp [ldFmul, *]

@[simp] theorem ldFma_storage (c d a b : Nat) (s : State) : storage (ldFma c d a b s) = storage s :=
  by simp [ldFma, *]

@[simp] theorem ldFms_storage (c d a b : Nat) (s : State) : storage (ldFms c d a b s) = storage s :=
  by simp [ldFms, *]

@[simp] theorem ldFcmp_storage (c a b : Nat) (s : State) : storage (ldFcmp c a b s) = storage s := by simp [ldFcmp, *]

@[simp] theorem ldFabs_storage (c d a : Nat) (s : State) : storage (ldFabs c d a s) = storage s := by simp [ldFabs, *]

@[simp] theorem ldFneg_storage (c d a : Nat) (s : State) : storage (ldFneg c d a s) = storage s := by simp [ldFneg, *]

@[simp] theorem ldIntFp_storage (c d a : Nat) (s : State) : storage (ldIntFp c d a s) = storage s :=
  by simp [ldIntFp, *]

@[simp] theorem ldFpInt_storage (c d a : Nat) (s : State) : storage (ldFpInt c d a s) = storage s :=
  by simp [ldFpInt, *]

@[simp] theorem ldQ31Fp_storage (c d a : Nat) (s : State) : storage (ldQ31Fp c d a s) = storage s :=
  by simp [ldQ31Fp, *]

@[simp] theorem ldFpQ31_storage (c d a : Nat) (s : State) : storage (ldFpQ31 c d a s) = storage s :=
  by simp [ldFpQ31, *]

@[simp] theorem ldFrcp_storage (c d a : Nat) (s : State) : storage (ldFrcp c d a s) = storage s := by simp [ldFrcp, *]

@[simp] theorem ldMva_storage (c acc a sh : Nat) (s : State) : storage (ldMva c acc a sh s) = storage s :=
  by simp [ldMva, *]

@[simp] theorem ldClr_storage (c acc : Nat) (s : State) : storage (ldClr c acc s) = storage s := by simp [ldClr, *]

@[simp] theorem ldRdg_storage (c d acc : Nat) (s : State) : storage (ldRdg c d acc s) = storage s :=
  by simp [ldRdg, *]

@[simp] theorem ldPmvPD_storage (c pk d : Nat) (s : State) : storage (ldPmvPD c pk d s) = storage s :=
  by simp [ldPmvPD, *]

@[simp] theorem ldPmvDP_storage (c d pk : Nat) (s : State) : storage (ldPmvDP c d pk s) = storage s :=
  by simp [ldPmvDP, *]

@[simp] theorem ldPmvMD_storage (c mk d : Nat) (s : State) : storage (ldPmvMD c mk d s) = storage s :=
  by simp [ldPmvMD, *]

@[simp] theorem ldPmvDM_storage (c d mk : Nat) (s : State) : storage (ldPmvDM c d mk s) = storage s :=
  by simp [ldPmvDM, *]

@[simp] theorem ldPadd_storage (c pk pj : Nat) (imm : BitVec 16) (s : State) : storage (ldPadd c pk pj imm s)
    = storage s := by simp [ldPadd, *]

@[simp] theorem ldMset_storage (c mk : Nat) (imm : BitVec 16) (s : State) : storage (ldMset c mk imm s) = storage s :=
  by simp [ldMset, *]

@[simp] theorem ldMlen_storage (c mk : Nat) (imm : BitVec 16) (s : State) : storage (ldMlen c mk imm s) = storage s :=
  by simp [ldMlen, *]

@[simp] theorem ldRep_storage (c count len : Nat) (s : State) : storage (ldRep c count len s) = storage s :=
  by simp [ldRep, *]

@[simp] theorem ldMrs_storage (c d : Nat) (s : State) : storage (ldMrs c d s) = storage s := by simp [ldMrs, *]

/-! ### Slices -/

theorem decodeLadle_k (s0 : State) (c : Nat) (w : Word) (f : State → State) (h : decodeLadle c w = some f) (s
    : State) (hK : Storage.Kept (storage s0) (storage s)) : Storage.Kept (storage s0) (storage (f s)) := by
  unfold decodeLadle at h; dsimp only at h
  split at h
  · have e : storage (f s) = storage s := by
      unfold decodeAlu at h; dsimp only at h
      (repeat' split at h) <;> cases h <;> simp
    rw [e]; exact hK
  · split at h
    · unfold decodeMem at h; dsimp only at h
      generalize (match bits w 18 17 with
        | 0 => some (MemMode.offset (BitVec.ofNat 15 (bits w 14 0)))
        | 1 => if bits w 14 0 = 0 then some MemMode.postModify else none
        | _ => none) = md at h
      split at h
      · rcases Option.map_eq_some_iff.1 h with ⟨m, _, rfl⟩; simpa using hK
      · rcases Option.map_eq_some_iff.1 h with ⟨m, _, rfl⟩; exact ldStore_storage _ _ _ _ _ _ _ hK
      · (repeat' split at h) <;> cases h <;> simpa using hK
    · have e : storage (f s) = storage s := by
        split at h
        · unfold decodeFlow at h; dsimp only at h
          split at h
          · rcases Option.map_eq_some_iff.1 h with ⟨q, _, rfl⟩; simp
          all_goals ((repeat' split at h) <;> cases h <;> simp)
        · split at h
          · unfold decodeSys at h; dsimp only at h
            (repeat' split at h) <;> cases h <;> simp
          · split at h
            · unfold decodeDual at h; dsimp only at h
              (repeat' split at h) <;> cases h <;> simp
            · cases h
      rw [e]; exact hK

theorem stepCore_storage (s0 : State) (c : Nat) (s : State) (hK : Storage.Kept (storage s0) (storage s))
    : Storage.Kept (storage s0) (storage (stepCore c s)) := by
  unfold stepCore; dsimp only
  split
  · exact hK
  · split
    · simpa using hK
    · split
      · simpa using hK
      · split
        · rename_i h; exact decodeLadle_k _ _ _ _ h _ (by simpa using hK)
        · simpa using hK

theorem runCore_storage (s0 : State) (c : Nat) : ∀ (n : Nat) (s : State), Storage.Kept (storage s0) (storage s)
    → Storage.Kept (storage s0) (storage (runCore n c s)) := by
  intro n
  induction n with
  | zero => intro s h; exact h
  | succ n ih =>
    intro s h; unfold runCore; split
    · exact ih _ (stepCore_storage _ _ _ h)
    · exact h

theorem runSlice_storage (s0 : State) (a st : Nat) (n : Word) (s : State) (hK : Storage.Kept (storage s0)
    (storage s)) : Storage.Kept (storage s0) (storage (runSlice a st n s)) := by
  unfold runSlice
  extract_lets x k b s1 s2
  have h1 : Storage.Kept (storage s0) (storage s1) := by simp only [s1, modCore_storage]; exact hK
  have h2 : Storage.Kept (storage s0) (storage s2) := runCore_storage _ _ _ _ h1
  split
  · exact hK
  · split
    · simp only [modCore_storage, modSlice_storage]; exact h2
    · exact h2

end Sys2Proof.Machine
end

