-- ==== Sys2Proof/Laws/StorageHost.lean ====
section
/-! SUPPORT. What the operations of the clusters, local ports, the host port, the shadow state and the round do to the queue, SRAM, flash and fuse cells: nothing, or what keeps them well formed. -/

set_option linter.unusedSimpArgs false

namespace Sys2Proof.Machine

/-! ### Cluster -/

@[simp] theorem showGroups_storage (a : Nat) (n : Word) (s : State) : storage (showGroups a n s) = storage s :=
  by simp [showGroups, *]

theorem eccAxis_storage (s0 : State) (a : Nat) (s : State) (hK : Storage.Kept (storage s0) (storage s))
    : Storage.Kept (storage s0) (storage (eccAxis a s)) := by
  unfold eccAxis; (try dsimp only)
  repeat' (first | with_reducible exact hK | with_reducible assumption | with_reducible apply eccRead_storage
                 | with_reducible apply eccRange_storage | with_reducible apply kept_ite
                 | with_reducible apply kept_forAll | with_reducible apply kept_foldl
                 | with_reducible apply kept_onlyIf | intro _
                 | simp only [storage_mk, storage_fold, storage_iteapp, and_self, implies_true]
                 | (dsimp only; split) | split | (simp; done))

theorem axisTurn_storage (s0 : State) (turns : List Turn) (a : Nat) (m : Word) (s : State) (hK : Storage.Kept
    (storage s0) (storage s)) : Storage.Kept (storage s0) (storage (axisTurn turns a m s)) := by
  unfold axisTurn; (try dsimp only)
  repeat' (first | with_reducible exact hK | with_reducible assumption | with_reducible apply eccAxis_storage
                 | with_reducible apply runSlice_storage | with_reducible apply kept_ite
                 | with_reducible apply kept_forAll | with_reducible apply kept_foldl
                 | with_reducible apply kept_onlyIf | intro _
                 | simp only [storage_mk, storage_fold, storage_iteapp, and_self, implies_true, computeAxis_storage,
                   snapAxis_storage, snapGroup_storage, limitJudge_storage, showGroups_storage, modCtl_storage]
                 | (dsimp only; split) | split | (simp; done))

theorem clusterWake_storage (s0 : State) (c : Nat) (s : State) (hK : Storage.Kept (storage s0) (storage s))
    : Storage.Kept (storage s0) (storage (clusterWake c s)) := by
  unfold clusterWake; (try dsimp only)
  repeat' (first | with_reducible exact hK | with_reducible assumption | with_reducible apply axisTurn_storage
                 | with_reducible apply kept_ite | with_reducible apply kept_forAll
                 | with_reducible apply kept_foldl | with_reducible apply kept_onlyIf | intro _
                 | simp only [storage_mk, storage_fold, storage_iteapp, and_self, implies_true]
                 | (dsimp only; split) | split | (simp; done))

@[simp] theorem sendLost_storage (a : Nat) (pay : List Byte) (s : State) : storage (sendLost a pay s) = storage s :=
  by unfold sendLost; dsimp only; (repeat' split) <;> simp [*]

@[simp] theorem fdnDeparture_storage (a : Nat) (s : State) : storage (fdnDeparture a s) = storage s :=
  by unfold fdnDeparture; dsimp only; (repeat' split) <;> simp [*]

/-! ### Local -/

@[simp] theorem modPort_storage (k : Nat) (f : Port → Port) (s : State) : storage (modPort k f s) = storage s :=
  by simp [modPort, *]

@[simp] theorem localProbe_storage (pin : Nat) (level : Bool) (clk len : Nat) (s : State) : storage
    (localProbe pin level clk len s) = storage s := by simp [localProbe, *]

@[simp] theorem localEncoder_storage (k : Nat) (a b z : Bool) (s : State) : storage (localEncoder k a b z s)
    = storage s := by simp [localEncoder, *]

@[simp] theorem ssiStart_storage (k : Nat) (s : State) : storage (ssiStart k s) = storage s := by simp [ssiStart, *]

@[simp] theorem ssiEnd_storage (k : Nat) (startOk : Bool) (l : List Bool) (s : State) : storage
    (ssiEnd k startOk l s) = storage s := by simp [ssiEnd, *]

@[simp] theorem portSamples_storage (s : State) : storage (portSamples s) = storage s := by
  unfold portSamples; dsimp only
  rw [storage_forAll, storage_forAll]
  · intro a t; simp
  · intro k t; simp

/-! ### Host -/

@[simp] theorem modHost_storage (f : HostPort → HostPort) (s : State) : storage (modHost f s) = storage s :=
  by simp [modHost, *]

@[simp] theorem spiPut_storage (note : Bool) (l : List Byte) (s : State) : storage (spiPut note l s) = storage s :=
  by unfold spiPut; dsimp only; (repeat' split) <;> simp [*]

@[simp] theorem sendFrame_storage (note : Bool) (snd : Sender) (l : List Byte) (s : State) : storage
    (sendFrame note snd l s) = storage s := by unfold sendFrame; (repeat' split) <;> simp [*]

@[simp] theorem reply_storage (snd : Sender) (r : Reply) (s : State) : storage (reply snd r s) = storage s :=
  by simp [reply, *]

@[simp] theorem dropFrame_storage (s : State) : storage (dropFrame s) = storage s := by simp [dropFrame, *]

@[simp] theorem takeCommand_storage (snd : Sender) (seq : Word) (op : Nat) (pl : List Word) (s : State) : storage
    (takeCommand snd seq op pl s) = storage s := by simp [takeCommand, *]

@[simp] theorem replyBusy_storage (snd : Sender) (seq : Word) (op : Nat) (s : State) : storage
    (replyBusy snd seq op s) = storage s := by simp [replyBusy, *]

@[simp] theorem dispatchFrame_storage (snd : Sender) (seq : Word) (op : Nat) (pl : List Word) (s : State) : storage
    (dispatchFrame snd seq op pl s) = storage s := by unfold dispatchFrame; (repeat' split) <;> simp [*]

@[simp] theorem bufferFrame_storage (snd : Option Sender) (l : List Byte) (s : State) : storage
    (bufferFrame snd l s) = storage s := by simp [bufferFrame, *]

@[simp] theorem frameNow_storage (snd : Sender) (l : List Byte) (s : State) : storage (frameNow snd l s)
    = storage s := by unfold frameNow; (repeat' split) <;> simp [*]

@[simp] theorem commandFrame_storage (snd : Sender) (l : List Byte) (s : State) : storage (commandFrame snd l s)
    = storage s := by simp [commandFrame, *]

@[simp] theorem sendAnswer_storage (l : List Byte) (s : State) : storage (sendAnswer l s) = storage s :=
  by simp [sendAnswer, *]

@[simp] theorem takeArp_storage (l : List Byte) (s : State) : storage (takeArp l s) = storage s :=
  by unfold takeArp; (repeat' split) <;> simp [*]

@[simp] theorem takeIp_storage (l : List Byte) (s : State) : storage (takeIp l s) = storage s :=
  by unfold takeIp; dsimp only; (repeat' split) <;> simp [*]

@[simp] theorem ethernetNow_storage (l : List Byte) (s : State) : storage (ethernetNow l s) = storage s :=
  by simp [ethernetNow, *]

@[simp] theorem ethernetFrame_storage (l : List Byte) (s : State) : storage (ethernetFrame l s) = storage s :=
  by simp [ethernetFrame, *]

@[simp] theorem takeBuffered_storage (s : State) : storage (takeBuffered s) = storage s := by
  unfold takeBuffered
  rw [storage_forAll]
  · simp
  · intro q t; split <;> simp

@[simp] theorem takeOut_storage (s : State) : storage (takeOut s) = storage s := by simp [takeOut, *]

@[simp] theorem finish_storage (c : HostCmd) (r : Reply) (s : State) : storage (finish c r s) = storage s :=
  by simp [finish, *]

theorem runCommand_k (s0 : State) (snd : Sender) (seq : Word) (op : Nat) (pl : List Word) (f : State
    → State × Nat × List Word) (s : State) (hK : Storage.Kept (storage s0) (storage s))
    (h : ∀ t, Storage.Kept (storage s0) (storage t) → Storage.Kept (storage s0) (storage (f t).1)) : Storage.Kept (storage s0) (storage (runCommand snd seq op pl f s)) := by
  unfold runCommand; split
  · dsimp only; rw [finish_storage]; exact h _ (by simpa using hK)
  · exact hK

@[simp] theorem runCommand_storage (snd : Sender) (seq : Word) (op : Nat) (pl : List Word) (f : State
    → State × Nat × List Word) (s : State)
    (h : ∀ t, storage (f t).1 = storage t) : storage (runCommand snd seq op pl f s) = storage s := by
  unfold runCommand; split
  · simp [h]
  · rfl

@[simp] theorem refusal_storage (code : Option Nat) (s : State) : storage (refusal code s).1 = storage s :=
  by unfold refusal; (repeat' split) <;> simp [*]

theorem hostRead_storage (s0 : State) (m : Master) (a : Nat) (s : State) (hK : Storage.Kept (storage s0)
    (storage s)) : Storage.Kept (storage s0) (storage ((hostRead m a s).1)) := by
  unfold hostRead; (try dsimp only)
  repeat' (first | with_reducible exact hK | with_reducible assumption | with_reducible apply eccLoad_storage
                 | with_reducible apply kept_ite | with_reducible apply kept_forAll
                 | with_reducible apply kept_foldl | with_reducible apply kept_onlyIf | intro _
                 | simp only [storage_mk, storage_fold, storage_iteapp, and_self, implies_true, readWord_storage]
                 | (dsimp only; split) | split | (simp; done))

theorem hostReads_storage (s0 : State) (m : Master) : ∀ (n a : Nat) (s : State), Storage.Kept (storage s0)
    (storage s) → Storage.Kept (storage s0) (storage (hostReads m n a s).1) := by
  intro n
  induction n with
  | zero => intro a s h; exact h
  | succ n ih => intro a s h; unfold hostReads; exact ih _ _ (hostRead_storage _ _ _ _ h)

theorem opRead_storage (s0 : State) (m : Master) (pl : List Word) (s : State) (hK : Storage.Kept (storage s0)
    (storage s)) : Storage.Kept (storage s0) (storage ((opRead m pl s).1)) := by
  unfold opRead; dsimp only; (repeat' split)
  · simpa using hK
  · simpa using hK
  · exact hostReads_storage _ _ _ _ _ hK

theorem hostWrites_storage (s0 : State) (m : Master) (src : Source) : ∀ (ws : List Word) (a : Nat) (x : WSum) (s
    : State), Storage.Kept (storage s0) (storage s) → Storage.Kept (storage s0) (storage
    (hostWrites m src a ws x s).1) := by
  intro ws
  induction ws with
  | nil => intro a x s h; exact h
  | cons w ws ih => intro a x s h; unfold hostWrites; exact ih _ _ _ (busWrite_storage _ _ _ _ _ _ _ h)

theorem opWrite_storage (s0 : State) (m : Master) (src : Source) (pl : List Word) (s : State) (hK : Storage.Kept
    (storage s0) (storage s)) : Storage.Kept (storage s0) (storage ((opWrite m src pl s).1)) := by
  unfold opWrite; dsimp only; (repeat' split)
  · simpa using hK
  · simpa using hK
  · simpa using hK
  · simpa using hostWrites_storage _ _ _ _ _ _ _ hK
  · exact hostWrites_storage _ _ _ _ _ _ _ hK

@[simp] theorem opQueueMove_storage (pl : List Word) (s : State) : storage (opQueueMove pl s).1 = storage s :=
  by unfold opQueueMove; dsimp only; (repeat' split) <;> simp [*]

theorem opBankWrite_storage (s0 : State) (pl : List Word) (s : State) (hK : Storage.Kept (storage s0) (storage s))
    : Storage.Kept (storage s0) (storage ((opBankWrite pl s).1)) := by
  unfold opBankWrite
  extract_lets w x base s1 s2
  have h1 : Storage.Kept (storage s0) (storage s1) := hostWrites_storage _ _ _ _ _ _ _ hK
  have h2 : Storage.Kept (storage s0) (storage s2) := by simpa [s2] using h1
  (repeat' split) <;> (try simp only [refusal_storage, refuseWrite_storage]) <;> first | exact h1 | exact h2

@[simp] theorem setSub_storage (i : Nat) (b : Option Subscriber) (s : State) : storage (setSub i b s) = storage s :=
  by simp [setSub, *]

@[simp] theorem opSubscribe_storage (snd : Sender) (pl : List Word) (s : State) : storage (opSubscribe snd pl s).1
    = storage s := by unfold opSubscribe; (repeat' split) <;> simp [*]

theorem opRecordRead_storage (s0 : State) (pl : List Word) (s : State) (hK : Storage.Kept (storage s0) (storage s))
    : Storage.Kept (storage s0) (storage ((opRecordRead pl s).1)) := by
  unfold opRecordRead; dsimp only; split
  · exact hostReads_storage _ _ _ _ _ hK
  · simpa using hK

@[simp] theorem opImage_storage (pl : List Word) (s : State) : storage (opImage pl s).1 = storage s :=
  by unfold opImage; dsimp only; (repeat' split) <;> simp [*]

@[simp] theorem opHeadState_storage (pl : List Word) (s : State) : storage (opHeadState pl s).1 = storage s := by
  unfold opHeadState; dsimp only
  split
  · rfl
  · split
    · simp
    · split
      · rename_i h; exact twCommand_storage _ _ _ h
      · simp

@[simp] theorem writeFrame_storage (l : List Byte) (s : State) : storage (writeFrame l s) = storage s :=
  by simp [writeFrame, *]

@[simp] theorem readFrame_storage (s : State) : storage (readFrame s) = storage s :=
  by unfold readFrame; (repeat' split) <;> simp [*]

@[simp] theorem phyPoll_storage (reg1 : BitVec 16) (s : State) : storage (phyPoll reg1 s) = storage s :=
  by simp [phyPoll, *]

@[simp] theorem notify_storage (n : Word) (s : State) : storage (notify n s) = storage s := by
  unfold notify; split
  · rfl
  · apply storage_forAll; intro i t
    split
    · rfl
    · split
      · simp
      · split
        · rfl
        · dsimp only; split <;> simp

/-! ### Shadow -/

@[simp] theorem copyRun_storage : ∀ (n : Nat) (s : State), storage (copyRun n s) = storage s := by
  intro n
  induction n with
  | zero => intro s; rfl
  | succ n ih => intro s; unfold copyRun; dsimp only; (repeat' split) <;> simp [ih]

@[simp] theorem prepareCopies_storage (s : State) : storage (prepareCopies s) = storage s := by
  unfold prepareCopies; dsimp only; split <;> simp

@[simp] theorem closePast_storage (s : State) : storage (closePast s) = storage s := by simp [closePast, *]

@[simp] theorem switchBuffers_storage (s : State) : storage (switchBuffers s) = storage s :=
  by simp [switchBuffers, *]

theorem actCommand_storage (s0 : State) (c : HostCmd) (s : State) (hK : Storage.Kept (storage s0) (storage s))
    : Storage.Kept (storage s0) (storage (actCommand c s)) := by
  unfold actCommand; (try dsimp only)
  repeat' (first | with_reducible exact hK | with_reducible assumption | with_reducible apply opWrite_storage
                 | with_reducible apply opBankWrite_storage | with_reducible apply kept_ite
                 | with_reducible apply kept_forAll | with_reducible apply kept_foldl
                 | with_reducible apply kept_onlyIf | intro _
                 | simp only [storage_mk, storage_fold, storage_iteapp, and_self, implies_true,
                   opQueueMove_storage] | (dsimp only; split) | split | (simp; done))

@[simp] theorem pastState_storage (h : PastRound) (s : State) : storage (pastState h s) = storage s :=
  by simp [pastState, *]

theorem replayRound_storage (s0 : State) (cmds : List HostCmd) (s' : State) (hK : Storage.Kept (storage s0)
    (storage s')) : Storage.Kept (storage s0) (storage (replayRound cmds s')) := by
  unfold replayRound; (try dsimp only)
  repeat' (first | with_reducible exact hK | with_reducible assumption | with_reducible apply actCommand_storage
                 | with_reducible apply wheelTick_storage | with_reducible apply clusterWake_storage
                 | with_reducible apply kept_ite | with_reducible apply kept_forAll
                 | with_reducible apply kept_foldl | with_reducible apply kept_onlyIf | intro _
                 | simp only [storage_mk, storage_fold, storage_iteapp, and_self, implies_true, modSys_storage,
                   switchBuffers_storage, moverTotals_storage, bankSwap_storage, runCtl_storage,
                   latchWheel_storage] | (dsimp only; split) | split | (simp; done))

theorem replay_storage (s0 : State) (q : Nat × Nat) : ∀ (l : List PastRound) (c : CopyContent) (s : State),
    Storage.Kept (storage s0) (storage s) → Storage.Kept (storage s0) (storage (replay q c l s))
  | [], c, s, h => by unfold replay; exact h
  | [a], c, s, h => by unfold replay; exact takeCopy_storage _ _ _ h
  | a :: b :: rest, c, s, h => by unfold replay; exact replay_storage s0 q (b :: rest) _ _ (by simpa using h)

theorem comeIntoStep_storage (s0 : State) (u : CopyUnit) (s : State) (hK : Storage.Kept (storage s0) (storage s))
    : Storage.Kept (storage s0) (storage (comeIntoStep u s)) := by
  unfold comeIntoStep; dsimp only; split
  · exact hK
  · rw [noteUnit_storage]; exact replay_storage _ _ _ _ _ hK

theorem takeArrived_storage (s0 : State) (s : State) (hK : Storage.Kept (storage s0) (storage s)) : Storage.Kept
    (storage s0) (storage (takeArrived s)) := by
  unfold takeArrived; (try dsimp only)
  repeat' (first | with_reducible exact hK | with_reducible assumption | with_reducible apply comeIntoStep_storage
                 | with_reducible apply kept_ite | with_reducible apply kept_forAll
                 | with_reducible apply kept_foldl | with_reducible apply kept_onlyIf | intro _
                 | simp only [storage_mk, storage_fold, storage_iteapp, and_self, implies_true, modTwin_storage]
                 | (dsimp only; split) | split | (simp; done))

/-! ### RoundStart -/

@[simp] theorem closeDigest_storage (s : State) : storage (closeDigest s) = storage s := by simp [closeDigest, *]

@[simp] theorem closeSilence_storage (s : State) : storage (closeSilence s) = storage s := by simp [closeSilence, *]

@[simp] theorem closeCounts_storage (s : State) : storage (closeCounts s) = storage s := by simp [closeCounts, *]

@[simp] theorem closeLink_storage (s : State) : storage (closeLink s) = storage s := by simp [closeLink, *]

@[simp] theorem closePdc_storage (s : State) : storage (closePdc s) = storage s := by simp [closePdc, *]

@[simp] theorem closeClusters_storage (s : State) : storage (closeClusters s) = storage s :=
  by simp [closeClusters, *]

@[simp] theorem markMissing_storage (s : State) : storage (markMissing s) = storage s := by simp [markMissing, *]

theorem applyHeld_storage (s0 : State) (s : State) (hK : Storage.Kept (storage s0) (storage s)) : Storage.Kept
    (storage s0) (storage (applyHeld s)) := by
  unfold applyHeld; (try dsimp only)
  repeat' (first | with_reducible exact hK | with_reducible assumption | with_reducible apply memPut_storage
                 | with_reducible apply kept_ite | with_reducible apply kept_forAll
                 | with_reducible apply kept_foldl | with_reducible apply kept_onlyIf | intro _
                 | simp only [storage_mk, storage_fold, storage_iteapp, and_self, implies_true]
                 | (dsimp only; split) | split | (simp; done))

@[simp] theorem roundTick_storage (s : State) : storage (roundTick s) = storage s := by simp [roundTick, *]

@[simp] theorem noteSagOk_storage (s : State) : storage (noteSagOk s) = storage s := by simp [noteSagOk, *]

@[simp] theorem judgePower_storage (s : State) : storage (judgePower s) = storage s := by simp [judgePower, *]

@[simp] theorem wakeUp_storage (s : State) : storage (wakeUp s) = storage s := by simp [wakeUp, *]

@[simp] theorem countWake_storage (s : State) : storage (countWake s) = storage s :=
  by unfold countWake; (repeat' split) <;> simp [*]

@[simp] theorem trimStep_storage (s : State) : storage (trimStep s) = storage s :=
  by unfold trimStep; (repeat' split) <;> simp [*]

@[simp] theorem streamSlot_storage (ty : Nat) (pay : List Byte) (q : Nat × State) :
    storage (streamSlot ty pay q).2 = storage q.2 := by
  unfold streamSlot; dsimp only; split <;> simp

@[simp] theorem sendConf_storage : ∀ (n : Nat) (l : List Word) (q : Nat × State), storage (sendConf n l q).2 = storage q.2 := by
  intro n
  induction n with
  | zero => intro l q; rfl
  | succ n ih =>
    intro l q; unfold sendConf; split
    · rfl
    · exact (ih _ _).trans (by simp)

@[simp] theorem sendCmds_storage : ∀ (n : Nat) (q : Nat × State), storage (sendCmds n q).2 = storage q.2 := by
  intro n
  induction n with
  | zero => intro q; rfl
  | succ n ih =>
    intro q; unfold sendCmds; split
    · rfl
    · split
      · exact (ih _).trans (by simp)
      · rfl

theorem streamAll_storage (ty : Nat) (l : List (List Byte)) (q : Nat × State) :
    storage (l.foldl (fun q p => streamSlot ty p q) q).2 = storage q.2 := by
  induction l generalizing q with
  | nil => rfl
  | cons p l ih => exact (ih _).trans (by simp)

@[simp] theorem sendStream_storage (s : State) : storage (sendStream s) = storage s := by
  unfold sendStream
  extract_lets cs q1 q2 q3 q4 q5
  have h1 : storage q1.2 = storage s := by simp only [q1]; split <;> simp
  have h3 : storage q3.2 = storage s := by simp [q3, q2, h1]
  have h4 : storage q4.2 = storage s := by simp only [q4]; exact (streamAll_storage _ _ _).trans h3
  have h5 : storage q5.2 = storage s := by simp only [q5]; exact (streamAll_storage _ _ _).trans h4
  rw [storage_foldl]
  · simp [h5]
  · intro u t; simp

@[simp] theorem sendTwinSlots_storage (s : State) : storage (sendTwinSlots s) = storage s :=
  by unfold sendTwinSlots; (repeat' split) <;> simp [*]

@[simp] theorem sendCascade_storage (s : State) : storage (sendCascade s) = storage s := by simp [sendCascade, *]

@[simp] theorem gratuitousArp_storage (s : State) : storage (gratuitousArp s) = storage s :=
  by unfold gratuitousArp; (repeat' split) <;> simp [*]

@[simp] theorem retMs_storage (s : State) : storage (retMs s) = storage s := by simp [retMs, *]

@[simp] theorem wdMs_storage (s : State) : storage (wdMs s) = storage s := by simp [wdMs, *]

@[simp] theorem tjMs_storage (s : State) : storage (tjMs s) = storage s := by simp [tjMs, *]

@[simp] theorem tickMs_storage (s : State) : storage (tickMs s) = storage s := by simp [tickMs, *]

@[simp] theorem stageRounds_storage (s : State) : storage (stageRounds s) = storage s := by simp [stageRounds, *]

@[simp] theorem msTick_storage (s' : State) : storage (msTick s') = storage s' := by simp [msTick, *]

@[simp] theorem railTick_storage (s : State) : storage (railTick s) = storage s := by simp [railTick, *]

theorem roundInputs_storage (s0 : State) (s' : State) (hK : Storage.Kept (storage s0) (storage s')) : Storage.Kept
    (storage s0) (storage (roundInputs s')) := by
  unfold roundInputs; (try dsimp only)
  repeat' (first | with_reducible exact hK | with_reducible assumption | with_reducible apply sdLatch_storage
                 | with_reducible apply kept_ite | with_reducible apply kept_forAll
                 | with_reducible apply kept_foldl | with_reducible apply kept_onlyIf | intro _
                 | simp only [storage_mk, storage_fold, storage_iteapp, and_self, implies_true, moverTotals_storage, closePdc_storage, closeClusters_storage, portSamples_storage, switchBuffers_storage, markMissing_storage, limitJudge_storage] | (dsimp only; split) | split | (simp; done))

theorem roundActions_storage (s0 : State) (s : State) (hK : Storage.Kept (storage s0) (storage s)) : Storage.Kept
    (storage s0) (storage (roundActions s)) := by
  unfold roundActions; (try dsimp only)
  repeat' (first | with_reducible exact hK | with_reducible assumption | with_reducible apply applyHeld_storage
                 | with_reducible apply recSample_storage | with_reducible apply rcApplyClear_storage
                 | with_reducible apply kept_ite | with_reducible apply kept_forAll
                 | with_reducible apply kept_foldl | with_reducible apply kept_onlyIf | intro _
                 | simp only [storage_mk, storage_fold, storage_iteapp, and_self, implies_true, noteSagOk_storage,
                   leaveLocked_storage, lockout_storage, applyParams_storage, testRound_storage, runCtl_storage,
                   bankSwap_storage, judgePower_storage, countWake_storage, outputs_storage, latchWheel_storage]
                 | (dsimp only; split) | split | (simp; done))

theorem sendRings_storage (s0 : State) (s : State) (hK : Storage.Kept (storage s0) (storage s)) : Storage.Kept
    (storage s0) (storage (sendRings s)) := by
  unfold sendRings; (try dsimp only)
  repeat' (first | with_reducible exact hK | with_reducible assumption | with_reducible apply eccSched_storage
                 | with_reducible apply kept_ite | with_reducible apply kept_forAll
                 | with_reducible apply kept_foldl | with_reducible apply kept_onlyIf | intro _
                 | simp only [storage_mk, storage_fold, storage_iteapp, and_self, implies_true,
                   sendSchedule_storage] | (dsimp only; split) | split | (simp; done))

theorem roundSends_storage (s0 : State) (s : State) (hK : Storage.Kept (storage s0) (storage s)) : Storage.Kept
    (storage s0) (storage (roundSends s)) := by
  unfold roundSends; (try dsimp only)
  repeat' (first | with_reducible exact hK | with_reducible assumption | with_reducible apply sendRings_storage
                 | with_reducible apply kept_ite | with_reducible apply kept_forAll
                 | with_reducible apply kept_foldl | with_reducible apply kept_onlyIf | intro _
                 | simp only [storage_mk, storage_fold, storage_iteapp, and_self, implies_true, skimEnded_storage,
                   gratuitousArp_storage, sendCascade_storage, sendTwinSlots_storage] | (dsimp only; split) | split
                 | (simp; done))

theorem roundBegin_storage (s0 : State) (s : State) (hK : Storage.Kept (storage s0) (storage s)) : Storage.Kept
    (storage s0) (storage (roundBegin s)) := by
  unfold roundBegin; (try dsimp only)
  repeat' (first | with_reducible exact hK | with_reducible assumption | with_reducible apply takeArrived_storage
                 | with_reducible apply roundSends_storage | with_reducible apply roundActions_storage
                 | with_reducible apply roundInputs_storage | with_reducible apply scrubRound_storage
                 | with_reducible apply kept_ite | with_reducible apply kept_forAll
                 | with_reducible apply kept_foldl | with_reducible apply kept_onlyIf | intro _
                 | simp only [storage_mk, storage_fold, storage_iteapp, and_self, implies_true, closeCounts_storage,
                   closeSilence_storage, closeLink_storage, cascListen_storage, closeDigest_storage,
                   closePast_storage, handbackRound_storage, takeoverRound_storage, isoRejoin_storage,
                   prepareCopies_storage, notify_storage, trimStep_storage, roundTick_storage]
                 | (dsimp only; split) | split | (simp; done))

theorem roundStart_storage (s0 : State) (s : State) (hK : Storage.Kept (storage s0) (storage s)) : Storage.Kept
    (storage s0) (storage (roundStart s)) := by
  unfold roundStart; (try dsimp only)
  repeat' (first | with_reducible exact hK | with_reducible assumption | with_reducible apply resetHead_storage
                 | with_reducible apply roundBegin_storage | with_reducible apply kept_ite
                 | with_reducible apply kept_forAll | with_reducible apply kept_foldl
                 | with_reducible apply kept_onlyIf | intro _
                 | simp only [storage_mk, storage_fold, storage_iteapp, and_self, implies_true, railTick_storage, msTick_storage] | (dsimp only; split) | split | (simp; done))

end Sys2Proof.Machine
end

