-- ==== Sys2Proof/Machine/Pins.lean ====
section
/-! DEFINITION. The levels of the output pins as the state gives them (R292, R396, R401, R423, R425). Pulses and clocks on a
pin are what a command sends (Tx); DEDUCED where R425 names a pin only for reset and BOOT: after them it is as its own chapter
says. -/

namespace Sys2Proof.Machine

/-- What a pin is held at; `input` is a high impedance. -/
inductive PinLevel where
  | low | high | input
  deriving DecidableEq, Repr

/-- A driven pin. -/
def driven (b : Bool) : PinLevel := if b then .high else .low

/-- Reset, or BOOT: the head drives no service yet (R425). -/
def pinsHeld (s : State) : Bool := s.sys.inReset || decide (s.sys.hstate = .boot)

/-- SOUTk_P and SOUTk_N: both switches of pair k (R292, R302); low in reset and BOOT (R425). -/
def soutPin (s : State) (k : Nat) : PinLevel := driven (!pinsHeld s && s.sag.outOn.testBit k)

/-- BCHOP (R124, R125): low while reset lasts (R425). -/
def bchopPin (s : State) : PinLevel := driven (!s.sys.inReset && bchop s)

/-- EVOj with its polarity (R401, R406). -/
def evoPin (s : State) (j : Nat) : PinLevel := driven (pinActive s j ≠ bit s.ev.pinCfg (8 + j))

/-- SPI_IRQ_n: low while a reply or a notification is ready to read (R396); high in reset (R425). -/
def spiIrqPin (s : State) : PinLevel := driven (s.sys.inReset || s.host.out.isEmpty)

/-- _TXDIS of port p of channel ch: high turns the module transmitter off (R204, R235). -/
def txdisPin (s : State) (ch p : Nat) : PinLevel :=
  let c := getCh s ch
  driven (pinsHeld s || (if p = 0 then c.txdis0 else c.txdis1))

/-- LENCk_A: an input unless an SSI port drives its clock (R137); between frames the clock rests high, since a
frame starts with its falling edge (DEDUCED, log 24). -/
def lencAPin (s : State) (k : Nat) : PinLevel :=
  if !pinsHeld s && ssiPort s k && drivesClock s then .high else .input

/-- SDCLKj as an output: some input clocked by it takes the head's clock (R128, R425). -/
def sdclkDriven (s : State) (j : Nat) : Bool :=
  !pinsHeld s && (List.range 8).any (fun k => Cfg.SDCFG_EN s k && Cfg.SDCFG_CLKSEL s k = decide (j = 1) && !Cfg.SDCFG_CLKSRC s k)

/-- CSYNCO between its pulses: driven low by the master-role unit, else a high impedance (R283, R425). -/
def csyncoPin (s : State) : PinLevel :=
  if !pinsHeld s && masterPair s && Cfg.CSCFG_EN s && driving s then .low else .input

/-- FL_RST_n: low during reset (R364, R425). -/
def flashResetPin (s : State) : PinLevel := driven (!s.sys.inReset)

end Sys2Proof.Machine
end

