-- ==== Sys2Proof/Tests/Slice0.lean ====
section
/-! SUPPORT. Tests: a term that each check of WellFormed refuses; for each statement a state and operands that meet the
hypotheses of each of its clauses; results of single commands against values worked out by hand from the spec. -/

namespace Sys2Proof.Tests

set_option maxRecDepth 20000
set_option Elab.async false

open Sys2Proof.Machine

/-! ### Ill-formed commands are refused -/

def rxOk : RxSlot := { ch := 0, port := 0, start := 0, arrival := 0, codeErr := false, bytes := [] }
def laneOk : LaneSlot := { arrival := 0, clk := 0, codeErr := false, bytes := [] }

theorem wf_refuses_1 : ((
    [.fupReceived { rxOk with start := 2500 }, .posReceived { rxOk with start := 2500 }, .diagReceived { rxOk
    with start := 2500 }, .svcReply { rxOk with start := 2500 }, .upstreamSilence 2 0, .upstreamSilence 0 64,
    .clusterWake 4, .sliceOverrun 4, .fdnSlotDeparture 128, .cxpReceived { laneOk with clk := 3125 }, .bankSwap
    128, .enable 128, .run 128, .park 128, .unpark 128, .qstop 128, .disable 128, .reset 128, .swap 128,
    .brakeAppliedReport 128, .groupEnable 128, .groupRun 128, .groupPark 128, .groupUnpark 128, .groupQstop
    128, .groupDisable 128, .groupReset 128, .locgo 128 0, .locgo 0 128, .append (.group 128) .host, .append
    (.axis 0) (.wide 4), .replace (.group 128) .host, .replace (.axis 0) (.wide 4), .chglim (.group 128) .host,
    .chglim (.axis 0) (.wide 4), .clear (.group 128) .host, .clear (.axis 0) (.wide 4), .ref (.group 128)
    .host, .ref (.axis 0) (.wide 4), .compareArming 128 0 0 0 0] : List Instr).all (fun c => !c.wf)) = true := by
  decide +kernel

theorem wf_refuses_2 : ((
    [.probeArming 128 0, .localProbeEdge 8 false 0 1, .localProbeEdge 0 false 3125 1, .localEncoderEdge 8 false
    false false, .ssiFrameStart 8, .ssiFrameEnd 8 false [], .backoffEnd 8 0, .backoffEnd 0 256, .rtrelGo (.wide
    4) 0, .retryComplete 128, .testStepEvaluation 128, .noResponse 128, .chopperOverload 4, .sdiFast 8,
    .sdiFault 8, .psctestGo 16, .markAccepted { rxOk with start := 2500 }, .loadSequence 2 0, .loadSequence 0
    64, .loadTimeout 2 0, .loadTimeout 0 64, .nodeAdmission 2 0, .nodeAdmission 0 64, .channelJudgement 2
    ⟨none, none, false, true, true, false, false, true, true, 0⟩, .portLoss 2 ⟨0, 0⟩, .portLoss 0 ⟨2, 0⟩,
    .portLoss 0 ⟨0, 3⟩, .unwrapOrder 2, .unwrap 2, .tleaseReceived { laneOk with clk := 3125 }, .tdigReceived {
    laneOk with clk := 3125 }, .tcmdReceived { laneOk with clk := 3125 }, .tconfReceived { laneOk with clk :=
    3125 }, .tcommitReceived { laneOk with clk := 3125 }, .tcopyReceived ⟨0, true, .axis 128 {}⟩, .yield (.wide
    4), .rejoin (.wide 4), .inhibit (.wide 4), .allow (.wide 4), .cmarkReceived { laneOk with clk := 3125 }] : List Instr).all (fun c => !c.wf)) = true := by
  decide +kernel

theorem wf_refuses_3 : ((
    [.safeReceived { rxOk with start := 2500 }, .brakeFeedbackTimeout 32, .lockoutCause 16 0, .lockoutCause 0
    256, .darkPulse 4 false false, .pwd (.wide 4) 1, .pwd .host 256, .pwdset (.wide 4) 1, .pwdset .host 256,
    .param (.wide 4), .sealclose (.wide 4), .logclear (.wide 4), .btest (.wide 4) 0, .btest .host 256, .btabort
    (.wide 4), .outset (.wide 4) 0, .outset .host 16, .recorderPwd (.wide 4) 1, .recorderPwd .host 256,
    .recorderClear .spi 16 false, .save (.wide 4), .lock (.wide 4), .nop 5, .add 5 0 0 0, .add 0 16 0 0, .add 0
    0 16 0, .add 0 0 0 16, .sub 5 0 0 0, .sub 0 16 0 0, .sub 0 0 16 0, .sub 0 0 0 16, .and 5 0 0 0, .and 0 16 0
    0, .and 0 0 16 0, .and 0 0 0 16, .or 5 0 0 0, .or 0 16 0 0, .or 0 0 16 0, .or 0 0 0 16, .xor 5 0 0 0] : List Instr).all (fun c => !c.wf)) = true := by
  decide +kernel

theorem wf_refuses_4 : ((
    [.xor 0 16 0 0, .xor 0 0 16 0, .xor 0 0 0 16, .shl 5 0 0 (.imm 0), .shl 0 16 0 (.imm 0), .shl 0 0 16 (.imm
    0), .shl 0 0 0 (.imm 32), .shr 5 0 0 (.imm 0), .shr 0 16 0 (.imm 0), .shr 0 0 16 (.imm 0), .shr 0 0 0 (.imm
    32), .sar 5 0 0 (.imm 0), .sar 0 16 0 (.imm 0), .sar 0 0 16 (.imm 0), .sar 0 0 0 (.imm 32), .ror 5 0 0
    (.imm 0), .ror 0 16 0 (.imm 0), .ror 0 0 16 (.imm 0), .ror 0 0 0 (.imm 32), .mul 5 0 0 0, .mul 0 16 0 0,
    .mul 0 0 16 0, .mul 0 0 0 16, .addi 5 0 0 0, .addi 0 16 0 0, .addi 0 0 16 0, .movl 5 0 0, .movl 0 16 0,
    .movh 5 0 0, .movh 0 16 0, .cmp 5 0 0, .cmp 0 16 0, .cmp 0 0 16, .mov 5 0 0, .mov 0 16 0, .mov 0 0 16,
    .fadd 5 0 0 0, .fadd 0 16 0 0, .fadd 0 0 16 0, .fadd 0 0 0 16] : List Instr).all (fun c => !c.wf)) = true := by
  decide +kernel

theorem wf_refuses_5 : ((
    [.fsub 5 0 0 0, .fsub 0 16 0 0, .fsub 0 0 16 0, .fsub 0 0 0 16, .fmul 5 0 0 0, .fmul 0 16 0 0, .fmul 0 0 16
    0, .fmul 0 0 0 16, .fma 5 0 0 0, .fma 0 16 0 0, .fma 0 0 16 0, .fma 0 0 0 16, .fms 5 0 0 0, .fms 0 16 0 0,
    .fms 0 0 16 0, .fms 0 0 0 16, .fcmp 5 0 0, .fcmp 0 16 0, .fcmp 0 0 16, .fabs 5 0 0, .fabs 0 16 0, .fabs 0 0
    16, .fneg 5 0 0, .fneg 0 16 0, .fneg 0 0 16, .fmin 5 0 0 0, .fmin 0 16 0 0, .fmin 0 0 16 0, .fmin 0 0 0 16,
    .fmax 5 0 0 0, .fmax 0 16 0 0, .fmax 0 0 16 0, .fmax 0 0 0 16, .integerToFp 5 0 0, .integerToFp 0 16 0,
    .integerToFp 0 0 16, .fpToInteger 5 0 0, .fpToInteger 0 16 0, .fpToInteger 0 0 16, .q31ToFp 5 0 0] : List Instr).all (fun c => !c.wf)) = true := by
  decide +kernel

theorem wf_refuses_6 : ((
    [.q31ToFp 0 16 0, .q31ToFp 0 0 16, .fpToQ31 5 0 0, .fpToQ31 0 16 0, .fpToQ31 0 0 16, .frcp 5 0 0, .frcp 0
    16 0, .frcp 0 0 16, .mac 5 0 0 0 ⟨false, false, false, false⟩, .mac 0 4 0 0 ⟨false, false, false, false⟩,
    .mac 0 0 16 0 ⟨false, false, false, false⟩, .mac 0 0 0 16 ⟨false, false, false, false⟩, .rda 5 0 0 0, .rda
    0 16 0 0, .rda 0 0 4 0, .rda 0 0 0 64, .mva 5 0 0 0, .mva 0 4 0 0, .mva 0 0 16 0, .mva 0 0 0 64, .clr 5 0,
    .clr 0 4, .rdg 5 0 0, .rdg 0 16 0, .rdg 0 0 4, .ld 5 0 0 .postModify .word, .ld 0 16 0 .postModify .word,
    .ld 0 0 8 .postModify .word, .st 5 0 0 .postModify .word, .st 0 16 0 .postModify .word, .st 0 0 8
    .postModify .word, .pmvPFromD 5 0 0, .pmvPFromD 0 8 0, .pmvPFromD 0 0 16, .pmvDFromP 5 0 0, .pmvDFromP 0 16
    0, .pmvDFromP 0 0 8, .pmvMFromD 5 0 0, .pmvMFromD 0 8 0, .pmvMFromD 0 0 16] : List Instr).all (fun c => !c.wf)) = true := by
  decide +kernel

theorem wf_refuses_7 : ((
    [.pmvDFromM 5 0 0, .pmvDFromM 0 16 0, .pmvDFromM 0 0 8, .padd 5 0 0 0, .padd 0 8 0 0, .padd 0 0 8 0, .mset
    5 0 0, .mset 0 8 0, .mlen 5 0 0, .mlen 0 8 0, .ldp 5 0 0 0, .ldp 0 8 0 0, .ldp 0 0 8 0, .b 5 .always 0,
    .call 5 0, .jr 5 0, .jr 0 16, .rep 5 0 1, .rep 0 65536 1, .rep 0 0 0, .rep 0 0 1025, .repr 5 0 1, .repr 0
    16 1, .repr 0 0 0, .repr 0 0 1025, .brk 5, .wait 5, .rti 5, .mrs 5 0, .mrs 0 16, .msr 5 0, .msr 0 16, .ei
    5, .di 5, .rdc 5 0, .rdc 0 16, .fmad 5 0 0 0 none none, .fmad 0 4 0 0 none none, .fmad 0 0 16 0 none none,
    .fmad 0 0 0 16 none none] : List Instr).all (fun c => !c.wf)) = true := by
  decide +kernel

theorem wf_refuses_8 : ((
    [.fmad 0 0 0 0 (some ⟨16, 0⟩) none, .fmad 0 0 0 0 (some ⟨0, 8⟩) none, .fmad 0 0 0 0 none (some ⟨16, 0⟩),
    .fmad 0 0 0 0 none (some ⟨0, 8⟩), .macd 5 0 0 0 none none, .macd 0 4 0 0 none none, .macd 0 0 16 0 none
    none, .macd 0 0 0 16 none none, .macd 0 0 0 0 (some ⟨16, 0⟩) none, .macd 0 0 0 0 (some ⟨0, 8⟩) none, .macd
    0 0 0 0 none (some ⟨16, 0⟩), .macd 0 0 0 0 none (some ⟨0, 8⟩), .ld2 5 none none, .ld2 0 (some ⟨16, 0⟩)
    none, .ld2 0 (some ⟨0, 8⟩) none, .ld2 0 none (some ⟨16, 0⟩), .ld2 0 none (some ⟨0, 8⟩), .ldmboxWrite (.wide
    4) 0, .restart (.wide 4) 0, .restart .host 5, .stop (.wide 4) 0, .stop .host 5, .erase (.wide 4) 0, .erase
    .host 2, .program (.wide 4) 0 0, .program .host 2 0, .program .host 0 257, .verify (.wide 4) 0, .verify
    .host 2, .invalidate (.wide 4) 0, .invalidate .host 2, .reboot (.wide 4), .fpcmdGo (.wide 4) 0 false,
    .commandFrame (.udp 0 65536 0 .pair) [], .read (.udp 0 65536 0 .pair) 0 [], .write (.udp 0 65536 0 .pair) 0
    [], .queueMove (.udp 0 65536 0 .pair) 0 [], .bankWrite (.udp 0 65536 0 .pair) 0 [], .subscribe (.udp 0
    65536 0 .pair) 0 [], .recordRead (.udp 0 65536 0 .pair) 0 []] : List Instr).all (fun c => !c.wf)) = true := by
  decide +kernel

theorem wf_refuses_9 : ((
    [.image (.udp 0 65536 0 .pair) 0 [], .headState (.udp 0 65536 0 .pair) 0 [], .pulseEnd 8, .registerWrite
    (.wide 4) 0 0, .registerWrite .host 4294967296 0, .pwrcmdDeep (.wide 4), .wake 32, .supplyWarning .core
    4096, .wdkick (.wide 4) 0, .tretReceived { laneOk with clk := 3125 }, .txqReceived { laneOk with clk :=
    3125 }, .tlinkReceived { laneOk with clk := 3125 }, .sfbMatchTimeout 4, .fupReceived { rxOk with ch := 2 },
    .fupReceived { rxOk with port := 2 }, .shl 0 0 0 (.reg 16), .append (.axis 128) .host, .read (.udp 0 0
    281474976710656 .pair) 0 [], .tcopyReceived ⟨0, true, .bank 128 [] [] false false 0⟩, .tcopyReceived ⟨0,
    true, .bank 0 (List.replicate 257 0) [] false false 0⟩, .tcopyReceived ⟨0, true, .bank 0 [] (List.replicate
    257 0) false false 0⟩, .tcopyReceived ⟨0, true, .ladle 4 []⟩, .tcopyReceived ⟨0, true, .ladle 0
    (List.replicate 16385 0)⟩, .tcopyReceived ⟨0, true, .owner (.axis 128) {} none⟩, .tcopyReceived ⟨0, true,
    .group 128 {}⟩, .tcopyReceived ⟨0, true, .mover 128 {} []⟩, .tcopyReceived ⟨0, true, .mover 0 {} [(128,
    {})]⟩] : List Instr).all (fun c => !c.wf)) = true := by
  decide +kernel

/-! ### Small states -/

/-- A unit in ACTIVE in round 640. -/
def A : State := { State.reset with sys := { hstate := .active, round := 640#32, ms := 5, roundRan := true } }
/-- Configuration words by their fields (hi, lo, value), and whole. -/
def cf (l : List (Nat × List (Nat × Nat × Nat))) (s : State) : State :=
  { s with cfg := l.foldl (fun t x => tset t x.1 (packWord x.2)) s.cfg }
def cw (l : List (Nat × Nat)) (s : State) : State :=
  { s with cfg := l.foldl (fun t x => tset t x.1 (BitVec.ofNat 32 x.2)) s.cfg }
def inState (h : HeadState) (s : State) : State := { s with sys := { s.sys with hstate := h } }
def rnd (r : Nat) (s : State) : State := { s with sys := { s.sys with round := BitVec.ofNat 32 r } }
def axs (a : Nat) (st : AxState) (f : Axis → Axis := id) (s : State) : State :=
  setAx s a (f { (getAx s a) with ctl := { (getAx s a).ctl with st := st } })
def kind (a k : Nat) : State → State := cf [(axW a + 0x200, [(1, 0, k)])]
/-- Axes `ms` as members of group g of a type. -/
def grp (g ty : Nat) (ms : List Nat) : State → State :=
  cf ([(grW g + 8, [(7, 0, ms.length)]), (grW g + 0xC, [(2, 0, ty)])] ++
    [(grW g + 0x80, ms.mapIdx (fun i m => (8 * i + 7, 8 * i, m)))])
/-- Node n in a state, attached to both channels, serving axis a. -/
def node (n a st : Nat) (s : State) : State :=
  let t := cf [(ndW n, [(31, 31, 1), (30, 30, 1), (29, 29, 1), (3, 0, 1)])] (cf [(ndW n + 0x20, [(31, 8, 0xffffff), (7, 0, a)])] s)
  modNode (modNode t 0 n (fun x => { x with st := st })) 1 n (fun x => { x with st := st })
def chon : State → State := cf [(lkW 0, [(31, 31, 1)]), (lkW 1, [(31, 31, 1)])]
/-- Entry idx of a channel's schedule. -/
def sch (ch idx ax : Nat) (up : Bool) (nd ty start aux rmask : Nat) (s' : State) : State :=
  let s := cw [(0x80000010, 0), (0x80000014, 0x10000)] s'
  let w0 := packWord [(31, 31, 1), (30, 24, ax), (23, 23, b2n up), (22, 17, nd), (15, 12, ty), (11, 0, start)]
  let w1 := packWord [(20, 16, aux), (15, 0, rmask)]
  { s with mem := mwrite 0 s.mem (schedAddr s ch false + 8 * idx) (leBytes 4 w0.toNat ++ leBytes 4 w1.toNat) }
/-- Both channels have their MARK of round 640. -/
def marked (s : State) : State :=
  let f := fun (c : Chan) => { c with now0 := some 100, now1 := some 100, mark := some (640#32, 0) }
  modCh (modCh s 0 f) 1 f
/-- A slot of node 3's schedule entry in round 640. -/
def slotIn (ch idx ty start : Nat) (pay : List Byte) : RxSlot :=
  { ch := ch, port := 0, start := start, arrival := 50 * start + 500, codeErr := false
    bytes := slotBytes (slotHdr ch idx ty) (640 % 256) 0 pay }
def tw (f : Twin → Twin) (s : State) : State := { s with twin := f s.twin }
/-- The twin lane in use. -/
def lane (s : State) : State :=
  tw (fun t => { t with locked := true, sinceLease := 0 }) (cf [(0x40400000, [(31, 31, 1), (22, 16, 4), (11, 8, 2)])] s)
def laneSlot (ty : Nat) (pay : List Byte) : LaneSlot :=
  { arrival := -70000, clk := 5, codeErr := false, bytes := slotBytes ((pad16 pay).length * 16 + ty) 1 0 (pad16 pay) }
def casc : State → State := cf [(0x40410000, [(31, 31, 1), (23, 16, 2)])]
def sg (f : Saggar → Saggar) (s : State) : State := { s with sag := f s.sag }
/-- Saggar in NORMAL, in TEST-free service, with the seal open. -/
def N : State := sg (fun g => { g with st := 1, sagOk := true }) A
def sealed (s : State) : State := sg (fun g => { g with sealPin := false, pwdOk := true }) s
def brk (b n grp num : Nat) : State → State := cf [(0x40500100 + 4 * b, [(31, 31, 1), (27, 22, n), (21, 19, 0), (7, 7, grp), (6, 0, num)])]
def psf (f : Pstage → Pstage) (s : State) : State := { s with ps := f s.ps }
def rt (l : List (Nat × RetCh)) (s : State) : State := { s with ret := { s.ret with chans := l } }
def rc (f : Recorder → Recorder) (s : State) : State := { s with rcd := f s.rcd }
def bt (f : Boot → Boot) (s : State) : State := { s with boot := f s.boot }
def inReset (s : State) : State := { s with sys := { s.sys with inReset := true } }
/-- The over-voltage detectors, one sigma-delta input and a chopper channel enabled. -/
def ana : State → State := cf [(0x40330000, [(23, 23, 1), (9, 0, 1000)]), (0x40330100, [(31, 31, 1)]), (0x40330020, [(31, 31, 1), (29, 20, 1)])]
/-- The payload of an FUP that answers a test step. -/
def fupOf (code t u flg v0 v2 udc v12 : Nat) : List Byte :=
  beBytes 2 v0 ++ beBytes 2 v2 ++ beBytes 2 udc ++ beBytes 2 flg ++ List.replicate 4 0 ++ beBytes 2 v12 ++
    beBytes 2 (code * 16384 + t * 4096 + u * 1024)
/-- Axis 1 of node 3 in a test step, with the FUP of the present sample. -/
def stepAx (step k : Nat) (pay : Option (List Byte)) (s : State) : State :=
  { cw [(axW 1 + 0x28C, 0x7f000000), (ndW 3 + 0x28, 0x3f800000), (ndW 3 + 0x2C, 0x3f800000), (ndW 3 + 0x30, 0x3f800000),
      (ndW 3 + 0x34, 0x3f800000), (ndW 3 + 0x38, 0x3f800000)] (cf [(axW 1 + 0x280, [(7, 0, 4)])] (kind 1 k (node 3 1 3
      (axs 1 .prestart (fun x => { x with stage := { x.stage with seq := .prestart, step := step, applyAt := 600#32 } }) s)))) with
    inbuf := match pay with
      | some p => [(inKey 1 639#32, { fup := some p })]
      | none => [] }
/-- Core c runs at pc, with its code in place; the partition LADLE holds 0x10000 to 0x1FFFF. -/
def core (c pc : Nat) (f : Core → Core := id) : State :=
  let s := cw [(0x80000000 + 8 * ptLADLE, 0x10000), (0x80000004 + 8 * ptLADLE, 0x10000), (0x40700104, 0x00020001)] A
  let k : Core := { st := 1, pc := BitVec.ofNat 32 pc, axis := if c < 4 then some (32 * c) else none, limit := if c < 4 then 5000 else 0 }
  { s with lad := { s.lad with cores := tset s.lad.cores c (f k) } }
def K : State := core 4 0x40708010
/-- With an interrupt of the compact core pending. -/
def pend (s : State) : State := { s with lad := { s.lad with ipend := 1 } }
def hp (f : HostPort → HostPort) (s : State) : State := { s with host := f s.host }
def hostCmd (op : Nat) (pl : List Word) : HostCmd :=
  { snd := .spi, seq := 77#32, op := op, pl := pl, round := 640#32, fwd := false, ok := true }
def waits (c : HostCmd) (s : State) : State := hp (fun h => { h with waiting := [c] }) s
/-- A unit with an image in slot 0 and the network set. -/
def I : State := hp (fun h => { h with netOk := true, link := true }) (bt (fun b => { b with slot := 0, inact := 1 }) A)
def own (a : Nat) : State → State := cw [(axW a + 0x370, 100)]
def remote (g : Nat) : State → State := cf [(grW g + 0x200, [(31, 31, 1), (26, 24, 2), (18, 16, 1)])]

/-- A command frame with SEQ 9 (R390). -/
def frameOf (op : Nat) (pl : List Word) : List Byte :=
  let l := beBytes 2 0x4843 ++ [1, 0] ++ beBytes 4 9 ++ beBytes 2 op ++ beBytes 2 0 ++ beBytes 2 (4 * pl.length) ++ beBytes 2 0 ++
    pl.flatMap (fun w => beBytes 4 w.toNat)
  l ++ beBytes 4 (crc32 l)
/-- A UDP datagram from 0.0.0.0 to 0.0.0.0 in an IPv4 packet. -/
def ipPacket (b : List Byte) : List Byte :=
  let h := fun (sum : Nat) => [0x45#8, 0#8] ++ beBytes 2 (20 + b.length) ++ List.replicate 4 0#8 ++ [64#8, 17#8] ++ beBytes 2 sum ++ List.replicate 8 0#8
  h (ipSum (h 0)) ++ b

/-- A standby, unit of the preferred kind, that may take its right back. -/
def HB : State :=
  let s := lane { inState .standby N with sys := { (inState .standby N).sys with pref := true } }
  tw (fun t => { t with cfgEq := true, gradeEq := true, holdMs := 4294967296, digRun := 0 }) s

/-! ### The hypotheses of the statements can be met -/

theorem met_EnableRunUnpark :
    (∃ (s : State) (a : Nat), headTakes s = true ∧ axSt s a = .off ∧ kindOf s a = 0 ∧ mayEnable s a = true) ∧
    (∃ (s : State) (a : Nat), headTakes s = true ∧ axSt s a = .off ∧ kindOf s a ≠ 0 ∧ mayEnable s a = true) ∧
    (∃ (s : State) (a : Nat) (c : Instr), headTakes s = true ∧ parentMoves s a = false ∧ (c = .run a ∧ axSt s a
    = .ready ∨ c = .unpark a ∧ axSt s a = .park)) :=
  ⟨⟨A, 127, by decide +kernel⟩,
   ⟨(node 3 1 3 (kind 1 1 A)), 1, by decide +kernel⟩,
   ⟨(axs 1 .ready id A), 1, (.run 1), by decide +kernel⟩⟩

theorem met_ParkQstopDisable :
    (∃ (s : State) (a : Nat), headTakes s = true ∧ axSt s a = .run ∧ atRest s (topOwner s a) = true ∧ (getProf
    s (topOwner s a)).queue = []) ∧
    (∃ (s : State) (a : Nat), headTakes s = true ∧ axSt s a = .run ∧ parentOf s a = none) ∧
    (∃ (s : State) (a : Nat) (g : Nat), headTakes s = true ∧ axSt s a = .run ∧ parentOf s a = some g) ∧
    (∃ (s : State) (a : Nat), headTakes s = true ∧ (axSt s a = .prestart ∨ axSt s a = .ready ∨ axSt s a =
    .park)) :=
  ⟨⟨(axs 1 .run (fun x => { x with prof := { x.prof with rest := true } }) A), 1, by decide +kernel⟩,
   ⟨(axs 1 .run id A), 1, by decide +kernel⟩,
   ⟨(axs 1 .run id (grp 2 0 [1, 3] A)), 1, 2, by decide +kernel⟩,
   ⟨(axs 1 .park id A), 1, by decide +kernel⟩⟩

theorem met_AxisResetAndRefusal :
    (∃ (s : State) (a : Nat), axSt s a = .fault ∧ causeActive s a = false ∧ (getAx s a).ctl.brkApp = true) ∧
    (∃ (s : State) (a : Nat), (getAx s a).ctl.wait = .brakePark ∨ (getAx s a).ctl.wait = .none) ∧
    (∃ (s : State) (a : Nat) (c : Instr), a < 128 ∧ (c = .enable a ∧ axSt s a ≠ .off ∨ c = .run a ∧ axSt s a ≠
    .ready ∨ c = .park a ∧ axSt s a ≠ .run ∨ c = .unpark a ∧ axSt s a ≠ .park ∨ c = .qstop a ∧ axSt s a ≠ .run
    ∨ c = .reset a ∧ axSt s a ≠ .fault ∨ headTakes s = false ∧ c ∈ [.enable a, .run a, .park a, .unpark a,
    .qstop a, .disable a])) :=
  ⟨⟨(axs 1 .fault (fun x => { x with ctl := { x.ctl with brkApp := true } }) A), 1, by decide +kernel⟩,
   ⟨(axs 1 .run (fun x => { x with ctl := { x.ctl with wait := .brakePark } }) A), 1, by decide +kernel⟩,
   ⟨A, 127, (.run 127), by decide +kernel⟩⟩

theorem met_CoefficientSwap :
    (∃ (s : State) (a : Nat), (getAx s a).ctl.swapPend = false ∧ bankOk s a (!(getAx s a).ctl.bank) = true) ∧
    (∃ (s : State) (a : Nat), a < 128 ∧ ((getAx s a).ctl.swapPend = true ∨ bankOk s a (!(getAx s a).ctl.bank) =
    false)) ∧
    (∃ (s : State) (a : Nat), a < 128 ∧ (getAx s a).ctl.swapPend = true ∧ (getAx s a).ctl.swapAt = s.sys.round)
    :=
  ⟨⟨A, 127, by decide +kernel⟩,
   ⟨(axs 127 .run (fun x => { x with ctl := { x.ctl with swapPend := true } }) A), 127, by decide +kernel⟩,
   ⟨(axs 0 .run (fun x => { x with ctl := { x.ctl with swapPend := true, swapAt := 640#32 } }) A), 0,
    by decide +kernel⟩⟩

theorem met_GroupCommands :
    (∃ (s : State), headTakes s = true) ∧
    (∃ (s : State) (g : Nat), isMover s g = true ∧ (groupState s g = 0 ∨ groupState s g = 6)) ∧
    (∃ (s : State) (g : Nat), isMover s g = false) :=
  ⟨⟨A, by decide +kernel⟩,
   ⟨(grp 2 3 [1] A), 2, by decide +kernel⟩,
   ⟨A, 2, by decide +kernel⟩⟩

theorem met_ProfileCommands :
    (∃ (s : State) (o : Owner) (m : Master), State.reaches m (ownW o + 0x300) s) ∧
    (∃ (s : State) (a : Nat) (m : Master), a < 128 ∧ State.reaches m (ownW (.axis a) + 0x300) s ∧ 32 ≤ queueLen
    (getAx s a).prof) ∧
    (∃ (s : State) (a : Nat) (m : Master) (c : Instr), a < 128 ∧ State.reaches m (ownW (.axis a) + 0x300) s ∧
    axSt s a ≠ .run ∧ c ∈ [.replace (.axis a) m, .chglim (.axis a) m, .clear (.axis a) m, .ref (.axis a) m]) :=
  ⟨⟨(own 1 A), (.axis 1), .host, by unfold State.reaches; decide +kernel⟩,
   ⟨(axs 127 .run (fun x => { x with prof := { x.prof with queue := List.replicate 32 {} } }) A), 127, .host,
    by unfold State.reaches; decide +kernel⟩,
   ⟨(axs 1 .ready id A), 1, .compact, (.ref (.axis 1) .compact), by unfold State.reaches; decide +kernel⟩⟩

theorem met_ArmingAndLocalPorts :
    (∃ (s : State) (a : Nat) (w : Word), bit w 8 = true ∨ (getAx s a).prof.refPhase = .idle) ∧
    (∃ (s : State) (a : Nat) (w : Word), bit w 8 = false ∧ (getAx s a).prof.refPhase ≠ .idle) ∧
    (∃ (s : State) (pin : Nat) (level : Bool) (len : Nat), pin < 8 ∧ s.fbk.level.getLsbD pin ≠ level ∧
    Cfg.LPRBFLT_FLT s ≤ len ∧ fbkStopped s = false) ∧
    (∃ (s : State) (len : Nat), len < Cfg.LPRBFLT_FLT s) ∧
    (∃ (s : State) (k : Nat), Cfg.LENCCFG_EN s k = true ∧ Cfg.LENCCFG_TYPE s k = 0 ∧ fbkStopped s = false) ∧
    (∃ (s : State) (k : Nat), ssiPort s k = true ∧ s.sys.round.toNat % 2 ^ Cfg.LENCCFG_SSIPER s k = 0) ∧
    (∃ (s : State) (k : Nat), ssiPort s k = true ∧ (getPort s k).frame = true) :=
  ⟨⟨A, 1, 0#32, by decide +kernel⟩,
   ⟨(axs 1 .run (fun x => { x with prof := { x.prof with refPhase := .away } }) A), 1, 0#32, by decide +kernel⟩,
   ⟨A, 7, true, 0, by decide +kernel⟩,
   ⟨(cf [(0x40320084, [(3, 0, 2)])] A), 1, by decide +kernel⟩,
   ⟨(cf [(0x40320000, [(31, 31, 1)])] A), 0, by decide +kernel⟩,
   ⟨(cf [(0x40320010, [(31, 31, 1), (23, 22, 1)])] A), 1, by decide +kernel⟩,
   ⟨{ cf [(0x40320010, [(31, 31, 1), (23, 22, 1)])] A with fbk := { ports := [(1, { frame := true })] } }, 1,
    by decide +kernel⟩⟩

theorem met_RemoteGear :
    (∃ (s : State) (g : Nat), s.sys.round.toNat % 4 = 3 ∧ s.sys.pwr = .run ∧ (groupsOf s).filter (isRemote s) =
    [g] ∧ exportHere s g = true) ∧
    (∃ (s : State) (r : LaneSlot), Cfg.CSCFG_EN s = true ∧ s.sys.hstate ≠ .boot ∧ r.codeErr = false ∧
    cascRetired s = false ∧ rxCrcOk 48 r.bytes = true ∧ rxHdr r.bytes % 16 = 2 ∧ s.casc.rndErr = false ∧ rxSeq
    r.bytes = s.sys.round.toNat % 256 ∧ (exportOf (rxPayload r.bytes)).tick = s.sys.round ∧ followed s (rxHdr
    r.bytes / 8192 % 8 * 8 + rxHdr r.bytes / 16 % 8) = true) :=
  ⟨⟨(remote 2 (grp 2 1 [1] { rnd 643 A with casc := { exports := [(17, { tick := 643#32, valid := true })] } })),
    2, by decide +kernel⟩,
   ⟨(casc (remote 2 (grp 2 1 [1] (rnd 643 A)))),
    { arrival := 0, clk := 100, codeErr := false, bytes := slotBytes (2 + 16 * 1 + 8192 * 2) (643 % 256) 0 (List.replicate 40 7#8 ++ beBytes 4 643 ++ List.replicate 4 0#8) },
    by decide +kernel⟩⟩

theorem met_ClusterWakeNotes :
    (∃ (s : State) (c : Nat), clusterOn s c = true ∧ s.sys.inReset = false ∧ s.sys.hstate ≠ .boot ∧ s.sys.pwr =
    .run) :=
  ⟨A, 0, by decide +kernel⟩

theorem met_FdnDeparture :
    (∃ (s : State) (a : Nat) (e : SEntry) (st : Staged) (nd : Nat) (k : Nat), s.sys.inReset = false ∧
    s.sys.hstate ≠ .boot ∧ s.sys.pwr = .run ∧ fdnEntry s a = some e ∧ stagedFor (getAx s a).pred s.sys.round =
    some st ∧ sendsNow s = true ∧ axisNode s a = some (nd, k) ∧ isRetired s clsNode nd = false ∧ ovForced s a =
    false) ∧
    (∃ (s : State) (a : Nat) (e : SEntry), a < 128 ∧ s.sys.inReset = false ∧ s.sys.hstate ≠ .boot ∧ s.sys.pwr =
    .run ∧ fdnEntry s a = some e ∧ stagedFor (getAx s a).pred s.sys.round = none ∧ sendsNow s = true) :=
  ⟨⟨(sch 0 64 1 false 3 3 100 0 0xffff (node 3 1 3 (axs 1 .run (fun x => { x with pred := { x.pred with staged := some ⟨640#32, List.replicate 16 9#8⟩ } }) A))),
    1, ⟨64, 1, false, 3, 3, 100, 0, 0xffff⟩, ⟨640#32, List.replicate 16 9#8⟩, 3, 0, by decide +kernel⟩,
   ⟨(sch 0 64 1 false 3 3 100 0 0xffff (node 3 1 3 A)), 1, ⟨64, 1, false, 3, 3, 100, 0, 0xffff⟩, by decide +kernel⟩⟩

theorem met_SliceOverrunStops :
    (∃ (s : State) (c : Nat) (a : Nat) (l : List Nat), a < 128 ∧ (getCore s c).overran = a :: l) :=
  ⟨{ A with lad := { cores := [(1, { overran := [1, 2], axis := some 1, st := 1 })] } }, 1, 1, [2],
    by decide +kernel⟩

theorem met_UpstreamSlots :
    (∃ (s : State) (u : State) (r : RxSlot) (e : SEntry), acceptUp r tyFUP s = (u, some e) ∧ s.sys.pwr ≠ .deep)
    ∧
    (∃ (s : State) (u : State) (r : RxSlot) (e : SEntry), acceptUp r tyPOS s = (u, some e) ∧ s.sys.pwr ≠ .deep)
    ∧
    (∃ (s : State) (u : State) (r : RxSlot) (e : SEntry), acceptUp r tyDIAG s = (u, some e)) ∧
    (∃ (s : State) (r : RxSlot) (e : SEntry) (c : Instr), c ∈ [.fupReceived r, .posReceived r, .diagReceived r,
    .svcReply r] ∧ takesUp s = true ∧ chOn s r.ch = true ∧ expected s r = some e ∧ pairRole s = false ∧
    secondPass s r.ch = false) :=
  ⟨⟨(marked (sch 0 100 1 true 3 2 200 0 0xffff (chon (node 3 1 3 A)))),
    (acceptUp (slotIn 0 100 tyFUP 200 [3, 5, 1, 0, 0, 0, 0, 0, 0x12, 0x34, 0x56, 0x78, 0, 0, 0, 0]) tyFUP (marked (sch 0 100 1 true 3 2 200 0 0xffff (chon (node 3 1 3 A))))).1,
    (slotIn 0 100 tyFUP 200 [3, 5, 1, 0, 0, 0, 0, 0, 0x12, 0x34, 0x56, 0x78, 0, 0, 0, 0]),
    ⟨100, 1, true, 3, 2, 200, 0, 0xffff⟩, Prod.ext rfl (by decide +kernel), by decide +kernel⟩,
   ⟨(marked (sch 0 100 1 true 3 4 200 0 0xffff (chon (node 3 1 3 A)))),
    (acceptUp (slotIn 0 100 tyPOS 200 [3, 5, 1, 0, 0, 0, 0, 0, 0x12, 0x34, 0x56, 0x78, 0, 0, 0, 0]) tyPOS (marked (sch 0 100 1 true 3 4 200 0 0xffff (chon (node 3 1 3 A))))).1,
    (slotIn 0 100 tyPOS 200 [3, 5, 1, 0, 0, 0, 0, 0, 0x12, 0x34, 0x56, 0x78, 0, 0, 0, 0]),
    ⟨100, 1, true, 3, 4, 200, 0, 0xffff⟩, Prod.ext rfl (by decide +kernel), by decide +kernel⟩,
   ⟨(marked (sch 0 100 1 true 3 7 200 0 0xffff (chon (node 3 1 3 A)))),
    (acceptUp (slotIn 0 100 tyDIAG 200 [3, 5, 1, 0, 0, 0, 0, 0, 0x12, 0x34, 0x56, 0x78, 0, 0, 0, 0]) tyDIAG (marked (sch 0 100 1 true 3 7 200 0 0xffff (chon (node 3 1 3 A))))).1,
    (slotIn 0 100 tyDIAG 200 [3, 5, 1, 0, 0, 0, 0, 0, 0x12, 0x34, 0x56, 0x78, 0, 0, 0, 0]),
    ⟨100, 1, true, 3, 7, 200, 0, 0xffff⟩, Prod.ext rfl (by decide +kernel)⟩,
   ⟨(marked (sch 0 100 1 true 3 2 200 0 0xffff (chon (node 3 1 3 (inState .standby A))))),
    (slotIn 0 100 tyFUP 200 [3, 5, 1, 0, 0, 0, 0, 0, 0x12, 0x34, 0x56, 0x78, 0, 0, 0, 0]),
    ⟨100, 1, true, 3, 2, 200, 0, 0xffff⟩,
    (.fupReceived (slotIn 0 100 tyFUP 200 [3, 5, 1, 0, 0, 0, 0, 0, 0x12, 0x34, 0x56, 0x78, 0, 0, 0, 0])),
    by decide +kernel⟩⟩

theorem met_ReplyAndSilence :
    (∃ (s : State) (u : State) (r : RxSlot) (e : SEntry), acceptUp r tySVC s = (u, some e) ∧ (getNode u r.ch
    e.node).asked.find? (fun q => q.1 = beNat (rxPayload r.bytes) 1 1) = some (beNat (rxPayload r.bytes) 1 1,
    0) ∧ beNat (rxPayload r.bytes) 0 1 = 3 ∧ beNat (rxPayload r.bytes) 3 1 = 0 ∧ identOk s e.node (BitVec.ofNat
    32 (beNat (rxPayload r.bytes) 8 4)) = true) ∧
    (∃ (s : State) (ch : Nat) (n : Nat), n < 64 ∧ pairRole s = true ∧ chOn s ch = true ∧ (getCh s ch).lost =
    false ∧ (getNode s ch n).st = 3 ∧ 2 * hyperOf s ch ≤ (getNode s ch n).silent) :=
  ⟨⟨(marked (sch 0 1987 1 true 3 6 500 0 0xffff (chon (modNode (node 3 1 3 (cw [(ndW 3 + 0x0C, 0x12345678), (ndW 3 + 0x4, 0x12345678), (ndW 3 + 0x8, 0x12345678)] A)) 0 3 (fun d => { d with asked := [(5, 0)] }))))),
    (acceptUp (slotIn 0 1987 tySVC 500 [3, 5, 1, 0, 0, 0, 0, 0, 0x12, 0x34, 0x56, 0x78, 0, 0, 0, 0]) tySVC (marked (sch 0 1987 1 true 3 6 500 0 0xffff (chon (modNode (node 3 1 3 (cw [(ndW 3 + 0x0C, 0x12345678), (ndW 3 + 0x4, 0x12345678), (ndW 3 + 0x8, 0x12345678)] A)) 0 3 (fun d => { d with asked := [(5, 0)] })))))).1,
    (slotIn 0 1987 tySVC 500 [3, 5, 1, 0, 0, 0, 0, 0, 0x12, 0x34, 0x56, 0x78, 0, 0, 0, 0]),
    ⟨1987, 1, true, 3, 6, 500, 0, 0xffff⟩, Prod.ext rfl (by decide +kernel), by decide +kernel⟩,
   ⟨(modNode (chon (node 3 1 3 A)) 1 3 (fun d => { d with silent := 2 })), 1, 3, by decide +kernel⟩⟩

theorem met_NodeJoins :
    (∃ (s : State) (ch : Nat) (n : Nat), pairRole s = true ∧ (getNode s ch n).st = 1) ∧
    (∃ (s : State) (ch : Nat) (n : Nat), (getNode s ch n).st = 1 ∧ (getNode s ch n).loaded = true ∧ later
    s.sys.round ((getNode s ch n).countAt + BitVec.ofNat 32 (2 * hyperOf s ch - 1)) = true) ∧
    (∃ (s : State) (ch : Nat) (n : Nat), takesUp s = true ∧ pairRole s = false ∧ (getNode s ch n).st = 2 ∨
    (getNode s ch n).st = 4 ∧ nodeHeard s ch n = true ∧ hyperFull s ch n = true) :=
  ⟨⟨(chon (node 3 1 1 A)), 0, 3, by decide +kernel⟩,
   ⟨(modNode (chon (node 3 1 1 A)) 0 3 (fun d => { d with loaded := true, countAt := 600#32 })), 0, 3,
    by decide +kernel⟩,
   ⟨(modNode (sch 0 100 1 true 3 2 200 0 0xffff (chon (node 3 1 2 (inState .standby A)))) 0 3 (fun d => { d with hyper := 640#32, seen := [(100, 0)] })),
    0, 3, by decide +kernel⟩⟩

theorem met_ChannelFaults :
    (∃ (s : State), pairRole s = false) ∧
    (∃ (s : State) (ch : Nat) (o : ChanObs), ch < 2 ∧ pairRole s = true ∧ chOn s ch = true ∧ (getCh s ch).lost
    = false ∧ 1 ≤ (getCh s ch).noReturn ∧ o.ring0 = none ∧ o.ring1 = none) ∧
    (∃ (s : State) (o : Nat), o < 2 ∧ s.link.skim = some o ∧ 16 ≤ (getCh s (1 - o)).returned ∧
    s.sys.round.toNat % 16 = 0 ∧ isRetired s clsChannel (1 - o) = false ∧ (∀ n ∈ nodesOn s (1 - o), delayBad s
    (1 - o) n = false)) ∧
    (∃ (s : State) (ch : Nat), repeatsLanes s = true ∧ (getCh s ch).wrapPort = none) ∧
    (∃ (s : State), repeatsLanes s = false) ∧
    (∃ (s : State) (ch : Nat) (b : Nat), pairRole s = true ∧ (getCh s ch).hseg = some b ∧ (getRet s clsSegment
    (ch * 64 + b)).st = .inUse) ∧
    (∃ (s : State) (ch : Nat) (p : Nat), pairRole s = false ∧ (getCh s ch).wrapPort = some p ∧ (getCh s
    ch).unwrapping = true ∧ s.sys.round.toNat % 16 = 0 ∧ (if p = 0 then (getCh s ch).lock0 && (getCh s
    ch).align0 else (getCh s ch).lock1 && (getCh s ch).align1) = true ∧ Config.roundsPerMs ≤ (getCh s
    ch).lockRounds) :=
  ⟨⟨(inState .standby A), by decide +kernel⟩,
   ⟨(modCh (chon A) 1 (fun c => { c with noReturn := 1 })), 1,
    ⟨none, none, false, true, true, false, false, true, true, 0⟩, by decide +kernel⟩,
   ⟨(let t := modCh (chon A) 0 (fun c => { c with returned := 16 }); { t with link := { t.link with skim := some 1 } }),
    1, by decide +kernel⟩,
   ⟨(inState .listen (chon A)), 1, by decide +kernel⟩,
   ⟨A, by decide +kernel⟩,
   ⟨(modCh (chon A) 1 (fun c => { c with hseg := some 33 })), 1, 33, by decide +kernel⟩,
   ⟨(modCh (chon (inState .standby A)) 1 (fun c => { c with wrapPort := some 0, unwrapping := true, lockRounds := 128, lock0 := true, align0 := true })),
    1, 0, by decide +kernel⟩⟩

theorem met_StartUp :
    (∃ (s : State), s.sys.hstate = .listen ∧ s.sys.listenTimer = 0 ∧ s.casc.st ≠ 1) ∧
    (∃ (s : State), s.sys.hstate = .coldstart ∧ Config.startRounds ≤ s.sys.stateRounds ∧ s.sag.stored = none) ∧
    (∃ (s : State) (r : RxSlot), s.sys.hstate = .coldstart ∧ chOn s r.ch = true ∧ r.codeErr = false ∧ rxCrcOk 6
    r.bytes = true ∧ rxHdr r.bytes % 16 = tyMARK ∧ r.start = 0 ∧ rxSeq r.bytes = (markOf r.bytes).round.toNat %
    256 ∧ rxEpl r.bytes = (markOf r.bytes).epoch % 256 ∧ (markOf r.bytes).chead = Cfg.CSCFG_CHEAD s ∧ (markOf
    r.bytes).alt ≠ isAlt s) :=
  ⟨⟨(inState .listen A), by decide +kernel⟩,
   ⟨(let t := inState .coldstart A; { t with sys := { t.sys with stateRounds := 16 } }), by decide +kernel⟩,
   ⟨(chon (inState .coldstart A)),
    { ch := 0, port := 1, start := 0, arrival := 0, codeErr := false, bytes := slotBytes ((if (isAlt A) then 0 else 256) * 16 + 1) (700 % 256) 3 (beBytes 4 700 ++ beBytes 2 3) },
    by decide +kernel⟩⟩

theorem met_LaneSlots :
    (∃ (s : State) (r : LaneSlot) (p : List Byte), laneTake s twTLEASE r = some p ∧ s.sys.hstate = .active) ∧
    (∃ (s : State) (r : LaneSlot) (p : List Byte), laneTake s twTDIG r = some p ∧ s.sys.hstate = .active ∧
    entryLacks s = false) ∧
    (∃ (s : State) (r : LaneSlot) (p : List Byte), laneTake s twTRET r = some p ∧ shadows s = true) ∧
    (∃ (s : State) (r : LaneSlot) (p : List Byte), laneTake s twTXQ r = some p ∧ s.twin.entry = true ∧
    s.twin.matched < 16) ∧
    (∃ (s : State) (r : LaneSlot) (p : List Byte), laneTake s twTLINK r = some p ∧ pairRole s = true) ∧
    (∃ (s : State) (r : LaneSlot), (r.codeErr = true ∨ s.sys.hstate = .boot ∨ laneInUse s = false)) :=
  ⟨⟨(lane A),
    (laneSlot twTLEASE (beBytes 4 639 ++ beBytes 2 0 ++ beBytes 1 136 ++ beBytes 1 0 ++ beBytes 4 0x80000000 ++ beBytes 2 5 ++ beBytes 2 0)),
    (pad16 (beBytes 4 639 ++ beBytes 2 0 ++ beBytes 1 136 ++ beBytes 1 0 ++ beBytes 4 0x80000000 ++ beBytes 2 5 ++ beBytes 2 0)),
    by decide +kernel⟩,
   ⟨(lane A), (laneSlot twTDIG (beBytes 4 640 ++ beBytes 8 77)), (pad16 (beBytes 4 640 ++ beBytes 8 77)),
    by decide +kernel⟩,
   ⟨(lane (inState .standby A)), (laneSlot twTRET (List.replicate 16 0)), (pad16 (List.replicate 16 0)),
    by decide +kernel⟩,
   ⟨(tw (fun t => { t with entry := true, matched := 15 }) (lane (inState .standby A))),
    (laneSlot twTXQ (List.replicate 16 0)), (pad16 (List.replicate 16 0)), by decide +kernel⟩,
   ⟨(lane A), (laneSlot twTLINK (List.replicate 16 0)), (pad16 (List.replicate 16 0)), by decide +kernel⟩,
   ⟨(lane (inState .boot A)),
    (laneSlot twTLEASE (beBytes 4 639 ++ beBytes 2 0 ++ beBytes 1 136 ++ beBytes 1 0 ++ beBytes 4 0x80000000 ++ beBytes 2 5 ++ beBytes 2 0)),
    by decide +kernel⟩⟩

theorem met_LeaseAndLane :
    (∃ (s : State), s.sys.hstate = .standby ∧ silentNow s = true ∧ Cfg.TWCFG_LEASE s ≤ s.twin.silent + 1 ∧
    s.twin.tkokLast = true) ∧
    (∃ (s : State), s.sys.hstate = .standby ∧ s.twin.takeNext = true ∧ s.sag.stored = none ∧ s.sag.test = none)
    ∧
    (∃ (s : State), s.sys.hstate = .standby ∧ silentNow s = true ∧ Cfg.TWCFG_LEASE s ≤ s.twin.silent + 1 ∧
    s.twin.tkokLast = false) ∧
    (∃ (s : State), s.sys.hstate = .standby ∧ laneUp s = false ∧ s.sys.markSeen = true ∧ s.twin.locked = true) ∧
    (∃ (s : State), (getRet s clsTwin 0).st ≠ .retired ∧ (s.sys.hstate = .standby → silentNow s = false ∨
    s.twin.silent = 0)) ∧
    (∃ (s : State), s.sys.hstate = .isolated ∧ s.twin.cause = 1 ∧ (getRet s clsTwin 0).st = .inUse) ∧
    (∃ (s : State), s.sys.hstate = .isolated ∧ Cfg.TWCFG_LEASE s ≤ s.sys.quietRounds) :=
  ⟨⟨(tw (fun t => { t with silent := 3, tkokLast := true }) (lane (inState .standby A))), by decide +kernel⟩,
   ⟨(tw (fun t => { t with takeNext := true }) (lane (inState .standby A))), by decide +kernel⟩,
   ⟨(tw (fun t => { t with silent := 3, tkokLast := false }) (lane (inState .standby A))), by decide +kernel⟩,
   ⟨(let t := inState .standby A; { t with sys := { t.sys with markSeen := true }, twin := { t.twin with locked := true, sinceLease := 3 } }),
    by decide +kernel⟩,
   ⟨(inState .standby A), by decide +kernel⟩,
   ⟨(tw (fun t => { t with cause := 1 }) (lane (inState .isolated A))), by decide +kernel⟩,
   ⟨(let t := lane (inState .isolated A); { t with sys := { t.sys with quietRounds := 4 } }), by decide +kernel⟩⟩

theorem met_PairCommands :
    (∃ (s : State) (r : LaneSlot) (p : List Byte), laneTake s twTCMD r = some p ∧ shadows s = true ∧ (beNat p 5
    1).testBit 0 = false) ∧
    (∃ (s : State) (r : LaneSlot) (p : List Byte), laneTake s twTCONF r = some p) ∧
    (∃ (s : State) (c : HostCmd), c ∈ s.host.waiting ∧ c.fwd = true ∧ c.ok = false ∧ 4 ≤ (s.sys.round -
    c.round).toNat ∧ (∀ q ∈ s.twin.outq, q.1 ≠ c.seq)) ∧
    (∃ (s : State) (r : LaneSlot) (p : List Byte) (c : HostCmd), laneTake s twTCOMMIT r = some p ∧ takesCommits
    s = true ∧ nth 0#32 (beWords p) 0 = 1#32 ∧ (beWords p).drop 1 ≠ [] ∧ s.twin.stored.find? (fun x => x.seq =
    nth 0#32 (beWords p) 1) = some c) ∧
    (∃ (s : State) (u : CopyUnit), shadows s = true ∧ s.twin.entry = true ∧ u.complete = true ∧ laneInUse s =
    true ∧ isSlow u.content = false ∧ (s.sys.round - u.stamp).toNat ≤ 16) ∧
    (∃ (s : State) (u : CopyUnit), shadows s = true ∧ s.twin.entry = true ∧ u.complete = true ∧ laneInUse s =
    true ∧ isSlow u.content = true) ∧
    (∃ (s : State) (u : CopyUnit), isSlow u.content = false ∧ 16 < (s.sys.round - u.stamp).toNat) :=
  ⟨⟨(lane (inState .standby A)),
    (laneSlot twTCMD (beBytes 4 55 ++ [0, 0, 0, 0] ++ beBytes 2 1 ++ beBytes 2 8 ++ List.replicate 8 0)),
    (pad16 (beBytes 4 55 ++ [0, 0, 0, 0] ++ beBytes 2 1 ++ beBytes 2 8 ++ List.replicate 8 0)),
    by decide +kernel⟩,
   ⟨(lane A), (laneSlot twTCONF (beBytes 4 55 ++ beBytes 4 55 ++ beBytes 4 55 ++ beBytes 4 55)),
    (pad16 (beBytes 4 55 ++ beBytes 4 55 ++ beBytes 4 55 ++ beBytes 4 55)), by decide +kernel⟩,
   ⟨(hp (fun h => { h with waiting := [{ snd := .spi, seq := 55#32, op := 1, pl := [1#32], round := 636#32, fwd := true, ok := false }] }) A),
    { snd := .spi, seq := 55#32, op := 1, pl := [1#32], round := 636#32, fwd := true, ok := false },
    by decide +kernel⟩,
   ⟨(tw (fun t => { t with stored := [{ snd := .spi, seq := 55#32, op := 1, pl := [1#32], round := 636#32, fwd := true, ok := false }] }) (lane (inState .standby A))),
    (laneSlot twTCOMMIT (beBytes 4 1 ++ beBytes 4 55)), (pad16 (beBytes 4 1 ++ beBytes 4 55)),
    { snd := .spi, seq := 55#32, op := 1, pl := [1#32], round := 636#32, fwd := true, ok := false },
    by decide +kernel⟩,
   ⟨(tw (fun t => { t with entry := true }) (lane (inState .standby A))),
    { stamp := 624#32, complete := true, content := .axis 1 {} }, by decide +kernel⟩,
   ⟨(tw (fun t => { t with entry := true }) (lane (inState .standby A))),
    { stamp := 100#32, complete := true, content := .slow 0 0 0 [] [] [] [] [] 0 0 }, by decide +kernel⟩,
   ⟨(tw (fun t => { t with entry := true }) (lane (inState .standby A))),
    { stamp := 623#32, complete := true, content := .axis 1 {} }, by decide +kernel⟩⟩

theorem met_Handback :
    (∃ (s : State), hbStanding s = true ∧ 1000 * Cfg.TWHOLDOFF_HOLDOFF s ≤ s.twin.holdMs) ∧
    (∃ (s : State), s.sys.hstate = .active ∧ s.twin.hand = some (s.sys.round + 1) ∧ s.twin.sinceLease = 0 ∧
    laneInUse s = true ∧ s.twin.peerHbReq = true ∧ s.sag.test = none) ∧
    (∃ (s : State), s.sys.hstate = .handback ∧ Config.startRounds ≤ s.sys.stateRounds ∧ s.sag.stored = none) ∧
    (∃ (s : State) (m : Master), State.reaches m aTWCMD s ∧ s.sys.hstate = .active ∧ laneUp s = true ∧ bit
    s.twin.peerHealth 31 = true ∧ s.twin.hand = none) ∧
    (∃ (s : State) (m : Master), State.reaches m aTWCMD s ∧ s.sys.hstate = .isolated) ∧
    (∃ (s : State) (m : Master), State.reaches m aTWCMD s) ∧
    (∃ (s : State) (m : Master), State.reaches m aTWCMD s ∧ s.sys.hstate ≠ .isolated) :=
  ⟨⟨HB, by decide +kernel⟩,
   ⟨(tw (fun t => { t with hand := some 641#32, peerHbReq := true }) (lane A)), by decide +kernel⟩,
   ⟨(let t := inState .handback A; { t with sys := { t.sys with stateRounds := 16 } }), by decide +kernel⟩,
   ⟨(tw (fun t => { t with peerHealth := 0x80000000#32 }) (lane A)), .host,
    by unfold State.reaches; decide +kernel⟩,
   ⟨(inState .isolated A), .host, by unfold State.reaches; decide +kernel⟩,
   ⟨A, .compact, by unfold State.reaches; decide +kernel⟩,
   ⟨A, .host, by unfold State.reaches; decide +kernel⟩⟩

theorem met_CascadeTime :
    (∃ (s : State) (r : LaneSlot), cascSlave s = true ∧ s.sys.hstate ≠ .boot ∧ r.codeErr = false ∧ cascRetired
    s = false ∧ rxCrcOk 6 r.bytes = true ∧ rxHdr r.bytes % 16 = 1) ∧
    (∃ (s : State), cascSlave s = true ∧ s.sys.hstate ≠ .boot ∧ cascRetired s = false ∧ s.casc.st = 1 ∧
    s.casc.cmark ≠ none) ∧
    (∃ (s : State) (ofs : Int), cascSlave s = true ∧ s.sys.hstate ≠ .boot ∧ cascRetired s = false ∧ s.casc.st =
    2 ∧ ((Cfg.CSDLY_DLY s : Int) - ofs).natAbs ≤ 20 ∧ s.casc.inRange = 15) ∧
    (∃ (s : State), cascSlave s = true ∧ 2 ≤ s.casc.st ∧ s.casc.st ≠ 4 ∧ 16 ≤ s.casc.noSync) ∧
    (∃ (s : State), s.casc.st = 1 ∧ Cfg.CSCFG_CWAIT s ≠ 0 ∧ 1000 * Cfg.CSCFG_CWAIT s ≤ s.casc.waitMs) ∧
    (∃ (s : State), cascRetired s = false) :=
  ⟨⟨(casc A),
    { arrival := 0, clk := 5, codeErr := false, bytes := slotBytes 1 (640 % 256) 0 (beBytes 4 640 ++ beBytes 2 9) },
    by decide +kernel⟩,
   ⟨(casc { inState .standby A with casc := { st := 1, cmark := some 6#32 } }), by decide +kernel⟩,
   ⟨(casc { inState .standby A with casc := { st := 2, inRange := 15 } }), ((Cfg.CSDLY_DLY (casc A) : Int) - 20),
    by decide +kernel⟩,
   ⟨(casc { inState .standby A with casc := { st := 3, noSync := 16 } }), by decide +kernel⟩,
   ⟨(casc { inState .standby A with casc := { st := 1, waitMs := 2000 } }), by decide +kernel⟩,
   ⟨(casc A), by decide +kernel⟩⟩

theorem met_LockOutCauses :
    (∃ (s : State) (c : Instr) (code : Nat) (i : Nat), s.sag.st = 1 ∧ code ≠ 12 ∧ (c = .lockoutCause code i ∨ c
    = .darkPulse i false false ∧ code = 4 ∧ s.sag.outOn.testBit i = true ∨ c = .sfbMatchTimeout i ∧ code = 4 ∨
    c = .saggarWatchdogExpiry ∧ code = 7 ∧ i = 0 ∨ c = .saggarSupplyTrip ∧ code = 10 ∧ i = 0 ∨ c = .cpuSelfTest
    false ∧ code = 11 ∧ i = 0 ∨ c = .ramScrub false ∧ code = 9 ∧ i = 0 ∨ c = .romCrc false ∧ code = 9 ∧ i = 0 ∨
    c = .marchTest false ∧ code = 9 ∧ i = 0 ∨ c = .clockComparison false ∧ code = 8 ∧ i = 0 ∨ c =
    .inputComparatorSelfTest false ∧ code = 6 ∧ i = 0 ∨ c = .testPulse false true ∧ code = 5 ∧ i = 0 ∨ c =
    .degtimeExceeded ∧ code = 13 ∧ i = 0 ∧ s.sag.deg = true ∧ degTime s ≤ s.sag.degMs ∨ c =
    .brakeFeedbackTimeout i ∧ code = 3 ∧ (getBrk s i).fb ≠ (getBrk s i).cmd ∧ ∃ t, (getBrk s i).changeRounds =
    some t ∧ Config.roundsPerMs * (sagParam s 3).toNat ≤ t)) :=
  ⟨N, (.lockoutCause 13 0), 13, 0, by decide +kernel⟩

theorem met_SelfTests :
    (∃ (s : State), s.sag.st = 0 ∧ s.sag.selfCpu.isSome = true ∧ s.sag.selfRam.isSome = true ∧
    s.sag.selfRom.isSome = true ∧ s.sag.selfCmp.isSome = true) :=
  ⟨(sg (fun g => { g with st := 0, selfCpu := some true, selfRam := some true, selfRom := some false, selfCmp := some true }) A),
    by decide +kernel⟩

theorem met_LockOutAndReset :
    (∃ (s : State) (m : Word), s.sys.lockAt = some m ∧ later m s.sys.round = false ∧ s.sys.hstate ≠ .boot ∧
    s.sys.hstate ≠ .locked ∧ s.sag.st = 2) ∧
    (∃ (s : State) (start : Word) (us : Nat), s.sag.st = 3 ∧ later s.sag.clearedAt start = false ∧ 527000 ≤ us
    ∧ us ≤ 2857000) ∧
    (∃ (s : State), s.sag.st ≠ 3) :=
  ⟨⟨(let t := sg (fun g => { g with st := 2 }) A; { t with sys := { t.sys with lockAt := some 640#32 } }), 640#32,
    by decide +kernel⟩,
   ⟨(sg (fun g => { g with st := 3, clearedAt := 640#32 }) A), 640#32, 527000, by decide +kernel⟩,
   ⟨A, by decide +kernel⟩⟩

theorem met_SafeFrames :
    (∃ (s : State) (u : State) (r : RxSlot) (e : SEntry), acceptUp r tySAFE s = (u, some e) ∧ Cfg.SGBRK_EN s
    e.aux = true ∧ copyOk u e.aux r = false) ∧
    (∃ (s : State) (u : State) (r : RxSlot) (e : SEntry), acceptUp r tySAFE s = (u, some e) ∧ Cfg.SGBRK_EN s
    e.aux = true ∧ copyOk u e.aux r = true ∧ r.ch = 0 ∧ (getBrk u e.aux).copyB = none ∧ (beNat (rxPayload
    r.bytes) 6 2).testBit 5 = false) ∧
    (∃ (s : State) (u : State) (r : RxSlot) (e : SEntry), acceptUp r tySAFE s = (u, some e) ∧ Cfg.SGBRK_EN s
    e.aux = true ∧ copyOk u e.aux r = true ∧ r.ch = 1 ∧ (getBrk u e.aux).got = false ∧ (getBrk u e.aux).copyA =
    some (beNat (rxPayload r.bytes) 2 2, beNat (rxPayload r.bytes) 6 2)) ∧
    (∃ (s : State) (b : Nat), brakesOn s = [b] ∧ safeEntries s b ≠ []) :=
  ⟨⟨(marked (sch 0 200 1 true 3 5 600 1 0xffff (sch 1 200 1 true 3 5 600 1 0xffff (chon (node 3 1 3 (brk 1 3 0 1 N)))))),
    (acceptUp (let p := beBytes 1 (128 + 0 * 64 + 1) ++ beBytes 1 0 ++ beBytes 2 5 ++ beBytes 4 (sdataOf 1) ++ beBytes 4 0; slotIn 0 200 tySAFE 600 (p ++ beBytes 4 (scrc (scrcSeed 0) (beBytes 4 640 ++ beBytes 2 0 ++ p) + 1))) tySAFE (marked (sch 0 200 1 true 3 5 600 1 0xffff (sch 1 200 1 true 3 5 600 1 0xffff (chon (node 3 1 3 (brk 1 3 0 1 N))))))).1,
    (let p := beBytes 1 (128 + 0 * 64 + 1) ++ beBytes 1 0 ++ beBytes 2 5 ++ beBytes 4 (sdataOf 1) ++ beBytes 4 0; slotIn 0 200 tySAFE 600 (p ++ beBytes 4 (scrc (scrcSeed 0) (beBytes 4 640 ++ beBytes 2 0 ++ p) + 1))),
    ⟨200, 1, true, 3, 5, 600, 1, 0xffff⟩, Prod.ext rfl (by decide +kernel), by decide +kernel⟩,
   ⟨(marked (sch 0 200 1 true 3 5 600 1 0xffff (sch 1 200 1 true 3 5 600 1 0xffff (chon (node 3 1 3 (brk 1 3 0 1 N)))))),
    (acceptUp (let p := beBytes 1 (128 + 0 * 64 + 1) ++ beBytes 1 0 ++ beBytes 2 5 ++ beBytes 4 (sdataOf 1) ++ beBytes 4 0; slotIn 0 200 tySAFE 600 (p ++ beBytes 4 (scrc (scrcSeed 0) (beBytes 4 640 ++ beBytes 2 0 ++ p) + 0))) tySAFE (marked (sch 0 200 1 true 3 5 600 1 0xffff (sch 1 200 1 true 3 5 600 1 0xffff (chon (node 3 1 3 (brk 1 3 0 1 N))))))).1,
    (let p := beBytes 1 (128 + 0 * 64 + 1) ++ beBytes 1 0 ++ beBytes 2 5 ++ beBytes 4 (sdataOf 1) ++ beBytes 4 0; slotIn 0 200 tySAFE 600 (p ++ beBytes 4 (scrc (scrcSeed 0) (beBytes 4 640 ++ beBytes 2 0 ++ p) + 0))),
    ⟨200, 1, true, 3, 5, 600, 1, 0xffff⟩, Prod.ext rfl (by decide +kernel), by decide +kernel⟩,
   ⟨(marked (sch 0 200 1 true 3 5 600 1 0xffff (sch 1 200 1 true 3 5 600 1 0xffff (chon (node 3 1 3 (brk 1 3 0 1 (modBrk N 1 (fun k => { k with copyA := some (5, sdataOf 1 % 65536) })))))))),
    (acceptUp (let p := beBytes 1 (128 + 1 * 64 + 1) ++ beBytes 1 0 ++ beBytes 2 5 ++ beBytes 4 (sdataOf 1) ++ beBytes 4 0; slotIn 1 200 tySAFE 600 (p ++ beBytes 4 (scrc (scrcSeed 1) (beBytes 4 640 ++ beBytes 2 0 ++ p) + 0))) tySAFE (marked (sch 0 200 1 true 3 5 600 1 0xffff (sch 1 200 1 true 3 5 600 1 0xffff (chon (node 3 1 3 (brk 1 3 0 1 (modBrk N 1 (fun k => { k with copyA := some (5, sdataOf 1 % 65536) }))))))))).1,
    (let p := beBytes 1 (128 + 1 * 64 + 1) ++ beBytes 1 0 ++ beBytes 2 5 ++ beBytes 4 (sdataOf 1) ++ beBytes 4 0; slotIn 1 200 tySAFE 600 (p ++ beBytes 4 (scrc (scrcSeed 1) (beBytes 4 640 ++ beBytes 2 0 ++ p) + 0))),
    ⟨200, 1, true, 3, 5, 600, 1, 0xffff⟩, Prod.ext rfl (by decide +kernel), by decide +kernel⟩,
   ⟨(marked (sch 0 201 1 false 3 5 700 1 0xffff (chon (node 3 1 3 (brk 1 3 0 1 N))))), 1, by decide +kernel⟩⟩

theorem met_SealedCommands :
    (∃ (s : State) (m : Master) (n : Nat), State.reaches m aSGCMD s ∧ s.sag.st ≠ 0 ∧ s.sag.blkMs = none ∧ 8 ≤ n
    ∧ n ≤ 32) ∧
    (∃ (s : State) (m : Master) (n : Nat), State.reaches m aSGCMD s ∧ s.sag.st ≠ 0 ∧ sealOpen s = true ∧
    s.sag.logCount < 64 ∧ 8 ≤ n ∧ n ≤ 32) ∧
    (∃ (s : State) (m : Master), State.reaches m aSGCMD s ∧ s.sag.st ≠ 0) ∧
    (∃ (s : State), s.sag.pwdOk = true ∧ 1800000 ≤ s.sag.pwdMs) ∧
    (∃ (s : State), s.sag.blkMs = some 0) ∧
    (∃ (s : State) (m : Master), State.reaches m aSGCMD s ∧ s.sag.st ≠ 0 ∧ sealOpen s = true ∧ s.sag.logCount <
    64 ∧ paramOk s s.sag.sel.toNat s.sag.val = true ∧ (∀ q ∈ s.sag.standing, q.1 ≠ 15)) ∧
    (∃ (s : State) (m : Master), State.reaches m aSGCMD s ∧ s.sag.st ≠ 0 ∧ sealOpen s = true ∧ s.sag.val =
    BitVec.ofNat 32 (crc32 (logBytes s))) ∧
    (∃ (s : State) (m : Master) (c : Instr), State.reaches m aSGCMD s ∧ sealOpen s = false ∧ c ∈ [.param m,
    .logclear m]) :=
  ⟨⟨N, .host, 8, by unfold State.reaches; decide +kernel⟩,
   ⟨(sealed (sg (fun g => { g with logCount := 63 }) N)), .host, 32, by unfold State.reaches; decide +kernel⟩,
   ⟨N, .host, by unfold State.reaches; decide +kernel⟩,
   ⟨(sg (fun g => { g with pwdMs := 1800000 }) (sealed N)), by decide +kernel⟩,
   ⟨(sg (fun g => { g with blkMs := some 0 }) N), by decide +kernel⟩,
   ⟨(sg (fun g => { g with sel := 3#32, val := 2000#32 }) (sealed N)), .host,
    by unfold State.reaches; decide +kernel⟩,
   ⟨(sg (fun g => { g with val := BitVec.ofNat 32 (crc32 (logBytes N)) }) (sealed N)), .host,
    by unfold State.reaches; decide +kernel⟩,
   ⟨N, .host, (.param .host), by unfold State.reaches; decide +kernel⟩⟩

theorem met_BrakeTestAndOutputs :
    (∃ (s : State) (m : Master) (b : Nat), State.reaches m aSGCMD s ∧ s.sag.st ≠ 0 ∧ Cfg.SGBRK_EN s b = true ∧
    driving s = true ∧ ownerInRun s (brakeOwner s b) = true ∧ atRest s (brakeOwner s b) = true ∧ (getProf s
    (brakeOwner s b)).queue = [] ∧ (getProf s (brakeOwner s b)).cur = none ∧ s.sag.test = none ∧ sagParam s
    (0x20 + b) ≠ 0#32) ∧
    (∃ (s : State) (m : Master) (t : BTest), State.reaches m aSGCMD s ∧ s.sag.st ≠ 0 ∧ s.sag.test = some t) ∧
    (∃ (s : State) (t : BTest), s.sag.test = some t ∧ t.phase = 2 ∧ testLength s t.ch ≤ t.rounds ∧ testMoved s
    t = false) ∧
    (∃ (s : State) (m : Master), State.reaches m aSGCMD s ∧ s.sag.st ≠ 0 ∧ driving s = true ∧ sagClear s =
    true) :=
  ⟨⟨(sg (fun g => { g with params := [(0x21, 0x3f800000#32)] }) (brk 1 3 0 1 (axs 1 .run (fun x => { x with prof := { x.prof with rest := true } }) N))),
    .host, 1, by unfold State.reaches; decide +kernel⟩,
   ⟨(sg (fun g => { g with test := some ⟨1, 0, 0, 3, 0⟩ }) N), .host, ⟨1, 0, 0, 3, 0⟩,
    by unfold State.reaches; decide +kernel⟩,
   ⟨(sg (fun g => { g with test := some ⟨1, 2, 0, 2000000, 0⟩ }) N), ⟨1, 2, 0, 2000000, 0⟩, by decide +kernel⟩,
   ⟨(sg (fun g => { g with clearedAt := 0 }) N), .host, by unfold State.reaches; decide +kernel⟩⟩

theorem met_BackoffAndRelease :
    (∃ (s : State) (cls : Nat) (idx : Nat), (getRet s cls idx).st = .backoff ∧ (getRet s cls idx).backoff = 0) ∧
    (∃ (s : State) (m : Master) (w : Word) (cls : Nat) (idx : Nat), State.reaches m aRTREL s ∧ bits w 31 16 =
    Config.key ∧ bit w 0 = true ∧ cls = bits (rtSel s m) 18 16 ∧ idx = bits (rtSel s m) 7 0) ∧
    (∃ (s : State) (m : Master) (w : Word), State.reaches m aRTREL s ∧ bits w 31 16 ≠ Config.key) :=
  ⟨⟨(rt [(retKey clsNode 3, ⟨.backoff, [4, 3], 0, true, 2⟩)] A), clsNode, 3, by decide +kernel⟩,
   ⟨A, .host, 0xC1EA0001#32, 0, 0, by unfold State.reaches; decide +kernel⟩,
   ⟨A, .host, 0x00000001#32, by unfold State.reaches; decide +kernel⟩⟩

theorem met_PowerStageSteps :
    (∃ (s : State) (a : Nat), a < 128 ∧ (getAx s a).stage.retryReady = true) ∧
    (∃ (s : State) (a : Nat) (x : TestStep) (y : TestStep) (b : List Byte), a < 128 ∧ evalDue s a = true ∧
    testStep (kindOf s a) (getAx s a).stage.step = some x ∧ (getIn s a (sampleNow s)).fup = some b ∧ echoOk x b
    = true ∧ judgeStep s a x b = none ∧ x.code ≠ 3 ∧ testStep (kindOf s a) ((getAx s a).stage.step + 1) = some
    y) ∧
    (∃ (s : State) (a : Nat) (x : TestStep) (b : List Byte), a < 128 ∧ evalDue s a = true ∧ (getAx s
    a).stage.seq = .prestart ∧ (getAx s a).stage.opens = [] ∧ testStep (kindOf s a) (getAx s a).stage.step =
    some x ∧ (getIn s a (sampleNow s)).fup = some b ∧ echoOk x b = true ∧ judgeStep s a x b = none ∧ x.code = 3
    ∧ fLt (Cfg.RMAX s (axW a)) (stepR s a b) = false ∧ testStep (kindOf s a) ((getAx s a).stage.step + 1) =
    none) ∧
    (∃ (s : State) (a : Nat), a < 128 ∧ noEchoNow s a = true ∧ (getAx s a).stage.seq = .prestart ∧ axSt s a =
    .prestart ∧ parentOf s a = none) :=
  ⟨⟨(axs 127 .fault (fun x => { x with stage := { x.stage with retryReady := true } }) A), 127, by decide +kernel⟩,
   ⟨(stepAx 1 1 (some (fupOf 1 0 0 0x2000 0 0 1000 0)) A), 1, ⟨1, 0, 0⟩, ⟨2, 0, 0⟩,
    (fupOf 1 0 0 0x2000 0 0 1000 0), by decide +kernel⟩,
   ⟨(stepAx 6 2 (some (fupOf 3 2 3 0x2000 1000 3 1000 0)) A), 1, ⟨3, 2, 3⟩, (fupOf 3 2 3 0x2000 1000 3 1000 0),
    by decide +kernel⟩,
   ⟨(stepAx 1 1 none A), 1, by decide +kernel⟩⟩

theorem met_OverVoltage :
    (∃ (s : State) (d : Detector), canTrip s d = true) ∧
    (∃ (s : State) (d : Detector), canTrip s d = false) ∧
    (∃ (s : State), s.ps.tripped = true ∧ Config.roundsPerMs ≤ s.ps.tripRounds) ∧
    (∃ (s : State), s.ps.tripped = true ∧ s.ps.tripRounds < Config.roundsPerMs) ∧
    (∃ (s : State) (j : Nat), Cfg.PSCHOP_EN s j = true ∧ Cfg.PSCHOP_MAXON s j ≠ 0 ∧ (s.ps.on.testBit j = true ∨
    s.ps.forced.testBit j = true) ∧ Config.roundsPerMs * Cfg.PSCHOP_MAXON s j ≤ tget 0 s.ps.onRounds j) :=
  ⟨⟨(ana A), .analogue, by decide +kernel⟩,
   ⟨A, .sigmaDelta, by decide +kernel⟩,
   ⟨(psf (fun p => { p with tripped := true, tripRounds := 128 }) A), by decide +kernel⟩,
   ⟨(psf (fun p => { p with tripped := true, tripRounds := 127 }) A), by decide +kernel⟩,
   ⟨(psf (fun p => { p with on := 1, onRounds := [(0, 128)] }) (ana A)), 0, by decide +kernel⟩⟩

theorem met_SigmaDeltaAndSelfTest :
    (∃ (s : State) (k : Nat), Cfg.SDCFG_EN s k = true ∧ (getRet s clsSdi k).st = .inUse) ∧
    (∃ (s : State) (k : Nat) (l : List Nat), Cfg.SDCFG_EN s k = true ∧ isRetired s clsSdi k = false ∧ anaAvail
    s = true ∧ s.ps.lost = false ∧ l = s.sys.ms :: (getRet s clsSdi k).stamps.filter (fun t => s.sys.ms ≤ t +
    (retCfgOf s clsSdi).window)) ∧
    (∃ (s : State), s.ps.testBusy = false) ∧
    (∃ (s : State), s.ps.testBusy = true) ∧
    (∃ (s : State), s.ps.testBusy = true ∧ s.ps.testTarget = 9) ∧
    (∃ (s : State), s.ps.testBusy = true ∧ s.ps.testTarget ≠ 9) :=
  ⟨⟨(ana A), 0, by decide +kernel⟩,
   ⟨(ana A), 0, [5], by decide +kernel⟩,
   ⟨A, by decide +kernel⟩,
   ⟨(psf (fun p => { p with testBusy := true }) A), by decide +kernel⟩,
   ⟨(psf (fun p => { p with testBusy := true, testTarget := 9 }) A), by decide +kernel⟩,
   ⟨(psf (fun p => { p with testBusy := true, testTarget := 0 }) A), by decide +kernel⟩⟩

theorem met_RecorderCommands :
    (∃ (s : State), s.sys.inReset = false) ∧
    (∃ (s : State), s.sys.inReset = true) ∧
    (∃ (s : State) (m : Master), State.reaches m aRCCMD s) ∧
    (∃ (s : State), s.rcd.saving = true ∧ s.sys.dip = false ∧ s.sys.defer = false) ∧
    (∃ (s : State), (s.rcd.saving = false ∨ s.sys.dip = true ∨ s.sys.defer = true)) ∧
    (∃ (s : State) (src : Source) (scope : Nat), src ≠ .compact ∧ scope ≠ 0 ∧ s.rcd.auth = true ∧ s.rcd.clrCnt
    < 16 ∧ s.sys.dip = false ∧ s.sys.defer = false) ∧
    (∃ (s : State) (src : Source) (scope : Nat) (n : Nat) (ok : Bool), (n = 8 ∧ (src = .compact ∨ scope = 0) ∨
    src ≠ .compact ∧ scope ≠ 0 ∧ (n = 2 ∧ s.rcd.auth = false ∨ s.rcd.auth = true ∧ (n = 3 ∧ 16 ≤ s.rcd.clrCnt ∨
    s.rcd.clrCnt < 16 ∧ (n = 4 ∧ (s.sys.dip = true ∨ s.sys.defer = true) ∨ s.sys.dip = false ∧ s.sys.defer =
    false ∧ n = 5 ∧ ok = false))))) ∧
    (∃ (s : State) (m : Master), State.reaches m aRCCMD s ∧ s.rcd.blkMs = none) ∧
    (∃ (s : State) (m : Master) (k : Nat), State.reaches m aRCCMD s ∧ s.rcd.blkMs = some k) ∧
    (∃ (s : State) (m : Master), State.reaches m aRCCMD s) ∧
    (∃ (s : State), s.rcd.auth = true ∧ 1800000 ≤ s.rcd.authMs) ∧
    (∃ (s : State), (s.rcd.auth = false ∨ s.rcd.authMs < 1800000)) ∧
    (∃ (s : State), s.rcd.blkMs = some 0) ∧
    (∃ (s : State), s.rcd.blkMs ≠ some 0) :=
  ⟨⟨A, by decide +kernel⟩,
   ⟨(inReset A), by decide +kernel⟩,
   ⟨A, .host, by unfold State.reaches; decide +kernel⟩,
   ⟨(rc (fun r => { r with saving := true }) A), by decide +kernel⟩,
   ⟨A, by decide +kernel⟩,
   ⟨(rc (fun r => { r with auth := true, clrCnt := 15 }) A), .spi, 1, by decide +kernel⟩,
   ⟨(rc (fun r => { r with auth := true, clrCnt := 16 }) A), .ethernet, 7, 3, true, by decide +kernel⟩,
   ⟨A, .host, by unfold State.reaches; decide +kernel⟩,
   ⟨(rc (fun r => { r with blkMs := some 9 }) A), .host, 9, by unfold State.reaches; decide +kernel⟩,
   ⟨A, .compact, by unfold State.reaches; decide +kernel⟩,
   ⟨(rc (fun r => { r with auth := true, authMs := 1800000 }) A), by decide +kernel⟩,
   ⟨(rc (fun r => { r with auth := true, authMs := 1799999 }) A), by decide +kernel⟩,
   ⟨(rc (fun r => { r with blkMs := some 0 }) A), by decide +kernel⟩,
   ⟨A, by decide +kernel⟩⟩

theorem met_BootAndListen :
    (∃ (s : State) (b : BootObs) (k : Nat) (k' : Nat), s.sys.hstate = .boot ∧ s.sys.inReset = false ∧
    s.boot.verified = false ∧ s.boot.noImage = false ∧ b.sfdpOk = true ∧ (s.sys.oct = true → b.xspiOk = true) ∧
    0x800000 ≤ b.density ∧ slotOrder s b = [k, k']) ∧
    (∃ (s : State) (b : BootObs), s.sys.hstate = .boot ∧ s.sys.inReset = false ∧ s.boot.verified = false ∧
    s.boot.noImage = false ∧ b.sfdpOk = false) ∧
    (∃ (s : State), s.sys.hstate = .boot ∧ s.sys.inReset = false ∧ s.boot.verified = true ∧ s.boot.recLoaded =
    true ∧ s.sag.st ≠ 0) :=
  ⟨⟨(inState .boot A), ⟨true, false, 0x800000, true, true, [], []⟩, 0, 1, by decide +kernel⟩,
   ⟨(inState .boot A), ⟨false, false, 0, false, false, [], []⟩, by decide +kernel⟩,
   ⟨(sg (fun g => { g with st := 1 }) (rc (fun r => r) (bt (fun b => { b with verified := true, recLoaded := true }) (inState .boot A)))),
    by decide +kernel⟩⟩

theorem met_ImageCommandsAndJobs :
    (∃ (s : State) (m : Master), State.reaches m aIMGCMD s) ∧
    (∃ (s : State), s.boot.busy = false) ∧
    (∃ (s : State) (k : Nat), deferring s = false ∧ k < 2) ∧
    (∃ (s : State) (j : Nat × Nat × List Word), deferring s = false ∧ s.boot.job = some j) :=
  ⟨⟨A, .host, by unfold State.reaches; decide +kernel⟩,
   ⟨A, by decide +kernel⟩,
   ⟨A, 1, by decide +kernel⟩,
   ⟨(bt (fun b => { b with job := some (3, 1, []) }) A), (3, 1, []), by decide +kernel⟩⟩

theorem met_FuseProgramming :
    (∃ (s : State) (m : Master) (w : Word), State.reaches m aFPCMD s ∧ bits w 31 16 = Config.key ∧ bit w 0 =
    true ∧ s.boot.fpBusy = false) ∧
    (∃ (s : State), fuseRefusal s = 0) ∧
    (∃ (s : State), s.boot.fpBusy = true ∧ s.boot.fpField < 6) ∧
    (∃ (s : State), s.boot.fpBusy = true ∧ s.boot.fpField = 6) :=
  ⟨⟨A, .host, 0xC1EA0001#32, by unfold State.reaches; decide +kernel⟩,
   ⟨(sealed { N with boot := { fpSel := 2#32, vpp := true, fpData := [(0, 40#32)] } }), by decide +kernel⟩,
   ⟨(bt (fun b => { b with fpBusy := true, fpField := 5 }) A), by decide +kernel⟩,
   ⟨(bt (fun b => { b with fpBusy := true, fpField := 6 }) A), by decide +kernel⟩⟩

theorem met_PowerAndSupply :
    (∃ (s : State) (m : Master), State.reaches m aPWRCMD s) ∧
    (∃ (s : State) (k : Nat), 1 ≤ k ∧ k ≤ 5 ∧ (k = 3 → Cfg.PWRCFG_EVWAKE s = true)) ∧
    (∃ (s : State), Cfg.PWRCFG_EVWAKE s = false) ∧
    (∃ (s : State), s.sys.inReset = false ∧ s.sys.dip = false) ∧
    (∃ (s : State), s.sys.inReset = false ∧ s.sys.dip = true) ∧
    (∃ (s : State), s.sys.dip = true) ∧
    (∃ (s : State), s.sys.defer = true ∧ s.sys.dip = false ∧ s.sys.deferMs = 0) :=
  ⟨⟨A, .host, by unfold State.reaches; decide +kernel⟩,
   ⟨A, 5, by decide +kernel⟩,
   ⟨A, by decide +kernel⟩,
   ⟨A, by decide +kernel⟩,
   ⟨(let t := A; { t with sys := { t.sys with dip := true } }), by decide +kernel⟩,
   ⟨(let t := A; { t with sys := { t.sys with dip := true } }), by decide +kernel⟩,
   ⟨(let t := A; { t with sys := { t.sys with defer := true, deferMs := 0 } }), by decide +kernel⟩⟩

theorem met_Resets :
    (∃ (s : State) (c : Instr) (k : Nat), (c = .porst ∧ k = 1 ∨ c = .supplyReset ∧ k = 2 ∨ c = .refclkLoss ∧ k
    = 3 ∨ c = .pllLockLoss ∧ k = 4 ∨ c = .watchdogExpiry ∧ k = 6 ∧ s.sys.wdLeft = some 0 ∨ c = .roundStart ∧ k
    = 5 ∧ s.sys.rebootReq = true ∧ s.sys.inReset = false)) ∧
    (∃ (s : State), s.sys.inReset = true) ∧
    (∃ (s : State), s.sys.inReset = true) ∧
    (∃ (s : State) (m : Master) (w : Word) (t : Nat), State.reaches m aWDKICK s ∧ bits w 31 16 = Config.key ∧
    bit w 0 = true ∧ s.sys.wdLeft = some t) ∧
    (∃ (s : State) (m : Master) (w : Word), State.reaches m aWDKICK s ∧ bits w 31 16 ≠ Config.key) ∧
    (∃ (s : State), s.sys.wdLeft ≠ some 0) :=
  ⟨⟨A, .pllLockLoss, 4, by decide +kernel⟩,
   ⟨(inReset A), by decide +kernel⟩,
   ⟨(inReset A), by decide +kernel⟩,
   ⟨(let t := A; { t with sys := { t.sys with wdLeft := some 3 } }), .host, 0xC1EA0001#32, 3,
    by unfold State.reaches; decide +kernel⟩,
   ⟨A, .host, 1#32, by unfold State.reaches; decide +kernel⟩,
   ⟨A, by decide +kernel⟩⟩

theorem met_RoundCounts :
    (∃ (s : State), s.sys.inReset = false ∧ s.sys.rebootReq = false ∧ s.sys.hstate ≠ .boot ∧ s.sys.roundRan =
    true) ∧
    (∃ (s : State), s.sys.inReset = false ∧ s.sys.rebootReq = false ∧ s.sys.hstate = .boot) :=
  ⟨⟨A, by decide +kernel⟩,
   ⟨(inState .boot A), by decide +kernel⟩⟩

theorem met_StepRunsFront :
    (∃ (s : State) (c : Instr) (rest : List Instr), s.pending = c :: rest) :=
  ⟨{ A with pending := [.roundStart, .porst] }, .roundStart, [.porst], by decide +kernel⟩

theorem met_LadleInteger :
    (∃ (s : State) (c : Nat), State.coreRuns c s) :=
  ⟨K, 4, by unfold State.coreRuns; decide +kernel⟩

theorem met_LadleFp :
    (∃ (s : State) (c : Nat), State.coreRuns c s) :=
  ⟨K, 4, by unfold State.coreRuns; decide +kernel⟩

theorem met_LadleAccumulators :
    (∃ (s : State) (c : Nat), State.coreRuns c s) :=
  ⟨K, 4, by unfold State.coreRuns; decide +kernel⟩

theorem met_LadlePointersAndMemory :
    (∃ (s : State) (c : Nat), State.coreRuns c s) ∧
    (∃ (s : State) (c : Nat), State.coreRuns c s) ∧
    (∃ (s : State) (c : Nat), State.coreRuns c s ∧ c < 4) ∧
    (∃ (s : State), State.coreRuns 4 s) ∧
    (∃ (m : Word), bits m 31 16 = 0) ∧
    (∃ (p : Word) (m : Word) (b : Nat) (x : Int) (y : Int) (z : Int), 0 < bits m 31 16 ∧ bits m 31 16 ≤ 2 ^ b ∧
    (∀ e, e < b → 2 ^ e < bits m 31 16) ∧ x = (p.toNat : Int) - p.toNat / 2 ^ b * 2 ^ b + (m.setWidth 16).toInt
    ∧ y = (if (bits m 31 16 : Int) ≤ x then x - bits m 31 16 else x) ∧ z = (if y < 0 then y + bits m 31 16 else
    y)) :=
  ⟨⟨(core 2 0x11000), 2, by unfold State.coreRuns; decide +kernel⟩,
   ⟨K, 4, by unfold State.coreRuns; decide +kernel⟩,
   ⟨(core 2 0x11000), 2, by unfold State.coreRuns; decide +kernel⟩,
   ⟨K, by unfold State.coreRuns; decide +kernel⟩,
   ⟨0x0000FFFF#32, by decide +kernel⟩,
   ⟨0x10010#32, 0x00100004#32, 4, 4, 4, 4, by decide +kernel⟩⟩

theorem met_LadleDual :
    (∃ (s : State) (c : Nat), State.coreRuns c s ∧ s.hardErr = [] ∧ s.softErr = []) ∧
    (∃ (s : State), State.coreRuns 4 s) :=
  ⟨⟨(core 3 0x12FFC), 3, by unfold State.coreRuns; decide +kernel⟩,
   ⟨K, by unfold State.coreRuns; decide +kernel⟩⟩

theorem met_LadleFlowAndDistances :
    (∃ (s : State) (c : Nat), State.coreRuns c s) ∧
    (∃ (s : State) (c : Nat), State.coreRuns c s) ∧
    (∃ (s : State) (c : Nat), State.coreRuns c s) ∧
    (∃ (s : State) (c : Nat), State.coreRuns c s) ∧
    (∃ (s : State), State.coreRuns 4 s) ∧
    (∃ (s : State) (c : Nat), State.coreRuns c s) :=
  ⟨⟨(core 0 0x11000), 0, by unfold State.coreRuns; decide +kernel⟩,
   ⟨(core 0 0x11000), 0, by unfold State.coreRuns; decide +kernel⟩,
   ⟨(core 0 0x11000), 0, by unfold State.coreRuns; decide +kernel⟩,
   ⟨(core 0 0x11000), 0, by unfold State.coreRuns; decide +kernel⟩,
   ⟨K, by unfold State.coreRuns; decide +kernel⟩,
   ⟨(core 0 0x11000), 0, by unfold State.coreRuns; decide +kernel⟩⟩

theorem met_LadleSystem :
    (∃ (s : State), State.coreRuns 4 s ∧ (getCore s 4).delay = none) ∧
    (∃ (s : State) (c : Nat) (a : Nat), c < 4 ∧ State.coreRuns c s ∧ (getCore s c).delay = none ∧ (getCore s
    c).axis = some a) ∧
    (∃ (s : State) (c : Nat), State.coreRuns c s) ∧
    (∃ (s : State) (k : Core), k = getCore s 4 ∧ k.st = 1 ∧ k.stalled = false ∧ (curSet k).ie = true ∧ k.delay
    = none ∧ s.lad.ipend &&& Cfg.LDCIRQ_EN s ≠ 0) ∧
    (∃ (s : State) (k : Core), State.coreRuns 4 s ∧ k = getCore s 4 ∧ k.shadow = true ∧ k.delay = none ∧
    k.shad.reps = [] ∧ fetchOk s 4 (k.pc + 4#32) = true ∧ fetchOk s 4 (k.pc + 8#32) = true) :=
  ⟨⟨K, by unfold State.coreRuns; decide +kernel⟩,
   ⟨(core 0 0x11000), 0, 0, by unfold State.coreRuns; decide +kernel⟩,
   ⟨K, 4, by unfold State.coreRuns; decide +kernel⟩,
   ⟨(cf [(0x40700110, [(2, 0, 7)])] (pend (core 4 0x40708010 (fun k => { k with prim := { k.prim with ie := true } })))),
    (getCore (cf [(0x40700110, [(2, 0, 7)])] (pend (core 4 0x40708010 (fun k => { k with prim := { k.prim with ie := true } })))) 4),
    by decide +kernel⟩,
   ⟨(core 4 0x40708010 (fun k => { k with shadow := true })),
    (getCore (core 4 0x40708010 (fun k => { k with shadow := true })) 4),
    by unfold State.coreRuns; decide +kernel⟩⟩

theorem met_CompactCoreHalt :
    (∃ (s : State), (getCore s 4).st = 2) :=
  ⟨(core 4 0x40708010 (fun k => { k with st := 2 })), by decide +kernel⟩

theorem met_LadleControl :
    (∃ (s : State) (m : Master), State.reaches m aLDCMD s ∧ m ≠ .compact) ∧
    (∃ (s : State) (cmd : Instr), State.reaches .compact aLDCMD s ∧ (cmd = .stop .compact 4 ∨ cmd = .restart
    .compact 4)) ∧
    (∃ (s : State) (m : Master), State.reaches m aLDMBOX s) :=
  ⟨⟨A, .host, by unfold State.reaches; decide +kernel⟩,
   ⟨A, (.restart .compact 4), by unfold State.reaches; decide +kernel⟩,
   ⟨A, .compact, by unfold State.reaches; decide +kernel⟩⟩

theorem met_CommandFrames :
    (∃ (s : State), s.sys.pwr ≠ .deep) ∧
    (∃ (s : State), s.host.credits ≤ 32) :=
  ⟨⟨A, by decide +kernel⟩,
   ⟨A, by decide +kernel⟩⟩

theorem met_EthernetSpiAndPhy :
    (∃ (s : State) (l : List Byte), s.sys.inReset = false ∧ s.host.netOk = true ∧ s.sys.pwr ≠ .deep ∧ macMine s
    (beNat l 0 6) = true) ∧
    (∃ (s : State) (l : List Byte), macMine s (beNat l 0 6) = false) ∧
    (∃ (s : State), spiOpen s = true ∧ s.sys.pwr ≠ .deep) ∧
    (∃ (s : State), spiOpen s = false) ∧
    (∃ (s : State), s.sys.inReset = false ∧ s.host.netOk = true ∧ s.sys.pwr ≠ .deep) ∧
    (∃ (p : Nat), p < 8) :=
  ⟨⟨I, (List.replicate 14 0xFF#8), by decide +kernel⟩,
   ⟨I, [1, 2, 3, 4, 5, 6], by decide +kernel⟩,
   ⟨I, by decide +kernel⟩,
   ⟨(inReset I), by decide +kernel⟩,
   ⟨I, by decide +kernel⟩,
   ⟨7, by decide +kernel⟩⟩

theorem met_HostReadWrite :
    (∃ (s : State) (c : HostCmd) (l : List HostCmd) (a : Nat) (n : Nat), State.nextIs c l s ∧ c.op = 1 ∧ c.pl =
    [BitVec.ofNat 32 a, BitVec.ofNat 32 n] ∧ 1 ≤ n ∧ n ≤ 255 ∧ a + 4 * n ≤ 0x400000 ∧ a % 4 = 0 ∧ s.hardErr =
    [] ∧ s.softErr = []) ∧
    (∃ (s : State) (c : HostCmd) (l : List HostCmd) (a : Nat), State.nextIs c l s ∧ c.op = 1 ∧ c.pl =
    [BitVec.ofNat 32 a, 1#32] ∧ 0x400000 ≤ a ∧ a < 2 ^ 32 ∧ a % 4 = 0 ∧ (regionOf a).isSome = true) ∧
    (∃ (s : State) (c : HostCmd) (l : List HostCmd) (a : Nat) (w : Word), State.nextIs c l s ∧ c.op = 2 ∧ c.pl
    = [BitVec.ofNat 32 a, w] ∧ a + 4 ≤ 0x400000 ∧ a % 4 = 0 ∧ (∀ i, i < 8 → inPart s i a = false) ∧ Memory.wf 0
    s.mem = true) ∧
    (∃ (s : State) (c : HostCmd) (l : List HostCmd) (a : Nat) (n : Nat) (w : Word) (cmd : Instr), State.nextIs
    c l s ∧ (c.op = 1 ∧ c.pl = [BitVec.ofNat 32 a, BitVec.ofNat 32 n] ∧ 1 ≤ n ∧ n ≤ 255 ∧ cmd = .read c.snd
    c.seq c.pl ∨ c.op = 2 ∧ c.pl = [BitVec.ofNat 32 a, w] ∧ cmd = .write c.snd c.seq c.pl) ∧ a < 2 ^ 32 ∧ (a %
    4 ≠ 0 ∨ regionOf a = none)) ∧
    (∃ (s : State), s.host.waiting = []) :=
  ⟨⟨(waits (hostCmd 1 [BitVec.ofNat 32 0x3FFFFC, BitVec.ofNat 32 1]) I),
    (hostCmd 1 [BitVec.ofNat 32 0x3FFFFC, BitVec.ofNat 32 1]), [], 0x3FFFFC, 1,
    by unfold State.nextIs; decide +kernel⟩,
   ⟨(waits (hostCmd 1 [BitVec.ofNat 32 0x40020000, 1#32]) I), (hostCmd 1 [BitVec.ofNat 32 0x40020000, 1#32]), [],
    0x40020000, by unfold State.nextIs; decide +kernel⟩,
   ⟨(waits (hostCmd 2 [BitVec.ofNat 32 0x3FFFFC, 7#32]) I), (hostCmd 2 [BitVec.ofNat 32 0x3FFFFC, 7#32]), [],
    0x3FFFFC, 7#32, by unfold State.nextIs; decide +kernel⟩,
   ⟨(waits (hostCmd 2 [BitVec.ofNat 32 0x102, 7#32]) I), (hostCmd 2 [BitVec.ofNat 32 0x102, 7#32]), [], 0x102, 1,
    7#32, (.write .spi 77#32 [BitVec.ofNat 32 0x102, 7#32]), by unfold State.nextIs; decide +kernel⟩,
   ⟨I, by decide +kernel⟩⟩

theorem met_HostOpcodes :
    (∃ (s : State) (u : State) (c : HostCmd) (l : List HostCmd) (w : Word) (ms : List Word) (o : Owner) (m :
    Move), State.nextIs c l s ∧ c.op = 3 ∧ c.pl = w :: ms ∧ ms.length = 8 ∧ 1 ≤ bits w 3 0 ∧ u =
    State.withWaiting l s ∧ ownerDead u o = false ∧ o = (if bit w 31 then .group (bits w 22 16) else .axis
    (bits w 22 16)) ∧ m = moveOf (fun i => nth 0#32 ms i)) ∧
    (∃ (s : State) (c : HostCmd) (l : List HostCmd) (w : Word) (v : Word), State.nextIs c l s ∧ c.op = 4 ∧ c.pl
    = [w, v] ∧ bit w 31 = false ∧ bits w 22 16 < usableAxes s ∧ (getAx s (bits w 22 16)).ctl.swapPend = false ∧
    windowDead s (.axis (bits w 22 16)) = false ∧ Memory.wf 0 s.mem = true) ∧
    (∃ (s : State) (c : HostCmd) (l : List HostCmd), State.nextIs c l s ∧ c.op = 5 ∧ bit (nth 0#32 c.pl 0) 0 =
    true ∧ subSlot s c.snd = none) ∧
    (∃ (s : State) (c : HostCmd) (l : List HostCmd) (a : Nat) (n : Nat), State.nextIs c l s ∧ c.op = 6 ∧
    recordAt s (bits (nth 0#32 c.pl 0) 17 16) (bits (nth 0#32 c.pl 0) 10 0) = some (a, n) ∧ a + 4 * n ≤
    0x400000 ∧ s.hardErr = [] ∧ s.softErr = []) ∧
    (∃ (s : State) (c : HostCmd) (l : List HostCmd) (w : Word), State.nextIs c l s ∧ c.op = 7 ∧ c.pl.head? =
    some w ∧ bits w 31 16 = Config.key ∧ imgRefusal s (bits w 3 0) (bits w 5 4) (bits w 15 8) = 0 ∧ bits w 3 0
    ≠ 5) ∧
    (∃ (s : State) (c : HostCmd) (l : List HostCmd), State.nextIs c l s ∧ c.op = 8 ∧ c.pl = [0#32]) :=
  ⟨⟨(waits (hostCmd 3 (0x00010001#32 :: List.replicate 8 0#32)) I),
    (State.withWaiting [] (waits (hostCmd 3 (0x00010001#32 :: List.replicate 8 0#32)) I)),
    (hostCmd 3 (0x00010001#32 :: List.replicate 8 0#32)), [], 0x00010001#32, (List.replicate 8 0#32),
    (.axis 1), (moveOf (fun i => nth 0#32 (List.replicate 8 0#32) i)), by unfold State.nextIs; decide +kernel⟩,
   ⟨(waits (hostCmd 4 [0x001F0000#32, 9#32]) I), (hostCmd 4 [0x001F0000#32, 9#32]), [], 0x001F0000#32, 9#32,
    by unfold State.nextIs; decide +kernel⟩,
   ⟨(waits (hostCmd 5 (1#32 :: List.replicate 8 0#32)) I), (hostCmd 5 (1#32 :: List.replicate 8 0#32)), [],
    by unfold State.nextIs; decide +kernel⟩,
   ⟨(waits (hostCmd 6 [0x00010003#32]) I), (hostCmd 6 [0x00010003#32]), [], (coneAddr I 3), 7,
    by unfold State.nextIs; decide +kernel⟩,
   ⟨(waits (hostCmd 7 [0xC1EA0001#32]) I), (hostCmd 7 [0xC1EA0001#32]), [], 0xC1EA0001#32,
    by unfold State.nextIs; decide +kernel⟩,
   ⟨(waits (hostCmd 8 [0#32]) I), (hostCmd 8 [0#32]), [], by unfold State.nextIs; decide +kernel⟩⟩

theorem met_RegisterWrites :
    (∃ (k : Nat), k < 8) ∧
    (∃ (k : Nat), k < 8) ∧
    (∃ (s : State) (a : Nat), a + 4 ≤ 0x400000 ∧ a % 4 = 0 ∧ (∀ i, i < 8 → inPart s i a = false) ∧ Memory.wf 0
    s.mem = true) ∧
    (∃ (s : State) (a : Nat), a + 4 ≤ 0x400000 ∧ a % 4 = 0 ∧ inPart s ptLADLE a = true) ∧
    (∃ (s : State) (m : Master) (a : Nat), m ≠ .compact ∧ (a % 4 ≠ 0 ∨ mayWrite s m a = false)) ∧
    (∃ (a : Nat), (∃ o, a = 0x40110000 + o ∧ o < 0x10000 ∨ a = 0x40120000 + o ∧ o < 0x10000 ∨ a = 0x40410000 +
    o ∧ o < 0x10000) ∧ a % 4 = 0 ∧ a ≠ 0x40110100) :=
  ⟨⟨7, by decide +kernel⟩,
   ⟨7, by decide +kernel⟩,
   ⟨A, 0x3FFFFC, by decide +kernel⟩,
   ⟨K, 0x1FFFC, by decide +kernel⟩,
   ⟨A, .host, 0x102, by decide +kernel⟩,
   ⟨0x4012FFFC, ⟨0xFFFC, by decide⟩, by decide, by decide⟩⟩

theorem met_BankWriteRule :
    (∃ (s : State) (x : Nat) (i : Nat), x < usableAxes s ∧ x < 128 ∧ i < 256) :=
  ⟨A, 127, 255, by decide +kernel⟩

theorem met_ProfileCommands_inner :
    (∃ (s : State), ∃ (o : Owner), ∃ (m : Master), State.reaches m (ownW o + 0x300) s ∧ pfCheck o 1 (stagedMove
    s m o) s = 0) ∧
    (∃ (s : State), ∃ (o : Owner), ∃ (m : Master), State.reaches m (ownW o + 0x300) s ∧ pfCheck o 2 (stagedMove
    s m o) s = 0) ∧
    (∃ (s : State), ∃ (o : Owner), ∃ (m : Master), State.reaches m (ownW o + 0x300) s ∧ pfCheck o 3 (stagedMove
    s m o) s = 0) ∧
    (∃ (s : State), ∃ (o : Owner), ∃ (m : Master), State.reaches m (ownW o + 0x300) s ∧ pfCheck o 4 (stagedMove
    s m o) s = 0) ∧
    (∃ (s : State), ∃ (o : Owner), ∃ (m : Master), State.reaches m (ownW o + 0x300) s ∧ pfCheck o 5 (stagedMove
    s m o) s = 0) :=
  ⟨⟨(cw [(axW 1 + 0x384, 1), (axW 1 + 0x370, 0x40000000), (axW 1 + 0x374, 0x40000000), (axW 1 + 0x378, 0x40000000), (axW 1 + 0x37C, 0x40000000)] (axs 1 .run (fun x => { x with ctl := { x.ctl with brkRel := true }, fb := { x.fb with posRel := true }, prof := { x.prof with rest := true } }) A)),
    (.axis 1), .host, by unfold State.reaches; decide +kernel, by decide +kernel⟩,
   ⟨(cw [(axW 1 + 0x384, 1), (axW 1 + 0x370, 0x40000000), (axW 1 + 0x374, 0x40000000), (axW 1 + 0x378, 0x40000000), (axW 1 + 0x37C, 0x40000000)] (axs 1 .run (fun x => { x with ctl := { x.ctl with brkRel := true }, fb := { x.fb with posRel := true }, prof := { x.prof with rest := true } }) A)),
    (.axis 1), .host, by unfold State.reaches; decide +kernel, by decide +kernel⟩,
   ⟨(cw [(axW 1 + 0x384, 1), (axW 1 + 0x370, 0x40000000), (axW 1 + 0x374, 0x40000000), (axW 1 + 0x378, 0x40000000), (axW 1 + 0x37C, 0x40000000)] (axs 1 .run (fun x => { x with ctl := { x.ctl with brkRel := true }, fb := { x.fb with posRel := true }, prof := { x.prof with rest := true } }) A)),
    (.axis 1), .host, by unfold State.reaches; decide +kernel, by decide +kernel⟩,
   ⟨(cw [(axW 1 + 0x384, 1), (axW 1 + 0x370, 0x40000000), (axW 1 + 0x374, 0x40000000), (axW 1 + 0x378, 0x40000000), (axW 1 + 0x37C, 0x40000000)] (axs 1 .run (fun x => { x with ctl := { x.ctl with brkRel := true }, fb := { x.fb with posRel := true }, prof := { x.prof with rest := true } }) A)),
    (.axis 1), .host, by unfold State.reaches; decide +kernel, by decide +kernel⟩,
   ⟨(cw [(axW 1 + 0x384, 1), (axW 1 + 0x370, 0x40000000), (axW 1 + 0x374, 0x40000000), (axW 1 + 0x378, 0x40000000), (axW 1 + 0x37C, 0x40000000)] (axs 1 .run (fun x => { x with ctl := { x.ctl with brkRel := true }, fb := { x.fb with posRel := true }, prof := { x.prof with rest := true } }) A)),
    (.axis 1), .host, by unfold State.reaches; decide +kernel, by decide +kernel⟩⟩

theorem met_UpstreamSlots_inner :
    (∃ (s : State), ∃ (r : RxSlot), ∃ (e : SEntry), ∃ (c : Instr), c ∈ [.fupReceived r, .posReceived r,
    .diagReceived r, .svcReply r] ∧ takesUp s = true ∧ chOn s r.ch = true ∧ expected s r = some e ∧ pairRole s
    = false ∧ secondPass s r.ch = false ∧ r.codeErr = true) ∧
    (∃ (s : State), ∃ (r : RxSlot), ∃ (e : SEntry), ∃ (c : Instr), c ∈ [.fupReceived r, .posReceived r,
    .diagReceived r, .svcReply r] ∧ takesUp s = true ∧ chOn s r.ch = true ∧ expected s r = some e ∧ pairRole s
    = false ∧ secondPass s r.ch = false ∧ r.codeErr = false ∧ rxCrcOk 16 r.bytes = false) :=
  ⟨⟨(marked (sch 0 100 1 true 3 2 200 0 0xffff (chon (node 3 1 3 (inState .standby A))))),
    { (slotIn 0 100 tyFUP 200 [3, 5, 1, 0, 0, 0, 0, 0, 0x12, 0x34, 0x56, 0x78, 0, 0, 0, 0]) with codeErr := true },
    ⟨100, 1, true, 3, 2, 200, 0, 0xffff⟩,
    (.fupReceived { (slotIn 0 100 tyFUP 200 [3, 5, 1, 0, 0, 0, 0, 0, 0x12, 0x34, 0x56, 0x78, 0, 0, 0, 0]) with codeErr := true }),
    by decide +kernel, by decide +kernel, by decide +kernel, by decide +kernel, by decide +kernel,
    by decide +kernel, by decide +kernel⟩,
   ⟨(marked (sch 0 100 1 true 3 2 200 0 0xffff (chon (node 3 1 3 (inState .standby A))))),
    { (slotIn 0 100 tyFUP 200 [3, 5, 1, 0, 0, 0, 0, 0, 0x12, 0x34, 0x56, 0x78, 0, 0, 0, 0]) with bytes := List.replicate 24 1#8 },
    ⟨100, 1, true, 3, 2, 200, 0, 0xffff⟩,
    (.fupReceived { (slotIn 0 100 tyFUP 200 [3, 5, 1, 0, 0, 0, 0, 0, 0x12, 0x34, 0x56, 0x78, 0, 0, 0, 0]) with bytes := List.replicate 24 1#8 }),
    by decide +kernel, by decide +kernel, by decide +kernel, by decide +kernel, by decide +kernel,
    by decide +kernel, by decide +kernel, by decide +kernel⟩⟩

theorem met_LaneSlots_inner :
    (∃ (s : State), ∃ (r : LaneSlot), ∃ (p : List Byte), laneTake s twTDIG r = some p ∧ s.sys.hstate = .active
    ∧ entryLacks s = false ∧ s.twin.ownDig = some (BitVec.ofNat 32 (beNat p 0 4), beNat p 4 8)) ∧
    (∃ (s : State), ∃ (r : LaneSlot), ∃ (p : List Byte), laneTake s twTDIG r = some p ∧ s.sys.hstate = .active
    ∧ entryLacks s = false ∧ ∃ d, d ≠ beNat p 4 8 ∧ s.twin.ownDig = some (BitVec.ofNat 32 (beNat p 0 4), d) ∧
    bit s.twin.peerHealth 30 = false) :=
  ⟨⟨(tw (fun t => { t with ownDig := some (640#32, 77) }) (lane A)),
    (laneSlot twTDIG (beBytes 4 640 ++ beBytes 8 77)), (pad16 (beBytes 4 640 ++ beBytes 8 77)),
    by decide +kernel, by decide +kernel, by decide +kernel, by decide +kernel⟩,
   ⟨(tw (fun t => { t with ownDig := some (640#32, 78) }) (lane A)),
    (laneSlot twTDIG (beBytes 4 640 ++ beBytes 8 77)), (pad16 (beBytes 4 640 ++ beBytes 8 77)),
    by decide +kernel, by decide +kernel, by decide +kernel, 78, by decide +kernel, by decide +kernel,
    by decide +kernel⟩⟩

theorem met_SelfTests_inner :
    (∃ (s : State), s.sag.st = 0 ∧ s.sag.selfCpu.isSome = true ∧ s.sag.selfRam.isSome = true ∧
    s.sag.selfRom.isSome = true ∧ s.sag.selfCmp.isSome = true ∧ s.sag.standing = [] ∧ s.sag.regionBad = false) ∧
    (∃ (s : State), s.sag.st = 0 ∧ s.sag.selfCpu.isSome = true ∧ s.sag.selfRam.isSome = true ∧
    s.sag.selfRom.isSome = true ∧ s.sag.selfCmp.isSome = true ∧ ∃ c, ∃ i, ∃ l, s.sag.standing = (c, i) :: l ∧
    s.sag.regionBad = false) :=
  ⟨⟨(sg (fun g => { g with st := 0, selfCpu := some true, selfRam := some true, selfRom := some true, selfCmp := some true, standing := [] }) A),
    by decide +kernel, by decide +kernel, by decide +kernel, by decide +kernel, by decide +kernel,
    by decide +kernel, by decide +kernel⟩,
   ⟨(sg (fun g => { g with st := 0, selfCpu := some true, selfRam := some true, selfRom := some false, selfCmp := some true, standing := [(3, 2)] }) A),
    by decide +kernel, by decide +kernel, by decide +kernel, by decide +kernel, by decide +kernel, 3, 2, [],
    by decide +kernel, by decide +kernel⟩⟩

theorem met_SealedCommands_inner :
    (∃ (s : State), ∃ (m : Master), ∃ (n : Nat), State.reaches m aSGCMD s ∧ s.sag.st ≠ 0 ∧ s.sag.blkMs = none ∧
    8 ≤ n ∧ n ≤ 32 ∧ sha256 (pwdBytes s.sag.pwd n) = s.sag.pwdHash) ∧
    (∃ (s : State), ∃ (m : Master), ∃ (n : Nat), State.reaches m aSGCMD s ∧ s.sag.st ≠ 0 ∧ s.sag.blkMs = none ∧
    8 ≤ n ∧ n ≤ 32 ∧ sha256 (pwdBytes s.sag.pwd n) ≠ s.sag.pwdHash ∧ s.sag.wrong < 2) ∧
    (∃ (s : State), ∃ (m : Master), ∃ (n : Nat), State.reaches m aSGCMD s ∧ s.sag.st ≠ 0 ∧ s.sag.blkMs = none ∧
    8 ≤ n ∧ n ≤ 32 ∧ sha256 (pwdBytes s.sag.pwd n) ≠ s.sag.pwdHash ∧ 2 ≤ s.sag.wrong) :=
  ⟨⟨(sg (fun g => { g with pwdHash := sha256 (pwdBytes [] 8), wrong := 0 }) N), .host, 8,
    by unfold State.reaches; decide +kernel, by decide +kernel, by decide +kernel, by decide +kernel,
    by decide +kernel, rfl⟩,
   ⟨(sg (fun g => { g with pwdHash := [], wrong := 1 }) N), .host, 32, by unfold State.reaches; decide +kernel,
    by decide +kernel, by decide +kernel, by decide +kernel, by decide +kernel, by decide +kernel,
    by decide +kernel⟩,
   ⟨(sg (fun g => { g with pwdHash := [], wrong := 2 }) N), .host, 32, by unfold State.reaches; decide +kernel,
    by decide +kernel, by decide +kernel, by decide +kernel, by decide +kernel, by decide +kernel,
    by decide +kernel⟩⟩

theorem met_BackoffAndRelease_inner :
    (∃ (s : State), ∃ (cls idx : Nat), (getRet s cls idx).st = .backoff ∧ (getRet s cls idx).backoff = 0 ∧ cls
    ∈ [clsNode, clsSegment, clsCascade, clsFeedback]) ∧
    (∃ (s : State), ∃ (cls idx : Nat), (getRet s cls idx).st = .backoff ∧ (getRet s cls idx).backoff = 0 ∧ cls
    = clsStage) ∧
    (∃ (s : State), ∃ (cls idx : Nat), (getRet s cls idx).st = .backoff ∧ (getRet s cls idx).backoff = 0 ∧ cls
    = clsChannel) ∧
    (∃ (s : State), ∃ (cls idx : Nat), (getRet s cls idx).st = .backoff ∧ (getRet s cls idx).backoff = 0 ∧ (cls
    = clsSdi ∨ cls = clsTwin)) ∧
    (∃ (s : State), ∃ (m : Master), ∃ (w : Word), ∃ (cls idx : Nat), State.reaches m aRTREL s ∧ bits w 31 16 =
    Config.key ∧ bit w 0 = true ∧ cls = bits (rtSel s m) 18 16 ∧ idx = bits (rtSel s m) 7 0 ∧ isRetired s cls
    idx = true ∧ s.ret.late.contains (retKey cls idx) = false) ∧
    (∃ (s : State), ∃ (m : Master), ∃ (w : Word), ∃ (cls idx : Nat), State.reaches m aRTREL s ∧ bits w 31 16 =
    Config.key ∧ bit w 0 = true ∧ cls = bits (rtSel s m) 18 16 ∧ idx = bits (rtSel s m) 7 0 ∧ isRetired s cls
    idx = true ∧ s.ret.late.contains (retKey cls idx) = true ∧ cls = clsCascade ∧ s.ret.cfg = []) ∧
    (∃ (s : State), ∃ (m : Master), ∃ (w : Word), ∃ (cls idx : Nat), State.reaches m aRTREL s ∧ bits w 31 16 =
    Config.key ∧ bit w 0 = true ∧ cls = bits (rtSel s m) 18 16 ∧ idx = bits (rtSel s m) 7 0 ∧ isRetired s cls
    idx = true ∧ s.ret.late.contains (retKey cls idx) = false ∧ cls ∈ [clsSegment, clsChannel, clsCascade,
    clsStage]) ∧
    (∃ (s : State), ∃ (m : Master), ∃ (w : Word), ∃ (cls idx : Nat), State.reaches m aRTREL s ∧ bits w 31 16 =
    Config.key ∧ bit w 0 = true ∧ cls = bits (rtSel s m) 18 16 ∧ idx = bits (rtSel s m) 7 0 ∧ isRetired s cls
    idx = false) :=
  ⟨⟨(rt [(retKey clsFeedback 255, ⟨.backoff, [4, 3], 0, true, 2⟩)] A), clsFeedback, 255, by decide +kernel,
    by decide +kernel, by decide +kernel⟩,
   ⟨(rt [(retKey clsStage 127, ⟨.backoff, [4, 3], 0, true, 2⟩)] A), clsStage, 127, by decide +kernel,
    by decide +kernel, by decide +kernel⟩,
   ⟨(rt [(retKey clsChannel 1, ⟨.backoff, [4, 3], 0, true, 2⟩)] A), clsChannel, 1, by decide +kernel,
    by decide +kernel, by decide +kernel⟩,
   ⟨(rt [(retKey clsTwin 0, ⟨.backoff, [4, 3], 0, true, 2⟩)] A), clsTwin, 0, by decide +kernel, by decide +kernel,
    by decide +kernel⟩,
   ⟨(let t := rt [(retKey clsSdi 7, ⟨.retired, [4, 3], 0, true, 2⟩)] A; { t with ret := { t.ret with sel := [(masterNo .host, BitVec.ofNat 32 (clsSdi * 65536 + 7))], late := [], cfg := [] } }),
    .host, 0xC1EA0001#32, _, _, by unfold State.reaches; decide +kernel, by decide +kernel, by decide +kernel,
    rfl, rfl, by decide +kernel, by decide +kernel⟩,
   ⟨(let t := rt [(retKey clsCascade 0, ⟨.retired, [4, 3], 0, true, 2⟩)] A; { t with ret := { t.ret with sel := [(masterNo .host, BitVec.ofNat 32 (clsCascade * 65536 + 0))], late := [retKey clsCascade 0], cfg := [] } }),
    .host, 0xC1EA0001#32, _, _, by unfold State.reaches; decide +kernel, by decide +kernel, by decide +kernel,
    rfl, rfl, by decide +kernel, by decide +kernel, rfl, by decide +kernel⟩,
   ⟨(let t := rt [(retKey clsStage 127, ⟨.retired, [4, 3], 0, true, 2⟩)] A; { t with ret := { t.ret with sel := [(masterNo .host, BitVec.ofNat 32 (clsStage * 65536 + 127))], late := [], cfg := [] } }),
    .host, 0xC1EA0001#32, _, _, by unfold State.reaches; decide +kernel, by decide +kernel, by decide +kernel,
    rfl, rfl, by decide +kernel, by decide +kernel, by decide +kernel⟩,
   ⟨(let t := rt [(retKey clsNode 31, ⟨.inUse, [4, 3], 0, true, 2⟩)] A; { t with ret := { t.ret with sel := [(masterNo .host, BitVec.ofNat 32 (clsNode * 65536 + 31))], late := [], cfg := [] } }),
    .host, 0xC1EA0001#32, _, _, by unfold State.reaches; decide +kernel, by decide +kernel, by decide +kernel,
    rfl, rfl, by decide +kernel⟩⟩

theorem met_OverVoltage_inner :
    (∃ (s : State), ∃ (j : Nat), Cfg.PSCHOP_EN s j = true ∧ Cfg.PSCHOP_MAXON s j ≠ 0 ∧ (s.ps.on.testBit j =
    true ∨ s.ps.forced.testBit j = true) ∧ Config.roundsPerMs * Cfg.PSCHOP_MAXON s j ≤ tget 0 s.ps.onRounds j ∧
    s.ps.overload.testBit j = false) ∧
    (∃ (s : State), ∃ (j : Nat), Cfg.PSCHOP_EN s j = true ∧ Cfg.PSCHOP_MAXON s j ≠ 0 ∧ (s.ps.on.testBit j =
    true ∨ s.ps.forced.testBit j = true) ∧ Config.roundsPerMs * Cfg.PSCHOP_MAXON s j ≤ tget 0 s.ps.onRounds j ∧
    s.ps.overload.testBit j = true) :=
  ⟨⟨(psf (fun p => { p with on := 1, onRounds := [(0, 128000)], overload := 0 }) (ana A)), 0, by decide +kernel,
    by decide +kernel, by decide +kernel, by decide +kernel, by decide +kernel⟩,
   ⟨(psf (fun p => { p with on := 1, onRounds := [(0, 128000)], overload := 1 }) (ana A)), 0, by decide +kernel,
    by decide +kernel, by decide +kernel, by decide +kernel, by decide +kernel⟩⟩

theorem met_SigmaDeltaAndSelfTest_inner :
    (∃ (s : State), ∃ (n : Nat), s.ps.testBusy = false ∧ testTargetOk s n = true ∧ testWouldBlind s n = false) ∧
    (∃ (s : State), ∃ (n : Nat), s.ps.testBusy = false ∧ testTargetOk s n = false) :=
  ⟨⟨(ana A), 9, by decide +kernel, by decide +kernel, by decide +kernel⟩,
   ⟨(ana A), 10, by decide +kernel, by decide +kernel⟩⟩

theorem met_RecorderCommands_inner :
    (∃ (s : State), ∃ (m : Master), State.reaches m aRCCMD s ∧ s.rcd.saving = false ∧ s.sys.dip = false ∧
    s.sys.defer = false) ∧
    (∃ (s : State), ∃ (m : Master), State.reaches m aRCCMD s ∧ s.rcd.saving = true) ∧
    (∃ (s : State), ∃ (m : Master), State.reaches m aRCCMD s ∧ s.rcd.saving = false ∧ (s.sys.dip = true ∨
    s.sys.defer = true)) ∧
    (∃ (s : State), ∃ (src : Source), ∃ (scope : Nat), src ≠ .compact ∧ scope ≠ 0 ∧ s.rcd.auth = true ∧
    s.rcd.clrCnt < 16 ∧ s.sys.dip = false ∧ s.sys.defer = false ∧ ∃ l, l = wordBytes (withCrc [packWord [(19,
    16, scope), (15, 0, s.rcd.clrCnt + 1)], s.rcd.pc, s.rcd.sec, s.sys.round, BitVec.ofNat 32 s.rcd.count,
    BitVec.ofNat 32 s.rcd.lost, if src = .spi then 1#32 else 0#32]) ∧ ∃ fa, ∃ ma, fa = (Cfg.RCFLASH s).toNat +
    0x28000 + 32 * s.rcd.clrCnt ∧ ma = recAddr s (0xC000 + 32 * s.rcd.clrCnt)) ∧
    (∃ (s : State), ∃ (m : Master), ∃ (n : Nat), State.reaches m aRCCMD s ∧ s.rcd.blkMs = none ∧ 8 ≤ n ∧ n ≤ 32
    ∧ sha256 (pwdBytes s.rcd.pwd n) = s.rcd.pwdHash) ∧
    (∃ (s : State), ∃ (m : Master), ∃ (n : Nat), State.reaches m aRCCMD s ∧ s.rcd.blkMs = none ∧ 8 ≤ n ∧ n ≤ 32
    ∧ sha256 (pwdBytes s.rcd.pwd n) ≠ s.rcd.pwdHash ∧ s.rcd.wrong < 2) ∧
    (∃ (s : State), ∃ (m : Master), ∃ (n : Nat), State.reaches m aRCCMD s ∧ s.rcd.blkMs = none ∧ 8 ≤ n ∧ n ≤ 32
    ∧ sha256 (pwdBytes s.rcd.pwd n) ≠ s.rcd.pwdHash ∧ 2 ≤ s.rcd.wrong) ∧
    (∃ (s : State), ∃ (m : Master), ∃ (n : Nat), State.reaches m aRCCMD s ∧ s.rcd.blkMs = none ∧ (n < 8 ∨ 32 <
    n)) :=
  ⟨⟨A, .host, by unfold State.reaches; decide +kernel, by decide +kernel, by decide +kernel, by decide +kernel⟩,
   ⟨(rc (fun r => { r with saving := true }) A), .host, by unfold State.reaches; decide +kernel, by decide +kernel⟩,
   ⟨(let t := A; { t with sys := { t.sys with dip := true } }), .host, by unfold State.reaches; decide +kernel,
    by decide +kernel, by decide +kernel⟩,
   ⟨(rc (fun r => { r with auth := true, clrCnt := 15 }) A), .spi, 7, by decide +kernel, by decide +kernel,
    by decide +kernel, by decide +kernel, by decide +kernel, by decide +kernel, _, rfl, _, _, rfl, rfl⟩,
   ⟨(rc (fun r => { r with pwdHash := sha256 (pwdBytes [] 8), wrong := 0 }) A), .host, 8,
    by unfold State.reaches; decide +kernel, by decide +kernel, by decide +kernel, by decide +kernel, rfl⟩,
   ⟨(rc (fun r => { r with pwdHash := [], wrong := 1 }) A), .host, 32, by unfold State.reaches; decide +kernel,
    by decide +kernel, by decide +kernel, by decide +kernel, by decide +kernel, by decide +kernel⟩,
   ⟨(rc (fun r => { r with pwdHash := [], wrong := 2 }) A), .host, 32, by unfold State.reaches; decide +kernel,
    by decide +kernel, by decide +kernel, by decide +kernel, by decide +kernel, by decide +kernel⟩,
   ⟨A, .host, 33, by unfold State.reaches; decide +kernel, by decide +kernel, by decide +kernel⟩⟩

theorem met_BootAndListen_inner :
    (∃ (s : State), ∃ (b : BootObs), ∃ (k k' : Nat), s.sys.hstate = .boot ∧ s.sys.inReset = false ∧
    s.boot.verified = false ∧ s.boot.noImage = false ∧ b.sfdpOk = true ∧ (s.sys.oct = true → b.xspiOk = true) ∧
    0x800000 ≤ b.density ∧ slotOrder s b = [k, k'] ∧ ∃ c, ∃ r, ∃ c', ∃ r', bootVerify s b k = .bad c r ∧
    bootVerify s b k' = .bad c' r') :=
  ⟨(inState .boot A), ⟨true, false, 0x800000, true, true, [], []⟩, 0, 1, by decide +kernel, by decide +kernel,
    by decide +kernel, by decide +kernel, by decide +kernel, by decide +kernel, by decide +kernel,
    by decide +kernel, 10, 0, 10, 0, by decide +kernel, by decide +kernel⟩

theorem met_ImageCommandsAndJobs_inner :
    (∃ (s : State), ∃ (m : Master), ∃ (slot n : Nat), State.reaches m aIMGCMD s ∧ ∃ (c : Instr), ∃ k, ∃ (ws :
    List Word), (c = .erase m slot ∧ k = 1 ∧ ws = [] ∨ c = .program m slot n ∧ k = 2 ∧ ws = (stagedWords s
    m).take n ∨ c = .verify m slot ∧ k = 3 ∧ ws = [] ∨ c = .invalidate m slot ∧ k = 4 ∧ ws = []) ∧ imgRefusal s
    k slot (if k = 2 then n else 0) = 0) ∧
    (∃ (s : State), ∃ (m : Master), ∃ (slot n : Nat), State.reaches m aIMGCMD s ∧ ∃ (c : Instr), ∃ k, ∃ (ws :
    List Word), (c = .erase m slot ∧ k = 1 ∧ ws = [] ∨ c = .program m slot n ∧ k = 2 ∧ ws = (stagedWords s
    m).take n ∨ c = .verify m slot ∧ k = 3 ∧ ws = [] ∨ c = .invalidate m slot ∧ k = 4 ∧ ws = []) ∧ imgRefusal s
    k slot (if k = 2 then n else 0) ≠ 0) ∧
    (∃ (s : State), ∃ (m : Master), State.reaches m aIMGCMD s ∧ imgRefusal s 5 0 0 = 0 ∧ deferring s = false) ∧
    (∃ (s : State), ∃ (k : Nat), ∃ (ws : List Word), deferring s = false ∧ k < 2 ∧ s.boot.job = some (1, k,
    ws)) ∧
    (∃ (s : State), ∃ (k : Nat), ∃ (ws : List Word), deferring s = false ∧ k < 2 ∧ s.boot.job = some (4, k,
    ws)) ∧
    (∃ (s : State), ∃ (k : Nat), ∃ (ws : List Word), deferring s = false ∧ k < 2 ∧ s.boot.job = some (2, k, ws)
    ∧ 64 ≤ s.boot.fill) :=
  ⟨⟨I, .host, 1, 64, by unfold State.reaches; decide +kernel, (.program .host 1 64), 2,
    ((stagedWords I .host).take 64), .inr (.inl ⟨rfl, rfl, rfl⟩), by decide +kernel⟩,
   ⟨I, .host, 1, 65, by unfold State.reaches; decide +kernel, (.program .host 1 65), 2,
    ((stagedWords I .host).take 65), .inr (.inl ⟨rfl, rfl, rfl⟩), by decide +kernel⟩,
   ⟨I, .host, by unfold State.reaches; decide +kernel, by decide +kernel, by decide +kernel⟩,
   ⟨(bt (fun b => { b with job := some (1, 1, []), fill := 64 }) A), 1, [], by decide +kernel, by decide +kernel,
    by decide +kernel⟩,
   ⟨(bt (fun b => { b with job := some (4, 1, []), fill := 64 }) A), 1, [], by decide +kernel, by decide +kernel,
    by decide +kernel⟩,
   ⟨(bt (fun b => { b with job := some (2, 1, [7#32]), fill := 64 }) A), 1, [7#32], by decide +kernel,
    by decide +kernel, by decide +kernel, by decide +kernel⟩⟩

theorem met_FuseProgramming_inner :
    (∃ (s : State), ∃ (m : Master), ∃ (w : Word), ∃ (vpp : Bool), State.reaches m aFPCMD s ∧ bits w 31 16 =
    Config.key ∧ bit w 0 = true ∧ s.boot.fpBusy = false ∧ fuseRefusal { s with boot := { s.boot with vpp := vpp
    } } = 0) ∧
    (∃ (s : State), ∃ (m : Master), ∃ (w : Word), ∃ (vpp : Bool), State.reaches m aFPCMD s ∧ bits w 31 16 =
    Config.key ∧ bit w 0 = true ∧ s.boot.fpBusy = false ∧ fuseRefusal { s with boot := { s.boot with vpp := vpp
    } } ≠ 0) :=
  ⟨⟨(sealed { N with boot := { fpSel := 2#32, fpData := [(0, 40#32)] } }), .host, 0xC1EA0001#32, true,
    by unfold State.reaches; decide +kernel, by decide +kernel, by decide +kernel, by decide +kernel,
    by decide +kernel⟩,
   ⟨N, .host, 0xC1EA0001#32, false, by unfold State.reaches; decide +kernel, by decide +kernel, by decide +kernel,
    by decide +kernel, by decide +kernel⟩⟩

theorem met_PowerAndSupply_inner :
    (∃ (s : State), ∃ (m : Master), State.reaches m aPWRCMD s ∧ s.sys.pwr = .park ∧ driving s = true ∧
    s.boot.busy = false ∧ s.boot.fpBusy = false) ∧
    (∃ (s : State), ∃ (m : Master), State.reaches m aPWRCMD s ∧ (s.sys.pwr ≠ .park ∨ driving s = false ∨
    s.boot.busy = true ∨ s.boot.fpBusy = true)) ∧
    (∃ (s : State), ∃ (k : Nat), 1 ≤ k ∧ k ≤ 5 ∧ (k = 3 → Cfg.PWRCFG_EVWAKE s = true) ∧ s.sys.pwr = .deep ∧
    s.sys.waking = none) ∧
    (∃ (s : State), ∃ (k : Nat), 1 ≤ k ∧ k ≤ 5 ∧ (k = 3 → Cfg.PWRCFG_EVWAKE s = true) ∧ (s.sys.pwr ≠ .deep ∨
    s.sys.waking ≠ none)) ∧
    (∃ (s : State), s.sys.defer = true ∧ s.sys.dip = false ∧ s.sys.deferMs = 0 ∧ s.rcd.deferred = false) ∧
    (∃ (s : State), s.sys.defer = true ∧ s.sys.dip = false ∧ s.sys.deferMs = 0 ∧ s.rcd.deferred = true ∧
    s.rcd.saving = false) :=
  ⟨⟨(let t := A; { t with sys := { t.sys with pwr := .park } }), .host, by unfold State.reaches; decide +kernel,
    by decide +kernel, by decide +kernel, by decide +kernel, by decide +kernel⟩,
   ⟨(let t := A; { t with sys := { t.sys with pwr := .park }, boot := { t.boot with busy := true } }), .host,
    by unfold State.reaches; decide +kernel, by decide +kernel⟩,
   ⟨(let t := A; { t with sys := { t.sys with pwr := .deep } }), 5, by decide +kernel, by decide +kernel,
    by decide +kernel, by decide +kernel, by decide +kernel⟩,
   ⟨(let t := A; { t with sys := { t.sys with pwr := .deep, waking := some 2 } }), 1, by decide +kernel,
    by decide +kernel, by decide +kernel, by decide +kernel⟩,
   ⟨(let t := A; { t with sys := { t.sys with defer := true, deferMs := 0 } }), by decide +kernel,
    by decide +kernel, by decide +kernel, by decide +kernel⟩,
   ⟨(let t := A; { t with sys := { t.sys with defer := true, deferMs := 0 }, rcd := { t.rcd with deferred := true } }),
    by decide +kernel, by decide +kernel, by decide +kernel, by decide +kernel, by decide +kernel⟩⟩

theorem met_LadleInteger_inner :
    (∃ (s : State), ∃ (c d a b : Nat), ∃ (i : BitVec 18), ∃ (m : ShAmt), State.coreRuns c s ∧ ∃ k, k = getCore
    s c ∧ ∃ n, n = (match m with | .imm q => q % 32 | .reg r => (rd k r).toNat % 32) ∧ ∃ (cmd : Instr), ∃ x, ∃
    (y : Word), ∃ (r : Word), (cmd = .add c d a b ∧ x = rd k a ∧ y = rd k b ∧ r = x + y ∨ cmd = .addi c d a i ∧
    x = rd k a ∧ y = i.signExtend 32 ∧ r = x + y)) ∧
    (∃ (s : State), ∃ (c d a b : Nat), ∃ (m : ShAmt), State.coreRuns c s ∧ ∃ k, k = getCore s c ∧ ∃ n, n =
    (match m with | .imm q => q % 32 | .reg r => (rd k r).toNat % 32) ∧ ∃ (cmd : Instr), ∃ (rs : List Res),
    (cmd = .sub c d a b ∧ rs = [.d d, .flags] ∨ cmd = .cmp c a b ∧ rs = [.flags])) ∧
    (∃ (s : State), ∃ (c d a b : Nat), ∃ (m : ShAmt), State.coreRuns c s ∧ ∃ k, k = getCore s c ∧ ∃ n, n =
    (match m with | .imm q => q % 32 | .reg r => (rd k r).toNat % 32) ∧ ∃ (cmd : Instr), ∃ (r : Word), (cmd =
    .and c d a b ∧ r = rd k a &&& rd k b ∨ cmd = .or c d a b ∧ r = rd k a ||| rd k b ∨ cmd = .xor c d a b ∧ r =
    rd k a ^^^ rd k b ∨ cmd = .shl c d a m ∧ r = rd k a <<< n ∨ cmd = .shr c d a m ∧ r = rd k a >>> n ∨ cmd =
    .sar c d a m ∧ r = (rd k a).sshiftRight n ∨ cmd = .ror c d a m ∧ r = (rd k a).rotateRight n)) ∧
    (∃ (s : State), ∃ (c d a b : Nat), ∃ (u : BitVec 16), ∃ (m : ShAmt), State.coreRuns c s ∧ ∃ k, k = getCore
    s c ∧ ∃ n, n = (match m with | .imm q => q % 32 | .reg r => (rd k r).toNat % 32) ∧ ∃ (cmd : Instr), ∃ (r :
    Word), (cmd = .mul c d a b ∧ r = rd k a * rd k b ∨ cmd = .mov c d a ∧ r = rd k a ∨ cmd = .movl c d u ∧ r =
    u.setWidth 32 ∨ cmd = .movh c d u ∧ r = (u.setWidth 32 <<< 16) ||| (rd k d &&& 0xFFFF#32))) ∧
    (∃ (s : State), ∃ (c : Nat), ∃ (m : ShAmt), State.coreRuns c s ∧ ∃ k, k = getCore s c ∧ ∃ n, n = (match m
    with | .imm q => q % 32 | .reg r => (rd k r).toNat % 32)) :=
  ⟨⟨K, 4, 3, 1, 2, 0#18, (.imm 31), by unfold State.coreRuns; decide +kernel, _, rfl, _, rfl, (.addi 4 3 1 0#18),
    _, _, _, .inr (⟨rfl, rfl, rfl, rfl⟩)⟩,
   ⟨K, 4, 3, 1, 2, (.imm 31), by unfold State.coreRuns; decide +kernel, _, rfl, _, rfl, (.cmp 4 1 2), [.flags],
    .inr (⟨rfl, rfl⟩)⟩,
   ⟨K, 4, 3, 1, 2, (.imm 31), by unfold State.coreRuns; decide +kernel, _, rfl, _, rfl, (.ror 4 3 1 (.imm 31)), _,
    .inr (.inr (.inr (.inr (.inr (.inr (⟨rfl, rfl⟩))))))⟩,
   ⟨K, 4, 3, 1, 2, 0#16, (.imm 31), by unfold State.coreRuns; decide +kernel, _, rfl, _, rfl, (.movl 4 3 0#16), _,
    .inr (.inr (.inl ⟨rfl, rfl⟩))⟩,
   ⟨K, 4, (.imm 31), by unfold State.coreRuns; decide +kernel, _, rfl, _, rfl⟩⟩

theorem met_LadleFp_inner :
    (∃ (s : State), ∃ (c d a b : Nat), State.coreRuns c s ∧ ∃ k, k = getCore s c ∧ ∃ x, ∃ y, ∃ z, x = ftz (rd k
    a) ∧ y = ftz (rd k b) ∧ z = ftz (BitVec.ofNat 32 (seen k .addend (.d d))) ∧ ∃ (cmd : Instr), ∃ (r : Word),
    (cmd = .fadd c d a b ∧ r = fAdd x y ∨ cmd = .fsub c d a b ∧ r = fSub x y ∨ cmd = .fmul c d a b ∧ r = fMul x
    y ∨ cmd = .fma c d a b ∧ r = fFma z x y ∨ cmd = .fms c d a b ∧ r = fFma z (fNeg x) y ∨ cmd = .fabs c d a ∧
    r = fAbs x ∨ cmd = .fneg c d a ∧ r = fNeg x ∨ cmd = .frcp c d a ∧ r = fDiv fOne x)) ∧
    (∃ (s : State), ∃ (c d a b : Nat), State.coreRuns c s ∧ ∃ k, k = getCore s c ∧ ∃ x, ∃ y, ∃ z, x = ftz (rd k
    a) ∧ y = ftz (rd k b) ∧ z = ftz (BitVec.ofNat 32 (seen k .addend (.d d))) ∧ ∃ (cmd : Instr), ∃ m, (cmd =
    .fmin c d a b ∧ m = fLt x y ∨ cmd = .fmax c d a b ∧ m = !fLt x y)) ∧
    (∃ (s : State), ∃ (c d a b : Nat), State.coreRuns c s ∧ ∃ k, k = getCore s c ∧ ∃ x, ∃ y, ∃ z, x = ftz (rd k
    a) ∧ y = ftz (rd k b) ∧ z = ftz (BitVec.ofNat 32 (seen k .addend (.d d)))) ∧
    (∃ (s : State), ∃ (c d a b : Nat), State.coreRuns c s ∧ ∃ k, k = getCore s c ∧ ∃ x, ∃ y, ∃ z, x = ftz (rd k
    a) ∧ y = ftz (rd k b) ∧ z = ftz (BitVec.ofNat 32 (seen k .addend (.d d))) ∧ ∃ (cmd : Instr), ∃ (r : Word),
    (cmd = .integerToFp c d a ∧ r = fOfInt (rd k a).toInt ∨ cmd = .q31ToFp c d a ∧ r = fOfDyadic false (rd k
    a).toInt (-31) ∨ cmd = .fpToInteger c d a ∧ r = fToIntSat 0 x ∨ cmd = .fpToQ31 c d a ∧ r = fToIntSat 31 x))
    ∧
    (∃ (s : State), ∃ (c d a b : Nat), State.coreRuns c s ∧ ∃ k, k = getCore s c ∧ ∃ x, ∃ y, ∃ z, x = ftz (rd k
    a) ∧ y = ftz (rd k b) ∧ z = ftz (BitVec.ofNat 32 (seen k .addend (.d d))) ∧ fIsNaN x = true) :=
  ⟨⟨K, 4, 3, 1, 2, by unfold State.coreRuns; decide +kernel, _, rfl, _, _, _, rfl, rfl, rfl, (.frcp 4 3 1), _,
    .inr (.inr (.inr (.inr (.inr (.inr (.inr (⟨rfl, rfl⟩)))))))⟩,
   ⟨K, 4, 3, 1, 2, by unfold State.coreRuns; decide +kernel, _, rfl, _, _, _, rfl, rfl, rfl, (.fmin 4 3 1 2), _,
    .inl ⟨rfl, rfl⟩⟩,
   ⟨K, 4, 3, 1, 2, by unfold State.coreRuns; decide +kernel, _, rfl, _, _, _, rfl, rfl, rfl⟩,
   ⟨K, 4, 3, 1, 2, by unfold State.coreRuns; decide +kernel, _, rfl, _, _, _, rfl, rfl, rfl, (.fpToQ31 4 3 1), _,
    .inr (.inr (.inr (⟨rfl, rfl⟩)))⟩,
   ⟨(core 4 0x40708010 (fun k => { k with prim := { k.prim with d := [(1, 0x7FC00000#32)] } })), 4, 3, 1, 2,
    by unfold State.coreRuns; decide +kernel, _, rfl, _, _, _, rfl, rfl, rfl, by decide +kernel⟩⟩

theorem met_LadleAccumulators_inner :
    (∃ (s : State), ∃ (c e : Nat), State.coreRuns c s ∧ ∃ k, k = getCore s c ∧ ∃ (v : BitVec 72), v =
    BitVec.ofNat 72 (seen k .accum (.acc e)) ∧ ∃ (w : BitVec 72), w = BitVec.ofNat 72 (seen k .accRead (.acc
    e))) ∧
    (∃ (s : State), ∃ (c e : Nat), State.coreRuns c s ∧ ∃ k, k = getCore s c ∧ ∃ (v : BitVec 72), v =
    BitVec.ofNat 72 (seen k .accum (.acc e)) ∧ ∃ (w : BitVec 72), w = BitVec.ofNat 72 (seen k .accRead (.acc
    e))) ∧
    (∃ (s : State), ∃ (c e : Nat), State.coreRuns c s ∧ ∃ k, k = getCore s c ∧ ∃ (v : BitVec 72), v =
    BitVec.ofNat 72 (seen k .accum (.acc e)) ∧ ∃ (w : BitVec 72), w = BitVec.ofNat 72 (seen k .accRead (.acc
    e))) ∧
    (∃ (s : State), ∃ (c e : Nat), State.coreRuns c s ∧ ∃ k, k = getCore s c ∧ ∃ (v : BitVec 72), v =
    BitVec.ofNat 72 (seen k .accum (.acc e)) ∧ ∃ (w : BitVec 72), w = BitVec.ofNat 72 (seen k .accRead (.acc
    e))) ∧
    (∃ (s : State), ∃ (c e : Nat), State.coreRuns c s ∧ ∃ k, k = getCore s c ∧ ∃ (v : BitVec 72), v =
    BitVec.ofNat 72 (seen k .accum (.acc e)) ∧ ∃ (w : BitVec 72), w = BitVec.ofNat 72 (seen k .accRead (.acc
    e))) :=
  ⟨⟨K, 4, 1, by unfold State.coreRuns; decide +kernel, _, rfl, _, rfl, _, rfl⟩,
   ⟨K, 4, 1, by unfold State.coreRuns; decide +kernel, _, rfl, _, rfl, _, rfl⟩,
   ⟨K, 4, 1, by unfold State.coreRuns; decide +kernel, _, rfl, _, rfl, _, rfl⟩,
   ⟨K, 4, 1, by unfold State.coreRuns; decide +kernel, _, rfl, _, rfl, _, rfl⟩,
   ⟨K, 4, 1, by unfold State.coreRuns; decide +kernel, _, rfl, _, rfl, _, rfl⟩⟩

theorem met_LadlePointersAndMemory_inner :
    (∃ (s : State), ∃ (c d p q : Nat), ∃ (u : BitVec 16), State.coreRuns c s ∧ ∃ k, k = getCore s c ∧ ∃ (cmd :
    Instr), ∃ (r : Res), ∃ (v : Word), (cmd = .pmvPFromD c p d ∧ r = .p p ∧ v = rd k d ∨ cmd = .pmvDFromP c d p
    ∧ r = .d d ∧ v = rp k p ∨ cmd = .pmvMFromD c p d ∧ r = .m p ∧ v = rd k d ∨ cmd = .pmvDFromM c d p ∧ r = .d
    d ∧ v = rm k p ∨ cmd = .padd c p q u ∧ r = .p p ∧ v = rp k q + u.signExtend 32 ∨ cmd = .mset c p u ∧ r = .m
    p ∧ v = u.setWidth 32 ∨ cmd = .mlen c p u ∧ r = .m p ∧ v = (u.setWidth 32 <<< 16) ||| (rm k p &&&
    0xFFFF#32))) ∧
    (∃ (s : State), ∃ (c p : Nat), ∃ (md : MemMode), ∃ (w : MemWidth), State.coreRuns c s ∧ ∃ k, k = getCore s
    c ∧ offsetOk md w = true ∧ ∃ a, a = (memAddr k p md).toNat ∧ a % widthBytes w = 0 ∧ (a < 0x400000 ∧ c < 4 ∨
    inLocal a = true ∧ c = 4) ∧ ∃ (rs : List Res), rs = (if md = .postModify then [Res.p p] else []) ∧
    s.hardErr = [] ∧ s.softErr = []) ∧
    (∃ (s : State), ∃ (c p : Nat), ∃ (md : MemMode), ∃ (w : MemWidth), State.coreRuns c s ∧ ∃ k, k = getCore s
    c ∧ offsetOk md w = true ∧ ∃ a, a = (memAddr k p md).toNat ∧ a % widthBytes w = 0 ∧ (a < 0x400000 ∧ c < 4 ∨
    inLocal a = true ∧ c = 4) ∧ ∃ (rs : List Res), rs = (if md = .postModify then [Res.p p] else []) ∧ w ≠
    .uhalf ∧ (c < 4 → inPart s ptLADLE a = true) ∧ Memory.wf 0 s.mem = true) ∧
    (∃ (s : State), ∃ (c q : Nat), ∃ (u : BitVec 16), State.coreRuns c s ∧ c < 4 ∧ ∃ k, k = getCore s c ∧ ∃ a,
    a = (rp k q + u.signExtend 32).toNat ∧ a < 0x400000 ∧ a % 4 = 0 ∧ s.hardErr = [] ∧ s.softErr = []) ∧
    (∃ (s : State), ∃ (d p : Nat), ∃ (cmd : Instr), State.coreRuns 4 s ∧ ∃ k, k = getCore s 4 ∧ inLocal (rp k
    p).toNat = true ∧ (rp k p).toNat % 4 ≠ 0 ∧ (cmd = .ld 4 d p (.offset 0#15) .word ∨ cmd = .st 4 d p (.offset
    0#15) .word)) :=
  ⟨⟨K, 4, 3, 1, 2, 0#16, by unfold State.coreRuns; decide +kernel, _, rfl, (.mset 4 1 0#16), _, _,
    .inr (.inr (.inr (.inr (.inr (.inl ⟨rfl, rfl, rfl⟩)))))⟩,
   ⟨(core 4 0x40708010 (fun k => { k with prim := { k.prim with p := [(1, 0x4070FFFE#32)] } })), 4, 1,
    .postModify, .shalf, by unfold State.coreRuns; decide +kernel, _, rfl, by decide +kernel, _, rfl,
    by decide +kernel, by decide +kernel, _, rfl, by decide +kernel, by decide +kernel⟩,
   ⟨(core 2 0x11000 (fun k => { k with prim := { k.prim with p := [(1, 0x1FFFC#32)] } })), 2, 1, (.offset 0#15),
    .word, by unfold State.coreRuns; decide +kernel, _, rfl, by decide +kernel, _, rfl, by decide +kernel,
    by decide +kernel, _, rfl, by decide +kernel, by decide +kernel, by decide +kernel⟩,
   ⟨(core 2 0x11000 (fun k => { k with prim := { k.prim with p := [(1, 0x3FFFFC#32)] } })), 2, 1, 0#16,
    by unfold State.coreRuns; decide +kernel, by decide +kernel, _, rfl, _, rfl, by decide +kernel,
    by decide +kernel, by decide +kernel, by decide +kernel⟩,
   ⟨(core 4 0x40708010 (fun k => { k with prim := { k.prim with p := [(1, 0x4070FFFE#32)] } })), 3, 1,
    (.st 4 3 1 (.offset 0#15) .word), by unfold State.coreRuns; decide +kernel, _, rfl, by decide +kernel,
    by decide +kernel, .inr (rfl)⟩⟩

theorem met_LadleDual_inner :
    (∃ (s : State), ∃ (c d e a b : Nat), ∃ (o q : Option DualLoad), State.coreRuns c s ∧ s.hardErr = [] ∧
    s.softErr = [] ∧ ∃ k, k = getCore s c ∧ (∀ x, o = some x ∨ q = some x → (rp k x.p).toNat % 4 = 0 ∧ ((rp k
    x.p).toNat < 0x400000 ∧ c < 4 ∨ inLocal (rp k x.p).toNat = true ∧ c = 4)) ∧ ∃ (rs : List Res), rs = ([o,
    q].filterMap id).flatMap (fun x => [Res.d x.d, .p x.p]) ∧ ∃ (cmd : Instr), ∃ (r : List Res), (cmd = .fmad c
    d a b o q ∧ r = [.d d] ∨ cmd = .macd c e a b o q ∧ r = [.acc e] ∨ cmd = .ld2 c o q ∧ r = [])) ∧
    (∃ (s : State), ∃ (d e a b : Nat), ∃ (x : DualLoad), ∃ (cmd : Instr), State.coreRuns 4 s ∧ ∃ k, k = getCore
    s 4 ∧ inLocal (rp k x.p).toNat = true ∧ (rp k x.p).toNat % 4 ≠ 0 ∧ (cmd = .fmad 4 d a b (some x) none ∨ cmd
    = .macd 4 e a b none (some x) ∨ cmd = .ld2 4 (some x) none)) :=
  ⟨⟨(core 4 0x40708010 (fun k => { k with prim := { k.prim with p := [(1, 0x4070FFFC#32)] } })), 4, 3, 1, 1, 2,
    (some ⟨5, 1⟩), none, by unfold State.coreRuns; decide +kernel, by decide +kernel, by decide +kernel, _,
    rfl, by intro x h; rcases h with h | h <;> cases h; decide +kernel, _, rfl, (.ld2 4 (some ⟨5, 1⟩) none),
    [], .inr (.inr (⟨rfl, rfl⟩))⟩,
   ⟨(core 4 0x40708010 (fun k => { k with prim := { k.prim with p := [(1, 0x4070FFFE#32)] } })), 3, 1, 1, 2,
    ⟨5, 1⟩, (.ld2 4 (some ⟨5, 1⟩) none), by unfold State.coreRuns; decide +kernel, _, rfl, by decide +kernel,
    by decide +kernel, .inr (.inr (rfl))⟩⟩

theorem met_LadleFlowAndDistances_inner :
    (∃ (s : State), ∃ (c : Nat), State.coreRuns c s ∧ ∃ k, k = getCore s c ∧ k.delay = none ∧ (curSet k).reps =
    []) ∧
    (∃ (s : State), ∃ (c : Nat), State.coreRuns c s ∧ ∃ k, k = getCore s c ∧ ∃ x, k.delay = some (1, some x)) ∧
    (∃ (s : State), ∃ (c : Nat), State.coreRuns c s ∧ ∃ k, k = getCore s c ∧ ∃ x, k.delay = some (2, x) ∧
    (curSet k).reps = []) ∧
    (∃ (s : State), ∃ (c : Nat), State.coreRuns c s ∧ ∃ k, k = getCore s c ∧ ∃ r, ∃ l, k.delay = none ∧ (curSet
    k).reps = r :: l ∧ r.last = k.pc ∧ 1 < r.count) ∧
    (∃ (s : State), ∃ (c : Nat), State.coreRuns c s ∧ ∃ k, k = getCore s c ∧ ∃ r, k.delay = none ∧ (curSet
    k).reps = [r] ∧ r.last = k.pc ∧ r.count ≤ 1) ∧
    (∃ (s : State), ∃ (c : Nat), ∃ (off : BitVec 22), State.coreRuns c s ∧ ∃ k, k = getCore s c ∧ k.delay =
    none ∧ (curSet k).reps = [] ∧ ∃ (x : Word), x = k.pc + (off.signExtend 32 <<< 2)) ∧
    (∃ (s : State), ∃ (c a n len : Nat), State.coreRuns c s ∧ ∃ k, k = getCore s c ∧ k.delay = none ∧ (curSet
    k).reps = [] ∧ 1 ≤ len ∧ len ≤ 1024 ∧ ∃ (cmd : Instr), (cmd = .rep c n len ∨ cmd = .repr c a len ∧ seen k
    .target (.d a) = n) ∧ n < 65536) ∧
    (∃ (s : State), ∃ (c : Nat), ∃ (r : Repeat), ∃ (l : List Repeat), State.coreRuns c s ∧ ∃ k, k = getCore s c
    ∧ k.delay = none ∧ (curSet k).reps = r :: l ∧ (∀ q ∈ r :: l, q.last ≠ k.pc)) ∧
    (∃ (s : State), State.coreRuns 4 s ∧ (getCore s 4).delay ≠ none) ∧
    (∃ (s : State), State.coreRuns 4 s ∧ (curSet (getCore s 4)).reps.length = 3) ∧
    (∃ (s : State), ∃ (c d : Nat), State.coreRuns c s ∧ ∃ k, k = getCore s c ∧ k.delay = none ∧ (curSet k).reps
    = [] ∧ (∀ p ∈ k.recent, p.res ≠ .d d)) ∧
    (∃ (s : State), ∃ (c d : Nat), State.coreRuns c s ∧ ∃ k, k = getCore s c ∧ k.delay = none ∧ (curSet k).reps
    = [] ∧ (∀ p ∈ k.recent, p.res ≠ .d d)) ∧
    (∃ (s : State), ∃ (c d : Nat), State.coreRuns c s ∧ ∃ k, k = getCore s c ∧ k.delay = none ∧ (curSet k).reps
    = [] ∧ (∀ p ∈ k.recent, p.res ≠ .d d) ∧ fetchOk s c (k.pc + 4#32) = true ∧ (c < 4 → k.clocks + 1 <
    k.limit)) :=
  ⟨⟨K, 4, by unfold State.coreRuns; decide +kernel, _, rfl, by decide +kernel, by decide +kernel⟩,
   ⟨(core 4 0x40708010 (fun k => { k with delay := some (1, some 0x40709000#32) })), 4,
    by unfold State.coreRuns; decide +kernel, _, rfl, 0x40709000#32, by decide +kernel⟩,
   ⟨(core 4 0x40708010 (fun k => { k with delay := some (2, none) })), 4,
    by unfold State.coreRuns; decide +kernel, _, rfl, none, by decide +kernel, by decide +kernel⟩,
   ⟨(core 4 0x40708010 (fun k => { k with prim := { k.prim with reps := [⟨0x40708000#32, 0x40708010#32, 2⟩] } })),
    4, by unfold State.coreRuns; decide +kernel, _, rfl, ⟨0x40708000#32, 0x40708010#32, 2⟩, [],
    by decide +kernel, by decide +kernel, by decide +kernel, by decide +kernel⟩,
   ⟨(core 4 0x40708010 (fun k => { k with prim := { k.prim with reps := [⟨0x40708000#32, 0x40708010#32, 1⟩] } })),
    4, by unfold State.coreRuns; decide +kernel, _, rfl, ⟨0x40708000#32, 0x40708010#32, 1⟩, by decide +kernel,
    by decide +kernel, by decide +kernel, by decide +kernel⟩,
   ⟨K, 4, 0x200000#22, by unfold State.coreRuns; decide +kernel, _, rfl, by decide +kernel, by decide +kernel, _,
    rfl⟩,
   ⟨K, 4, 1, 65535, 1024, by unfold State.coreRuns; decide +kernel, _, rfl, by decide +kernel, by decide +kernel,
    by decide +kernel, by decide +kernel, (.rep 4 65535 1024), .inl rfl, by decide +kernel⟩,
   ⟨(core 4 0x40708010 (fun k => { k with prim := { k.prim with reps := [⟨0x40708000#32, 0x40708020#32, 2⟩] } })),
    4, ⟨0x40708000#32, 0x40708020#32, 2⟩, [], by unfold State.coreRuns; decide +kernel, _, rfl,
    by decide +kernel, by decide +kernel, by decide +kernel⟩,
   ⟨(core 4 0x40708010 (fun k => { k with delay := some (2, none) })), by unfold State.coreRuns; decide +kernel,
    by decide +kernel⟩,
   ⟨(core 4 0x40708010 (fun k => { k with prim := { k.prim with reps := [⟨0x40708000#32, 0x40708020#32, 2⟩, ⟨0x40708000#32, 0x40708020#32, 2⟩, ⟨0x40708000#32, 0x40708020#32, 2⟩] } })),
    by unfold State.coreRuns; decide +kernel, by decide +kernel⟩,
   ⟨K, 4, 3, by unfold State.coreRuns; decide +kernel, _, rfl, by decide +kernel, by decide +kernel,
    by decide +kernel⟩,
   ⟨K, 4, 3, by unfold State.coreRuns; decide +kernel, _, rfl, by decide +kernel, by decide +kernel,
    by decide +kernel⟩,
   ⟨K, 4, 3, by unfold State.coreRuns; decide +kernel, _, rfl, by decide +kernel, by decide +kernel,
    by decide +kernel, by decide +kernel, by decide +kernel⟩⟩

theorem met_LadleSystem_inner :
    (∃ (s : State), ∃ (c : Nat), State.coreRuns c s ∧ ∃ k, k = getCore s c ∧ k.rtiPend = false) :=
  ⟨K, 4, by unfold State.coreRuns; decide +kernel, _, rfl, by decide +kernel⟩

theorem met_LadleControl_inner :
    (∃ (s : State), ∃ (m : Master), State.reaches m aLDCMD s ∧ m ≠ .compact ∧ (getCore s 4).st < 2) ∧
    (∃ (s : State), ∃ (m : Master), State.reaches m aLDCMD s ∧ m ≠ .compact ∧ ∃ c, c ≤ 4 ∧ 2 ≤ (getCore s
    c).st) ∧
    (∃ (s : State), ∃ (m : Master), State.reaches m aLDCMD s ∧ m ≠ .compact ∧ ∃ c, c < 4 ∧ (getCore s c).st <
    2) ∧
    (∃ (s : State), ∃ (m : Master), State.reaches m aLDCMD s ∧ m ≠ .compact ∧ (getCore s 4).st = 2) ∧
    (∃ (s : State), ∃ (m : Master), State.reaches m aLDCMD s ∧ m ≠ .compact ∧ ∃ c, c < 4 ∧ (getCore s c).st =
    2) :=
  ⟨⟨(let t := A; { t with lad := { t.lad with cores := [(4, { st := 1 })] } }), .host,
    by unfold State.reaches; decide +kernel, by decide +kernel, by decide +kernel⟩,
   ⟨(let t := A; { t with lad := { t.lad with cores := [(4, { st := 2 })] } }), .host,
    by unfold State.reaches; decide +kernel, by decide +kernel, 4, by decide +kernel, by decide +kernel⟩,
   ⟨(let t := A; { t with lad := { t.lad with cores := [(3, { st := 1 })] } }), .host,
    by unfold State.reaches; decide +kernel, by decide +kernel, 3, by decide +kernel, by decide +kernel⟩,
   ⟨(let t := A; { t with lad := { t.lad with cores := [(4, { st := 2 })] } }), .host,
    by unfold State.reaches; decide +kernel, by decide +kernel, by decide +kernel⟩,
   ⟨(let t := A; { t with lad := { t.lad with cores := [(0, { st := 2 })] } }), .host,
    by unfold State.reaches; decide +kernel, by decide +kernel, 0, by decide +kernel, by decide +kernel⟩⟩

theorem met_CommandFrames_inner :
    (∃ (s : State), ∃ (snd : Sender), s.sys.pwr ≠ .deep ∧ portOpen s snd = false) ∧
    (∃ (s : State), ∃ (snd : Sender), ∃ (l : List Byte), s.sys.pwr ≠ .deep ∧ portOpen s snd = true ∧ parseFrame
    l = none) ∧
    (∃ (s : State), ∃ (snd : Sender), ∃ (l : List Byte), s.sys.pwr ≠ .deep ∧ ∃ seq, ∃ op, ∃ pl, portOpen s snd
    = true ∧ parseFrame l = some (seq, op, pl) ∧ 0 < s.host.credits ∧ s.host.window.find? (fun r => r.seq =
    seq) = none ∧ s.host.waiting.any (fun c => c.seq = seq && c.snd ≠ .core) = false ∧ atOnce s snd op pl = 0 ∧
    pairRole s = true ∧ onPair s snd = true ∧ shadowPeer s = false) ∧
    (∃ (s : State), ∃ (snd : Sender), ∃ (l : List Byte), s.sys.pwr ≠ .deep ∧ ∃ seq, ∃ op, ∃ pl, portOpen s snd
    = true ∧ parseFrame l = some (seq, op, pl) ∧ ∃ r, 0 < s.host.credits ∧ s.host.window.find? (fun r => r.seq
    = seq) = some r) ∧
    (∃ (s : State), ∃ (snd : Sender), ∃ (l : List Byte), s.sys.pwr ≠ .deep ∧ ∃ seq, ∃ op, ∃ pl, portOpen s snd
    = true ∧ parseFrame l = some (seq, op, pl) ∧ 0 < s.host.credits ∧ s.host.window.find? (fun r => r.seq =
    seq) = none ∧ s.host.waiting.any (fun c => c.seq = seq && c.snd ≠ .core) = false ∧ atOnce s snd op pl ≠ 0) ∧
    (∃ (s : State), ∃ (snd : Sender), ∃ (l : List Byte), s.sys.pwr ≠ .deep ∧ ∃ seq, ∃ op, ∃ pl, portOpen s snd
    = true ∧ parseFrame l = some (seq, op, pl) ∧ 0 < s.host.credits) ∧
    (∃ (s : State), ∃ (snd : Sender), ∃ (l : List Byte), s.sys.pwr ≠ .deep ∧ ∃ seq, ∃ op, ∃ pl, portOpen s snd
    = true ∧ parseFrame l = some (seq, op, pl) ∧ s.host.credits = 0) :=
  ⟨⟨(inReset I), .spi, by decide +kernel, by decide +kernel⟩,
   ⟨I, .spi, (List.replicate 19 0#8), by decide +kernel, by decide +kernel, by decide +kernel⟩,
   ⟨(hp (fun h => { h with credits := 1 }) { I with sys := { I.sys with reached := true } }), .spi,
    (frameOf 1 [0x40010000#32, 1#32]), by decide +kernel, 9#32, 1, [0x40010000#32, 1#32], by decide +kernel,
    by decide +kernel, by decide +kernel, by decide +kernel, by decide +kernel, by decide +kernel,
    by decide +kernel, by decide +kernel, by decide +kernel⟩,
   ⟨(hp (fun h => { h with window := [{ seq := 9#32, op := 1, status := 0, pl := [] }] }) (hp (fun h => { h with credits := 1 }) { I with sys := { I.sys with reached := true } })),
    .spi, (frameOf 1 [0x40010000#32, 1#32]), by decide +kernel, 9#32, 1, [0x40010000#32, 1#32],
    by decide +kernel, by decide +kernel, { seq := 9#32, op := 1, status := 0, pl := [] }, by decide +kernel,
    by decide +kernel⟩,
   ⟨(hp (fun h => { h with credits := 1 }) { I with sys := { I.sys with reached := true } }), .spi,
    (frameOf 9 []), by decide +kernel, 9#32, 9, [], by decide +kernel, by decide +kernel, by decide +kernel,
    by decide +kernel, by decide +kernel, by decide +kernel⟩,
   ⟨(hp (fun h => { h with credits := 1 }) { I with sys := { I.sys with reached := true } }), .spi,
    (frameOf 1 [0x40010000#32, 1#32]), by decide +kernel, 9#32, 1, [0x40010000#32, 1#32], by decide +kernel,
    by decide +kernel, by decide +kernel⟩,
   ⟨(hp (fun h => { h with credits := 0 }) (hp (fun h => { h with credits := 1 }) { I with sys := { I.sys with reached := true } })),
    .spi, (frameOf 1 [0x40010000#32, 1#32]), by decide +kernel, 9#32, 1, [0x40010000#32, 1#32],
    by decide +kernel, by decide +kernel, by decide +kernel⟩⟩

theorem met_EthernetSpiAndPhy_inner :
    (∃ (s : State), ∃ (l : List Byte), s.sys.inReset = false ∧ s.host.netOk = true ∧ s.sys.pwr ≠ .deep ∧
    macMine s (beNat l 0 6) = true ∧ (l.length < 14 ∨ beNat l 12 2 ≠ 0x0806 ∧ beNat l 12 2 ≠ 0x0800)) ∧
    (∃ (s : State), ∃ (l : List Byte), s.sys.inReset = false ∧ s.host.netOk = true ∧ s.sys.pwr ≠ .deep ∧
    macMine s (beNat l 0 6) = true ∧ ∃ m, 42 ≤ l.length ∧ beNat l 12 2 = 0x0806 ∧ beNat l 14 2 = 1 ∧ beNat l 16
    2 = 0x0800 ∧ beNat l 18 2 = 0x0604 ∧ beNat l 20 2 = 1 ∧ macOf s (BitVec.ofNat 32 (beNat l 38 4)) = some m ∧
    s.host.link = true) ∧
    (∃ (s : State), ∃ (l : List Byte), s.sys.inReset = false ∧ s.host.netOk = true ∧ s.sys.pwr ≠ .deep ∧
    macMine s (beNat l 0 6) = true ∧ ∃ p, ∃ d, ∃ b, 14 ≤ l.length ∧ beNat l 12 2 = 0x0800 ∧ p = l.drop 14 ∧
    ip4Ok p = true ∧ beNat p 9 1 = 17 ∧ dstOf s (BitVec.ofNat 32 (beNat p 16 4)) (beNat l 0 6) = some d ∧ b =
    (p.take (beNat p 2 2)).drop 20 ∧ udpOk s (BitVec.ofNat 32 (beNat p 12 4)) (BitVec.ofNat 32 (beNat p 16 4))
    b = true) :=
  ⟨⟨I, (List.replicate 6 0xFF#8 ++ List.replicate 8 0#8), by decide +kernel, by decide +kernel, by decide +kernel,
    by decide +kernel, by decide +kernel⟩,
   ⟨I,
    (List.replicate 6 0xFF#8 ++ List.replicate 6 1#8 ++ beBytes 2 0x0806 ++ beBytes 2 1 ++ beBytes 2 0x0800 ++ beBytes 2 0x0604 ++ beBytes 2 1 ++ List.replicate 20 0#8),
    by decide +kernel, by decide +kernel, by decide +kernel, by decide +kernel, (unitMac I), by decide +kernel,
    by decide +kernel, by decide +kernel, by decide +kernel, by decide +kernel, by decide +kernel,
    by decide +kernel, by decide +kernel⟩,
   ⟨I,
    (beBytes 6 (unitMac I) ++ List.replicate 6 1#8 ++ beBytes 2 0x0800 ++ (ipPacket (beBytes 2 0 ++ beBytes 2 40960 ++ beBytes 2 8 ++ beBytes 2 0))),
    by decide +kernel, by decide +kernel, by decide +kernel, by decide +kernel, _, .pair, _, by decide +kernel,
    by decide +kernel, rfl, by decide +kernel, by decide +kernel, by decide +kernel, rfl, by decide +kernel⟩⟩

theorem met_HostOpcodes_inner :
    (∃ (s u : State), ∃ (c : HostCmd), ∃ (l : List HostCmd), ∃ (w : Word), ∃ (ms : List Word), ∃ (o : Owner), ∃
    (m : Move), State.nextIs c l s ∧ c.op = 3 ∧ c.pl = w :: ms ∧ ms.length = 8 ∧ 1 ≤ bits w 3 0 ∧ u =
    State.withWaiting l s ∧ ownerDead u o = false ∧ o = (if bit w 31 then .group (bits w 22 16) else .axis
    (bits w 22 16)) ∧ m = moveOf (fun i => nth 0#32 ms i) ∧ pfCheck o (bits w 3 0) m u = 0) ∧
    (∃ (s u : State), ∃ (c : HostCmd), ∃ (l : List HostCmd), ∃ (w : Word), ∃ (ms : List Word), ∃ (o : Owner), ∃
    (m : Move), State.nextIs c l s ∧ c.op = 3 ∧ c.pl = w :: ms ∧ ms.length = 8 ∧ 1 ≤ bits w 3 0 ∧ u =
    State.withWaiting l s ∧ ownerDead u o = false ∧ o = (if bit w 31 then .group (bits w 22 16) else .axis
    (bits w 22 16)) ∧ m = moveOf (fun i => nth 0#32 ms i) ∧ pfCheck o (bits w 3 0) m u ≠ 0) ∧
    (∃ (s : State), ∃ (c : HostCmd), ∃ (l : List HostCmd), ∃ (w v : Word), State.nextIs c l s ∧ c.op = 4 ∧ c.pl
    = [w, v] ∧ bit w 31 = false ∧ bits w 22 16 < usableAxes s ∧ (getAx s (bits w 22 16)).ctl.swapPend = false ∧
    windowDead s (.axis (bits w 22 16)) = false ∧ Memory.wf 0 s.mem = true ∧ ∃ a, a = coefAddr s (bits w 22 16)
    (!(getAx s (bits w 22 16)).ctl.bank) 0 (bits w 7 0)) ∧
    (∃ (s : State), ∃ (c : HostCmd), ∃ (l : List HostCmd), ∃ (i : Nat), State.nextIs c l s ∧ c.op = 5 ∧ bit
    (nth 0#32 c.pl 0) 0 = true ∧ subSlot s c.snd = none ∧ (List.range 4).find? (fun i => (tget none s.host.subs
    i).isNone) = some i) ∧
    (∃ (s : State), ∃ (c : HostCmd), ∃ (l : List HostCmd), State.nextIs c l s ∧ c.op = 5 ∧ bit (nth 0#32 c.pl
    0) 0 = true ∧ subSlot s c.snd = none ∧ (List.range 4).find? (fun i => (tget none s.host.subs i).isNone) =
    none) :=
  ⟨⟨(waits (hostCmd 3 (0x00010001#32 :: List.replicate 8 0#32)) (cw [(axW 1 + 0x384, 1), (axW 1 + 0x370, 0x40000000), (axW 1 + 0x374, 0x40000000), (axW 1 + 0x378, 0x40000000), (axW 1 + 0x37C, 0x40000000)] (axs 1 .run (fun x => { x with ctl := { x.ctl with brkRel := true }, fb := { x.fb with posRel := true }, prof := { x.prof with rest := true } }) A))),
    _, (hostCmd 3 (0x00010001#32 :: List.replicate 8 0#32)), [], 0x00010001#32, (List.replicate 8 0#32), _, _,
    by unfold State.nextIs; decide +kernel, by decide +kernel, by decide +kernel, by decide +kernel,
    by decide +kernel, rfl, by decide +kernel, rfl, rfl, by decide +kernel⟩,
   ⟨(waits (hostCmd 3 (0x00010001#32 :: List.replicate 8 0#32)) I), _,
    (hostCmd 3 (0x00010001#32 :: List.replicate 8 0#32)), [], 0x00010001#32, (List.replicate 8 0#32), _, _,
    by unfold State.nextIs; decide +kernel, by decide +kernel, by decide +kernel, by decide +kernel,
    by decide +kernel, rfl, by decide +kernel, rfl, rfl, by decide +kernel⟩,
   ⟨(waits (hostCmd 4 [0x007F00FF#32, 9#32]) I), (hostCmd 4 [0x007F00FF#32, 9#32]), [], 0x007F00FF#32, 9#32,
    by unfold State.nextIs; decide +kernel, by decide +kernel, by decide +kernel, by decide +kernel,
    by decide +kernel, by decide +kernel, by decide +kernel, by decide +kernel, _, rfl⟩,
   ⟨(waits (hostCmd 5 (1#32 :: List.replicate 8 0#32)) I), (hostCmd 5 (1#32 :: List.replicate 8 0#32)), [], 0,
    by unfold State.nextIs; decide +kernel, by decide +kernel, by decide +kernel, by decide +kernel,
    by decide +kernel⟩,
   ⟨(waits (hostCmd 5 (1#32 :: List.replicate 8 0#32)) (hp (fun h => { h with subs := (List.range 4).map (fun i => (i, some { snd := .udp i i i .pair, set := 0 })) }) I)),
    (hostCmd 5 (1#32 :: List.replicate 8 0#32)), [], by unfold State.nextIs; decide +kernel, by decide +kernel,
    by decide +kernel, by decide +kernel, by decide +kernel⟩⟩

theorem met_BankWriteRule_inner :
    (∃ (s : State), ∃ (x i : Nat), ∃ (b : Bool), x < usableAxes s ∧ x < 128 ∧ i < 256 ∧ ∃ a, a = 0x41000000 +
    0x1000 * x + (if b then 0xC00 else 0x800) + 4 * i ∧ (b = (getAx s x).ctl.bank ∨ (getAx s x).ctl.swapPend =
    true)) ∧
    (∃ (s : State), ∃ (x i : Nat), ∃ (b : Bool), x < usableAxes s ∧ x < 128 ∧ i < 256 ∧ ∃ a, a = 0x41000000 +
    0x1000 * x + (if b then 0xC00 else 0x800) + 4 * i ∧ b ≠ (getAx s x).ctl.bank ∧ (getAx s x).ctl.swapPend =
    false ∧ Memory.wf 0 s.mem = true) :=
  ⟨⟨A, 127, 255, false, by decide +kernel, by decide +kernel, by decide +kernel, _, rfl, by decide +kernel⟩,
   ⟨A, 127, 255, true, by decide +kernel, by decide +kernel, by decide +kernel, _, rfl, by decide +kernel,
    by decide +kernel, by decide +kernel⟩⟩

theorem no_group_at_reset (t : Tab Word) (h : ∀ g, (t.any (fun p => p.1 = 0x42000000 + g * 0x400 + 8)) = false) (s : State) (hs : s.cfg = t)
    (g : Nat) : Cfg.GRMCNT_COUNT s (grW g) = 0 := by
  have e : cfgReset (0x42000000 + g * 0x400 + 8) = 0#32 := by
    unfold cfgReset
    by_cases hg : 0x42000000 + g * 0x400 + 8 < 0x42020000
    · have h1 : ¬(0x41000000 ≤ 0x42000000 + g * 0x400 + 8 ∧ 0x42000000 + g * 0x400 + 8 < 0x41080000) := by omega
      have h2 : (0x42000000 + g * 0x400 + 8) % 0x400 = 8 := by omega
      rw [if_neg h1, if_pos ⟨by omega, hg⟩, h2]; decide
    · simp (disch := omega) only [if_neg]
      first | rfl | (repeat rw [if_neg (by omega)])
  have u : ∀ l : Tab Word, (l.any (fun p => p.1 = 0x42000000 + g * 0x400 + 8)) = false →
      tget 0#32 l (0x42000000 + g * 0x400 + 8) = 0#32 := by
    intro l
    induction l with
    | nil => intro _; rfl
    | cons p l ih =>
      intro h
      rw [List.any_cons, Bool.or_eq_false_iff] at h
      have hp : ¬(0x42000000 + g * 0x400 + 8 = p.1) := fun x => by simp [x] at h
      unfold tget
      rw [if_neg hp]
      exact ih h.2
  unfold Cfg.GRMCNT_COUNT cfgReg grW
  rw [hs, e, u t (h g)]; decide
/-- Axis 1 owns a queue in a unit that does not drive. -/
def WT : State := own 1 (axs 1 .run id (inState .standby (rnd 643 A)))
theorem WT_stops (s : State) (h : s.axes = WT.axes) (b : Nat) : axSt s b ≠ .qstop := by
  unfold axSt getAx
  rw [h]
  by_cases e : b = 1
  · subst e; decide
  · show (tget ({} : Axis) [(1, _)] b).ctl.st ≠ _
    unfold tget
    rw [if_neg e]
    exact (by decide : ({} : Axis).ctl.st ≠ .qstop)
def WT1 : State := { WT with sys := { WT.sys with wheelLive := [.axis 1] } }
theorem no_group (s : State) (h : s.cfg = WT.cfg) (g : Nat) : Cfg.GRMCNT_COUNT s (grW g) = 0 :=
  no_group_at_reset WT.cfg (fun g => by
    show (List.any [(0x41001370, _)] _) = false
    simp; omega) s h g
theorem met_WheelTickHolds :
    (∃ (s : State) (a : Nat), s.sys.round.toNat % 4 = 3 ∧ s.sys.pwr = .run ∧ queueOwners s = [.axis a] ∧
      (∀ g, Cfg.GRMCNT_COUNT s (grW g) = 0) ∧ driving s = false ∧ (∀ b, axSt s b ≠ .qstop) ∧ s.sys.wheelLive.contains (.axis a) = true ∧
      wrapInt 96 (getAx s a).prof.kin.p = (getAx s a).prof.kin.p ∧ ownerMod s (.axis a) = 0 ∧ (getAx s a).prof.cur = none ∧
      (getAx s a).prof.overlaid = none ∧ (getAx s a).prof.queue = [] ∧ (getAx s a).prof.accepted = [] ∧
      (getAx s a).prof.refPhase = .idle ∧ (getAx s a).prof.quick = false ∧ (getAx s a).prof.limStop = false ∧
      (getAx s a).prof.kin.v = 0 ∧ (getAx s a).prof.kin.a = 0) ∧
    (∃ (s : State) (a : Nat), s.sys.round.toNat % 4 = 3 ∧ s.sys.pwr = .run ∧ queueOwners s = [.axis a] ∧
      (∀ g, Cfg.GRMCNT_COUNT s (grW g) = 0) ∧ driving s = false ∧ (∀ b, axSt s b ≠ .qstop) ∧ s.sys.wheelLive.contains (.axis a) = false) :=
  ⟨⟨WT1, 1, by decide +kernel, by decide +kernel, by decide +kernel, no_group WT1 rfl, by decide +kernel, WT_stops WT1 rfl, by decide +kernel,
    by decide +kernel, by decide +kernel, by decide +kernel, by decide +kernel, by decide +kernel, by decide +kernel, by decide +kernel,
    by decide +kernel, by decide +kernel, by decide +kernel, by decide +kernel⟩,
   ⟨WT, 1, by decide +kernel, by decide +kernel, by decide +kernel, no_group WT rfl, by decide +kernel, WT_stops WT rfl, by decide +kernel⟩⟩

/-- Two commands wait, the first of them a power-on reset. -/
def two : State := { A with pending := [.porst, .roundStart] }
theorem met_StepTakesFront : ∃ s t : State, step s = .next t := ⟨two, _, rfl⟩
theorem met_MemoriesCanonical :
    ∃ s t : State, Memory.wf 0 s.mem = true ∧ Memory.wf 0xFF s.boot.flash = true ∧ step s = .next t :=
  ⟨two, _, by decide, by decide, rfl⟩
theorem met_FusesPermanent :
    ∃ s t : State, step s = .next t ∧ ∃ k, k < 0x20 ∧ ∃ i, (fuseCell s k).getLsbD i = true :=
  ⟨bt (fun b => { b with fuseCells := [(0x1F, 0x80000000#32)] }) two, _, rfl, 0x1F, by decide, 31, by decide⟩

/-! ### Images that pass verification (R371) -/

/-- A record of an image (R367). -/
def recordOf (h : Nat) (ws : List Nat) : List Byte :=
  let b := leBytes 4 h ++ leBytes 4 (4 * ws.length) ++ ws.flatMap (leBytes 4)
  b ++ leBytes 4 (crc32 b)
/-- NETWORK, PARTITIONS, an over-voltage detector, the sigma-delta clocks and the recorder's flash area. -/
def goodRecords : List Byte :=
  recordOf 0x18000 [0x0A000001, 0x0A000002, 0x0A000003, 0, 0, 0] ++
  recordOf 0x20000 [0, 0x40000, 0, 0, 0x40000, 0x8000, 0x48000, 0x1000, 0, 0, 0, 0, 0x50000, 0x10000, 0x60000, 0x10000, 0, 0] ++
  recordOf 0x30000 [0x40330000, 0x800021] ++ recordOf 0x30000 [0x40330080, 0x1414] ++ recordOf 0x30000 [0x40600028, 0x410000]
/-- An image of n records with its header (R366). -/
def imageOf (n : Nat) (l : List Byte) : List Byte :=
  let h := [0x4559494D, 0x10000, 64 + l.length, 7, 0, n, 0, 0, 0, 0, 0, 0, 0, 0, 0].flatMap (leBytes 4)
  h ++ leBytes 4 (crc32 h) ++ l
def cells (o : Nat) (l : List Byte) : List (Nat × Byte) := l.mapIdx (fun i b => (o + i, b))
/-- Slot A holds a header in order over a record that is cut short, slot B a good image. -/
def slots : State := bt (fun b => { b with flash := cells 0 (imageOf 2 [0, 0, 0, 0]) ++ cells 0x200000 (imageOf 5 goodRecords) }) (inState .boot A)
def seenFlash : BootObs := ⟨true, false, 0x800000, false, false, [], []⟩
/-- A job VERIFY of the same image. -/
def verifying : State :=
  bt (fun b => { b with
    job := some (3, 1, []), header := (imageOf 5 goodRecords).take 64, density := 0x800000, noImage := true,
    flash := (cells 0x200000 (imageOf 5 goodRecords)).drop 64 }) A
def isGood {α : Type} : Verdict α → Bool
  | .good _ => true
  | .bad _ _ => false
theorem good_of {α : Type} {x : Verdict α} (h : isGood x = true) : ∃ v, x = .good v := by
  cases x with
  | good v => exact ⟨v, rfl⟩
  | bad c r => cases h
theorem slotB_good : isGood (verifySlot (loadBase slots []) (slotByte slots 1) 0x800000 false) = true := by decide +kernel
theorem verifying_good :
    isGood (verifySlot (loadBase verifying (retParams [])) (heldByte verifying 1) verifying.boot.density false) = true := by
  decide +kernel
theorem met_BootAndListen_good :
    (∃ (s : State) (b : BootObs) (k k' : Nat) (v : Verified), s.sys.hstate = .boot ∧ s.sys.inReset = false ∧ s.boot.verified = false ∧
      s.boot.noImage = false ∧ b.sfdpOk = true ∧ (s.sys.oct = true → b.xspiOk = true) ∧ 0x800000 ≤ b.density ∧ slotOrder s b = [k, k'] ∧
      bootVerify s b k = .good v) ∧
    (∃ (s : State) (b : BootObs) (k k' : Nat) (v : Verified), s.sys.hstate = .boot ∧ s.sys.inReset = false ∧ s.boot.verified = false ∧
      s.boot.noImage = false ∧ b.sfdpOk = true ∧ (s.sys.oct = true → b.xspiOk = true) ∧ 0x800000 ≤ b.density ∧ slotOrder s b = [k, k'] ∧
      ∃ c r, bootVerify s b k = .bad c r ∧ bootVerify s b k' = .good v) := by
  have h1 : ∃ v, bootVerify slots { seenFlash with errA := true } 1 = .good v := good_of slotB_good
  have h2 : ∃ v, bootVerify slots seenFlash 1 = .good v := good_of slotB_good
  obtain ⟨v, hv⟩ := h1
  obtain ⟨w, hw⟩ := h2
  exact ⟨⟨slots, { seenFlash with errA := true }, 1, 0, v, rfl, rfl, rfl, rfl, rfl, by decide, by decide, by decide +kernel, hv⟩,
    ⟨slots, seenFlash, 0, 1, w, rfl, rfl, rfl, rfl, rfl, by decide, by decide, by decide +kernel, 5, 0, by decide +kernel, hw⟩⟩
theorem met_ImageCommandsAndJobs_verified :
    ∃ (s : State) (k : Nat) (ws : List Word) (ret : List (Nat × Nat × Nat × Nat)) (v : Verified), deferring s = false ∧ k < 2 ∧
      s.boot.job = some (3, k, ws) ∧ verifySlot (loadBase s (retParams ret)) (heldByte s k) s.boot.density false = .good v ∧
      (s.boot.noImage = true ∨ later v.header.seq s.boot.seq = true) := by
  obtain ⟨v, hv⟩ := good_of verifying_good
  exact ⟨verifying, 1, [], [], v, by decide, by decide, rfl, hv, .inl rfl⟩

/-! ### Results of single commands, worked out by hand from the spec -/

/-- The state a command leaves. -/
def after (c : Instr) (s : State) : State :=
  match exec c s with
  | .next t => t
  | .fault _ => s
  | .refused _ => s
/-- The compact core with d1 = x and d2 = y, and what it then holds in d3 and in the flags N, Z, C, V. -/
def with2 (x y : Word) : State := core 4 0x40708010 (fun k => { k with prim := { k.prim with d := [(1, x), (2, y)] } })
def d3 (s : State) : Word := tget 0#32 (getCore s 4).prim.d 3
def flagsOf (s : State) : List Bool := let p := (getCore s 4).prim; [p.n, p.z, p.c, p.v]

-- R337: C is the carry out, V the signed overflow
theorem test_add_wraps : d3 (after (.add 4 3 1 2) (with2 0xFFFFFFFF#32 1#32)) = 0#32 ∧
    flagsOf (after (.add 4 3 1 2) (with2 0xFFFFFFFF#32 1#32)) = [false, true, true, false] := by decide +kernel
theorem test_add_overflows : flagsOf (after (.add 4 3 1 2) (with2 0x7FFFFFFF#32 1#32)) = [true, false, false, true] := by
  decide +kernel
-- R337: C is set when no borrow occurs
theorem test_cmp_borrow : flagsOf (after (.cmp 4 1 2) (with2 1#32 2#32)) = [true, false, false, false] := by decide +kernel
theorem test_sar_keeps_sign : d3 (after (.sar 4 3 1 (.imm 4)) (with2 0x80000010#32 0#32)) = 0xF8000001#32 := by decide +kernel
theorem test_ror_by_register : d3 (after (.ror 4 3 1 (.reg 2)) (with2 0x00000003#32 33#32)) = 0x80000001#32 := by decide +kernel
theorem test_movh_keeps_low_half :
    d3 (after (.movh 4 3 0xABCD#16) (core 4 0x40708010 (fun k => { k with prim := { k.prim with d := [(3, 0x12345678#32)] } }))) =
      0xABCD5678#32 := by decide +kernel
theorem test_mul_low_word : d3 (after (.mul 4 3 1 2) (with2 0x00010001#32 0x00010001#32)) = 0x00020001#32 := by decide +kernel
-- R341: 1.5 + 2.25 = 3.75; a subnormal operand is zero
theorem test_fadd : d3 (after (.fadd 4 3 1 2) (with2 0x3FC00000#32 0x40100000#32)) = 0x40700000#32 := by decide +kernel
theorem test_fmul_flushes : d3 (after (.fmul 4 3 1 2) (with2 0x00000001#32 0x7F000000#32)) = 0#32 := by decide +kernel
theorem test_fp_to_integer_saturates : d3 (after (.fpToInteger 4 3 1) (with2 0x4F800000#32 0#32)) = 0x7FFFFFFF#32 := by decide +kernel
theorem test_integer_to_fp : d3 (after (.integerToFp 4 3 1) (with2 0xFFFFFFFE#32 0#32)) = 0xC0000000#32 := by decide +kernel
-- R42, R10: the counter increments at T0 and wraps
theorem test_round_start : (after .roundStart A).sys.round = 641#32 := by decide +kernel
theorem test_round_start_wraps : (after .roundStart (rnd 4294967295 A)).sys.round = 0#32 := by decide +kernel
-- R108: an axis without a current loop goes to READY at once, one with a loop to PRESTART
theorem test_enable : axSt (after (.enable 1) A) 1 = .ready ∧ axSt (after (.enable 1) (kind 1 1 (node 3 1 3 A))) 1 = .prestart := by
  decide +kernel
-- R108: RUN needs READY
theorem test_run_from_off : axSt (after (.run 1) A) 1 = .off := by decide +kernel
-- R124: every enabled chopper is forced on, and the counter counts
theorem test_ov_trip : (after (.overVoltageTrip .analogue) (ana A)).ps.forced = 1 ∧ (after (.overVoltageTrip .analogue) (ana A)).ps.tripCnt = 1 := by
  decide +kernel
-- R303: code 11 locks out, and SGSTAT records it
theorem test_cpu_self_test : (after (.cpuSelfTest false) N).sag.st = 2 ∧ (after (.cpuSelfTest false) N).sag.cause = 11 := by
  decide +kernel
-- R419: PORST holds the unit in reset
theorem test_porst : (after .porst A).sys.inReset = true := by decide +kernel

end Sys2Proof.Tests
end

namespace Sys2Proof.Machine

/-! ### Words of SRAM: a read after a store (R27) -/

/-- Byte k of the little-endian bytes of a number. -/
theorem byteAt_leBytes (n x k : Nat) (hk : k < n) : byteAt (leBytes n x) k = x / 256 ^ k % 256 := by
  have hb : (leBytes n x).getD k 0 = BitVec.ofNat 8 (x >>> (8 * k)) := by simp [leBytes, hk]
  have hp : 2 ^ (8 * k) = 256 ^ k := Nat.pow_mul 2 8 k
  rw [byteAt, hb, BitVec.toNat_ofNat, Nat.shiftRight_eq_div_pow, hp]

/-- The first k little-endian bytes of a number are its value modulo 256^k. -/
theorem leNat_leBytes (n x k : Nat) (hk : k ≤ n) : leNat (leBytes n x) 0 k = x % 256 ^ k := by
  induction k with
  | zero => simp [leNat, Nat.mod_one]
  | succ k ih =>
    have hs : leNat (leBytes n x) 0 (k + 1) = leNat (leBytes n x) 0 k + byteAt (leBytes n x) k * 256 ^ k := by
      simp [leNat, List.range_succ]
    rw [hs, ih (by omega), byteAt_leBytes n x k hk, Nat.mod_pow_succ, Nat.mul_comm (256 ^ k)]

/-- Bytes written read back as a block. -/
theorem mread_mwrite_same (d : Byte) (m : Memory) (a : Nat) (bs : List Byte) (hm : Memory.wf d m) :
    mread d (mwrite d m a bs) a bs.length = bs := by
  refine List.ext_getElem (by simp [mread]) fun i _ hi => ?_
  simp [mread, mget_mwrite_in d bs m a i hm hi, hi]

/-- A block apart from the bytes written reads as before. -/
theorem mread_mwrite_out (d : Byte) (m : Memory) (a c n : Nat) (bs : List Byte) (hm : Memory.wf d m)
    (h : c + n ≤ a ∨ a + bs.length ≤ c) : mread d (mwrite d m a bs) c n = mread d m c n := by
  refine List.map_congr_left fun i hi => mget_mwrite_out d bs m a (c + i) hm ?_
  have := List.mem_range.1 hi
  omega

/-- A word has as many bytes as the number asked for. -/
@[simp] theorem leBytes_length (n x : Nat) : (leBytes n x).length = n := by simp [leBytes]

/-- A word stored reads back. -/
theorem memWord_memPutW_same (s : State) (a : Nat) (v : Word) (hm : Memory.wf 0 s.mem) :
    memWord (memPutW a v s) a = v := by
  have hr : mread 0 (mwrite 0 s.mem a (leBytes 4 v.toNat)) a 4 = leBytes 4 v.toNat := by
    simpa using mread_mwrite_same 0 s.mem a (leBytes 4 v.toNat) hm
  have hv : v.toNat % 256 ^ 4 = v.toNat := Nat.mod_eq_of_lt v.isLt
  rw [memWord, memPutW, memPut, hr, leNat_leBytes 4 v.toNat 4 (Nat.le_refl 4), hv, BitVec.ofNat_toNat, BitVec.setWidth_eq]

/-- A word apart from the one stored reads as before. -/
theorem memWord_memPutW_out (s : State) (a c : Nat) (v : Word) (hm : Memory.wf 0 s.mem) (h : c + 4 ≤ a ∨ a + 4 ≤ c) :
    memWord (memPutW a v s) c = memWord s c := by
  rw [memWord, memWord, memPutW, memPut, mread_mwrite_out 0 s.mem a c 4 _ hm (by simpa using h)]

/-- A byte outside the word stored reads as before. -/
theorem mget_memPutW_out (s : State) (a y : Nat) (v : Word) (hm : Memory.wf 0 s.mem) (h : y < a ∨ a + 4 ≤ y) :
    mget 0 (memPutW a v s).mem y = mget 0 s.mem y :=
  mget_mwrite_out 0 _ s.mem a y hm (by simpa using h)

/-! ### The axis window (R18, R25, R102) -/

/-- A coefficient of one bank lies apart from every coefficient of the other bank (R28). -/
theorem coefAddr_apart (s : State) (x i j : Nat) (b : Bool) (hi : i < 256) (hj : j < 256) :
    coefAddr s x (!b) 0 j + 4 ≤ coefAddr s x b 0 i ∨ coefAddr s x b 0 i + 4 ≤ coefAddr s x (!b) 0 j := by
  cases b <;> simp only [coefAddr, b2n] <;> grind

/-- The bank may not be written: it is the active one, or a swap is pending. -/
theorem bankWritable_eq_false (s : State) (x : Nat) (b : Bool)
    (h : b = (getAx s x).ctl.bank ∨ (getAx s x).ctl.swapPend = true) : bankWritable s x b = false := by
  rcases h with h | h <;> simp [bankWritable, h]

/-- The bank may be written: it is the inactive one, and no swap is pending. -/
theorem bankWritable_eq_true (s : State) (x : Nat) (b : Bool) (hb : b ≠ (getAx s x).ctl.bank)
    (hp : (getAx s x).ctl.swapPend = false) : bankWritable s x b = true := by
  simp [bankWritable, hp, hb.symm]

/-- An offset inside window x of an axis lies in the region of that axis. -/
theorem regionOf_axis (x k : Nat) (hx : x < 128) (hk : k < 0x1000) : regionOf (0x41000000 + 0x1000 * x + k) = some (.axis x) := by
  have hw : (0x41000000 + 0x1000 * x + k) / 0x1000 % 0x1000 = x := by omega
  rw [regionOf, if_neg (by omega), if_pos (by omega), hw]

/-- A host's write to a word of the window of a usable axis is the axis window's. -/
theorem exec_registerWrite_host_axis (s : State) (x k : Nat) (v : Word) (hu : x < usableAxes s) (hx : x < 128)
    (hk : k < 0x1000) (h4 : k % 4 = 0) :
    exec (.registerWrite .host (0x41000000 + 0x1000 * x + k) v) s = .next (axisWrite .host x k v s).1 := by
  have hr := regionOf_axis x k hx hk
  have hl : inLocal (0x41000000 + 0x1000 * x + k) = false := by simp [inLocal]; omega
  have ha : accessOk (0x41000000 + 0x1000 * x + k) 4 = true := by simp [accessOk]; omega
  have hm : mayWrite s .host (0x41000000 + 0x1000 * x + k) = true := by simp [mayWrite, hr]
  have hd : windowDead s (.axis x) = false := by simpa [windowDead] using hu
  have ho : regionOfs (.axis x) (0x41000000 + 0x1000 * x + k) = k := by simp [regionOfs]; omega
  have hb : busWrite .host (sourceOf .host) (0x41000000 + 0x1000 * x + k) 4 v s = axisWrite .host x k v s := by
    simp [busWrite, ha, hm, hr, hl, hd, ho, unitWrite]
  change Host.Outcome.next _ = _
  simp [hl, compactGate, hb]

/-- A write to a bank word of the axis window: stored when the bank may be written, ignored otherwise (R102). -/
theorem axisWrite_bank (m : Master) (s : State) (x k : Nat) (v : Word) (hk : 0x800 ≤ k) :
    axisWrite m x k v s =
      if bankWritable s x (decide (0xC00 ≤ k)) then
        wDone (memPutW (coefAddr s x (decide (0xC00 ≤ k)) 0 ((k % 0x400) / 4)) v s)
      else wIgnored s := by
  rw [axisWrite, if_neg (by omega), if_neg (by omega), if_neg (by omega)]
  simp [hk]

/-- A host's write to coefficient word i of bank b of a usable axis. -/
theorem exec_registerWrite_host_bank (s : State) (x i : Nat) (v : Word) (b : Bool) (hu : x < usableAxes s)
    (hx : x < 128) (hi : i < 256) :
    exec (.registerWrite .host (0x41000000 + 0x1000 * x + (if b then 0xC00 else 0x800) + 4 * i) v) s =
      .next (if bankWritable s x b then memPutW (coefAddr s x b 0 i) v s else refuseWrite s) := by
  obtain ⟨k, hk⟩ : ∃ k, k = (if b then 0xC00 else 0x800) + 4 * i := ⟨_, rfl⟩
  have hlo : 0x800 ≤ k := by grind
  have hhi : k < 0x1000 := by grind
  have h4 : k % 4 = 0 := by grind
  have hb : decide (0xC00 ≤ k) = b := by cases b <;> simp at hk ⊢ <;> omega
  have hw : k % 0x400 / 4 = i := by cases b <;> simp at hk <;> omega
  rw [Nat.add_assoc, ← hk, exec_registerWrite_host_axis s x k v hu hx hhi h4, axisWrite_bank _ _ _ _ _ hlo, hb, hw]
  split <;> rfl

/-- Settles O60 (R102): by whether the bank may be written, the command is the refused write, which only raises its event,
or the store of one word, which lies apart from every word of the other bank. -/
theorem bankWriteRule : Obligations.BankWriteRule := by
  unfold Obligations.BankWriteRule
  rintro s x i v b hu hx hi a rfl
  have he := exec_registerWrite_host_bank s x i v b hu hx hi
  refine ⟨fun h => ?_, fun hb hp hm => ?_⟩
  · rw [bankWritable_eq_false s x b h, if_neg Bool.false_ne_true] at he
    exact ⟨_, he, raise_onlyEvents _ s, raise_raised _ s rfl (by decide)⟩
  · rw [bankWritable_eq_true s x b hb hp, if_pos rfl] at he
    refine ⟨_, he, memWord_memPutW_same s _ v hm, fun j => ?_, fun y hy => mget_memPutW_out s _ y v hm hy, rfl⟩
    exact memWord_memPutW_out s _ _ v hm (coefAddr_apart s x i (j % 256) b hi (Nat.mod_lt _ (by decide)))

end Sys2Proof.Machine

namespace Sys2Proof.Machine

/-! ### One core of the Ladle block -/

/-- The core that was changed. -/
@[simp] theorem getCore_modCore_same (c : Nat) (f : Core → Core) (s : State) :
    getCore (modCore c f s) c = f (getCore s c) := tget_tset_self _ _ _ _

/-- Every other core. -/
theorem getCore_modCore_ne (c e : Nat) (f : Core → Core) (s : State) (h : e ≠ c) :
    getCore (modCore c f s) e = getCore s e := tget_tset_ne _ _ _ _ _ h

/-- A change of one core leaves the rest of the state and the other cores. -/
theorem modCore_oneCore (c : Nat) (f : Core → Core) (s : State) : State.oneCore c s (modCore c f s) :=
  ⟨rfl, fun e he => getCore_modCore_ne c e f s he⟩

/-- A core is as it was when an event is raised. -/
@[simp] theorem getCore_raise (e : Nat) (s : State) (c : Nat) : getCore (raise e s) c = getCore s c := by simp [getCore]

/-! ### Halt and RESTART of the compact core (R349, R354, R360, R361) -/

/-- What a halt leaves of core k (R349, R361). -/
def haltedCore (cause : Nat) (faddr : Word) (k : Core) : Core :=
  { k with
    st := 2, hcause := cause, fpc := k.pc, faddr := faddr, halts := inc16 k.halts, axis := none, waiting := false
    stalled := false, delay := none, rtiPend := false, restartPend := false }

/-- What RESTART leaves of the compact core k, whose entry is at LDCENTRY (R354, R360). -/
def restartedCompact (entry : Word) (k : Core) : Core :=
  { k with st := 1, hcause := 0, faddr := 0, pc := entry, shadow := false, recent := [] }

/-- A halt of the compact core changes that core and raises its event: no axis takes part (R360). -/
theorem haltCore_compact (cause : Nat) (faddr : Word) (s : State) :
    haltCore 4 cause faddr s = raise evLadleFault (modCore 4 (haltedCore cause faddr) s) := rfl

/-- The compact core after its halt. -/
@[simp] theorem getCore_haltCore_compact (cause : Nat) (faddr : Word) (s : State) :
    getCore (haltCore 4 cause faddr s) 4 = haltedCore cause faddr (getCore s 4) := by
  rw [haltCore_compact, getCore_raise, getCore_modCore_same]

/-- A halt of the compact core raises the Ladle-fault event. -/
theorem haltCore_compact_raised (cause : Nat) (faddr : Word) (s : State) :
    State.raised evLadleFault (haltCore 4 cause faddr s) := by
  rw [haltCore_compact]
  exact raise_raised _ _ rfl (by decide)

/-- Beside its own record, a halt of the compact core touches only what raising an event touches. -/
theorem haltCore_compact_onlyEvents (cause : Nat) (faddr : Word) (s : State) :
    State.onlyEvents { s with lad := { s.lad with cores := (haltCore 4 cause faddr s).lad.cores } }
      (haltCore 4 cause faddr s) := by
  rw [haltCore_compact, raise_lad_cores]
  exact raise_onlyEvents _ (modCore 4 (haltedCore cause faddr) s)

/-- RESTART of a halted compact core. -/
theorem restartCore_compact (s : State) (h : (getCore s 4).st = 2) :
    restartCore 4 s = modCore 4 (restartedCompact (Cfg.LDCENTRY s)) s := by
  simp only [restartCore, h, ne_eq, not_true_eq_false, if_false, if_true]
  rfl

/-- The host may always write LDCMD (R21), so its RESTART of a core of the block acts (R354). -/
theorem exec_restart_host (c : Nat) (s : State) (hc : c ≤ 4) : exec (.restart .host c) s = .next (restartCore c s) := by
  have hw : mayWrite s .host aLDCMD = true := rfl
  have hcmd : ldCommand .host 1 c s = some (restartCore c s) := by simp [ldCommand, Nat.not_lt.mpr hc]
  change execRestart .host c s = _
  simp [execRestart, withRight, compactGate, hw, ldAct, hcmd]

/-- Settles O53 (R360): a halt of the compact core is a change of its record and a raise of its event; the host's RESTART is
a change of that record alone. -/
theorem compactCoreHalt : Obligations.CompactCoreHalt := by
  unfold Obligations.CompactCoreHalt
  refine ⟨fun s cause x => ?_, fun s h => ?_⟩
  · have hk := getCore_haltCore_compact cause x s
    exact ⟨haltCore_compact_raised cause x s, by rw [hk]; rfl, by rw [hk]; rfl, haltCore_compact_onlyEvents cause x s⟩
  · have he := exec_restart_host 4 s (Nat.le_refl 4)
    rw [restartCore_compact s h] at he
    have hk := getCore_modCore_same 4 (restartedCompact (Cfg.LDCENTRY s)) s
    exact ⟨_, he, by rw [hk]; rfl, by rw [hk]; rfl, by rw [hk]; rfl, by rw [hk]; rfl, modCore_oneCore 4 _ s⟩

end Sys2Proof.Machine

namespace Sys2Proof.Machine

/-! ### The host port after a change of it -/

section
variable (f : HostPort → HostPort) (s : State)

@[simp] theorem modHost_host : (modHost f s).host = f s.host := rfl

@[simp] theorem modHost_cfg : (modHost f s).cfg = s.cfg := rfl

@[simp] theorem modHost_mem : (modHost f s).mem = s.mem := rfl

@[simp] theorem modHost_axes : (modHost f s).axes = s.axes := rfl

end

/-! ### A frame that leaves the head (R389, R397) -/

/-- A frame that leaves touches the outgoing SPI store, what leaves in the round, the count of lost notifications and the
counter of free values, and nothing else. -/
theorem sendFrame_eq (note : Bool) (snd : Sender) (l : List Byte) (s : State) : sendFrame note snd l s = { s with
    host := { s.host with out := (sendFrame note snd l s).host.out }
    tx := (sendFrame note snd l s).tx
    free := (sendFrame note snd l s).free
    ev := { s.ev with nlost := (sendFrame note snd l s).ev.nlost } } := by
  cases snd with
  | udp ip port mac d =>
    simp only [sendFrame]
    split
    · split <;> rfl
    · rfl
  | spi =>
    simp only [sendFrame, spiPut]
    split
    · rfl
    · split <;> rfl
  | core => rfl

/-- A reply is a frame that leaves. -/
theorem reply_eq (snd : Sender) (r : Reply) (s : State) : reply snd r s = { s with
    host := { s.host with out := (reply snd r s).host.out }
    tx := (reply snd r s).tx
    free := (reply snd r s).free
    ev := { s.ev with nlost := (reply snd r s).ev.nlost } } := sendFrame_eq false snd _ s

/-- An answer after a change of the port is a change of the port (R394). -/
theorem reply_modHost_onlyPort (snd : Sender) (r : Reply) (f : HostPort → HostPort) (s : State) :
    State.onlyPort s (reply snd r (modHost f s)) := by
  rw [State.onlyPort, reply_eq]
  rfl

section
variable (snd : Sender) (r : Reply) (s : State)

@[simp] theorem reply_host_waiting : (reply snd r s).host.waiting = s.host.waiting := by rw [reply_eq]

@[simp] theorem reply_host_window : (reply snd r s).host.window = s.host.window := by rw [reply_eq]

@[simp] theorem reply_host_credits : (reply snd r s).host.credits = s.host.credits := by rw [reply_eq]

@[simp] theorem reply_host_busy : (reply snd r s).host.busy = s.host.busy := by rw [reply_eq]

@[simp] theorem reply_host_dup : (reply snd r s).host.dup = s.host.dup := by rw [reply_eq]

@[simp] theorem reply_cfg : (reply snd r s).cfg = s.cfg := by rw [reply_eq]

@[simp] theorem reply_mem : (reply snd r s).mem = s.mem := by rw [reply_eq]

@[simp] theorem reply_axes : (reply snd r s).axes = s.axes := by rw [reply_eq]

end

/-- The count of BUSY replies is as it was when an event is raised. -/
@[simp] theorem raise_host_busy (e : Nat) (s : State) : (raise e s).host.busy = s.host.busy := by
  rw [(raise_onlyEvents e s).1]

/-! ### The cases of COMMAND_FRAME (R390, R394, R395) -/

/-- What a good frame that finds a credit does to the port in every case (R395). -/
def chargeFrame (h : HostPort) : HostPort := { h with rxok := inc16 h.rxok, credits := h.credits - 1 }

@[simp] theorem chargeFrame_credits (h : HostPort) : (chargeFrame h).credits = h.credits - 1 := rfl

@[simp] theorem chargeFrame_waiting (h : HostPort) : (chargeFrame h).waiting = h.waiting := rfl

@[simp] theorem chargeFrame_window (h : HostPort) : (chargeFrame h).window = h.window := rfl

section
variable (snd : Sender) (seq : Word) (op : Nat) (pl : List Word) (s : State)

/-- Without credit: BUSY, counted and reported. -/
theorem dispatchFrame_of_no_credit (hc : s.host.credits = 0) :
    dispatchFrame snd seq op pl s = raise evHostBusy (reply snd ⟨seq, op, stBUSY, []⟩
      (modHost (fun h => { h with rxok := inc16 h.rxok, busy := inc16 h.busy }) s)) := by
  rw [dispatchFrame, if_pos hc]
  rfl

/-- A sequence number in the window: the kept reply, counted. -/
theorem dispatchFrame_of_kept (r : Reply) (hc : 0 < s.host.credits)
    (hw : s.host.window.find? (fun r => r.seq = seq) = some r) :
    dispatchFrame snd seq op pl s =
      reply snd r (modHost (fun h => { chargeFrame h with dup := inc16 h.dup }) s) := by
  rw [dispatchFrame, if_neg (Nat.ne_of_gt hc)]
  simp only [hw]
  rfl

/-- A second copy of a command that still awaits its acceptance: BUSY (R404). -/
theorem dispatchFrame_of_second_copy (hc : 0 < s.host.credits)
    (hw : s.host.window.find? (fun r => r.seq = seq) = none)
    (hq : s.host.waiting.any (fun c => c.seq = seq && c.snd ≠ .core) = true) :
    dispatchFrame snd seq op pl s = replyBusy snd seq op (modHost chargeFrame s) := by
  rw [dispatchFrame, if_neg (Nat.ne_of_gt hc)]
  simp only [hw, hq, if_true]
  rfl

/-- A new sequence number: what the unit answers at once, or the command it accepts. -/
theorem dispatchFrame_of_new (hc : 0 < s.host.credits)
    (hw : s.host.window.find? (fun r => r.seq = seq) = none)
    (hq : s.host.waiting.any (fun c => c.seq = seq && c.snd ≠ .core) = false) :
    dispatchFrame snd seq op pl s =
      if atOnce s snd op pl ≠ 0 then reply snd ⟨seq, op, atOnce s snd op pl, []⟩ (modHost chargeFrame s)
      else takeCommand snd seq op pl (modHost chargeFrame s) := by
  rw [dispatchFrame, if_neg (Nat.ne_of_gt hc)]
  simp only [hw, hq, Bool.false_eq_true, if_false]
  rfl

/-- A command accepted by the unit with the pair role and no standby runs in the next round, unprotected (R280). -/
theorem takeCommand_of_alone (hr : pairRole s = true) (hp : onPair s snd = true) (hs : shadowPeer s = false) :
    takeCommand snd seq op pl s = modTwin (fun t => { t with unprot := true }) (modWaiting (fun l => l ++
      [{ snd := snd, seq := seq, op := op, pl := pl, round := s.sys.round + 1, fwd := false, ok := true }]) s) := by
  simp [takeCommand, usableStandby, hr, hp, hs]

/-- Accepting a command costs no credit of its own. -/
@[simp] theorem takeCommand_host_credits : (takeCommand snd seq op pl s).host.credits = s.host.credits := by
  unfold takeCommand
  dsimp only
  split
  · rfl
  · split <;> split <;> rfl

/-- Every good frame that finds a credit takes one, also a duplicate and one that gets BOOTING (R395). -/
theorem dispatchFrame_host_credits (hc : 0 < s.host.credits) :
    (dispatchFrame snd seq op pl s).host.credits = s.host.credits - 1 := by
  cases hw : s.host.window.find? (fun r => r.seq = seq) with
  | some r => simp [dispatchFrame_of_kept snd seq op pl s r hc hw]
  | none =>
    cases hq : s.host.waiting.any (fun c => c.seq = seq && c.snd ≠ .core) with
    | true => simp [dispatchFrame_of_second_copy snd seq op pl s hc hw hq, replyBusy]
    | false =>
      rw [dispatchFrame_of_new snd seq op pl s hc hw hq]
      split <;> simp

end

section
variable (snd : Sender) (l : List Byte) (s : State)

/-- A port that does not answer takes nothing. -/
theorem exec_commandFrame_closed (ho : portOpen s snd = false) : exec (.commandFrame snd l) s = .next s := by
  change Host.Outcome.next (commandFrame snd l s) = _
  simp [commandFrame, ho]

/-- A bad frame is dropped and counted. -/
theorem exec_commandFrame_bad (hd : s.sys.pwr ≠ .deep) (ho : portOpen s snd = true) (hf : parseFrame l = none) :
    exec (.commandFrame snd l) s = .next (dropFrame s) := by
  change Host.Outcome.next (commandFrame snd l s) = _
  simp [commandFrame, frameNow, ho, hd, hf]

/-- A good frame goes to the checks of R394 and R395. -/
theorem exec_commandFrame_good (seq : Word) (op : Nat) (pl : List Word) (hd : s.sys.pwr ≠ .deep)
    (ho : portOpen s snd = true) (hf : parseFrame l = some (seq, op, pl)) :
    exec (.commandFrame snd l) s = .next (dispatchFrame snd seq op pl s) := by
  change Host.Outcome.next (commandFrame snd l s) = _
  simp [commandFrame, frameNow, ho, hd, hf]

end

/-- One more, up to the top. -/
theorem incSat_eq_min (top n : Nat) (h : n ≤ top) : incSat top n = min top (n + 1) := by
  unfold incSat
  split <;> omega

/-- A tick brings a credit, up to 32 (R395). -/
theorem exec_creditTick (s : State) (h : s.host.credits ≤ 32) :
    exec .creditTick s = .next { s with host := { s.host with credits := min 32 (s.host.credits + 1) } } := by
  rw [← incSat_eq_min 32 _ h]
  rfl

/-- Settles O55 (R390, R394, R395): a frame that passes R390 is one case of `dispatchFrame`, by credit, window and what the
unit answers at once; the answers touch the port alone, and an accepted command the queue and the unprotected flag. -/
theorem commandFrames : Obligations.CommandFrames := by
  unfold Obligations.CommandFrames
  refine ⟨fun s snd l hd => ⟨exec_commandFrame_closed snd l s, exec_commandFrame_bad snd l s hd, ?_⟩, exec_creditTick, rfl⟩
  intro seq op pl ho hf
  rw [exec_commandFrame_good snd l s seq op pl hd ho hf]
  refine ⟨fun hc hw hq ha hr hp hs => ?alone, fun r hc hw => ?kept, fun hc hw hq ha => ?atOnce,
    fun hc => ⟨_, rfl, dispatchFrame_host_credits snd seq op pl s hc⟩, fun hc => ?busy⟩
  case alone =>
    have ht := takeCommand_of_alone snd seq op pl (modHost chargeFrame s) hr hp hs
    rw [dispatchFrame_of_new snd seq op pl s hc hw hq, if_neg (by simp [ha]), ht]
    exact ⟨_, rfl, rfl, rfl, rfl, rfl, rfl⟩
  case kept =>
    rw [dispatchFrame_of_kept snd seq op pl s r hc hw]
    exact ⟨_, rfl, by simp, by simp, by simp, by simp, reply_modHost_onlyPort snd r _ s⟩
  case atOnce =>
    rw [dispatchFrame_of_new snd seq op pl s hc hw hq, if_pos ha]
    exact ⟨_, rfl, by simp, by simp, by simp, reply_modHost_onlyPort snd _ _ s⟩
  case busy =>
    rw [dispatchFrame_of_no_credit snd seq op pl s hc]
    exact ⟨_, rfl, rfl, by simp [hc], by simp, by simp, by simp,
      raise_raised _ _ rfl (by decide), by simp, by simp, by simp⟩

end Sys2Proof.Machine

namespace Sys2Proof.Machine

/-! ### A command register that is written with its right (R21) -/

section
variable (m : Master) (a : Nat) (f : State → State) (s : State)

/-- The compact core's write is neither lost in DEEP PARK (R340) nor discarded in STANDBY (R357). -/
theorem compactGate_of_passes (h : m = .compact → s.sys.pwr ≠ .deep ∧ s.sys.hstate ≠ .standby) :
    compactGate m f s = f s := by
  rw [compactGate, if_neg fun ⟨hm, hd⟩ => (h hm).1 hd, if_neg fun ⟨hm, hs⟩ => (h hm).2 hs]

/-- A write that reaches its register acts. -/
theorem withRight_of_reaches (h : State.reaches m a s) : withRight m a f s = f s := by
  obtain ⟨hw, hc⟩ := h
  rw [withRight, compactGate_of_passes m _ s hc, if_pos hw]

end

/-! ### Resets and the watchdog (R409, R415, R418 to R420) -/

section
variable (s : State)

/-- The start of a round in reset. -/
theorem roundStart_of_inReset (h : s.sys.inReset = true) : roundStart s = s := if_pos h

/-- A commanded restart resets the head at T0 (R376, R419). -/
theorem roundStart_of_reboot (hr : s.sys.rebootReq = true) (hi : s.sys.inReset = false) :
    roundStart s = resetHead 5 s := by simp [roundStart, hr, hi]

/-- The row of each reset condition is the reset with that condition's cause (R409, R418 to R420). -/
theorem exec_of_resetCondition (c : Instr) (k : Nat)
    (h : c = .porst ∧ k = 1 ∨ c = .supplyReset ∧ k = 2 ∨ c = .refclkLoss ∧ k = 3 ∨ c = .pllLockLoss ∧ k = 4 ∨
      c = .watchdogExpiry ∧ k = 6 ∧ s.sys.wdLeft = some 0 ∨
      c = .roundStart ∧ k = 5 ∧ s.sys.rebootReq = true ∧ s.sys.inReset = false) :
    exec c s = .next (resetHead k s) := by
  rcases h with ⟨rfl, rfl⟩ | ⟨rfl, rfl⟩ | ⟨rfl, rfl⟩ | ⟨rfl, rfl⟩ | ⟨rfl, rfl, hw⟩ | ⟨rfl, rfl, hr, hi⟩
  case inr.inr.inr.inr.inl => exact congrArg Host.Outcome.next (if_pos hw)
  case inr.inr.inr.inr.inr => exact congrArg Host.Outcome.next (roundStart_of_reboot s hr hi)
  all_goals rfl

/-- The release of a head in reset: straps and fuses are taken (R378, R415). -/
theorem resetRelease_of_inReset (pref casc oct : Bool) (h : s.sys.inReset = true) :
    resetRelease pref casc oct s = { s with
      sys := { s.sys with inReset := false, pref := pref, casc := casc, oct := oct }
      boot := { s.boot with fuses := s.boot.fuseCells } } := if_pos h

/-- A kick of a watchdog that counts gives it its full time again (R420). -/
theorem wdKick_of_counting (w : Word) (t : Nat) (hb : bit w 0 = true) (ht : s.sys.wdLeft = some t) :
    wdKick w s = { s with sys := { s.sys with wdLeft := some (Cfg.WDCFG_TIME s) } } := by
  simp [wdKick, modSys, hb, ht]

/-- A write of WDKICK that reaches the register is judged by its key. -/
theorem exec_wdkick (m : Master) (w : Word) (h : State.reaches m aWDKICK s) :
    exec (.wdkick m w) s = .next (keyed w (wdKick w) s) :=
  congrArg Host.Outcome.next (withRight_of_reaches m aWDKICK _ s h)

end

/-- Settles O38 (R409, R418 to R420): every reset condition is `resetHead` with its cause, whose parts are the reset values
by definition; the release, the kick and the expiry are one branch each of their meanings. -/
theorem resets : Obligations.Resets := by
  unfold Obligations.Resets
  refine ⟨fun s c k h => ?reset, fun s pref casc oct h => ?release, fun s h => ?held, fun s m w t hr hk hb ht => ?kick,
    fun s m w hr hk => ?keyless, fun s h => ?counting⟩
  case reset =>
    exact ⟨_, exec_of_resetCondition s c k h, rfl, rfl, rfl, rfl, rfl, rfl, rfl, rfl, rfl, rfl, rfl, rfl, rfl, rfl, rfl,
      rfl, rfl, rfl, rfl, rfl, rfl⟩
  case release => exact congrArg Host.Outcome.next (resetRelease_of_inReset s pref casc oct h)
  case held => exact congrArg Host.Outcome.next (roundStart_of_inReset s h)
  case kick => rw [exec_wdkick s m w hr, keyed, if_pos hk, wdKick_of_counting s w t hb ht]
  case keyless =>
    rw [exec_wdkick s m w hr, keyed, if_neg hk]
    exact ⟨_, rfl, raise_onlyEvents _ s, raise_raised _ s rfl (by decide)⟩
  case counting => exact congrArg Host.Outcome.next (if_neg h)

end Sys2Proof.Machine

namespace Sys2Proof.Machine

/-! ### What every command keeps of the storage (R27, R364, R378, R380) -/

/-- A write of the compact core that may be lost keeps the storage (R340, R357). -/
theorem compactGate_k (s0 : State) (m : Master) (f : State → State) (s : State) (hK : Storage.Kept (storage s0) (storage s))
    (hf : ∀ t, Storage.Kept (storage s0) (storage t) → Storage.Kept (storage s0) (storage (f t))) :
    Storage.Kept (storage s0) (storage (compactGate m f s)) :=
  kept_ite s0 _ _ _ (fun _ => hK) fun _ => kept_ite s0 _ _ _ (fun _ => hK) fun _ => hf s hK

/-- Every command answers a next state, and that state keeps the storage. -/
theorem exec_keeps_storage (c : Instr) (s : State) : ∃ t, exec c s = .next t ∧ Storage.Kept (storage s) (storage t) := by
  have hK := kept_refl s
  cases c
  case roundStart => exact ⟨_, rfl, roundStart_storage s s hK⟩
  case clusterWake k => exact ⟨_, rfl, clusterWake_storage s k s hK⟩
  case wheelTick => exact ⟨_, rfl, wheelTick_storage s s hK⟩
  case tcopyReceived u => exact ⟨_, rfl, tcopyReceived_storage s u s hK⟩
  case recorderClear src scope ok => exact ⟨_, rfl, rcClear_storage s src scope ok s hK⟩
  case saveComplete ok => exact ⟨_, rfl, saveComplete_storage s ok s hK⟩
  case st k d p md w => exact ⟨_, rfl, ldStore_storage s k d p md w s hK⟩
  case bootSequence b => exact ⟨_, rfl, bootSequence_storage s b s hK⟩
  case imageCommandDone e => exact ⟨_, rfl, imageCommandDone_storage s _ _ s hK⟩
  case fuseProgramDone ok => exact ⟨_, rfl, fuseProgramDone_storage s ok s hK⟩
  case read snd seq pl => exact ⟨_, rfl, runCommand_k s snd seq 1 pl _ s hK fun t ht => opRead_storage s _ pl t ht⟩
  case write snd seq pl => exact ⟨_, rfl, runCommand_k s snd seq 2 pl _ s hK fun t ht => opWrite_storage s _ _ pl t ht⟩
  case bankWrite snd seq pl => exact ⟨_, rfl, runCommand_k s snd seq 4 pl _ s hK fun t ht => opBankWrite_storage s pl t ht⟩
  case recordRead snd seq pl => exact ⟨_, rfl, runCommand_k s snd seq 6 pl _ s hK fun t ht => opRecordRead_storage s pl t ht⟩
  case registerWrite m a v =>
    refine ⟨_, rfl, kept_ite s _ _ _ (fun _ => ?_) fun _ => ?_⟩
    · exact busWrite_storage s m _ a 4 v s hK
    · exact compactGate_k s m _ s hK fun t ht => busWrite_storage s m _ a 4 v t ht
  case supplyWarning rail mv =>
    exact ⟨_, rfl, kept_ite s _ _ _ (fun _ => hK) fun _ => supplyWarning_storage s rail mv s hK⟩
  case supplyReset => exact ⟨_, rfl, resetHead_storage s 2 s hK⟩
  case refclkLoss => exact ⟨_, rfl, resetHead_storage s 3 s hK⟩
  case pllLockLoss => exact ⟨_, rfl, resetHead_storage s 4 s hK⟩
  case porst => exact ⟨_, rfl, resetHead_storage s 1 s hK⟩
  case watchdogExpiry => exact ⟨_, rfl, kept_ite s _ _ _ (fun _ => resetHead_storage s 6 s hK) fun _ => hK⟩
  case fupReceived | posReceived | diagReceived | svcReply | upstreamSilence | sliceOverrun | fdnSlotDeparture |
      cxpReceived | remoteGearDerivation | bankSwap | enable | run | park | unpark | qstop | disable | reset | swap |
      brakeAppliedReport | groupEnable | groupRun | groupPark | groupUnpark | groupQstop | groupDisable |
      groupReset | locgo | append | replace | chglim | clear | ref | compareArming | probeArming | localProbeEdge |
      localEncoderEdge | ssiFrameStart | ssiFrameEnd | backoffEnd | rtrelGo | retryComplete | testStepEvaluation |
      noResponse | overVoltageTrip | overVoltageForcingEnd | chopperOverload | sdiFast | sdiFault | psctestGo |
      comparatorSelfTestEnd | listenTimerExpiry | markAccepted | coldstartEnd | loadSequence | loadTimeout |
      nodeAdmission | channelJudgement | skimEnded | portLoss | unwrapOrder | unwrap | tleaseReceived |
      tdigReceived | leaseExpiry | twinLinkLost | tcmdReceived | tconfReceived | tconfTimeout | tcommitReceived |
      hbreq | handbackRound | handbackEnd | isolatedTimeout | yield | rejoin | inhibit | allow | cmarkReceived |
      csyncEdge | csyncLost | cwaitExpiry | cascadeLaneLoss | safeReceived | safePeriod | brakeFeedbackTimeout |
      degtimeExceeded | lockoutCause | lockout | safeReset | testPulse | darkPulse | saggarWatchdogExpiry |
      saggarSupplyTrip | cpuSelfTest | ramScrub | romCrc | clockComparison | inputComparatorSelfTest | marchTest |
      saggarSelfTestEnd | pwd | pwdset | param | sealclose | logclear | btest | btestEnd | btabort | outset |
      sealPinChange | sealTimeout | passwordBlockEnd | poweredSecond | recorderPwd | save | lock |
      authorisationTimeout | recorderPwdBlockEnd | nop | add | sub | and | or | xor | shl | shr | sar | ror | mul |
      addi | movl | movh | cmp | mov | fadd | fsub | fmul | fma | fms | fcmp | fabs | fneg | fmin | fmax |
      integerToFp | fpToInteger | q31ToFp | fpToQ31 | frcp | mac | rda | mva | clr | rdg | ld | pmvPFromD |
      pmvDFromP | pmvMFromD | pmvDFromM | padd | mset | mlen | ldp | b | call | jr | rep | repr | brk | wait | rti |
      mrs | msr | ei | di | rdc | fmad | macd | ld2 | compactCoreInterrupt | ldmboxWrite | restart | stop |
      bootComplete | erase | program | verify | invalidate | reboot | fpcmdGo | ethernetFrame | commandFrame |
      queueMove | subscribe | image | headState | writeFrame | readFrame | status | phyPoll | creditTick | pulseEnd |
      pwrcmdDeep | wake | supplyWarningClear | deferralEnd | resetRelease | wdkick | tretReceived | txqReceived |
      tlinkReceived | twinLaneLossOfLock | twinLaneLocked | sfbMatchTimeout =>    exact ⟨_, rfl, kept_of_eq (by simp)⟩


/-- A step keeps the storage but for the command that it takes from the queue. -/
theorem step_keeps_storage (s t : State) (h : step s = .next t) :
    Storage.Kept (storage { s with pending := s.pending.tail }) (storage t) := by
  unfold step at h
  split at h
  case h_1 hp =>
    obtain rfl : s = t := Host.Outcome.next.inj h
    exact kept_of_eq (by simp [storage, hp])
  case h_2 c rest hp =>
    obtain ⟨u, hu, hk⟩ := exec_keeps_storage c { s with pending := rest }
    obtain rfl : u = t := Host.Outcome.next.inj (hu.symm.trans h)
    simpa [hp] using hk

/-- Settles O42: every command answers a next state and keeps the queue, which is part of the storage. -/
theorem stepTakesFront : Obligations.StepTakesFront := by
  unfold Obligations.StepTakesFront
  refine ⟨fun c s => ?_, fun s => ?_, fun s t h => ?_⟩
  · obtain ⟨t, ht, hk⟩ := exec_keeps_storage c s
    exact ⟨t, ht, hk.1⟩
  · unfold State.safeStep step
    split
    · exact ⟨s, rfl⟩
    · exact (exec_keeps_storage _ _).imp fun _ h => h.1
  · exact (step_keeps_storage s t h).1

/-- Settles O43: the canonical form of both memories is part of what every step keeps. -/
theorem memoriesCanonical : Obligations.MemoriesCanonical := by
  unfold Obligations.MemoriesCanonical
  intro s t hm hf h
  obtain ⟨-, hmem, hflash, -⟩ := step_keeps_storage s t h
  exact ⟨hmem hm, hflash hf⟩

/-- Settles O44: the programmed bits of the user fuse words are part of what every step keeps. -/
theorem fusesPermanent : Obligations.FusesPermanent := by
  unfold Obligations.FusesPermanent
  intro s t h k hk i hi
  obtain ⟨-, -, -, hfuse⟩ := step_keeps_storage s t h
  exact hfuse k hk i hi

/-- Settles O41: a step of a queue that is not empty is its front command's. -/
theorem stepRunsFront : Obligations.StepRunsFront := by
  unfold Obligations.StepRunsFront
  intro s c rest h
  simp only [step, h]

/-- What states with one anchor share. -/
theorem fields_of_anchor_eq {s t : State} (h : anchor t = anchor s) :
    t.sys.round = s.sys.round ∧ t.sys.roundRan = s.sys.roundRan ∧ t.sys.epoch = s.sys.epoch ∧
      t.sys.lastEpoch = s.sys.lastEpoch ∧ t.sys.inReset = s.sys.inReset ∧ t.sys.pref = s.sys.pref ∧
      t.sys.casc = s.sys.casc ∧ t.sys.oct = s.sys.oct ∧ t.sys.rstCause = s.sys.rstCause ∧
      t.sys.rstPrev = s.sys.rstPrev ∧ t.sys.rstCount = s.sys.rstCount := by
  simpa only [anchor, Anchor.mk.injEq] using h

/-- Settles O40: every other command's meaning leaves the anchor alone. -/
theorem roundCounterKept : Obligations.RoundCounterKept := by
  unfold Obligations.RoundCounterKept
  intro c s
  cases c
  case fupReceived | posReceived | diagReceived | svcReply | upstreamSilence | clusterWake | sliceOverrun |
      fdnSlotDeparture | wheelTick | cxpReceived | remoteGearDerivation | bankSwap | enable | run | park | unpark |
      qstop | disable | reset | swap | brakeAppliedReport | groupEnable | groupRun | groupPark | groupUnpark |
      groupQstop | groupDisable | groupReset | locgo | append | replace | chglim | clear | ref | compareArming |
      probeArming | localProbeEdge | localEncoderEdge | ssiFrameStart | ssiFrameEnd | backoffEnd | rtrelGo |
      retryComplete | testStepEvaluation | noResponse | overVoltageTrip | overVoltageForcingEnd | chopperOverload |
      sdiFast | sdiFault | psctestGo | comparatorSelfTestEnd | coldstartEnd | loadSequence | loadTimeout |
      nodeAdmission | channelJudgement | skimEnded | portLoss | unwrapOrder | unwrap | tleaseReceived |
      tdigReceived | twinLinkLost | tcmdReceived | tconfReceived | tconfTimeout | tcommitReceived | tcopyReceived |
      hbreq | handbackEnd | isolatedTimeout | yield | rejoin | inhibit | allow | csyncEdge | csyncLost |
      cwaitExpiry | cascadeLaneLoss | safeReceived | safePeriod | brakeFeedbackTimeout | degtimeExceeded |
      lockoutCause | lockout | safeReset | testPulse | darkPulse | saggarWatchdogExpiry | saggarSupplyTrip |
      cpuSelfTest | ramScrub | romCrc | clockComparison | inputComparatorSelfTest | marchTest | saggarSelfTestEnd |
      pwd | pwdset | param | sealclose | logclear | btest | btestEnd | btabort | outset | sealPinChange |
      sealTimeout | passwordBlockEnd | poweredSecond | recorderPwd | recorderClear | save | lock | saveComplete |
      authorisationTimeout | recorderPwdBlockEnd | nop | add | sub | and | or | xor | shl | shr | sar | ror | mul |
      addi | movl | movh | cmp | mov | fadd | fsub | fmul | fma | fms | fcmp | fabs | fneg | fmin | fmax |
      integerToFp | fpToInteger | q31ToFp | fpToQ31 | frcp | mac | rda | mva | clr | rdg | ld | st | pmvPFromD |
      pmvDFromP | pmvMFromD | pmvDFromM | padd | mset | mlen | ldp | b | call | jr | rep | repr | brk | wait | rti |
      mrs | msr | ei | di | rdc | fmad | macd | ld2 | compactCoreInterrupt | ldmboxWrite | restart | stop |
      bootSequence | bootComplete | erase | program | verify | invalidate | reboot | imageCommandDone | fpcmdGo |
      fuseProgramDone | ethernetFrame | commandFrame | read | write | queueMove | bankWrite | subscribe |
      recordRead | image | headState | writeFrame | readFrame | status | phyPoll | creditTick | pulseEnd |
      registerWrite | pwrcmdDeep | wake | supplyWarning | supplyWarningClear | deferralEnd | wdkick | tretReceived |
      txqReceived | tlinkReceived | twinLaneLossOfLock | twinLaneLocked | sfbMatchTimeout =>
    exact ⟨_, rfl, fields_of_anchor_eq (by simp)⟩
  all_goals trivial

/-! ### The state after reset, and a cluster's wake -/

/-- Settles O45: the state after reset, field by field; no event stands in flags that are all 0. -/
theorem resetState : Obligations.ResetState := by
  unfold Obligations.ResetState
  refine ⟨rfl, rfl, rfl, rfl, rfl, rfl, fun e => ?_, fun _ => rfl, fun _ => rfl, fun _ => rfl, fun _ _ => rfl⟩
  simp [State.raised, State.reset]

/-- The wake of a cluster that is on, in RUN, notes its load and end clock behind the turns of its axes (R52). -/
theorem clusterWake_of_run (c : Nat) (s : State) (hc : clusterOn s c = true) (hi : s.sys.inReset = false)
    (hh : s.sys.hstate ≠ .boot) (hp : s.sys.pwr = .run) :
    let turns := clusterTurns s c (s.sys.round - 1) (imageDue s (s.sys.round - 1)) (computeOrder s c)
    let s1 := forAll (computeOrder s c) (fun a => axisTurn turns a s.sys.round) s
    clusterWake c s = { s1 with clusters := tset s1.clusters c { (tget ({} : Cluster) s1.clusters c) with
      endNow := turns.foldl (fun e t => max e t.e) 0, loadNow := wakeLoad s c (s.sys.round - 1) } } := by
  have hlive : ∀ l : List Turn, l.filter (fun t => s.sys.pwr = .run || !(dueCells s t.axis (s.sys.round - 1)).isEmpty) = l := fun l =>
    List.filter_eq_self.2 fun t _ => by rw [decide_eq_true hp, Bool.true_or]
  have hgo : ¬(!clusterOn s c || s.sys.inReset || s.sys.hstate = .boot || s.sys.pwr = .deep) = true := by
    simp only [hc, hi, hh, hp, Bool.not_true, decide_false, Bool.or_self, Bool.false_eq_true, not_false_eq_true, reduceCtorEq]
  rw [clusterWake, if_neg hgo]
  dsimp only
  rw [hlive]

/-- Settles O10: what the wake notes stands in the equation of the wake; the rest is the anchor and the queue. -/
theorem clusterWakeNotes : Obligations.ClusterWakeNotes := by
  unfold Obligations.ClusterWakeNotes
  intro s c hc hi hh hp
  obtain ⟨hround, -, hepoch, -⟩ := fields_of_anchor_eq (clusterWake_anchor c s)
  obtain ⟨hpending, -⟩ := clusterWake_storage s c s (kept_refl s)
  refine ⟨clusterWake c s, rfl, ?_, ?_, hround, hepoch, hpending⟩ <;>
    simp [clusterWake_of_run c s hc hi hh hp]

end Sys2Proof.Machine

namespace Sys2Proof.Machine

/-! ### Frames of axis commands -/

/-- A change of one axis alone. -/
theorem modAx_onlyAxis (s : State) (a : Nat) (f : Axis → Axis) : State.onlyAxis a s (modAx s a f) :=
  ⟨onlyEvents_mk rfl rfl, fun b hb => getAx_modAx_ne s a f b hb⟩

/-- A change of one axis and then an event. -/
theorem onlyAxis_events {a : Nat} {s t u : State} (h : State.onlyAxis a s t) (k : State.onlyEvents t u) :
    State.onlyAxis a s u := by
  obtain ⟨⟨h1, h2⟩, h3⟩ := h
  obtain ⟨k1, k2⟩ := k
  have hax : u.axes = t.axes := by rw [k1]
  refine ⟨⟨?_, fun e he => k2 e (h2 e he)⟩, fun b hb => ?_⟩
  · rw [k1, h1]
  · rw [← h3 b hb, getAx, getAx, hax]

/-- The flag of an axis's event stands after it is raised. -/
theorem raiseAx_raised (a c : Nat) (s : State) (ha : a < 128) : State.raised (128 + a) (raiseAx a c s) :=
  raise_raised _ _ (by simp [evValid]; omega) (by omega)

/-- The causes of the axes after a delivery. -/
@[simp] theorem deliver_axCause (e : Nat) (s : State) : (deliver e s).ev.axCause = s.ev.axCause := by
  unfold deliver
  dsimp only
  split
  · rw [wakeFrom_eq]; dsimp only; split <;> rfl
  · dsimp only [id]; split <;> rfl

/-- Raising an event keeps the causes of the axes. -/
@[simp] theorem raise_axCause (e : Nat) (s : State) : (raise e s).ev.axCause = s.ev.axCause := by
  unfold raise
  split
  · dsimp only; split
    · exact deliver_axCause e _
    · rfl
  · rfl

/-- A one-bit word has its bit. -/
theorem getLsbD_two_pow (w c : Nat) (hc : c < w) : (BitVec.ofNat w (2 ^ c)).getLsbD c = true := by
  rw [BitVec.getLsbD_ofNat, Nat.testBit_two_pow_self]; simp [hc]

/-- The cause of an axis's event stands after it is raised. -/
theorem raiseAx_axisCause (a c : Nat) (s : State) (hc : c < 32) : State.axisCause a c (raiseAx a c s) := by
  rw [State.axisCause, raiseAx, raise_axCause, tget_tset_self, BitVec.getLsbD_or, getLsbD_two_pow 32 c hc, Bool.or_true]

/-! ### O4: swaps of the coefficient banks (R66, R103) -/

/-- Settles O4: a swap is requested, refused or executed, each a change of the axis's control record alone. -/
theorem coefficientSwap : Obligations.CoefficientSwap := by
  unfold Obligations.CoefficientSwap
  refine ⟨fun s a hp hb => ?requested, fun s a ha h => ?refused, fun s a ha hp hr => ?swapped⟩
  case requested =>
    have he : swapRequest a s = modCtl s a (fun c => { c with
        swapPend := true, swapAt := frameBoundary s a s.sys.round + 1 }) := by simp [swapRequest, swapRefused, hp, hb]
    exact ⟨_, congrArg Host.Outcome.next he, modCtl_getAx_self s a _, modAx_onlyAxis s a _⟩
  case refused =>
    have hr : swapRefused s a = true := by rcases h with h | h <;> simp [swapRefused, h]
    have he : swapRequest a s = raiseAx a caCoefRefused (modCtl s a (fun c => { c with refCnt := inc16 c.refCnt })) :=
      if_pos hr
    refine ⟨_, congrArg Host.Outcome.next he, ?_, raiseAx_raised a _ _ ha,
      onlyAxis_events (modAx_onlyAxis s a _) (raiseAx_onlyEvents _ _ _)⟩
    rw [getAx_raiseAx, modCtl_getAx_self]
  case swapped =>
    have he : bankSwap a s = raiseAx a caSwapDone (modCtl s a (fun c => { c with
        bank := !c.bank, swapPend := false, swapCnt := inc16 c.swapCnt })) := if_pos ⟨hp, hr⟩
    refine ⟨_, congrArg Host.Outcome.next he, ?_, raiseAx_raised a _ _ ha, raiseAx_axisCause a _ _ (by decide),
      onlyAxis_events (modAx_onlyAxis s a _) (raiseAx_onlyEvents _ _ _)⟩
    rw [getAx_raiseAx, modCtl_getAx_self]

/-! ### O3: RESET, the brake report and refused commands (R108, R109) -/

/-- A refused command raises its event and nothing else. -/
theorem refuseCmd_only (a : Nat) (s : State) (ha : a < 128) : State.onlyEvents s (refuseCmd a s) ∧
    State.raised (128 + a) (refuseCmd a s) ∧ State.axisCause a caRefused (refuseCmd a s) :=
  ⟨raiseAx_onlyEvents _ _ _, raiseAx_raised _ _ _ ha, raiseAx_axisCause _ _ _ (by decide)⟩

/-- A command that the state table does not allow is refused. -/
theorem exec_of_refused (s : State) (a : Nat) (c : Instr)
    (h : c = .enable a ∧ axSt s a ≠ .off ∨ c = .run a ∧ axSt s a ≠ .ready ∨ c = .park a ∧ axSt s a ≠ .run ∨
      c = .unpark a ∧ axSt s a ≠ .park ∨ c = .qstop a ∧ axSt s a ≠ .run ∨ c = .reset a ∧ axSt s a ≠ .fault ∨
      headTakes s = false ∧ c ∈ [.enable a, .run a, .park a, .unpark a, .qstop a, .disable a]) :
    exec c s = .next (refuseCmd a s) := by
  rcases h with ⟨rfl, h⟩ | ⟨rfl, h⟩ | ⟨rfl, h⟩ | ⟨rfl, h⟩ | ⟨rfl, h⟩ | ⟨rfl, h⟩ | ⟨h, hc⟩
  case inr.inr.inr.inr.inr.inr =>
    simp only [List.mem_cons, List.not_mem_nil, or_false] at hc
    rcases hc with rfl | rfl | rfl | rfl | rfl | rfl <;>
      simp [exec, execEnable, execRun, execPark, execUnpark, execQstop, execDisable, axisAct, axisCmd, cmdEnable, cmdRun,
        cmdPark, cmdUnpark, cmdQstop, cmdDisable, h]
  all_goals
    simp_all [exec, execEnable, execRun, execPark, execUnpark, execQstop, execReset, axisAct, axisCmd, cmdEnable, cmdRun,
        cmdPark, cmdUnpark, cmdQstop, cmdReset, axSt]

/-- Settles O3: a RESET that the state allows, the report of an applied brake, and the refusals. -/
theorem axisResetAndRefusal : Obligations.AxisResetAndRefusal := by
  unfold Obligations.AxisResetAndRefusal
  refine ⟨fun s a hst hc hb => ?reset, fun s a hw => ?report, fun s a c ha h => ?refused⟩
  case reset =>
    have he : axisAct 7 a s = modCtl s a (fun c => { c with st := .off, react := 0, fcode := 0 }) := by
      rw [axSt] at hst
      simp [axisAct, axisCmd, cmdReset, hst, hc, hb]
    exact ⟨_, congrArg Host.Outcome.next he, modCtl_getAx_self s a _, modAx_onlyAxis s a _⟩
  case report =>
    have hs := modCtl_getAx_self s a (fun c => { c with brkApp := true, brkRel := false })
    rcases hw with hw | hw
    · have he : brakeApplied a s = modCtl (modCtl s a (fun c => { c with brkApp := true, brkRel := false })) a
          (fun c => { c with wait := .none }) := by simp [brakeApplied, brakeDone, hs, hw]
      refine ⟨_, congrArg Host.Outcome.next he, by rw [modCtl_getAx_self, hs], onlyEvents_mk rfl rfl, fun b hb => ?_⟩
      rw [modCtl_getAx_ne _ _ _ _ hb, modCtl_getAx_ne _ _ _ _ hb]
    · have he : brakeApplied a s = modCtl s a (fun c => { c with brkApp := true, brkRel := false }) := by
        simp [brakeApplied, brakeDone, hs, hw]
      exact ⟨_, congrArg Host.Outcome.next he, by rw [hs, ← hw], modAx_onlyAxis s a _⟩
  case refused => exact ⟨_, exec_of_refused s a c h, refuseCmd_only a s ha⟩

/-! ### O1: the groups above an axis that enters RUN (R186, R189) -/

/-- Axis 1 in READY, the only member of group 1, which is the only member of group 2; group 1 is running. -/
def nestedGroups : State := { State.reset with
  sys := { hstate := .active, round := 640#32, roundRan := true }
  cfg := [(grW 1 + 0x008, packWord [(15, 15, 1), (14, 8, 2), (7, 0, 1)]), (grW 1 + 0x080, 1#32),
    (grW 2 + 0x008, 1#32), (grW 2 + 0x080, 129#32)]
  axes := [(1, { ctl := { st := .ready } })]
  groups := [(1, { running := true })] }

/-- Refutes O1: RUN of an axis below two groups ends the running mark of the lower one too, whose STATE becomes RUN by it
(R186), where the statement lets the group at the top of the tree alone change. -/
theorem not_enableRunUnpark : ¬ Obligations.EnableRunUnpark := by
  unfold Obligations.EnableRunUnpark
  rintro ⟨-, -, h⟩
  obtain ⟨t, ht, -, -, -, -, -, -, -, -, -, hgr⟩ := h nestedGroups 1 (.run 1) (by decide +kernel) (by decide +kernel)
    (.inl ⟨rfl, by decide +kernel⟩)
  obtain rfl : axisAct 2 1 nestedGroups = t := Host.Outcome.next.inj ht
  have hp : parentOf nestedGroups 1 = some 1 := by decide +kernel
  have htop : (1 : Nat) ≠ topGroup nestedGroups 8 1 := by decide +kernel
  have hkept := hgr 1 fun g hg => by rw [hp] at hg; cases hg; exact htop
  have hold : (getGr nestedGroups 1).running = true := by decide +kernel
  have hnew : (getGr (axisAct 2 1 nestedGroups) 1).running = false := by decide +kernel
  rw [hkept, hold] at hnew
  cases hnew

/-! ### O5: LOCGO (R65, R191) -/

/-- Group 0 is a mover without members; the only segment's axis, 0, has a saturated output of its PRED. -/
def parkedMover : State := { State.reset with
  sys := { hstate := .active, round := 640#32, roundRan := true }
  cfg := [(grW 0 + 0x00C, 3#32)]
  axes := [(0, { pred := { satA := true } })] }

/-- Refutes O5: a segment's axis that LOCGO makes a member starts its PRED from zero history (R65), so that LOCGO changes
an axis too, and not the group alone. -/
theorem not_groupCommands : ¬ Obligations.GroupCommands := by
  unfold Obligations.GroupCommands
  rintro ⟨-, -, h, -⟩
  obtain ⟨t, ht, -, ⟨hframe, -⟩, -⟩ := h parkedMover 0 0 (by decide +kernel) (.inl (by decide +kernel))
  obtain rfl : locGo 0 0 parkedMover = t := Host.Outcome.next.inj ht
  have hkept : getAx (locGo 0 0 parkedMover) 0 = getAx parkedMover 0 := by rw [getAx, getAx, hframe]
  have hold : (getAx parkedMover 0).pred.satA = true := by decide +kernel
  have hnew : (getAx (locGo 0 0 parkedMover) 0).pred.satA = false := by decide +kernel
  rw [hkept, hold] at hnew
  cases hnew

end Sys2Proof.Machine

namespace Sys2Proof.Machine

/-! ### O2: PARK, QSTOP and DISABLE (R108, R192) -/

/-- The control record of an axis after its brake is requested. -/
def brakeAsked (free : Bool) (c : AxCtl) : AxCtl := { c with brkWant := false, brkApp := free || (c.brkApp && !c.brkWant) }

/-- Axis a has no brake channel and no brake output. -/
def noBrake (s : State) (a : Nat) : Bool := (brakeOf s (.axis a)).isNone && (brakePair s (.axis a)).isNone

/-- A brake request, by what it changes: the axis's control record, and the release request of a mover above it. -/
theorem requestBrake_eq (a : Nat) (s : State) : requestBrake a s = { s with
    axes := (modCtl s a (brakeAsked (noBrake s a))).axes, groups := (requestBrake a s).groups } := by
  unfold requestBrake
  dsimp only
  split
  · split <;> rfl
  · rfl

/-- An axis after its brake is requested. -/
theorem getAx_requestBrake (a b : Nat) (s : State) :
    getAx (requestBrake a s) b = getAx (modCtl s a (brakeAsked (noBrake s a))) b := by
  rw [requestBrake_eq]; rfl

/-- A brake request changes no group but a mover that has the axis as a member. -/
theorem getGr_requestBrake (a h : Nat) (s : State) (hp : parentOf s a ≠ some h) :
    getGr (requestBrake a s) h = getGr s h := by
  unfold requestBrake
  dsimp only
  split
  case h_1 g hg =>
    split
    · exact modGr_getGr_ne _ _ _ _ fun e => hp (by rw [hg, e])
    · rfl
  · rfl

/-- The pre-start sequence of an axis ends; only its power stage changes, with the event. -/
theorem abortPrestart_onlyAxis (a : Nat) (s : State) : State.onlyAxis a s (abortPrestart a s) := by
  unfold abortPrestart
  split
  · exact onlyAxis_events (modAx_onlyAxis s a _) (raiseAx_onlyEvents _ _ _)
  · exact ⟨onlyEvents_refl s, fun _ _ => rfl⟩

/-- What the tree of an axis rests on: the configuration and the current members of movers. -/
theorem parentOf_congr {s t : State} (hc : t.cfg = s.cfg) (hg : t.groups = s.groups) (a : Nat) :
    parentOf t a = parentOf s a := by
  change parentOf { State.reset with cfg := t.cfg, groups := t.groups } a =
    parentOf { State.reset with cfg := s.cfg, groups := s.groups } a
  rw [hc, hg]

/-- The queue owner of an axis rests on the same. -/
theorem topOwner_congr {s t : State} (hc : t.cfg = s.cfg) (hg : t.groups = s.groups) (a : Nat) :
    topOwner t a = topOwner s a := by
  change topOwner { State.reset with cfg := t.cfg, groups := t.groups } a =
    topOwner { State.reset with cfg := s.cfg, groups := s.groups } a
  rw [hc, hg]

/-- So do the axes of an owner's tree. -/
theorem treeAxes_congr {s t : State} (hc : t.cfg = s.cfg) (hg : t.groups = s.groups) (o : Owner) :
    treeAxes t o = treeAxes s o := by
  change treeAxes { State.reset with cfg := t.cfg, groups := t.groups } o =
    treeAxes { State.reset with cfg := s.cfg, groups := s.groups } o
  rw [hc, hg]

/-- A change of a control record keeps the configuration. -/
theorem modCtl_cfg (s : State) (a : Nat) (f : AxCtl → AxCtl) : (modCtl s a f).cfg = s.cfg := rfl

/-- A change of a control record keeps the groups. -/
theorem modCtl_groups (s : State) (a : Nat) (f : AxCtl → AxCtl) : (modCtl s a f).groups = s.groups := rfl

/-- An axis that enters OFF keeps its profile, and its power stage but for an aborted pre-start sequence. -/
theorem enterOff_axis (st : AxState) (a : Nat) (s : State) :
    (getAx (enterOff st a s) a).ctl = { (getAx s a).ctl with st := st, qscmd := false, wait := .none } ∧
      (getAx (enterOff st a s) a).prof = (getAx s a).prof ∧
      ((getAx s a).stage.seq ≠ .prestart → (getAx (enterOff st a s) a).stage = (getAx s a).stage) := by
  rw [enterOff, modCtl_getAx_self, abortPrestart]
  split
  case isTrue h => simp [h]
  case isFalse => exact ⟨rfl, rfl, fun _ => rfl⟩

/-- An axis that enters OFF changes nothing else but its event. -/
theorem enterOff_onlyAxis (st : AxState) (a : Nat) (s : State) : State.onlyAxis a s (enterOff st a s) := by
  obtain ⟨⟨h1, h2⟩, h3⟩ := abortPrestart_onlyAxis a s
  refine ⟨⟨?_, h2⟩, fun b hb => by rw [enterOff, modCtl_getAx_ne _ _ _ _ hb, h3 b hb]⟩
  rw [enterOff, modCtl, modAx, setAx_eq, h1]

/-- PARK that the state allows (R108). -/
theorem exec_park (s : State) (a : Nat) (ht : headTakes s = true) (hst : axSt s a = .run)
    (hr : atRest s (topOwner s a) = true) (hq : (getProf s (topOwner s a)).queue = []) :
    exec (.park a) s = .next (modCtl (requestBrake a s) a (fun c => { c with
      st := .park, wait := if (getAx (requestBrake a s) a).ctl.brkApp then .none else .brakePark })) :=
  congrArg Host.Outcome.next (by simp [axisAct, axisCmd, cmdPark, ht, hst, hr, hq])

/-- DISABLE of an axis that does not move (R108). -/
theorem exec_disable_still (s : State) (a : Nat) (ht : headTakes s = true)
    (hst : axSt s a = .prestart ∨ axSt s a = .ready ∨ axSt s a = .park) :
    exec (.disable a) s = .next (requestBrake a (enterOff .off a s)) := by
  simp only [axSt] at hst
  refine congrArg Host.Outcome.next ?_
  rcases hst with h | h | h <;> simp [axisAct, axisCmd, cmdDisable, ht, h]

/-- A quick stop of an axis below a group, by what it leaves (R192). -/
theorem treeQuickStop_group (a g : Nat) (s : State) (ho : topOwner s a = .group g) :
    treeQuickStop a s = forAll (treeAxes s (.group g)) (fun b t => if b ≠ a ∧ (getAx t b).ctl.st = .run then
      modCtl t b (fun c => { c with st := .qstop, qscmd := true, wait := .none }) else t)
      (modGr s g (fun x => { x with prof := { x.prof with quick := true } })) := by
  rw [treeQuickStop, ho]; rfl

/-- An operation of an axis at a time that touches only the axes that `p` names. -/
theorem forAll_axes (l : List Nat) (p : Nat → Prop) (f : Nat → State → State) (s : State)
    (hf : ∀ b ∈ l, ∀ t, f b t = { t with axes := (f b t).axes } ∧ ∀ c, ¬ (p c ∧ c = b) → getAx (f b t) c = getAx t c) :
    forAll l f s = { s with axes := (forAll l f s).axes } ∧
      ∀ c, ¬ (p c ∧ c ∈ l) → getAx (forAll l f s) c = getAx s c := by
  induction l generalizing s with
  | nil => exact ⟨rfl, fun _ _ => rfl⟩
  | cons b l ih =>
    obtain ⟨h1, h2⟩ := hf b (List.mem_cons_self ..) s
    obtain ⟨h3, h4⟩ := ih (f b s) fun c hc t => hf c (List.mem_cons_of_mem _ hc) t
    rw [forAll, List.foldl_cons, ← forAll]
    refine ⟨by rw [h3, h1], fun c hc => ?_⟩
    rw [h4 c fun h => hc ⟨h.1, List.mem_cons_of_mem _ h.2⟩, h2 c fun h => hc ⟨h.1, h.2 ▸ List.mem_cons_self ..⟩]

/-- What a quick stop of axis a makes of another axis of the tree. -/
theorem quickStopOne (a b : Nat) (t : State) :
    let f := fun b t => if b ≠ a ∧ (getAx t b).ctl.st = .run then
      modCtl t b (fun c => { c with st := .qstop, qscmd := true, wait := .none }) else t
    f b t = { t with axes := (f b t).axes } ∧ ∀ c, ¬ (c ≠ a ∧ c = b) → getAx (f b t) c = getAx t c := by
  dsimp only
  split
  case isTrue h => exact ⟨rfl, fun c hc => modCtl_getAx_ne _ _ _ _ fun e => hc ⟨e ▸ h.1, e⟩⟩
  case isFalse => exact ⟨rfl, fun _ _ => rfl⟩

/-- A quick stop of an axis below a group: the queue owner stops, the axis stays as it is, and only axes of the tree
change. -/
theorem treeQuickStop_group_frame (a g : Nat) (s : State) (ho : topOwner s a = .group g) :
    treeQuickStop a s = { s with axes := (treeQuickStop a s).axes, groups := (treeQuickStop a s).groups } ∧
      (getProf (treeQuickStop a s) (.group g)).quick = true ∧ (∀ h, h ≠ g → getGr (treeQuickStop a s) h = getGr s h) ∧
      ∀ c, (c = a ∨ c ∉ treeAxes s (.group g)) → getAx (treeQuickStop a s) c = getAx s c := by
  rw [treeQuickStop_group a g s ho]
  obtain ⟨u, hu⟩ : ∃ u, u = modGr s g (fun x => { x with prof := { x.prof with quick := true } }) := ⟨_, rfl⟩
  obtain ⟨h1, h2⟩ := forAll_axes (treeAxes s (.group g)) (fun c => c ≠ a) _ u (fun b _ t => quickStopOne a b t)
  have hg := congrArg State.groups h1
  change _ = u.groups at hg
  rw [← hu]
  refine ⟨by rw [h1, hu]; rfl, ?_, fun h hh => ?_, fun c hc => ?_⟩
  · rw [getProf, getGr, hg, hu]; exact congrArg (fun r : Group => r.prof.quick) (modGr_getGr_self s g _)
  · rw [getGr, hg, hu]; exact modGr_getGr_ne s g _ h hh
  · rw [h2 c fun ⟨hne, hm⟩ => hc.elim hne fun h => h hm, hu]; rfl

/-- QSTOP that the state allows (R108). -/
theorem exec_qstop (s : State) (a : Nat) (ht : headTakes s = true) (hst : axSt s a = .run) :
    exec (.qstop a) s = .next (treeQuickStop a (modCtl s a (fun c => { c with st := .qstop, qscmd := true, wait := .none }))) :=
  congrArg Host.Outcome.next (by simp [axisAct, axisCmd, cmdQstop, ht, hst])

/-- DISABLE of an axis in RUN (R108). -/
theorem exec_disable_run (s : State) (a : Nat) (ht : headTakes s = true) (hst : axSt s a = .run) :
    exec (.disable a) s =
      .next (treeQuickStop a (modCtl s a (fun c => { c with st := .qstop, qscmd := true, wait := .restOff }))) := by
  rw [axSt] at hst
  exact congrArg Host.Outcome.next (by simp [axisAct, axisCmd, cmdDisable, ht, hst])

/-- The quick stop of an axis without a group stops its own queue (R192). -/
theorem treeQuickStop_alone_eq (a : Nat) (s : State) (f : AxCtl → AxCtl) (hp : parentOf s a = none) :
    treeQuickStop a (modCtl s a f) = modAx (modCtl s a f) a (fun x => { x with prof := { x.prof with quick := true } }) := by
  have ho : topOwner (modCtl s a f) a = .axis a := by
    rw [topOwner_congr (modCtl_cfg s a f) (modCtl_groups s a f) a, topOwner, hp]
  simp [treeQuickStop, ho, forAll, treeAxes, modProf]

/-- The axis after the quick stop of an axis without a group. -/
theorem treeQuickStop_alone (a : Nat) (s : State) (f : AxCtl → AxCtl) (hp : parentOf s a = none) :
    getAx (treeQuickStop a (modCtl s a f)) a = { getAx s a with
      ctl := f (getAx s a).ctl, prof := { (getAx s a).prof with quick := true } } := by
  rw [treeQuickStop_alone_eq a s f hp, getAx_modAx_self, modCtl_getAx_self]

/-- The quick stop of an axis without a group changes that axis alone. -/
theorem treeQuickStop_alone_onlyAxis (a : Nat) (s : State) (f : AxCtl → AxCtl) (hp : parentOf s a = none) :
    State.onlyAxis a s (treeQuickStop a (modCtl s a f)) := by
  rw [treeQuickStop_alone_eq a s f hp]
  refine ⟨onlyEvents_mk rfl rfl, fun b hb => ?_⟩
  rw [getAx_modAx_ne _ _ _ _ hb, modCtl_getAx_ne _ _ _ _ hb]

/-- Settles O2: PARK is a brake request and one change of the control record, QSTOP and DISABLE in RUN a quick stop of the
tree, and DISABLE elsewhere the entry to OFF with a brake request. -/
theorem parkQstopDisable : Obligations.ParkQstopDisable := by
  unfold Obligations.ParkQstopDisable
  refine ⟨fun s a ht hst hr hq => ?park, fun s a ht hst hp => ⟨?qstop, ?disableRun⟩, fun s a g ht hst hp => ?qstopTree,
    fun s a ht hst => ?disable⟩
  case park =>
    refine ⟨_, exec_park s a ht hst hr hq, ?_⟩
    have hax : getAx (requestBrake a s) a = { getAx s a with ctl := brakeAsked (noBrake s a) (getAx s a).ctl } := by
      rw [getAx_requestBrake, modCtl_getAx_self]
    obtain ⟨w, hw⟩ : ∃ w, w = (if (getAx (requestBrake a s) a).ctl.brkApp then AxWait.none else .brakePark) := ⟨_, rfl⟩
    have hw' : w = .none ∨ w = .brakePark := by rw [hw]; split <;> simp
    rw [← hw, axSt, modCtl_getAx_self, hax]
    refine ⟨rfl, rfl, hw', rfl, rfl, ?_, fun b hb => ?_, fun h hh => ?_⟩
    · rw [modCtl, modAx, setAx_eq, requestBrake_eq]
    · rw [modCtl_getAx_ne _ _ _ _ hb, getAx_requestBrake, modCtl_getAx_ne _ _ _ _ hb]
    · exact getGr_requestBrake a h s hh
  case qstop =>
    exact ⟨_, exec_qstop s a ht hst, treeQuickStop_alone a s _ hp, treeQuickStop_alone_onlyAxis a s _ hp⟩
  case disableRun =>
    exact ⟨_, exec_disable_run s a ht hst, treeQuickStop_alone a s _ hp, treeQuickStop_alone_onlyAxis a s _ hp⟩
  case qstopTree =>
    obtain ⟨u, hu⟩ : ∃ u, u = modCtl s a (fun c => { c with st := .qstop, qscmd := true, wait := .none }) := ⟨_, rfl⟩
    have ho : topOwner s a = .group (topGroup s 8 g) := by rw [topOwner, hp]
    have huc : u.cfg = s.cfg := by rw [hu, modCtl_cfg]
    have hug : u.groups = s.groups := by rw [hu, modCtl_groups]
    have hou := (topOwner_congr huc hug a).trans ho
    have htree := treeAxes_congr huc hug (.group (topGroup s 8 g))
    obtain ⟨h1, h2, h3, h4⟩ := treeQuickStop_group_frame a _ u hou
    have ha : getAx (treeQuickStop a u) a = { getAx s a with
        ctl := { (getAx s a).ctl with st := .qstop, qscmd := true, wait := .none } } := by
      rw [h4 a (.inl rfl), hu, modCtl_getAx_self]
    refine ⟨_, exec_qstop s a ht hst, ?_⟩
    rw [← hu, axSt, ha, ho]
    refine ⟨rfl, rfl, h2, by rw [h1, hu]; rfl, fun b hb hn => ?_, fun h hh => ?_⟩
    · rw [h4 b (.inr (by rwa [htree])), hu, modCtl_getAx_ne _ _ _ _ hb]
    · rw [h3 h fun e => hh (by rw [e]), getGr, getGr, hug]
  case disable =>
    obtain ⟨hctl, hprof, hstage⟩ := enterOff_axis .off a s
    obtain ⟨⟨h1, h2⟩, h3⟩ := enterOff_onlyAxis .off a s
    obtain ⟨u, hu⟩ : ∃ u, u = enterOff .off a s := ⟨_, rfl⟩
    rw [← hu] at hctl hprof hstage h1 h2 h3
    have hax : getAx (requestBrake a u) a = { getAx u a with ctl := brakeAsked (noBrake u a) (getAx u a).ctl } := by
      rw [getAx_requestBrake, modCtl_getAx_self]
    have hpar : parentOf u a = parentOf s a := parentOf_congr (by rw [h1]) (by rw [h1]) a
    refine ⟨_, exec_disable_still s a ht hst, ?_⟩
    rw [← hu, axSt, hax, hctl]
    refine ⟨rfl, rfl, rfl, rfl, hprof, hstage, ⟨?_, fun e he => ?_⟩, fun b hb => ?_, fun h hh => ?_⟩
    · rw [requestBrake_eq, h1]
    · rw [State.raised, requestBrake_eq]; exact h2 e he
    · rw [getAx_requestBrake, modCtl_getAx_ne _ _ _ _ hb, h3 b hb]
    · rw [getGr_requestBrake a h u (by rwa [hpar]), getGr, getGr, h1]

end Sys2Proof.Machine

namespace Sys2Proof.Machine

/-! ### Commands written to a register of an owner (R21, R168) -/

/-- A profile command whose write reaches its register. -/
theorem pfWrite_of_reaches (o : Owner) (op : Nat) (m : Master) (s : State) (h : State.reaches m (ownW o + 0x300) s) :
    pfWrite o op m s = pfCommand o op (stagedMove s m o) s := withRight_of_reaches m _ _ s h

/-- A profile command that passes its checks waits behind those accepted before (R168). -/
theorem pfCommand_of_ok (o : Owner) (op : Nat) (m : Move) (s : State) (ho : op ≠ 0) (h : pfCheck o op m s = 0) :
    pfCommand o op m s = modProf s o (fun p => { p with
      accepted := p.accepted ++ [(s.sys.round, pfCmdOf op m (lateMove s p))] }) := by
  simp [pfCommand, ho, h]

/-- A profile command that fails a check is refused with its code (R170). -/
theorem pfCommand_of_refused (o : Owner) (op code : Nat) (m : Move) (s : State) (ho : op ≠ 0) (h : pfCheck o op m s = code)
    (hc : code ≠ 0) : pfCommand o op m s = pfRefuse o code s := by
  simp [pfCommand, ho, h, hc]

/-- A refusal of an axis's profile command: its code, its count and its event, and nothing else (R170). -/
theorem pfRefuse_axis (a code : Nat) (s : State) (ha : a < 128) :
    State.raised (128 + a) (pfRefuse (.axis a) code s) ∧ State.onlyAxis a s (pfRefuse (.axis a) code s) ∧
      getAx (pfRefuse (.axis a) code s) a = { getAx s a with prof := { (getAx s a).prof with
        errCode := code, refused := inc16 (getAx s a).prof.refused } } := by
  refine ⟨raiseAx_raised a _ _ ha, onlyAxis_events (modAx_onlyAxis s a _) (raiseAx_onlyEvents a _ _), ?_⟩
  rw [pfRefuse, raiseOw, getAx_raiseAx]
  exact getAx_modAx_self s a _

/-- APPEND with 32 moves queued has code 1 (R170). -/
theorem pfCheck_append_full (o : Owner) (m : Move) (s : State) (h : 32 ≤ queueLen (getProf s o)) : pfCheck o 1 m s = 1 := by
  simp [pfCheck, h]

/-- Another command of an axis outside RUN has code 2 (R170). -/
theorem pfCheck_outside_run (a op : Nat) (m : Move) (s : State) (ho : op ≠ 1) (h : axSt s a ≠ .run) :
    pfCheck (.axis a) op m s = 2 := by
  simp [pfCheck, ho, ownerInRun, h]

/-- Settles O6: a write that reaches its register is accepted or refused by its check. -/
theorem profileCommands : Obligations.ProfileCommands := by
  unfold Obligations.ProfileCommands
  refine ⟨fun s o m hr => ?accepted, fun s a m ha hr hq => ?full, fun s a m c ha hr hst hc => ?outside⟩
  case accepted =>
    have he (op : Nat) (ho : op ≠ 0) (h : pfCheck o op (stagedMove s m o) s = 0) :
        Host.Outcome.next (φ := Fault) (ρ := Refusal) (pfWrite o op m s) = .next (modProf s o (fun p => { p with
          accepted := p.accepted ++ [(s.sys.round, pfCmdOf op (stagedMove s m o) (lateMove s p))] })) := by
      rw [pfWrite_of_reaches o op m s hr, pfCommand_of_ok o op _ s ho h]
    exact ⟨he 1 (by decide), he 2 (by decide), he 3 (by decide), he 4 (by decide), he 5 (by decide)⟩
  case full =>
    have he : pfWrite (.axis a) 1 m s = pfRefuse (.axis a) 1 s := by
      rw [pfWrite_of_reaches _ 1 m s hr]
      exact pfCommand_of_refused _ 1 1 _ s (by decide) (pfCheck_append_full _ _ s hq) (by decide)
    exact ⟨_, congrArg Host.Outcome.next he, pfRefuse_axis a 1 s ha⟩
  case outside =>
    have he (op : Nat) (h0 : op ≠ 0) (h1 : op ≠ 1) :
        Host.Outcome.next (φ := Fault) (ρ := Refusal) (pfWrite (.axis a) op m s) = .next (pfRefuse (.axis a) 2 s) := by
      rw [pfWrite_of_reaches _ op m s hr, pfCommand_of_refused _ op 2 _ s h0 (pfCheck_outside_run a op _ s h1 hst) (by decide)]
    have hx : exec c s = .next (pfRefuse (.axis a) 2 s) := by
      simp only [List.mem_cons, List.not_mem_nil, or_false] at hc
      rcases hc with rfl | rfl | rfl | rfl
      · exact he 2 (by decide) (by decide)
      · exact he 3 (by decide) (by decide)
      · exact he 4 (by decide) (by decide)
      · exact he 5 (by decide) (by decide)
    exact ⟨_, hx, pfRefuse_axis a 2 s ha⟩

/-! ### Arming words and local ports (R136, R137, R151, R153, R154, R176) -/

/-- A port that was changed reads back. -/
@[simp] theorem getPort_modPort_self (k : Nat) (f : Port → Port) (s : State) : getPort (modPort k f s) k = f (getPort s k) :=
  tget_tset_self ..

/-- Every other port is as it was. -/
theorem getPort_modPort_ne (k : Nat) (f : Port → Port) (s : State) (j : Nat) (h : j ≠ k) :
    getPort (modPort k f s) j = getPort s j := tget_tset_ne _ _ _ _ _ h

/-- A level bit after one of them is written (R151). -/
theorem level_bit (l : BitVec 8) (pin i : Nat) (v : Bool) (hp : pin < 8) :
    (if v then l ||| BitVec.ofNat 8 (2 ^ pin) else l &&& ~~~ BitVec.ofNat 8 (2 ^ pin)).getLsbD i =
      if i = pin then v else l.getLsbD i := by
  have hb : (BitVec.ofNat 8 (2 ^ pin)).getLsbD i = decide (i = pin) := by
    rw [BitVec.getLsbD_ofNat, Nat.testBit_two_pow]
    grind
  by_cases hi : i < 8
  · cases v
    · rw [if_neg Bool.false_ne_true, BitVec.getLsbD_and, BitVec.getLsbD_not, hb]; grind
    · rw [if_pos rfl, BitVec.getLsbD_or, hb]; grind
  · have hn : i ≠ pin := by omega
    simp [BitVec.getLsbD_of_ge _ _ (Nat.le_of_not_lt hi), hn]

/-- What an edge on the pins of an ABZ port does to its counter, its quadrature error and its Z latch (R136). -/
theorem abzStep_count (a b z : Bool) (p : Port) :
    (a = p.pinA → b = p.pinB → (abzStep a b z p).cnt = p.cnt) ∧
      (a ≠ p.pinA → b ≠ p.pinB → (abzStep a b z p).cnt = p.cnt ∧ (abzStep a b z p).quadErr = true) ∧
      ((a ≠ p.pinA ↔ b = p.pinB) →
        ((abzStep a b z p).cnt = intMod 32 (p.cnt + 1) ∨ (abzStep a b z p).cnt = intMod 32 (p.cnt - 1)) ∧
          (abzStep a b z p).quadErr = p.quadErr) ∧
      (z = true → p.pinZ = false → p.z = none → (abzStep a b z p).z = some (abzStep a b z p).cnt) := by
  refine ⟨?_, ?_, ?_, fun hz hp hn => by simp [abzStep, hz, hp, hn]⟩ <;>
    cases a <;> cases b <;> cases hA : p.pinA <;> cases hB : p.pinB <;> simp [abzStep, quadPlace, hA, hB]

/-- An SSI port whose frame has started in round m (R137). -/
def frameStarted (m : Word) (p : Port) : Port := { p with frame := true, frameAt := m }

/-- Settles O7: an arming word is one change of the axis's feedback record; a level taken is one of the eight bits; what an
ABZ port counts follows from the places of the old and the new levels in the cycle of four. -/
theorem armingAndLocalPorts : Obligations.ArmingAndLocalPorts := by
  unfold Obligations.ArmingAndLocalPorts
  refine ⟨fun s a w h => ?probe, fun s a w hw hr => ?probeRefused, fun s a w0 w1 w2 w3 => rfl,
    fun s pin level clk len hp hl hlen hs => ?edge, fun s pin level clk len hlen => ?short,
    fun s k a b z he ht hs => ?abz, fun s k hp hr => ?ssiStart, fun s k ok l hp hf => ?ssiEnd⟩
  case probe =>
    have hr : probeRefused s a w = false := by rcases h with h | h <;> simp [probeRefused, h]
    exact congrArg Host.Outcome.next (by rw [armProbe, if_neg (by simp [hr])]; rfl)
  case probeRefused =>
    have hr : probeRefused s a w = true := by simp [probeRefused, hw, hr]
    refine ⟨_, congrArg Host.Outcome.next (if_pos hr), onlyAxis_events (modAx_onlyAxis s a _) (raiseAx_onlyEvents a _ _), ?_⟩
    rw [pfRefuse, raiseOw, getAx_raiseAx, modProf, getAx_modAx_self]
    exact ⟨rfl, rfl⟩
  case edge =>
    refine ⟨_, congrArg Host.Outcome.next (if_neg (by simpa using ⟨hl, hlen⟩)), ?_⟩
    refine ⟨(level_bit _ pin pin level hp).trans (if_pos rfl), fun i hi => (level_bit _ pin i level hp).trans (if_neg hi), ?_, rfl⟩
    dsimp only
    rw [hs, if_neg Bool.false_ne_true]
    exact ⟨_, List.mem_append_right _ (List.mem_singleton_self _), rfl, rfl, rfl, rfl, rfl⟩
  case short => exact congrArg Host.Outcome.next (if_pos (by simp [hlen]))
  case abz =>
    have he' : localEncoder k a b z s = modPort k (fun p => { abzStep a b z p with pinA := a, pinB := b, pinZ := z }) s := by
      simp [localEncoder, he, ht, hs]
    obtain ⟨h1, h2, h3, h4⟩ := abzStep_count a b z (getPort s k)
    refine ⟨_, congrArg Host.Outcome.next he', ?_, ?_, ?_, ?_, ?_, ?_, ?_, rfl, fun j hj => getPort_modPort_ne _ _ _ _ hj⟩ <;>
      rw [getPort_modPort_self]
    · exact h1
    · exact h2
    · exact h3
    · exact h4
  case ssiStart =>
    have he : ssiStart k s = onlyIf (drivesClock s) (send (.ssiClock k)) (modPort k (frameStarted s.sys.round) s) :=
      if_pos (by simp [hp, hr])
    have hd : (Cfg.TWCFG_EN s = false ∨ driving s = true) ↔ drivesClock s = true := by simp [drivesClock]
    have hg := getPort_modPort_self k (frameStarted s.sys.round) s
    have hn := getPort_modPort_ne k (frameStarted s.sys.round) s
    cases hx : drivesClock s <;> rw [hx] at he
    · refine ⟨_, congrArg Host.Outcome.next he, hg, ?_, rfl, hn⟩
      rw [if_neg (by simp [hd, hx])]; exact (List.append_nil _).symm
    · refine ⟨_, congrArg Host.Outcome.next he, hg, ?_, rfl, hn⟩
      rw [if_pos (hd.2 hx)]; rfl
  case ssiEnd =>
    exact ⟨_, congrArg Host.Outcome.next (if_pos (by simp [hp, hf])), getPort_modPort_self .., rfl,
      fun j hj => getPort_modPort_ne _ _ _ _ hj⟩

end Sys2Proof.Machine

namespace Sys2Proof.Machine

/-! ### The profile of one axis (R160 to R165) -/

/-- t is s but for the profile of axis a. -/
structure OnlyProf (a : Nat) (s t : State) : Prop where
  state : t = { s with axes := t.axes }
  axis : getAx t a = { getAx s a with prof := (getAx t a).prof }
  others : ∀ b, b ≠ a → getAx t b = getAx s b

theorem OnlyProf.refl (a : Nat) (s : State) : OnlyProf a s s := ⟨rfl, rfl, fun _ _ => rfl⟩

theorem OnlyProf.trans {a : Nat} {s t u : State} (h : OnlyProf a s t) (k : OnlyProf a t u) : OnlyProf a s u :=
  ⟨by rw [k.state, h.state], by rw [k.axis, h.axis], fun b hb => (k.others b hb).trans (h.others b hb)⟩

/-- A change of the profile of axis a. -/
theorem modProf_onlyProf (a : Nat) (s : State) (f : Prof → Prof) : OnlyProf a s (modProf s (.axis a) f) :=
  ⟨rfl, by rw [modProf, getAx_modAx_self], fun b hb => getAx_modAx_ne s a _ b hb⟩

/-- The profile after it was changed. -/
theorem getProf_modProf_axis (a : Nat) (s : State) (f : Prof → Prof) :
    getProf (modProf s (.axis a) f) (.axis a) = f (getProf s (.axis a)) := by
  rw [getProf, modProf, getAx_modAx_self]; rfl

/-- A profile at rest at set-point k: no move, none queued, no referencing, no velocity and no acceleration. -/
structure Still (k : Kin) (p : Prof) : Prop where
  kin : p.kin = k
  v : k.v = 0
  a : k.a = 0
  cur : p.cur = none
  overlaid : p.overlaid = none
  queue : p.queue = []
  ref : p.refPhase = .idle

/-- What a change of other fields leaves at rest. -/
theorem Still.of_fields {k : Kin} {p q : Prof} (h : Still k p) (hk : q.kin = p.kin) (hc : q.cur = p.cur)
    (ho : q.overlaid = p.overlaid) (hq : q.queue = p.queue) (hr : q.refPhase = p.refPhase) : Still k q :=
  ⟨hk.trans h.kin, h.v, h.a, hc.trans h.cur, ho.trans h.overlaid, hq.trans h.queue, hr.trans h.ref⟩

/-- At rest nothing is due before the next entry (R162). -/
theorem advance_of_still {k : Kin} (o : Owner) (i f : Nat) (s : State) (h : Still k (getProf s o)) : advance o i f s = s := by
  cases f with
  | zero => rfl
  | succ f => simp only [advance, h.cur, h.queue]

/-- The place of a set-point at rest after its reduction on a modulo axis (R161). -/
def wrapKin (m : Int) (k : Kin) : Kin :=
  if 0 < m then { k with p := k.p + -floorDiv k.p (m * 2 ^ 32) * m * 2 ^ 32 } else k

/-- The reduction on a modulo axis leaves a profile at rest. -/
theorem Still.wrapPlans {k : Kin} {p : Prof} (m : Int) (h : Still k p) : Still (wrapKin m k) (wrapPlans m p) := by
  obtain ⟨hk, hv, ha, hc, ho, hq, hr⟩ := h
  have ht : kinTotal p = k := by rw [kinTotal, ho, hk]
  rw [Machine.wrapPlans, wrapKin, ht]
  split
  case isFalse => exact ⟨hk, hv, ha, hc, ho, hq, hr⟩
  case isTrue =>
    dsimp only
    split
    case isTrue hz => rw [hz]; exact ⟨by simp [hk], hv, ha, hc, ho, hq, hr⟩
    case isFalse => exact ⟨by simp [shiftPlans, hk], hv, ha, by simp [shiftPlans, hc], ho, hq, hr⟩

/-- The entry of a set-point at rest (R161). -/
def restEntry (k : Kin) : Entry := { p := sat64 (floorDiv k.p (2 ^ 32)) }

/-- One entry of a profile at rest: its set-point, and the profile is at rest again. -/
theorem entryStep_of_still {k : Kin} {p : Prof} (m : Int) (h : Still k p) :
    (entryStep m p).1 = restEntry k ∧ Still (wrapKin m (kinStep k 0)) (entryStep m p).2 := by
  obtain ⟨hk, hv, ha, hc, ho, hq, hr⟩ := h
  have ht : kinTotal p = k := by rw [kinTotal, ho, hk]
  have hsat : sat32 (floorDiv 0 (2 ^ 32)) = 0 ∧ sat32 (floorDiv 0 (2 ^ 16)) = 0 ∧ sat32 (0 + 0) = 0 := by decide
  refine ⟨?_, ?_⟩
  · simp only [entryStep, hc, ho, ht, Option.map_none, Option.bind_none, Option.getD_none, kinOut, hv, ha, hsat, remNow, restEntry]
    simp
  · refine Still.wrapPlans m ?_
    refine ⟨?_, ?_, ?_, ?_, ?_, hq, hr⟩ <;> simp [hc, ho, hk, kinStep, hv, ha, floorDiv]

/-- The entries of n rounds of a set-point at rest, and where it then stands. -/
def restRun (m : Int) : Nat → Kin → List Entry × Kin
  | 0, k => ([], k)
  | n + 1, k =>
    let k1 := wrapKin m k
    let r := restRun m n (wrapKin m (kinStep k1 0))
    (restEntry k1 :: r.1, r.2)

/-- The modulus of an axis rests on the configuration. -/
theorem ownerMod_axis_congr {s t : State} (h : t.cfg = s.cfg) (a : Nat) : ownerMod t (.axis a) = ownerMod s (.axis a) := by
  change ownerMod { State.reset with cfg := t.cfg } (.axis a) = ownerMod { State.reset with cfg := s.cfg } (.axis a)
  rw [h]

/-- The entries of an axis at rest hold its set-point, and it is at rest after them (R162). -/
theorem tickEntries_of_still (a n : Nat) (m : Int) (k : Kin) (es : List Entry) (s : State) (hm : ownerMod s (.axis a) = m)
    (h : Still k (getProf s (.axis a))) :
    (tickEntries (.axis a) n es s).1 = es ++ (restRun m n k).1 ∧ OnlyProf a s (tickEntries (.axis a) n es s).2 ∧
      Still (restRun m n k).2 (getProf (tickEntries (.axis a) n es s).2 (.axis a)) := by
  induction n generalizing k es s with
  | zero => exact ⟨(List.append_nil es).symm, .refl a s, h⟩
  | succ n ih =>
    obtain ⟨s1, hs1⟩ : ∃ s1, s1 = modProf (advance (.axis a) (3 - n) 200 s) (.axis a) (wrapPlans m) := ⟨_, rfl⟩
    rw [advance_of_still _ _ _ s h] at hs1
    have h1 : Still (wrapKin m k) (getProf s1 (.axis a)) := by
      rw [hs1, getProf_modProf_axis]; exact h.wrapPlans m
    obtain ⟨he, hp⟩ := entryStep_of_still m h1
    obtain ⟨s2, hs2⟩ : ∃ s2, s2 = modProf s1 (.axis a) (fun _ => (entryStep m (getProf s1 (.axis a))).2) := ⟨_, rfl⟩
    have h2 : Still (wrapKin m (kinStep (wrapKin m k) 0)) (getProf s2 (.axis a)) := by
      rw [hs2, getProf_modProf_axis]; exact hp
    have o2 : OnlyProf a s s2 := by
      rw [hs2, hs1]; exact (modProf_onlyProf a s _).trans (modProf_onlyProf a _ _)
    have hm2 : ownerMod s2 (.axis a) = m := by
      rw [← hm]; exact ownerMod_axis_congr (by rw [o2.state]) a
    have ht : tickEntries (.axis a) (n + 1) es s = tickEntries (.axis a) n (es ++ [restEntry (wrapKin m k)]) s2 := by
      rw [tickEntries, advance_of_still _ _ _ s h, hm, ← hs1, he, ← hs2]
    obtain ⟨r1, r2, r3⟩ := ih _ (es ++ [restEntry (wrapKin m k)]) s2 hm2 h2
    rw [ht]
    exact ⟨by rw [r1, List.append_assoc]; rfl, o2.trans r2, r3⟩

/-- A plan of nothing: without commands an axis at rest stays so (R162). -/
theorem planOwner_of_still (a : Nat) (k : Kin) (s : State) (h : Still k (getProf s (.axis a)))
    (ha : (getProf s (.axis a)).accepted = []) (hq : (getProf s (.axis a)).quick = false)
    (hl : (getProf s (.axis a)).limStop = false) :
    OnlyProf a s (planOwner (.axis a) s) ∧ Still k (getProf (planOwner (.axis a) s) (.axis a)) := by
  obtain ⟨s0, hs0⟩ : ∃ s0, s0 = modProf s (.axis a) (fun p => { p with
    accepted := [], quick := p.quick && s.sys.wheelQuick.contains (.axis a),
    limStop := p.limStop && s.sys.wheelQuick.contains (.axis a) }) := ⟨_, rfl⟩
  have hp := getProf_modProf_axis a s (fun p => { p with
    accepted := [], quick := p.quick && s.sys.wheelQuick.contains (.axis a),
    limStop := p.limStop && s.sys.wheelQuick.contains (.axis a) })
  rw [← hs0] at hp
  have h0 : Still k (getProf s0 (.axis a)) := by rw [hp]; exact h.of_fields rfl rfl rfl rfl rfl
  have hr : refStep a s0 = s0 := by simp only [refStep, h0.ref]
  have ht : takeQuick (.axis a) s0 = s0 := by simp [takeQuick, hp, hq, hl]
  have hj : rejoin (.axis a) s0 = s0 := by simp only [rejoin, h0.cur]
  have hn : jointStep (.axis a) 4 s0 = s0 := by simp only [jointStep, h0.cur]
  have hv : velSoftStop (.axis a) s0 = s0 := by simp only [velSoftStop, h0.cur]
  have he : planOwner (.axis a) s = modProf s0 (.axis a) (fun q => { q with
      quick := q.quick || ((getProf s (.axis a)).quick && !s.sys.wheelQuick.contains (.axis a))
      limStop := q.limStop || ((getProf s (.axis a)).limStop && !s.sys.wheelQuick.contains (.axis a)) }) := by
    simp only [planOwner, dueCmds, ha, List.filter_nil, List.map_nil, forAll, List.foldl_nil, Bool.not_not, ← hs0, hr, ht,
      hj, hn, hv]
  rw [he, getProf_modProf_axis]
  refine ⟨?_, h0.of_fields rfl rfl rfl rfl rfl⟩
  rw [hs0]; exact (modProf_onlyProf a s _).trans (modProf_onlyProf a _ _)

/-- The queue of an owner that holds no move any more is not stored: no byte of SRAM changes. -/
theorem storeQueue_of_empty (o : Owner) (old : List Move) (s : State) (h : (getProf s o).queue = []) :
    storeQueue o old s = s := by
  have hkeep : ∀ (b : Nat) (l : List Nat), l.filter (fun w => decide (w < b) || decide (b + 0 ≤ w)) = l := fun b l =>
    List.filter_eq_self.2 fun w _ => by
      rw [Bool.or_eq_true, decide_eq_true_eq, decide_eq_true_eq]
      omega
  unfold storeQueue
  rw [h]
  dsimp only
  split
  · rfl
  · rw [List.flatMap_nil, List.length_nil, hkeep, hkeep]
    rfl

/-- The entries of the tick of round n go into the second buffer (R46), and the owner is at rest where it has no move and
its last entry stands still (R172). -/
def fillTick (n : Word) (es : List Entry) (p : Prof) : Prof :=
  let e := es.getLastD {}
  refSettle { p with nextEntries := some (n, es), rest := p.cur.isNone && e.v = 0 && e.a = 0 }

/-- The tick of an owner: its plan, four entries, the buffer, and its queue. -/
theorem tickOwner_eq (o : Owner) (s : State) : tickOwner o s =
    let u := if s.sys.wheelLive.contains o then planOwner o (readQueue o s) else discardOwner o s
    storeQueue o (getProf s o).queue (modProf (tickEntries o 4 [] u).2 o (fillTick s.sys.round (tickEntries o 4 [] u).1)) := rfl

/-- A profile at rest has the entries of the tick and stays at rest. -/
theorem fillTick_of_still {k : Kin} {p : Prof} (n : Word) (es : List Entry) (h : Still k p)
    (hv : (es.getLastD {}).v = 0) (ha : (es.getLastD {}).a = 0) :
    fillTick n es p = { p with nextEntries := some (n, es), rest := true } := by
  have hr : (p.cur.isNone && decide ((es.getLastD {}).v = 0) && decide ((es.getLastD {}).a = 0)) = true := by
    rw [h.cur, hv, ha]; rfl
  rw [fillTick, hr]
  refine if_neg ?_
  rintro ⟨-, -, hc | hc⟩ <;> exact absurd (h.ref.symm.trans hc) (by decide)

/-- A profile at rest with the entries of a tick is at rest. -/
theorem Still.filled {k : Kin} {p : Prof} (n : Word) (es : List Entry) (h : Still k p) :
    Still k { p with nextEntries := some (n, es), rest := true } := h.of_fields rfl rfl rfl rfl rfl

/-- An axis at rest when its entries are made has its set-point in all of them, and is at rest after the tick. -/
theorem tick_of_still (a : Nat) (m : Int) (k : Kin) (n : Word) (old : List Move) (u t : State) (hm : ownerMod u (.axis a) = m)
    (h : Still k (getProf u (.axis a)))
    (ht : t = storeQueue (.axis a) old (modProf (tickEntries (.axis a) 4 [] u).2 (.axis a)
      (fillTick n (tickEntries (.axis a) 4 [] u).1))) :
    OnlyProf a u t ∧ Still (restRun m 4 k).2 (getProf t (.axis a)) ∧ (getProf t (.axis a)).rest = true ∧
      (getProf t (.axis a)).nextEntries = some (n, (restRun m 4 k).1) := by
  obtain ⟨he, ho, hs⟩ := tickEntries_of_still a 4 m k [] u hm h
  rw [List.nil_append] at he
  have hp := getProf_modProf_axis a (tickEntries (.axis a) 4 [] u).2 (fillTick n (tickEntries (.axis a) 4 [] u).1)
  have hf := modProf_onlyProf a (tickEntries (.axis a) 4 [] u).2 (fillTick n (tickEntries (.axis a) 4 [] u).1)
  rw [he, fillTick_of_still n _ hs rfl rfl] at hp
  rw [storeQueue_of_empty _ _ _ (by rw [he, hp]; exact (hs.filled _ _).queue), he] at ht
  rw [he, ← ht] at hf
  rw [← ht] at hp
  exact ⟨ho.trans hf, by rw [hp]; exact hs.filled _ _, by rw [hp], by rw [hp]⟩

/-! ### O8: the tick of an owner at rest (R46, R162, R436) -/

/-- An operation that changes nothing for any element changes nothing. -/
theorem forAll_id {α : Type} (l : List α) (f : α → State → State) (s : State) (h : ∀ x ∈ l, f x s = s) : forAll l f s = s := by
  unfold forAll
  induction l with
  | nil => rfl
  | cons x l ih =>
    rw [List.foldl_cons, h x (List.mem_cons_self ..)]
    exact ih fun y hy => h y (List.mem_cons_of_mem _ hy)

/-- An operation for one element. -/
theorem forAll_singleton {α : Type} (x : α) (f : α → State → State) (s : State) : forAll [x] f s = f x s := rfl

/-- No claims are settled as none. -/
theorem settleClaims_nil (s : State) (n : Nat) : settleClaims s n [] = [] := by
  induction n with
  | zero => rfl
  | succ n ih => exact ih

/-- The count of a group's members rests on the configuration. -/
theorem grCount_congr {s t : State} (h : t.cfg = s.cfg) (g : Nat) :
    Cfg.GRMCNT_COUNT t (grW g) = Cfg.GRMCNT_COUNT s (grW g) := by
  simp only [Cfg.GRMCNT_COUNT, cfgReg, h]

/-- t is s but for axes, whose control records are as they were. -/
def OnlyCtlKept (s t : State) : Prop := t = { s with axes := t.axes } ∧ ∀ b, (getAx t b).ctl = (getAx s b).ctl

/-- A tick of a head without groups that does not drive and has no axis in QSTOP is its owners' (R46). -/
theorem wheelTick_of_owner (s : State) (a : Nat) (hr : s.sys.round.toNat % 4 = 3) (hp : s.sys.pwr = .run)
    (ho : queueOwners s = [.axis a]) (hg : ∀ g, Cfg.GRMCNT_COUNT s (grW g) = 0) (hd : driving s = false)
    (hq : ∀ b, axSt s b ≠ .qstop) (hk : OnlyCtlKept s (tickOwner (.axis a) s)) :
    wheelTick s = tickOwner (.axis a) s := by
  obtain ⟨t, ht⟩ : ∃ t, t = tickOwner (.axis a) s := ⟨_, rfl⟩
  rw [← ht] at hk ⊢
  obtain ⟨hs, hc⟩ := hk
  have hcfg : t.cfg = s.cfg := by rw [hs]
  have hcount (g : Nat) : Cfg.GRMCNT_COUNT t (grW g) = 0 := (grCount_congr hcfg g).trans (hg g)
  have hgs : groupsOf s = [] := by simp [groupsOf, hg]
  have hgt : groupsOf t = [] := by simp [groupsOf, hcount]
  have hmv : moverMembership t = t := by
    have hm : movers t = [] := by simp [movers, hcount]
    rw [moverMembership, hm, List.map_nil, settleClaims_nil]; rfl
  have hmg : mergeAll t = t := forAll_id _ _ _ fun lv _ => by rw [hgt]; rfl
  have hcx : cxpSend s t = t := by
    have : driving t = false := by rw [hs]; exact hd
    rw [cxpSend, this, if_neg Bool.false_ne_true]
  have hrest : forAll (List.range 128) restDone t = t := forAll_id _ _ _ fun b _ => by
    have : (getAx t b).ctl.st ≠ .qstop := by rw [hc b]; exact hq b
    exact if_neg fun h => this h.1
  have h2 : deriveGroups (fun _ => []) [] t = t := rfl
  have h3 : wheelTick s = forAll (groupsOf s) snapGroup (forAll (List.range 128) restDone (cxpSend s (mergeAll
      (deriveGroups (fun _ => []) ((groupsOf (moverMembership t)).filter (fun g => !groupOnRemote (moverMembership t) g))
        (moverMembership t))))) := by
    rw [wheelTick, if_pos ⟨hr, hp⟩, ho, forAll_singleton, ← ht]
  rw [h3, hmv, hgt, List.filter_nil, h2, hmg, hcx, hrest, hgs, forAll, List.foldl_nil]

/-- A change of one profile keeps every control record. -/
theorem OnlyProf.ctlKept {a : Nat} {s t : State} (h : OnlyProf a s t) : OnlyCtlKept s t := by
  refine ⟨h.state, fun b => ?_⟩
  by_cases hb : b = a
  · rw [hb, h.axis]
  · rw [h.others b hb]

/-- A set-point has 96 bits (R161). -/
theorem wrapInt_bounds (i : Int) : -(2 ^ 95) ≤ wrapInt 96 i ∧ wrapInt 96 i < 2 ^ 95 := by
  unfold wrapInt signedN
  dsimp only
  generalize intMod 96 i = y
  by_cases h : y % 2 ^ 96 < 2 ^ (96 - 1)
  · rw [if_pos h]; omega
  · rw [if_neg h]; omega

/-- A set-point inside its 96 bits stands where it is, and its entries show it (R161). -/
theorem restRun_of_wrapped (k : Kin) (hv : k.v = 0) (ha : k.a = 0) (hw : wrapInt 96 k.p = k.p) :
    restRun 0 4 k = (List.replicate 4 { p := floorDiv k.p (2 ^ 32) }, k) := by
  have hk : kinStep k 0 = k := by
    obtain ⟨p, v, a⟩ := k
    obtain rfl : v = 0 := hv
    obtain rfl : a = 0 := ha
    simpa [kinStep, floorDiv] using hw
  have hwk : wrapKin 0 k = k := rfl
  have hb := wrapInt_bounds k.p
  rw [hw] at hb
  have he : restEntry k = { p := floorDiv k.p (2 ^ 32) } := by
    have : -(2 ^ 63) ≤ floorDiv k.p (2 ^ 32) ∧ floorDiv k.p (2 ^ 32) ≤ 2 ^ 63 - 1 := by
      rw [floorDiv, Int.fdiv_eq_ediv_of_nonneg _ (by decide)]; omega
    rw [restEntry, sat64, clampInt, if_neg (by omega), if_neg (by omega)]
  simp only [restRun, hwk, hk, he]
  rfl

/-- What an owner that was outside RUN and QSTOP keeps of its profile: its set-point in the tick round (R162). -/
def discardProf (n : Word) (p : Prof) : Prof := { p with
  kin := { p := (spEntry p n).p * 2 ^ 32 }, cur := none, queue := [], accepted := [], overlaid := none
  quick := false, limStop := false, prevTarget := none, refPhase := .idle, refPoint := none
  rev := false, slStop := false, decDef := false, tag := 0 }

/-- Such a profile is at rest. -/
theorem discardProf_still (n : Word) (p : Prof) : Still { p := (spEntry p n).p * 2 ^ 32 } (discardProf n p) :=
  ⟨rfl, rfl, rfl, rfl, rfl, rfl, rfl⟩

/-- An axis that leaves its queue behind, whose probe is disarmed when it was referencing. -/
theorem discardOwner_axis (a : Nat) (s : State) : ∃ s1, (s1 = s ∨ ∃ f, s1 = modFb s a f) ∧
    discardOwner (.axis a) s = modProf s1 (.axis a) (discardProf (s.sys.round - 1)) := by
  refine ⟨if (getProf s (.axis a)).refPhase = .idle then s else refDisarm a s, ?_, ?_⟩
  · split
    · exact .inl rfl
    · exact .inr ⟨_, rfl⟩
  · rw [discardOwner]; rfl

/-- Settles O8: an owner at rest is still at rest after its plan, as is one that leaves its queue; its four entries follow,
and without groups the rest of the tick changes nothing. -/
theorem wheelTickHolds : Obligations.WheelTickHolds := by
  unfold Obligations.WheelTickHolds
  refine ⟨fun s a hr hp ho hg hd hq hl hw hm hcur hov hqu hac href hqk hls hv ha => ?holds,
    fun s a hr hp ho hg hd hq hl => ?discarded⟩
  case holds =>
    have hs : Still (getProf s (.axis a)).kin (getProf s (.axis a)) := ⟨rfl, hv, ha, hcur, hov, hqu, href⟩
    have hread : readQueue (.axis a) s = s := by rw [readQueue]; simp only [getProf, hqu]
    obtain ⟨ho1, hs1⟩ := planOwner_of_still a _ s hs hac hqk hls
    have hm1 : ownerMod (planOwner (.axis a) s) (.axis a) = 0 :=
      (ownerMod_axis_congr (by rw [ho1.state]) a).trans hm
    obtain ⟨t, ht⟩ : ∃ t, t = tickOwner (.axis a) s := ⟨_, rfl⟩
    have ht' := ht.trans (tickOwner_eq (.axis a) s)
    simp only [hl, if_true, hread] at ht'
    obtain ⟨ho2, hs2, hrest, hnext⟩ := tick_of_still a 0 _ _ _ _ t hm1 hs1 ht'
    have hot := ho1.trans ho2
    rw [restRun_of_wrapped (getProf s (.axis a)).kin hv ha hw] at hnext hs2
    have he := wheelTick_of_owner s a hr hp ho hg hd hq (ht ▸ hot.ctlKept)
    rw [← ht] at he
    exact ⟨t, congrArg Host.Outcome.next he, hnext, hrest, hs2.kin, hot.ctlKept.2 a, hot.state, hot.others⟩
  case discarded =>
    obtain ⟨s1, hs1, hd1⟩ := discardOwner_axis a s
    have ho1 := modProf_onlyProf a s1 (discardProf (s.sys.round - 1))
    have hk := discardProf_still (s.sys.round - 1) (getProf s1 (.axis a))
    rw [← getProf_modProf_axis a s1 (discardProf (s.sys.round - 1))] at hk
    obtain ⟨t, ht⟩ : ∃ t, t = tickOwner (.axis a) s := ⟨_, rfl⟩
    have ht' := ht.trans (tickOwner_eq (.axis a) s)
    simp only [hl, Bool.false_eq_true, if_false, hd1] at ht'
    obtain ⟨ho2, hs2, hrest, -⟩ := tick_of_still a _ _ _ _ _ t rfl hk ht'
    have hot := ho1.trans ho2
    have h1 : OnlyCtlKept s s1 ∧ ∀ b, b ≠ a → getAx s1 b = getAx s b := by
      rcases hs1 with rfl | ⟨f, rfl⟩
      · exact ⟨⟨rfl, fun _ => rfl⟩, fun _ _ => rfl⟩
      · refine ⟨⟨rfl, fun b => ?_⟩, fun b hb => getAx_modAx_ne s a _ b hb⟩
        by_cases hb : b = a
        · rw [hb, modFb_getAx_self]
        · exact congrArg Axis.ctl (getAx_modAx_ne s a _ b hb)
    have hst : t = { s with axes := t.axes } := by rw [hot.state, h1.1.1]
    have hc : OnlyCtlKept s t := ⟨hst, fun b => (hot.ctlKept.2 b).trans (h1.1.2 b)⟩
    have he := wheelTick_of_owner s a hr hp ho hg hd hq (ht ▸ hc)
    rw [← ht] at he
    exact ⟨t, congrArg Host.Outcome.next he, hs2.cur, hs2.queue, hs2.ref, hrest, hst,
      fun b hb => (hot.others b hb).trans (h1.2 b hb)⟩

end Sys2Proof.Machine

namespace Sys2Proof.Machine

/-! ### Operations on axes and groups alone -/

/-- t is s but for axes and groups. -/
def OnlyAxesGroups (s t : State) : Prop := t = { s with axes := t.axes, groups := t.groups }

theorem OnlyAxesGroups.refl (s : State) : OnlyAxesGroups s s := rfl

theorem OnlyAxesGroups.trans {s t u : State} (h : OnlyAxesGroups s t) (k : OnlyAxesGroups t u) : OnlyAxesGroups s u := by
  rw [OnlyAxesGroups] at *; rw [k, h]

/-- An operation for every element. -/
theorem OnlyAxesGroups.forAll {α : Type} (l : List α) (f : α → State → State) (s : State)
    (hf : ∀ x t, OnlyAxesGroups t (f x t)) : OnlyAxesGroups s (forAll l f s) := by
  unfold Machine.forAll
  induction l generalizing s with
  | nil => exact .refl s
  | cons x l ih => exact (hf x s).trans (ih _)

/-- A change of a profile. -/
theorem modProf_onlyAxesGroups (s : State) (o : Owner) (f : Prof → Prof) : OnlyAxesGroups s (modProf s o f) := by
  cases o <;> exact rfl

/-- The entries of the members of groups and the latched bases of GEAR groups (R184 to R187). -/
theorem deriveGroups_onlyAxesGroups (lead : Nat → List Entry) (l : List Nat) (s : State) :
    OnlyAxesGroups s (deriveGroups lead l s) := by
  refine (OnlyAxesGroups.forAll _ _ _ fun g t => ?_).trans (OnlyAxesGroups.forAll _ _ _ fun q t => rfl)
  exact (OnlyAxesGroups.forAll _ _ _ fun q u => modProf_onlyAxesGroups u _ _).trans rfl

/-! ### O9: remote GEAR groups and their exports (R187, R284, R285) -/

/-- An operation on axes for every element of a list keeps the groups. -/
theorem forAll_groups {α : Type} (l : List α) (f : α → State → State) (s : State) (hf : ∀ x t, (f x t).groups = t.groups) :
    (forAll l f s).groups = s.groups := by
  unfold forAll
  induction l generalizing s with
  | nil => rfl
  | cons x l ih => exact (ih _).trans (hf x s)

/-- A group that keeps its leader's exported state (R187). -/
def keepLead (x : Export) (r : Group) : Group := { r with missRun := 0, leadKin := x.kin, lead := kinOut x.kin 0 }

/-- A group whose leader's state has been exported in this tick keeps it and has no missed tick (R187). -/
theorem remoteKeep_here (g : Nat) (s : State) (h : exportHere s g = true) :
    OnlyAxesGroups s (remoteKeep g s) ∧ (remoteKeep g s).groups = (modGr s g (keepLead (tget {} s.casc.exports (exportKey s g)))).groups := by
  have hn : ¬ (Cfg.GEARCTR_GEARHOLD s (grW g) < 0 ∧ (getGr s g).missRun ≤ Cfg.GEARCTR_GEARHOLD s (grW g)) := by omega
  simp only [remoteKeep, h, if_true, if_neg hn]
  refine ⟨?_, forAll_groups _ _ _ fun _ _ => rfl⟩
  exact OnlyAxesGroups.trans (t := modGr s g (keepLead (tget {} s.casc.exports (exportKey s g)))) rfl (OnlyAxesGroups.forAll _ _ _ fun _ _ => rfl)

/-- What the windows of groups show changes nothing else. -/
theorem forAll_snapGroup (l : List Nat) (s : State) :
    forAll l snapGroup s = { s with seenGr := (forAll l snapGroup s).seenGr } := by
  unfold forAll
  induction l generalizing s with
  | nil => rfl
  | cons x l ih => rw [List.foldl_cons, ih]; rfl

/-- A repeated slot of the ring leaves the head, and nothing else changes (R284). -/
theorem repeatCasc_eq (r : LaneSlot) (s : State) : repeatCasc r s = { s with tx := (repeatCasc r s).tx } := by
  unfold repeatCasc
  dsimp only
  split
  · rfl
  · split <;> rfl

/-- Which exports are followed rests on the configuration. -/
theorem followed_congr {s t : State} (h : t.cfg = s.cfg) (key : Nat) : followed t key = followed s key := by
  change followed { State.reset with cfg := t.cfg } key = followed { State.reset with cfg := s.cfg } key
  rw [h]

/-- Settles O9: the exported state that a remote GEAR group keeps, and the slot of the ring that is accepted. -/
theorem remoteGear : Obligations.RemoteGear := by
  unfold Obligations.RemoteGear
  refine ⟨fun s g hr hp hg hx => ?derived, fun s r he hh hc hret hcrc hhdr hrnd hseq htick hf => ?received⟩
  case derived =>
    obtain ⟨s1, hs1⟩ : ∃ s1, s1 = deriveGroups (remoteLead s) ((groupsOf s).filter (groupOnRemote s)) s := ⟨_, rfl⟩
    have h1 : OnlyAxesGroups s s1 := by rw [hs1]; exact deriveGroups_onlyAxesGroups _ _ s
    have hcasc : s1.casc = s.casc := by rw [h1]
    have hkey : exportKey s1 g = exportKey s g := by rw [h1]; rfl
    have hx1 : exportHere s1 g = true := by rw [← hx, exportHere, exportHere, hcasc, hkey, h1]
    obtain ⟨h2, hgr⟩ := remoteKeep_here g s1 hx1
    rw [hcasc, hkey] at hgr
    have he : remoteDerive s = forAll ((groupsOf s).filter (groupOnRemote s)) snapGroup (remoteKeep g s1) := by
      rw [remoteDerive, if_pos ⟨hr, hp⟩]
      dsimp only
      rw [← hs1, hg, forAll_singleton]
    obtain ⟨t, ht⟩ : ∃ t, t = remoteDerive s := ⟨_, rfl⟩
    have h3 : t = { remoteKeep g s1 with seenGr := t.seenGr } := by rw [ht, he]; exact forAll_snapGroup _ _
    have hget : getGr t g = keepLead (tget {} s.casc.exports (exportKey s g)) (getGr s1 g) := by rw [getGr, h3, hgr]; exact modGr_getGr_self s1 g _
    refine ⟨t, congrArg Host.Outcome.next ht.symm, ?_, ?_, ?_, ?_⟩
    · rw [hget]; rfl
    · rw [hget]; rfl
    · rw [hget]; rfl
    · rw [h3, h1.trans h2]
  case received =>
    obtain ⟨u, hu⟩ : ∃ u, u = repeatCasc r s := ⟨_, rfl⟩
    have h1 : u = { s with tx := u.tx } := by rw [hu]; exact repeatCasc_eq r s
    have hcfg : u.cfg = s.cfg := by rw [h1]
    have hen : Cfg.CSCFG_EN u = true := by rw [h1]; exact he
    have hst : u.sys.hstate ≠ .boot := by rw [h1]; exact hh
    have hcr : cascRetired u = false := by rw [h1]; exact hret
    have hround : u.sys.round = s.sys.round := by rw [h1]
    have hcasc : u.casc = s.casc := by rw [h1]
    refine congrArg Host.Outcome.next ?_
    change takeCxp r (repeatCasc r s) = _
    rw [← hu, takeCxp, hen, hc, hcr, hcrc]
    simp only [Bool.not_true, Bool.or_false, Bool.false_or, decide_eq_true_eq, if_neg hst, Bool.false_eq_true, if_false]
    rw [if_neg (by rw [hround, hcasc, followed_congr hcfg]; simp [*])]
    split
    · rw [modCasc, hcasc]
    · rw [modCasc, hcasc]

/-! ### O11: staged words while the skim schedule holds (R258) -/

/-- Axis 0 on node 0 of both channels, fast on A, with staged words, while the skim schedule holds on B and each channel's
table has an FDN entry for the axis. -/
def skimmedAxis : State := { State.reset with
  sys := { hstate := .active, round := 640#32, roundRan := true }
  cfg := [(0x40128000, packWord [(31, 29, 7), (3, 0, 1)]), (0x40128020, 0xFFFFFF00#32), (0x80000010, 0x1000#32), (0x80000014, 0x10000#32)]
  mem := [(0x1001, 0x31#8), (0x1003, 0x80#8), (0x1004, 0xFF#8), (0x1005, 0xFF#8),
    (0xD001, 0x31#8), (0xD003, 0x80#8), (0xD004, 0xFF#8), (0xD005, 0xFF#8)]
  link := { skim := some 1 }
  axes := [(0, { pred := { staged := some { leave := 640#32, payload := List.replicate 8 0#8 } } })] }

/-- The entry of axis 0 in the skim table of channel B. -/
def skimmedEntry : SEntry := { idx := 0, axis := 0, up := false, node := 0, type := 3, start := 0x100, aux := 0, rmask := 0xFFFF }

/-- Refutes O11: in the skim schedule the words leave on the lost channel of the axis's node too (R258), so that the
departure sends two slots where the statement lets one. -/
theorem not_fdnDeparture : ¬ Obligations.FdnDeparture := by
  unfold Obligations.FdnDeparture
  rintro ⟨h, -⟩
  obtain ⟨t, ht, -, -, -, htx, -⟩ := h skimmedAxis 0 skimmedEntry { leave := 640#32, payload := List.replicate 8 0#8 } 0 0
    (by decide +kernel) (by decide +kernel) (by decide +kernel) (by decide +kernel) (by decide +kernel) (by decide +kernel)
    (by decide +kernel) (by decide +kernel) (by decide +kernel)
  obtain rfl : fdnDeparture 0 skimmedAxis = t := Host.Outcome.next.inj ht
  have htwo : (fdnDeparture 0 skimmedAxis).tx.length = 2 := by decide +kernel
  have hone : (sendEntry (axisCh skimmedAxis 0) skimmedEntry
      (fdnLeaves skimmedAxis 0 (List.replicate 8 0#8)) skimmedAxis).tx.length = 1 := by decide +kernel
  rw [htx, hone] at htwo
  cases htwo

/-! ### What a fault leaves of an axis's causes and last code (R105, R106) -/

/-- A property that every element's operation keeps is kept by all of them in a row. -/
theorem forAll_keeps {α : Type} (Q : State → Prop) (l : List α) (f : α → State → State) (s : State)
    (hf : ∀ x ∈ l, ∀ t, Q t → Q (f x t)) (h : Q s) : Q (forAll l f s) := by
  unfold forAll
  induction l generalizing s with
  | nil => exact h
  | cons x l ih =>
    exact ih _ (fun y hy => hf y (List.mem_cons_of_mem x hy)) (hf x List.mem_cons_self s h)

/-- The causes of y that stand in x stand in y too, but those that the end of a power stage's run takes away (R115). -/
def CausesStand (x y : AxCtl) : Prop :=
  ∀ k, k ≠ 0x10 → k ≠ 0x11 → k ≠ 0x13 → x.causes.testBit k = true → y.causes.testBit k = true

/-- The causes stand, and the code of the last fault is the same. -/
def MarksKept (x y : AxCtl) : Prop := y.lastCode = x.lastCode ∧ CausesStand x y

theorem CausesStand.refl (x : AxCtl) : CausesStand x x := fun _ _ _ _ h => h

theorem CausesStand.trans {x y z : AxCtl} (h : CausesStand x y) (k : CausesStand y z) : CausesStand x z :=
  fun i h1 h2 h3 hx => k i h1 h2 h3 (h i h1 h2 h3 hx)

theorem MarksKept.refl (x : AxCtl) : MarksKept x x := ⟨rfl, .refl x⟩

theorem MarksKept.trans {x y z : AxCtl} (h : MarksKept x y) (k : MarksKept y z) : MarksKept x z :=
  ⟨k.1.trans h.1, h.2.trans k.2⟩

/-- A change that leaves the causes and the last code alone. -/
theorem marksKept_of_eq {x y : AxCtl} (hl : y.lastCode = x.lastCode) (hc : y.causes = x.causes) : MarksKept x y :=
  ⟨hl, fun k _ _ _ h => by rw [hc]; exact h⟩

/-- A number without its set bit i has the other bits of the number. -/
theorem testBit_sub_two_pow (n i k : Nat) (h : n.testBit i = true) :
    (n - 2 ^ i).testBit k = if k = i then false else n.testBit k := by
  obtain ⟨q, hq⟩ : ∃ q, n / 2 ^ i = 2 * q + 1 := by
    rw [Nat.testBit_eq_decide_div_mod_eq, decide_eq_true_eq] at h
    exact ⟨n / 2 ^ i / 2, by omega⟩
  have hr : n % 2 ^ i < 2 ^ i := Nat.mod_lt _ (Nat.two_pow_pos i)
  have hn : n = 2 ^ i * (2 * q + 1) + n % 2 ^ i := by rw [← hq]; exact (Nat.div_add_mod n _).symm
  have hm : n - 2 ^ i = 2 ^ i * (2 * q) + n % 2 ^ i := by rw [Nat.mul_succ] at hn; omega
  have hbit : n.testBit k = (2 ^ i * (2 * q + 1) + n % 2 ^ i).testBit k := congrArg (Nat.testBit · k) hn
  rw [hm, hbit, Nat.testBit_two_pow_mul_add _ hr, Nat.testBit_two_pow_mul_add _ hr]
  rcases Nat.lt_trichotomy k i with hk | rfl | hk
  · rw [if_pos hk, if_neg (by omega), if_pos hk]
  · simp
  · obtain ⟨m, hm⟩ : ∃ m, k - i = m + 1 := ⟨k - i - 1, by omega⟩
    rw [if_neg (by omega), if_neg (by omega), if_neg (by omega), hm, Nat.testBit_succ, Nat.testBit_succ]
    congr 1
    omega

/-- A bit of a number after one of its bits was written. -/
theorem testBit_setBit (n i k : Nat) (v : Bool) : (setBit n i v).testBit k = if k = i then v else n.testBit k := by
  unfold setBit
  cases v with
  | true =>
    rw [if_pos rfl, Nat.testBit_or, Nat.testBit_two_pow]
    by_cases h : k = i
    · simp [h]
    · simp [h, Ne.symm h]
  | false =>
    rw [if_neg (by simp)]
    split
    case isTrue h => exact testBit_sub_two_pow n i k h
    case isFalse h =>
      by_cases hk : k = i
      · simpa [hk] using h
      · rw [if_neg hk]

/-- A change of an axis's control record keeps the marks of every axis when it keeps those of a record. -/
theorem modCtl_marksKept (s : State) (a b : Nat) (f : AxCtl → AxCtl) (hf : ∀ c, MarksKept c (f c)) :
    MarksKept (getAx s b).ctl (getAx (modCtl s a f) b).ctl := by
  by_cases h : b = a
  · subst h; rw [modCtl_getAx_self]; exact hf _
  · rw [modCtl_getAx_ne _ _ _ _ h]; exact .refl _

/-- A change of an axis's control record keeps the causes of every axis when it keeps those of a record. -/
theorem modCtl_causesStand (s : State) (a b : Nat) (f : AxCtl → AxCtl) (hf : ∀ c, CausesStand c (f c)) :
    CausesStand (getAx s b).ctl (getAx (modCtl s a f) b).ctl := by
  by_cases h : b = a
  · subst h; rw [modCtl_getAx_self]; exact hf _
  · rw [modCtl_getAx_ne _ _ _ _ h]; exact .refl _

theorem causesStand_of_eq {x y : AxCtl} (hc : y.causes = x.causes) : CausesStand x y := fun k _ _ _ h => by rw [hc]; exact h

/-- A step that touches no axis's control record. -/
theorem marksKept_of_ctl {s t : State} (b : Nat) (h : (getAx t b).ctl = (getAx s b).ctl) :
    MarksKept (getAx s b).ctl (getAx t b).ctl := by rw [h]; exact .refl _

theorem modStage_ctl (s : State) (a b : Nat) (f : AxStage → AxStage) : (getAx (modStage s a f) b).ctl = (getAx s b).ctl := by
  by_cases h : b = a
  · subst h; rw [modStage, getAx_modAx_self]
  · rw [modStage, getAx_modAx_ne _ _ _ _ h]

theorem modProf_ctl (s : State) (o : Owner) (b : Nat) (f : Prof → Prof) : (getAx (modProf s o f) b).ctl = (getAx s b).ctl := by
  cases o with
  | axis a =>
    by_cases h : b = a
    · subst h; rw [modProf, getAx_modAx_self]
    · rw [modProf, getAx_modAx_ne _ _ _ _ h]
  | group g => rfl

theorem requestBrake_marksKept (a b : Nat) (s : State) : MarksKept (getAx s b).ctl (getAx (requestBrake a s) b).ctl := by
  rw [getAx_requestBrake]
  exact modCtl_marksKept s a b _ fun c => marksKept_of_eq rfl rfl

theorem abortPrestart_marksKept (a b : Nat) (s : State) : MarksKept (getAx s b).ctl (getAx (abortPrestart a s) b).ctl := by
  unfold abortPrestart
  split
  · exact marksKept_of_ctl b (by rw [getAx_raiseAx, modStage_ctl])
  · exact .refl _

theorem enterOff_marksKept (st : AxState) (a b : Nat) (s : State) :
    MarksKept (getAx s b).ctl (getAx (enterOff st a s) b).ctl :=
  (abortPrestart_marksKept a b s).trans (modCtl_marksKept _ a b _ fun _ => marksKept_of_eq rfl rfl)

/-- The causes of a power stage's run alone end with it (R115). -/
theorem causesStand_stageStop (c : AxCtl) : CausesStand c
    { c with causes := setBit (setBit (setBit c.causes 0x10 false) 0x11 false) 0x13 false } := by
  intro k h0 h1 h3 h
  simp only [testBit_setBit, if_neg h0, if_neg h1, if_neg h3, h]

theorem stageStop_marksKept (a b : Nat) (s : State) : MarksKept (getAx s b).ctl (getAx (stageStop a s) b).ctl := by
  unfold stageStop
  dsimp only
  refine MarksKept.trans ?_ (modCtl_marksKept _ a b _ fun c => ⟨rfl, causesStand_stageStop c⟩)
  refine marksKept_of_ctl b ?_
  rw [modStage_ctl]
  split
  · rw [getAx_raiseAx]
  · rfl

theorem stageRetired_marksKept (a b : Nat) (s : State) : MarksKept (getAx s b).ctl (getAx (stageRetired a s) b).ctl :=
  ((stageStop_marksKept a b s).trans (enterOff_marksKept .retired a b _)).trans (requestBrake_marksKept a b _)

theorem reactKeep_marksKept (code cls : Nat) (now : Word) (c : AxCtl) : MarksKept c (reactKeep code cls now c) := by
  unfold reactKeep
  (repeat' split) <;> exact marksKept_of_eq rfl rfl

theorem getAx_retireCore (cause cls idx : Nat) (c : RetCh) (s : State) (b : Nat) :
    getAx (retireCore cause cls idx c s) b = getAx s b := by rw [retireCore, getAx_raise]; rfl

/-- The reaction to a fault keeps what is recorded of faults. -/
theorem faultReact_marksKept (a b code cls : Nat) (s : State) :
    MarksKept (getAx s b).ctl (getAx (faultReact a code cls s) b).ctl := by
  have hk : ∀ n, MarksKept (getAx s b).ctl (getAx (modCtl s a (reactKeep code n s.sys.round)) b).ctl := fun n =>
    modCtl_marksKept s a b _ (reactKeep_marksKept code n s.sys.round)
  unfold faultReact
  dsimp only
  split
  · exact .refl _
  · split
    · split
      · exact .refl _
      · have h := (hk 4).trans (stageRetired_marksKept a b _)
        split
        · exact h
        · refine h.trans (marksKept_of_ctl b ?_)
          rw [getAx_retireCore]
    · split
      · exact .refl _
      · split
        · refine (hk cls).trans (modCtl_marksKept _ a b _ fun c => ?_)
          split
          · exact .refl _
          · exact marksKept_of_eq rfl rfl
        · split
          · exact hk cls
          · exact ((hk cls).trans (enterOff_marksKept .fault a b _)).trans (requestBrake_marksKept a b _)

/-- A fault's record sets the last code of its axis. -/
theorem faultOne_lastCode (a code cls : Nat) (s : State) : (getAx (faultOne a code cls s) a).ctl.lastCode = code := by
  refine (faultReact_marksKept a a code cls _).1.trans ?_
  unfold faultRecord
  dsimp only
  split
  · rw [getAx_raiseAx, modCtl_getAx_self]
  · rw [modCtl_getAx_self]

/-- A fault's record touches no cause, nor what is recorded of another axis. -/
theorem faultRecord_marks (a b code cls : Nat) (s : State) :
    CausesStand (getAx s b).ctl (getAx (faultRecord a code cls s) b).ctl ∧
      (b ≠ a → getAx (faultRecord a code cls s) b = getAx s b) := by
  have h : getAx (faultRecord a code cls s) b =
      getAx (modCtl s a fun c => { c with lastCode := code, seen := setBit c.seen (min cls 4) true }) b := by
    unfold faultRecord
    dsimp only
    split
    · rw [getAx_raiseAx]
    · rfl
  rw [h]
  by_cases hb : b = a
  · subst hb
    rw [modCtl_getAx_self]
    exact ⟨fun _ _ _ _ hc => hc, fun hn => absurd rfl hn⟩
  · rw [modCtl_getAx_ne _ _ _ _ hb]
    exact ⟨.refl _, fun _ => rfl⟩

theorem faultOne_causesStand (a b code cls : Nat) (s : State) :
    CausesStand (getAx s b).ctl (getAx (faultOne a code cls s) b).ctl :=
  (faultRecord_marks a b code cls s).1.trans (faultReact_marksKept a b code cls _).2

theorem faultOne_lastCode_ne (a b code cls : Nat) (s : State) (h : b ≠ a) :
    (getAx (faultOne a code cls s) b).ctl.lastCode = (getAx s b).ctl.lastCode := by
  refine (faultReact_marksKept a b code cls _).1.trans ?_
  rw [(faultRecord_marks a b code cls s).2 h]

/-- What the fault of an axis gives the other axes of its tree (R192). -/
def followFault (a c40 b : Nat) (s : State) : State :=
  faultOne b 0x40 c40 (modCtl (setCause b 0x40 true s) b (fun c => { c with from40 := a :: c.from40.filter (fun x => x ≠ a) }))

/-- A property holds after a fault with what the tree makes of it if it holds after the axis's own fault and the tree's
reactions keep it: quick stops, the group's fault code, and fault 0x40 of other axes. -/
theorem faultAx_induct (Q : State → Prop) (a code cls : Nat) (s : State) (hone : Q (faultOne a code cls s))
    (hprof : ∀ o f t, Q t → Q (modProf t o f)) (hgr : ∀ g f t, Q t → Q (modGr t g f))
    (hstop : ∀ b t, b ≠ a → Q t → Q (modCtl t b (fun c => { c with st := .qstop, qscmd := true, wait := .none })))
    (hfollow : ∀ b c40 t, b ≠ a → Q t → Q (followFault a c40 b t)) : Q (faultAx a code cls s) := by
  unfold faultAx
  dsimp only
  split
  · exact hone
  split
  · refine forAll_keeps Q _ _ _ (fun b _ t ht => ?_) (hprof _ _ _ hone)
    split
    case isTrue h => exact hstop b t h.1 ht
    case isFalse => exact ht
  split
  · exact hone
  split
  · exact hone
  · have htree : ∀ l c40 t, Q t → Q (forAll l (fun b s => if b = a then s else followFault a c40 b s) t) := fun l c40 t ht =>
      forAll_keeps Q l _ t (fun b _ t ht => by
        split
        case isTrue => exact ht
        case isFalse h => exact hfollow b c40 t h ht) ht
    cases topOwner s a with
    | axis b =>
      dsimp only
      split
      · exact hprof _ _ _ (htree _ _ _ hone)
      · exact htree _ _ _ hone
    | group q =>
      dsimp only
      split
      · exact hprof _ _ _ (htree _ _ _ (hgr q _ _ hone))
      · exact htree _ _ _ (hgr q _ _ hone)

/-- The last code of an axis after its fault. -/
theorem faultAx_lastCode (a code cls : Nat) (s : State) : (getAx (faultAx a code cls s) a).ctl.lastCode = code := by
  refine faultAx_induct (fun t => (getAx t a).ctl.lastCode = code) a code cls s (faultOne_lastCode a code cls s)
    (fun o f t h => by rw [modProf_ctl]; exact h) (fun g f t h => h) (fun b t hb h => ?_) (fun b c40 t hb h => ?_)
  · rw [modCtl_getAx_ne _ _ _ _ (Ne.symm hb)]; exact h
  · rw [followFault, faultOne_lastCode_ne _ _ _ _ _ (Ne.symm hb), setCause, modCtl_getAx_ne _ _ _ _ (Ne.symm hb),
      modCtl_getAx_ne _ _ _ _ (Ne.symm hb)]
    exact h

/-- A cause that is set takes none away. -/
theorem setCause_causesStand (a b code : Nat) (s : State) :
    CausesStand (getAx s b).ctl (getAx (setCause a code true s) b).ctl :=
  modCtl_causesStand s a b _ fun _ _ _ _ _ hc => by simp [testBit_setBit, hc]

theorem followFault_causesStand (a c40 b d : Nat) (s : State) :
    CausesStand (getAx s d).ctl (getAx (followFault a c40 b s) d).ctl := by
  have h2 := modCtl_causesStand (setCause b 0x40 true s) b d
    (fun c => { c with from40 := a :: c.from40.filter (fun x => x ≠ a) }) fun _ => causesStand_of_eq rfl
  exact ((setCause_causesStand b d 0x40 s).trans h2).trans (faultOne_causesStand b d 0x40 c40 _)

/-- A fault takes no cause from any axis, but those of a power stage's run. -/
theorem faultAx_causesStand (a b code cls : Nat) (s : State) :
    CausesStand (getAx s b).ctl (getAx (faultAx a code cls s) b).ctl := by
  apply faultAx_induct (fun t => CausesStand (getAx s b).ctl (getAx t b).ctl)
  case hone => exact faultOne_causesStand a b code cls s
  case hprof => intro o f t h; rw [modProf_ctl]; exact h
  case hgr => exact fun g f t h => h
  case hstop => exact fun d t _ h => h.trans (modCtl_causesStand t d b _ fun _ => causesStand_of_eq rfl)
  case hfollow => exact fun d c40 t _ h => h.trans (followFault_causesStand a c40 d b t)

/-! ### O12: an overrun slice (R353, R363) -/

/-- The slice that was changed. -/
theorem getSlice_modSlice_same (a : Nat) (f : SliceSt → SliceSt) (s : State) :
    getSlice (modSlice a f s) a = f (getSlice s a) := tget_tset_self _ _ _ _

theorem getSlice_raiseAx (a c : Nat) (s : State) (b : Nat) : getSlice (raiseAx a c s) b = getSlice s b := by
  rw [getSlice, raiseAx, raise_lad_slices, getSlice]

/-- The core c after its oldest overrun slice, that of axis a, is stopped (R353). -/
def stoppedSlice (a : Nat) (l : List Nat) (k : Core) : Core := { k with
  overran := l, ovrCnt := inc16 k.ovrCnt
  st := if k.axis = some a then 0 else k.st, axis := if k.axis = some a then none else k.axis
  shadow := k.shadow && k.axis ≠ some a }

/-- The slice of an axis that overran (R363). -/
def overranSlice (x : SliceSt) : SliceSt := { x with ovr := inc16 x.ovr, lastf := 1 }

/-- A reaction to a fault leaves the cores and the slices. -/
theorem lad_of_onlyReaction {s t : State} (h : State.onlyReaction s t) :
    t.lad.cores = s.lad.cores ∧ t.lad.slices = s.lad.slices := by
  obtain ⟨h, -⟩ := h
  rw [h]
  exact ⟨rfl, rfl⟩

/-- Before its fault, an overrun slice leaves its core, its slice's record and an event (R353). -/
def overrunNoted (c a : Nat) (l : List Nat) (s : State) : State :=
  modSlice a (fun x => { x with lastf := 1 }) (raiseAx a caOverrun (modSlice a (fun x => { x with ovr := inc16 x.ovr })
    (modCore c (stoppedSlice a l) s)))

theorem sliceOverrun_eq (s : State) (c a : Nat) (l : List Nat) (h : (getCore s c).overran = a :: l) :
    sliceOverrun c s = faultAx a 0x09 (Cfg.SLCFG_OREACT s (slW a)) (overrunNoted c a l s) := by
  rw [sliceOverrun, h]; rfl

theorem overrunNoted_cores (c a : Nat) (l : List Nat) (s : State) :
    (overrunNoted c a l s).lad.cores = (modCore c (stoppedSlice a l) s).lad.cores := by
  change (raise _ _).lad.cores = _
  rw [raise_lad_cores]
  rfl

theorem overrunNoted_slice (c a : Nat) (l : List Nat) (s : State) :
    getSlice (overrunNoted c a l s) a = overranSlice (getSlice s a) := by
  rw [overrunNoted, getSlice_modSlice_same, getSlice_raiseAx, getSlice_modSlice_same]
  rfl

/-- What is noted of an overrun touches one core, slices, and what raising an event touches. -/
theorem overrunNoted_frame (c a : Nat) (l : List Nat) (s : State) : State.onlyEvents { s with lad := { s.lad with
    cores := (overrunNoted c a l s).lad.cores, slices := (overrunNoted c a l s).lad.slices } } (overrunNoted c a l s) := by
  obtain ⟨w, hw⟩ : ∃ w, w = modSlice a (fun x => { x with ovr := inc16 x.ovr }) (modCore c (stoppedSlice a l) s) := ⟨_, rfl⟩
  have hws : w = { s with lad := { s.lad with cores := w.lad.cores, slices := w.lad.slices } } := by rw [hw]; rfl
  obtain ⟨x, hx⟩ : ∃ x, x = raiseAx a caOverrun w := ⟨_, rfl⟩
  obtain ⟨hxw, hflags⟩ : State.onlyEvents w x := by rw [hx]; exact raiseAx_onlyEvents a caOverrun w
  have hu : overrunNoted c a l s = modSlice a (fun x => { x with lastf := 1 }) x := by rw [hx, hw]; rfl
  rw [hu]
  refine ⟨?_, fun e he => hflags e (by rw [hws]; exact he)⟩
  rw [modSlice, hxw, hws]

/-- Settles O12, by what is noted of the overrun and the reaction to fault 0x09 on it. -/
theorem sliceOverrunStops : Obligations.SliceOverrunStops := by
  unfold Obligations.SliceOverrunStops
  intro s c a l ha hl
  obtain ⟨u, hu⟩ : ∃ u, u = overrunNoted c a l s := ⟨_, rfl⟩
  obtain ⟨t, ht⟩ : ∃ t, t = faultAx a 0x09 (Cfg.SLCFG_OREACT s (slW a)) u := ⟨_, rfl⟩
  have he : sliceOverrun c s = t := by rw [ht, hu]; exact sliceOverrun_eq s c a l hl
  have hr : State.onlyReaction u t := by rw [ht]; exact faultAx_onlyReaction _ _ _ u
  obtain ⟨hcores, hslices⟩ := lad_of_onlyReaction hr
  have hcore : ∀ k, getCore t k = getCore (modCore c (stoppedSlice a l) s) k := fun k => by
    rw [getCore, getCore, hcores, hu, overrunNoted_cores]
  have hslice : getSlice t a = overranSlice (getSlice s a) := by
    rw [getSlice, hslices, hu]; exact overrunNoted_slice c a l s
  have hraised : State.raised (128 + a) u := by rw [hu]; exact raiseAx_raised a caOverrun _ ha
  refine ⟨t, congrArg Host.Outcome.next he, by rw [hslice]; rfl, by rw [hslice]; rfl, ?_, ?_, ?_, hr.2 _ hraised,
    by rw [ht]; exact faultAx_lastCode a 9 _ u, ?_, ?_⟩
  · rw [hcore, getCore_modCore_same]; rfl
  · rw [hcore, getCore_modCore_same]; rfl
  · intro hax
    rw [hcore, getCore_modCore_same, stoppedSlice]
    exact ⟨if_pos hax, if_pos hax⟩
  · intro k hk
    rw [hcore, getCore_modCore_ne _ _ _ _ hk]
  · rw [hcores, hslices]
    refine onlyReaction_trans (onlyReaction_of_events ?_) hr
    rw [hu]
    exact overrunNoted_frame c a l s

end Sys2Proof.Machine

namespace Sys2Proof.Machine

/-! ### What the lanes leave in channels and nodes (R216, R221, R235) -/

/-- The channel that was changed. -/
@[simp] theorem getCh_modCh_self (s : State) (ch : Nat) (f : Chan → Chan) : getCh (modCh s ch f) ch = f (getCh s ch) :=
  tget_tset_self _ _ _ _

/-- Every other channel. -/
theorem getCh_modCh_ne (s : State) (ch k : Nat) (f : Chan → Chan) (h : k ≠ ch) : getCh (modCh s ch f) k = getCh s k :=
  tget_tset_ne _ _ _ _ _ h

/-- The node that was changed. -/
@[simp] theorem getNode_modNode_self (s : State) (ch n : Nat) (f : NodeSt → NodeSt) :
    getNode (modNode s ch n f) ch n = f (getNode s ch n) := by
  rw [getNode, modNode, getCh_modCh_self]
  exact tget_tset_self _ _ _ _

/-- t is s but for the channels and what leaves in the round. -/
def OnlyLanes (s t : State) : Prop := t = { s with tx := t.tx, link := { s.link with chans := t.link.chans } }

theorem OnlyLanes.refl (s : State) : OnlyLanes s s := rfl

theorem OnlyLanes.trans {s t u : State} (h : OnlyLanes s t) (k : OnlyLanes t u) : OnlyLanes s u := by
  rw [OnlyLanes] at *; rw [k, h]

/-- A repeated slot leaves in the round, and nothing else changes (R235). -/
theorem repeatSlot_tx (r : RxSlot) (s : State) : repeatSlot r s = { s with tx := (repeatSlot r s).tx } := by
  unfold repeatSlot
  split
  · rfl
  · split
    · rfl
    · split <;> rfl

theorem repeatSlot_onlyLanes (r : RxSlot) (s : State) : OnlyLanes s (repeatSlot r s) := by
  rw [repeatSlot_tx]; exact rfl

/-- A slot inside its window notes the arrival of its node alone (R216). -/
theorem window_inside (r : RxSlot) (n : Nat) (s : State) (h : (window r n s).2 = true) : OnlyLanes s (window r n s).1 := by
  revert h
  unfold window
  dsimp only
  split
  · exact fun _ => .refl s
  · cases arrivalOfs s r with
    | none => exact fun h => absurd h (by simp only [Bool.false_eq_true, if_false]; split <;> simp)
    | some x =>
      dsimp only
      split
      · exact fun _ => rfl
      · split <;> exact fun h => absurd h (by simp)

theorem noteContent_onlyLanes (r : RxSlot) (e : SEntry) (s : State) : OnlyLanes s (noteContent r e s) := rfl

/-- A slot that is accepted touches the channels and what leaves in the round alone. -/
theorem acceptUp_onlyLanes (r : RxSlot) (ty : Nat) (s u : State) (e : SEntry) (h : acceptUp r ty s = (u, some e)) :
    OnlyLanes s u := by
  have hr := repeatSlot_onlyLanes r s
  revert h
  unfold acceptUp
  generalize repeatSlot r s = v at hr ⊢
  dsimp only
  split
  · intro h; cases h
  split
  · intro h; cases h
  split
  · intro h; cases h
  case h_2 x hx =>
    have hw := window_inside r x.node v
    generalize window r x.node v = w at hw ⊢
    split
    · intro h; cases h
    case isFalse hin =>
      have hv := hr.trans (hw (by simpa using hin))
      split
      · intro h; cases h
      split
      · intro h; cases h
      split
      · intro h; cases h
      split
      · intro h; cases h
      split
      · intro h
        cases h
        split
        · exact hv.trans (noteContent_onlyLanes r e _)
        · exact hv
      split
      · intro h; cases h
      · intro h
        cases h
        exact hv.trans (noteContent_onlyLanes r e _)

/-! ### O13: upstream slots (R51, R216, R221, R224, R233) -/

/-- What an input entry of the axis's sample round holds after a change, and every other entry. -/
theorem modIn_inbuf (s : State) (a : Nat) (f : InEntry → InEntry) :
    getIn (modIn s a f) a s.sys.round = f (getIn s a s.sys.round) ∧
      ∀ k, k ≠ inKey a s.sys.round → tget ({} : InEntry) (modIn s a f).inbuf k = tget {} s.inbuf k :=
  ⟨tget_tset_self _ _ _ _, fun _ hk => tget_tset_ne _ _ _ _ _ hk⟩

/-- A damaged slot at an expected position counts its error alone where the window is not judged (R216). -/
theorem acceptUp_damaged (s : State) (r : RxSlot) (ty : Nat) (e : SEntry) (ht : takesUp s = true) (hc : chOn s r.ch = true)
    (he : expected s r = some e) (hp : pairRole s = false) (h2 : secondPass s r.ch = false)
    (hbad : r.codeErr = true ∨ rxCrcOk 16 r.bytes = false) :
    acceptUp r ty s = (modCh (repeatSlot r s) r.ch (fun c =>
      if r.codeErr then { c with codeErr := inc16 c.codeErr } else { c with crcErr := inc16 c.crcErr }), none) := by
  have ht' : takesUp (repeatSlot r s) = true := by rw [repeatSlot_tx]; exact ht
  have hc' : chOn (repeatSlot r s) r.ch = true := by rw [repeatSlot_tx]; exact hc
  have he' : expected (repeatSlot r s) r = some e := by rw [repeatSlot_tx]; exact he
  have hp' : pairRole (repeatSlot r s) = false := by rw [repeatSlot_tx]; exact hp
  have h2' : secondPass (repeatSlot r s) r.ch = false := by rw [repeatSlot_tx]; exact h2
  have ho : overdue (repeatSlot r s) r = false := by
    rcases hbad with h | h <;> simp [overdue, h]
  have hw : window r e.node (repeatSlot r s) = (repeatSlot r s, true) := by simp [window, hp']
  rcases hbad with h | h <;> cases hcode : r.codeErr <;>
    simp_all [acceptUp]

/-- An input entry with its FUP payload, with its POS payload, and the record of a DIAG payload of round n (R51, R221). -/
def withFup (p : List Byte) (i : InEntry) : InEntry := { i with fup := some p }

def withPos (p : List Byte) (i : InEntry) : InEntry := { i with pos := some p }

def diagOf (p : List Byte) (n : Word) : NodeDiag :=
  { d0 := BitVec.ofNat 32 (beNat p 0 4), d1 := BitVec.ofNat 32 (beNat p 4 4), d2 := BitVec.ofNat 32 (beNat p 8 4), rnd := n }

/-- A payload of an accepted slot lands in the axis's input entry alone. -/
theorem modIn_of_onlyLanes (s u : State) (a : Nat) (f : InEntry → InEntry) (hu : OnlyLanes s u) :
    getIn (modIn u a f) a s.sys.round = f (getIn s a s.sys.round) ∧
      (∀ k, k ≠ inKey a s.sys.round → tget ({} : InEntry) (modIn u a f).inbuf k = tget {} s.inbuf k) ∧
      modIn u a f = { s with inbuf := (modIn u a f).inbuf, tx := u.tx, link := u.link } := by
  obtain ⟨hin, hother⟩ := modIn_inbuf u a f
  have hround : u.sys.round = s.sys.round := by rw [hu]
  have hbuf : u.inbuf = s.inbuf := by rw [hu]
  have hget : getIn u a s.sys.round = getIn s a s.sys.round := by rw [getIn, getIn, hbuf]
  rw [hround, hget] at hin
  rw [hround, hbuf] at hother
  refine ⟨hin, hother, ?_⟩
  rw [modIn, hu]

/-- Settles O13: where each accepted payload lands, and what a damaged slot counts. -/
theorem upstreamSlots : Obligations.UpstreamSlots := by
  unfold Obligations.UpstreamSlots
  refine ⟨fun s u r e h hd => ?fup, fun s u r e h hd => ?pos, fun s u r e h => ?diag, fun s r e c hcm ht hc he hp h2 => ?damaged⟩
  case fup =>
    obtain ⟨hin, hother, hframe⟩ := modIn_of_onlyLanes s u e.axis (withFup (rxPayload r.bytes)) (acceptUp_onlyLanes r _ s u e h)
    have hx : fupReceived r s = modIn u e.axis (withFup (rxPayload r.bytes)) := by
      unfold fupReceived
      simp only [h]
      rw [if_neg hd]
      rfl
    exact ⟨_, congrArg Host.Outcome.next hx, by rw [hin]; rfl, hother, hframe⟩
  case pos =>
    obtain ⟨hin, hother, hframe⟩ := modIn_of_onlyLanes s u e.axis (withPos (rxPayload r.bytes)) (acceptUp_onlyLanes r _ s u e h)
    have hx : posReceived r s = modIn u e.axis (withPos (rxPayload r.bytes)) := by
      unfold posReceived
      simp only [h]
      rw [if_neg hd]
      rfl
    exact ⟨_, congrArg Host.Outcome.next hx, by rw [hin]; rfl, hother, hframe⟩
  case diag =>
    have hu := acceptUp_onlyLanes r tyDIAG s u e h
    have hx : diagReceived r s = { u with link := { u.link with
        diags := tset u.link.diags e.node (diagOf (rxPayload r.bytes) s.sys.round) } } := by
      unfold diagReceived
      simp only [h]
      rfl
    have hdiags : u.link.diags = s.link.diags := by rw [hu]
    refine ⟨_, congrArg Host.Outcome.next hx, tget_tset_self _ _ _ _, fun n hn => ?_, ?_⟩
    · rw [tget_tset_ne _ _ _ _ _ hn, hdiags]
    · rw [hu]
  case damaged =>
    have hex : ∀ v, (∀ ty, acceptUp r ty s = (v, none)) → exec c s = .next v := by
      intro v hv
      simp only [List.mem_cons, List.not_mem_nil, or_false] at hcm
      rcases hcm with rfl | rfl | rfl | rfl
      · exact congrArg Host.Outcome.next (by unfold fupReceived; simp only [hv])
      · exact congrArg Host.Outcome.next (by unfold posReceived; simp only [hv])
      · exact congrArg Host.Outcome.next (by unfold diagReceived; simp only [hv])
      · exact congrArg Host.Outcome.next (by unfold svcReply; simp only [hv])
    refine ⟨fun hcode => hex _ fun ty => ?_, fun hcode hcrc => hex _ fun ty => ?_⟩
    · rw [acceptUp_damaged s r ty e ht hc he hp h2 (.inl hcode)]; simp [hcode]
    · rw [acceptUp_damaged s r ty e ht hc he hp h2 (.inr hcrc)]; simp [hcode]

/-! ### O14: the reply for NIDENT, and a silent node (R223, R242, R247) -/

/-- The identity rests on the image. -/
theorem identOk_congr {s t : State} (h : t.cfg = s.cfg) (n : Nat) (w : Word) : identOk t n w = identOk s n w := by
  change identOk { State.reset with cfg := t.cfg } n w = identOk { State.reset with cfg := s.cfg } n w
  rw [h]

/-- t is u but for the state of a node of a lane in the retire sense: RETIRED or as it was. -/
def NodeKept (ch n : Nat) (s t : State) : Prop :=
  (getCh t ch).reint = (getCh s ch).reint ∧ (getNode t ch n).reint = (getNode s ch n).reint ∧
    ((getNode t ch n).st = (getNode s ch n).st ∨ (getNode t ch n).st = 5)

theorem NodeKept.refl (ch n : Nat) (s : State) : NodeKept ch n s s := ⟨rfl, rfl, .inl rfl⟩

/-- A node that is retired on lane k. -/
theorem NodeKept.retire {ch n : Nat} {s t : State} (h : NodeKept ch n s t) (k : Nat) :
    NodeKept ch n s (modNode t k n (fun d => { d with st := 5 })) := by
  obtain ⟨h1, h2, h3⟩ := h
  by_cases hk : ch = k
  · subst hk
    refine ⟨?_, ?_, .inr ?_⟩
    · rw [← h1, modNode, getCh_modCh_self]
    · rw [← h2, getNode_modNode_self]
    · rw [getNode_modNode_self]
  · have hc : getCh (modNode t k n (fun d => { d with st := 5 })) ch = getCh t ch := getCh_modCh_ne _ _ _ _ hk
    rw [NodeKept, getNode, hc, ← getNode]
    exact ⟨h1, h2, h3⟩

/-- A reaction to a fault leaves the lanes. -/
theorem NodeKept.of_link {ch n : Nat} {s t u : State} (h : NodeKept ch n s t) (hl : u.link = t.link) : NodeKept ch n s u := by
  rw [NodeKept, getNode, getCh, hl]
  exact h

theorem link_of_onlyReaction {s t : State} (h : State.onlyReaction s t) : t.link = s.link := by rw [h.1]

/-- The same reaction on states whose lanes were replaced. -/
theorem onlyReaction_withLink {s t : State} (h : State.onlyReaction s t) (l : Link) :
    State.onlyReaction { s with link := l } { t with link := l } := by
  obtain ⟨h1, h2⟩ := h
  refine ⟨?_, h2⟩
  rw [h1]

/-- A reaction on a state that differs in its lanes alone. -/
theorem onlyReaction_linkBase {s v t : State} {l k : Link} (h : v = { s with link := k })
    (hr : State.onlyReaction { v with link := l } t) : State.onlyReaction { s with link := l } t := by
  subst h; exact hr

/-- The retirement of a node: its state on each lane, and fault 0x05 of its axes (R34). -/
theorem retireEffect_node (n ch : Nat) (s : State) : State.onlyReaction { s with link := (retireEffect clsNode n s).link }
    (retireEffect clsNode n s) ∧ NodeKept ch n s (retireEffect clsNode n s) := by
  obtain ⟨v, hv⟩ : ∃ v, v = forAll [0, 1] (fun ch s => modNode s ch n (fun d => { d with st := 5 })) s := ⟨_, rfl⟩
  have hvs : v = { s with link := v.link } := by rw [hv]; rfl
  have hk : NodeKept ch n s v := by
    rw [hv]; exact ((NodeKept.refl ch n s).retire 0).retire 1
  have he : retireEffect clsNode n s = forAll (nodeAxes v n) (fun a s => faultAx a 0x05 3 (setCause a 0x05 true s)) v := by
    rw [retireEffect, if_pos rfl, hv]
  have hr : State.onlyReaction v (retireEffect clsNode n s) := by
    rw [he]
    exact onlyReaction_forAll _ _ _ fun a t => onlyReaction_trans (setCause_onlyReaction a _ _ t) (faultAx_onlyReaction _ _ _ _)
  refine ⟨?_, hk.of_link (link_of_onlyReaction hr)⟩
  rw [link_of_onlyReaction hr]
  rwa [hvs] at hr

/-- A transient on a channel touches the retire block, and retires the channel when the window is full (R32). -/
theorem transient_cases (cls idx : Nat) (s : State) : (∃ r, transient cls idx s = { s with ret := r }) ∨
    ∃ r c, transient cls idx s = retireEffect cls idx (retireCore 1 cls idx c { s with ret := r }) := by
  unfold transient
  dsimp only
  split
  · exact .inl ⟨_, rfl⟩
  · split
    · exact .inr ⟨_, _, rfl⟩
    · split <;> exact .inl ⟨_, rfl⟩

/-- A transient on a node touches its state on the lanes and the retire block, and its axes when the node retires (R32). -/
theorem transient_node (n ch : Nat) (s : State) : State.onlyReaction { s with link := (transient clsNode n s).link }
    (transient clsNode n s) ∧ NodeKept ch n s (transient clsNode n s) := by
  rcases transient_cases clsNode n s with ⟨r, h⟩ | ⟨r, c, h⟩
  · rw [h]
    exact ⟨onlyReaction_mk rfl, NodeKept.refl ch n s⟩
  · rw [h]
    obtain ⟨u, hu⟩ : ∃ u, u = retireCore 1 clsNode n c { s with ret := r } := ⟨_, rfl⟩
    have hcore : State.onlyReaction s u := by
      rw [hu]
      exact onlyReaction_trans (onlyReaction_mk rfl) (retireCore_onlyReaction _ _ _ _ _)
    obtain ⟨hr, hk⟩ := retireEffect_node n ch u
    rw [← hu]
    refine ⟨onlyReaction_trans (onlyReaction_withLink hcore _) hr, ?_⟩
    · have hl := link_of_onlyReaction hcore
      rw [NodeKept, getNode, getNode, getCh, getCh, ← hl]
      exact hk

/-- A node that is ordered to re-integrate (R247). -/
def reintegrating (d : NodeSt) : NodeSt := { d with
  reint := true, st := if d.st = 5 then 5 else 4, seen := [], ident := none, nclass := none, asked := [], svcq := []
  loadq := [], silent := 0 }

/-- The order to re-integrate counts on the channel, changes the node and is a transient on it (R247). -/
theorem orderReint_kept (ch n : Nat) (s : State) :
    (getCh (orderReint ch n s) ch).reint = inc16 (getCh s ch).reint ∧ (getNode (orderReint ch n s) ch n).reint = true ∧
      ((getNode (orderReint ch n s) ch n).st = 4 ∨ (getNode (orderReint ch n s) ch n).st = 5) ∧
      State.onlyReaction { s with link := (orderReint ch n s).link } (orderReint ch n s) := by
  obtain ⟨v, hv⟩ : ∃ v, v = modNode (modCh s ch (fun c => { c with reint := inc16 c.reint })) ch n reintegrating := ⟨_, rfl⟩
  have hvs : v = { s with link := v.link } := by rw [hv]; rfl
  have he : orderReint ch n s = transient clsNode n v := by rw [hv]; rfl
  obtain ⟨hr, hch, hre, hst⟩ := transient_node n ch v
  have hc : (getCh v ch).reint = inc16 (getCh s ch).reint := by
    rw [hv, modNode, getCh_modCh_self, getCh_modCh_self]
  have hn : getNode v ch n = reintegrating (getNode (modCh s ch (fun c => { c with reint := inc16 c.reint })) ch n) := by
    rw [hv, getNode_modNode_self]
  have hst4 : (getNode v ch n).st = 4 ∨ (getNode v ch n).st = 5 := by
    rw [hn, reintegrating]
    dsimp only
    split
    · exact .inr rfl
    · exact .inl rfl
  rw [he]
  refine ⟨hch.trans hc, hre.trans (by rw [hn]; rfl), ?_, ?_⟩
  · rcases hst with h | h
    · rw [h]; exact hst4
    · exact .inr h
  · exact onlyReaction_linkBase hvs hr

/-- A node whose request with a tag is no longer out, as an accepted READ reply leaves it (R223), and its identity. -/
def answered (tag : Nat) (d : NodeSt) : NodeSt := { d with asked := d.asked.filter (fun q => q.1 ≠ tag) }

def identified (w : Word) (d : NodeSt) : NodeSt := { d with ident := some w }

theorem takeReply_ident (ch n : Nat) (w : Word) (s : State) (h : identOk s n w = true) :
    takeReply ch n 0 w s = modNode s ch n (identified w) := by
  rw [takeReply, if_pos rfl, if_pos h]
  rfl

/-- An accepted reply to a request for NIDENT that names the image's identity (R223, R242). -/
theorem svcReply_ident (s u : State) (r : RxSlot) (e : SEntry) (h : acceptUp r tySVC s = (u, some e))
    (hask : (getNode u r.ch e.node).asked.find? (fun q => q.1 = beNat (rxPayload r.bytes) 1 1) =
      some (beNat (rxPayload r.bytes) 1 1, 0))
    (hop : beNat (rxPayload r.bytes) 0 1 = 3) (hst : beNat (rxPayload r.bytes) 3 1 = 0)
    (hid : identOk u e.node (BitVec.ofNat 32 (beNat (rxPayload r.bytes) 8 4)) = true) :
    svcReply r s = modNode (modNode (modNode u r.ch e.node (answered (beNat (rxPayload r.bytes) 1 1))) r.ch e.node
      (fun d => { d with nofsNew := (getNode u r.ch e.node).nofsNew })) r.ch e.node
      (identified (BitVec.ofNat 32 (beNat (rxPayload r.bytes) 8 4))) := by
  unfold svcReply
  simp only [h, hask, hop, hst, and_self, if_true, true_or]
  rw [takeReply_ident]
  · rfl
  · exact (identOk_congr (s := u) rfl _ _).trans hid

/-- Settles O14: the identity of an accepted reply, and the order to a node that was silent for two hyperperiods. -/
theorem replyAndSilence : Obligations.ReplyAndSilence := by
  unfold Obligations.ReplyAndSilence
  refine ⟨fun s u r e h hask hop hst hid => ?reply, fun s ch n hn hp hc hl hst hs => ?silent⟩
  case reply =>
    have hu := acceptUp_onlyLanes r tySVC s u e h
    have hcfg : u.cfg = s.cfg := by rw [hu]
    have he := svcReply_ident s u r e h hask hop hst (by rw [identOk_congr hcfg]; exact hid)
    refine ⟨_, congrArg Host.Outcome.next he, ?_, ?_, ?_⟩
    · rw [getNode_modNode_self]; rfl
    · rw [getNode_modNode_self, getNode_modNode_self, getNode_modNode_self]
      intro q hq
      have hq' : q ∈ (getNode u r.ch e.node).asked.filter (fun q => q.1 ≠ beNat (rxPayload r.bytes) 1 1) := hq
      simpa using (List.mem_filter.1 hq').2
    · rw [modNode, modNode, modNode, modCh, modCh, modCh, hu]
  case silent =>
    have he : upstreamSilence ch n s = orderReint ch n s := by simp [upstreamSilence, hp, hc, hl, hst, hs]
    obtain ⟨hcnt, hre, hst, hframe⟩ := orderReint_kept ch n s
    exact ⟨_, congrArg Host.Outcome.next he, hcnt, hst, hre, hframe⟩

/-! ### O15: the load sequence, and admission by the standby (R239, R240, R242) -/

/-- A node whose load sequence with the offsets oN and oF begins (R240). -/
def loadStarted (oN oF : Word) (q : List (Nat × List Word)) (d : NodeSt) : NodeSt := { d with
  nofsN := signedN 32 oN.toNat, nofsF := signedN 32 oF.toNat, loaded := false, loadq := q }

theorem loadSequence_of_loading (s : State) (ch n : Nat) (hp : pairRole s = true) (hst : (getNode s ch n).st = 1) :
    loadSequence ch n s = modNode s.tick.tick ch n
      (loadStarted (freeW s) (freeW s.tick) (loadWrites s n (freeW s) (freeW s.tick))) := by
  rw [loadSequence, if_neg (by simp [hp, hst])]
  rfl

/-- A brake channel that awaits a new basis (R297). -/
def awaitsBasis (k : Brake) : Brake := { k with basis := false, misses := 0, copyA := none, copyB := none }

/-- The brake that was changed, and every other. -/
theorem getBrk_modBrk (s : State) (b d : Nat) (f : Brake → Brake) :
    getBrk (modBrk s b f) d = if d = b then f (getBrk s d) else getBrk s d := by
  by_cases h : d = b
  · subst h; rw [if_pos rfl]; exact tget_tset_self _ _ _ _
  · rw [if_neg h]; exact tget_tset_ne _ _ _ _ _ h

/-- One change of several brake channels. -/
theorem forAll_modBrk (l : List Nat) (f : Brake → Brake) (hf : ∀ k, f (f k) = f k) (s : State) :
    forAll l (fun b s => modBrk s b f) s = { s with sag := { s.sag with
      brakes := (forAll l (fun b s => modBrk s b f) s).sag.brakes } } ∧
    ∀ d, getBrk (forAll l (fun b s => modBrk s b f) s) d = if d ∈ l then f (getBrk s d) else getBrk s d := by
  unfold forAll
  induction l generalizing s with
  | nil => exact ⟨rfl, fun d => by simp⟩
  | cons b l ih =>
    obtain ⟨h1, h2⟩ := ih (modBrk s b f)
    refine ⟨?_, fun d => ?_⟩
    · rw [List.foldl_cons, h1]; rfl
    · rw [List.foldl_cons, h2, getBrk_modBrk]
      by_cases hd : d = b
      · subst hd; by_cases hl : d ∈ l <;> simp [hl, hf]
      · by_cases hl : d ∈ l <;> simp [hl, hd]

/-- Admission by a unit without the pair role asks for no identity of its own (log 11). -/
theorem nodeAdmission_shadow (s : State) (ch n : Nat) (ht : takesUp s = true) (hp : pairRole s = false)
    (hst : (getNode s ch n).st = 2 ∨ (getNode s ch n).st = 4) (hh : nodeHeard s ch n = true) (hf : hyperFull s ch n = true) :
    nodeAdmission ch n s = raise evNodeAdmitted (newBasis n (modNode s ch n (fun d => { d with st := 3, oowRun := 0 }))) := by
  have hg : (!(takesUp s && ((getNode s ch n).st = 2 || (getNode s ch n).st = 4) && nodeHeard s ch n && hyperFull s ch n)) = false := by
    rcases hst with h | h <;> simp [ht, hh, hf, h]
  unfold nodeAdmission
  simp only [hg, Bool.false_eq_true, if_false, hp, Bool.not_false, if_true]

/-- Settles O15: the writes of the load sequence, its time-out, and admission by the standby. -/
theorem nodeJoins : Obligations.NodeJoins := by
  unfold Obligations.NodeJoins
  refine ⟨fun s ch n hp hst => ?load, fun s ch n hst hl hlate => ?timeout, fun s ch n ht hp hst hh hf => ?admission⟩
  case load =>
    refine ⟨_, congrArg Host.Outcome.next (loadSequence_of_loading s ch n hp hst), ?_, rfl, fun k hk => ?_⟩
    · rw [getNode_modNode_self]; rfl
    · rw [modNode, getCh_modCh_ne _ _ _ _ hk]; rfl
  case timeout =>
    have he : loadTimeout ch n s = loadSequence ch n s := by simp [loadTimeout, hst, hl, hlate]
    exact ⟨_, congrArg Host.Outcome.next he, rfl⟩
  case admission =>
    obtain ⟨v, hv⟩ : ∃ v, v = modNode s ch n (fun d => { d with st := 3, oowRun := 0 }) := ⟨_, rfl⟩
    have he := nodeAdmission_shadow s ch n ht hp hst hh hf
    rw [← hv] at he
    have hn : getNode v ch n = { getNode s ch n with st := 3, oowRun := 0 } := by rw [hv, getNode_modNode_self]
    have hvs : v = { s with link := v.link } := by rw [hv]; rfl
    obtain ⟨hframe, hbrk⟩ := forAll_modBrk ((List.range 32).filter (fun b => Cfg.SGBRK_EN v b && Cfg.SGBRK_NODE v b = n))
      awaitsBasis (fun _ => rfl) v
    change newBasis n v = _ at hframe
    change ∀ d, getBrk (newBasis n v) d = _ at hbrk
    have hnode : getNode (raise evNodeAdmitted (newBasis n v)) ch n = getNode v ch n := by
      rw [getNode, getCh, raise_link, hframe]; rfl
    refine ⟨_, congrArg Host.Outcome.next he, by rw [hnode, hn], by rw [hnode, hn], raise_raised _ _ (by decide) (by decide),
      fun b hb hen hnd => ?_, ?_⟩
    · have hen' : Cfg.SGBRK_EN v b = true := by rw [hvs]; exact hen
      have hnd' : Cfg.SGBRK_NODE v b = n := by rw [hvs]; exact hnd
      have hb' : getBrk (raise evNodeAdmitted (newBasis n v)) b = awaitsBasis (getBrk v b) := by
        rw [getBrk, raise_sag, ← getBrk, hbrk, if_pos (by simp [hb, hen', hnd'])]
      rw [hb']
      exact ⟨rfl, rfl⟩
    · have h1 : newBasis n v = { s with link := (newBasis n v).link, sag := (newBasis n v).sag } := by rw [hframe, hvs]
      rw [raise_link, raise_sag, ← h1]
      exact raise_onlyEvents _ _

end Sys2Proof.Machine

namespace Sys2Proof.Machine

/-! ### O16: judgement and loss of a channel, skim, wrap and unwrap (R250 to R253, R258) -/

/-- t keeps the lanes and the head state of s, and no event flag has fallen. -/
def LanesKept (s t : State) : Prop :=
  t.link = s.link ∧ t.sys.hstate = s.sys.hstate ∧ ∀ e, State.raised e s → State.raised e t

theorem LanesKept.refl (s : State) : LanesKept s s := ⟨rfl, rfl, fun _ h => h⟩

theorem LanesKept.trans {s t u : State} (h : LanesKept s t) (k : LanesKept t u) : LanesKept s u :=
  ⟨k.1.trans h.1, k.2.1.trans h.2.1, fun e he => k.2.2 e (h.2.2 e he)⟩

theorem LanesKept.forAll {α : Type} (l : List α) (f : α → State → State) (s : State) (hf : ∀ x t, LanesKept t (f x t)) :
    LanesKept s (forAll l f s) :=
  forAll_keeps (fun t => LanesKept s t) l f s (fun x _ t ht => ht.trans (hf x t)) (.refl s)

theorem LanesKept.of_reaction {s t : State} (h : State.onlyReaction s t) : LanesKept s t := by
  obtain ⟨h1, h2⟩ := h
  exact ⟨by rw [h1], by rw [h1], h2⟩

theorem raise_lanesKept (e : Nat) (s : State) : LanesKept s (raise e s) := .of_reaction (raise_onlyReaction e s)

theorem latViolate_lanesKept (s : State) : LanesKept s (latViolate s) :=
  LanesKept.trans (t := { s with sys := { s.sys with latViol := true } }) ⟨rfl, rfl, fun _ h => h⟩ (raise_lanesKept _ _)

/-- The check of the delays gives causes, faults and an event alone (R49). -/
theorem checkDelays_lanesKept (ch : Nat) (s : State) : LanesKept s (checkDelays ch s) := by
  refine LanesKept.forAll _ _ _ fun n t => ?_
  have hcause : ∀ bad, LanesKept t (if fastCh t n = ch || inSkim t then
      forAll (nodeAxes t n) (fun a => setCause a 0x06 bad) t else t) := by
    intro bad
    split
    · exact LanesKept.forAll _ _ _ fun a u => .of_reaction (setCause_onlyReaction a _ _ u)
    · exact .refl t
  dsimp only
  split
  · exact ((hcause _).trans (.of_reaction (faultAxes_onlyReaction _ _ _ _))).trans (latViolate_lanesKept _)
  · exact hcause _

/-- Whether channel ch is lost and for how long its marker has not returned is as it was, and no event flag has fallen. -/
def LossStands (ch : Nat) (s t : State) : Prop :=
  (getCh t ch).lost = (getCh s ch).lost ∧ (getCh t ch).noReturn = (getCh s ch).noReturn ∧
    ∀ e, State.raised e s → State.raised e t

theorem LossStands.refl (ch : Nat) (s : State) : LossStands ch s s := ⟨rfl, rfl, fun _ h => h⟩

theorem LossStands.trans {ch : Nat} {s t u : State} (h : LossStands ch s t) (k : LossStands ch t u) : LossStands ch s u :=
  ⟨k.1.trans h.1, k.2.1.trans h.2.1, fun e he => k.2.2 e (h.2.2 e he)⟩

theorem LossStands.of_lanes {ch : Nat} {s t : State} (h : LanesKept s t) : LossStands ch s t := by
  obtain ⟨hl, -, he⟩ := h
  exact ⟨by rw [getCh, getCh, hl], by rw [getCh, getCh, hl], he⟩

/-- A change of a channel that leaves its loss alone. -/
theorem modCh_lossStands (s : State) (k ch : Nat) (f : Chan → Chan) (hf : ∀ c, (f c).lost = c.lost ∧ (f c).noReturn = c.noReturn) :
    LossStands ch s (modCh s k f) := by
  by_cases h : ch = k
  · subst h; rw [LossStands, getCh_modCh_self]; exact ⟨(hf _).1, (hf _).2, fun _ h => h⟩
  · rw [LossStands, getCh_modCh_ne _ _ _ _ h]; exact ⟨rfl, rfl, fun _ h => h⟩

theorem modNode_lossStands (s : State) (k n ch : Nat) (f : NodeSt → NodeSt) : LossStands ch s (modNode s k n f) :=
  modCh_lossStands s k ch _ fun _ => ⟨rfl, rfl⟩

theorem LossStands.forAll {α : Type} {ch : Nat} (l : List α) (f : α → State → State) (s : State)
    (hf : ∀ x t, LossStands ch t (f x t)) : LossStands ch s (forAll l f s) :=
  forAll_keeps (fun t => LossStands ch s t) l f s (fun x _ t ht => ht.trans (hf x t)) (.refl ch s)

theorem noteDelays_lossStands (k ch : Nat) (s : State) : LossStands ch s (noteDelays k s) :=
  LossStands.forAll _ _ _ fun _ t => modNode_lossStands t _ _ _ _

theorem noteWraps_lossStands (k ch : Nat) (s : State) : LossStands ch s (noteWraps k s) :=
  LossStands.forAll _ _ _ fun _ t => modNode_lossStands t _ _ _ _

theorem noteMargin_lossStands (ch : Nat) (s : State) : LossStands ch s (noteMargin s) := by
  unfold noteMargin
  dsimp only
  split <;> exact ⟨rfl, rfl, fun _ h => h⟩

theorem setHead_lossStands (h : HeadState) (ch : Nat) (s : State) : LossStands ch s (setHead h s) := by
  unfold setHead
  split
  · exact .refl ch s
  · refine LossStands.trans ?_ (.of_lanes (raise_lanesKept _ _))
    exact ⟨rfl, rfl, fun _ h => h⟩

theorem leaseRelease_lossStands (ch : Nat) (s : State) : LossStands ch s (leaseRelease s) := by
  unfold leaseRelease
  split
  · refine LossStands.trans ?_ (setHead_lossStands _ _ _)
    exact ⟨rfl, rfl, fun _ h => h⟩
  · exact .refl ch s

/-- A transient on a channel of the lanes retires it at most (R34). -/
theorem transient_channel (k : Nat) (s : State) : LanesKept s (transient clsChannel k s) := by
  rcases transient_cases clsChannel k s with ⟨r, h⟩ | ⟨r, c, h⟩
  · rw [h]; exact ⟨rfl, rfl, fun _ h => h⟩
  · rw [h]
    have he : ∀ u, retireEffect clsChannel k u = u := fun u => rfl
    rw [he]
    exact LanesKept.trans (t := { s with ret := r }) ⟨rfl, rfl, fun _ h => h⟩ (.of_reaction (retireCore_onlyReaction _ _ _ _ _))

/-- A lost channel is lost, with its event (R250). -/
theorem channelLost_lost (ch : Nat) (s : State) (hch : ch < 2) :
    (getCh (channelLost ch s) ch).lost = true ∧ State.raised (evChannelLost + ch) (channelLost ch s) := by
  obtain ⟨v, hv⟩ : ∃ v, v = modCh s ch (fun c => { c with lost := true, returned := 0 }) := ⟨_, rfl⟩
  obtain ⟨u, hu⟩ : ∃ u, u = raise (evChannelLost + ch) (transient clsChannel ch v) := ⟨_, rfl⟩
  have hlost : (getCh v ch).lost = true := by rw [hv, getCh_modCh_self]
  have hvu : LossStands ch v u := by
    rw [hu]; exact .of_lanes ((transient_channel ch v).trans (raise_lanesKept _ _))
  have hev : State.raised (evChannelLost + ch) u := by
    rw [hu]
    have hlt : evChannelLost + ch < 256 := by unfold evChannelLost; omega
    refine raise_raised _ _ ?_ hlt
    rcases (by omega : ch = 0 ∨ ch = 1) with rfl | rfl <;> decide
  have hdone : LossStands ch u (channelLost ch s) := by
    unfold channelLost
    rw [← hv, ← hu]
    dsimp only
    split
    · refine LossStands.trans ?_ (.of_lanes (checkDelays_lanesKept _ _))
      exact ⟨rfl, rfl, fun _ h => h⟩
    · exact .refl ch u
  exact ⟨hdone.1.trans (hvu.1.trans hlost), hdone.2.2 _ hev⟩

/-- The steps of the judgement behind a loss. -/
def judgedRest (ch : Nat) (s : State) : State :=
  leaseRelease (noteMargin (noteWraps ch (
    if (getCh s ch).checkNext && ((getCh s ch).ring0.isSome || (getCh s ch).ring1.isSome) then
      checkDelays ch (noteDelays ch (modCh s ch (fun c => { c with checkNext := false })))
    else s)))

theorem judgedRest_lossStands (ch : Nat) (s : State) : LossStands ch s (judgedRest ch s) := by
  unfold judgedRest
  refine LossStands.trans ?_ (((noteWraps_lossStands ch ch _).trans (noteMargin_lossStands ch _)).trans (leaseRelease_lossStands ch _))
  split
  · refine LossStands.trans ?_ (.of_lanes (checkDelays_lanesKept ch _))
    refine LossStands.trans ?_ (noteDelays_lossStands ch ch _)
    exact modCh_lossStands s ch ch _ fun _ => ⟨rfl, rfl⟩
  · exact .refl ch s

/-- A channel of a driving unit whose marker has not returned for two rounds is lost, whatever else is judged (R250). -/
theorem channelJudgement_gone (ch : Nat) (o : ChanObs) (s : State) (hp : pairRole s = true) (hc : chOn s ch = true)
    (hgone : 2 ≤ (notePorts o (getCh s ch)).noReturn) (hl : (getCh s ch).lost = false) :
    ∃ u, channelJudgement ch o s = judgedRest ch (channelLost ch u) := by
  have hnoted : ∀ odd : Bool, LossStands ch (modCh s ch (notePorts o)) (noteDelays ch (if odd then
      raise evDelayImplausible (modCh (modCh s ch (notePorts o)) ch (fun c => { c with dlyImpl := true }))
      else modCh s ch (notePorts o))) := by
    intro odd
    refine LossStands.trans ?_ (noteDelays_lossStands ch ch _)
    split
    · refine LossStands.trans ?_ (.of_lanes (raise_lanesKept _ _))
      exact modCh_lossStands _ ch ch _ fun _ => ⟨rfl, rfl⟩
    · exact .refl ch _
  unfold channelJudgement
  dsimp only
  rw [if_neg (by simp [hp, hc])]
  generalize hu : noteDelays ch _ = u
  obtain ⟨hlost, hnone, -⟩ : LossStands ch (modCh s ch (notePorts o)) u := by rw [← hu]; exact hnoted _
  rw [getCh_modCh_self] at hlost hnone
  have hl' : (getCh u ch).lost = false := by rw [hlost]; exact hl
  have hif : ((decide (2 ≤ (getCh u ch).noReturn) || isRetired u clsChannel ch) && !(getCh u ch).lost) = true := by
    simp [hnone, hgone, hl']
  rw [if_pos hif]
  exact ⟨u, rfl⟩

/-- The wrap of a unit at a lost port, whose transmitter goes off (R251). -/
def wrappedAt (port : Nat) (c : Chan) : Chan :=
  let c1 := { c with wrapPort := some port, wrapRounds := 0, lockRounds := 0, unwrapping := false }
  if port = 0 then { c1 with txdis0 := true } else { c1 with txdis1 := true }

theorem portLoss_wraps (ch port how : Nat) (s : State) (hr : repeatsLanes s = true) (hw : (getCh s ch).wrapPort = none) :
    portLoss ch port how s = modCh (modCh s ch (noteLoss port how)) ch (wrappedAt port) := by
  rw [portLoss, if_pos (by simp [hr, hw])]
  rfl

/-- The transmitter at the port goes off, and the other one is as it was. -/
theorem wrappedAt_txdis (port how : Nat) (c : Chan) :
    if port = 0 then (wrappedAt port (noteLoss port how c)).txdis0 = true ∧ (wrappedAt port (noteLoss port how c)).txdis1 = c.txdis1
    else (wrappedAt port (noteLoss port how c)).txdis1 = true ∧ (wrappedAt port (noteLoss port how c)).txdis0 = c.txdis0 := by
  split
  case isTrue h => rcases how with _ | _ | how <;> simp [wrappedAt, noteLoss, h]
  case isFalse h => rcases how with _ | _ | how <;> simp [wrappedAt, noteLoss, h]

/-- The skim schedule ends when the lost channel works again (R258): its loss ends, and the delays are checked. -/
theorem skimEnded_of_returned (s : State) (o : Nat) (hk : s.link.skim = some o) (hret : 16 ≤ (getCh s (1 - o)).returned)
    (hm : s.sys.round.toNat % 16 = 0) (hr : isRetired s clsChannel (1 - o) = false)
    (hd : ∀ n ∈ nodesOn s (1 - o), delayBad s (1 - o) n = false) :
    ∃ t, skimEnded s = t ∧
      t.link = { (modCh s (1 - o) (fun c => { c with lost := false })).link with skim := none } ∧
      t.sys.hstate = s.sys.hstate ∧ State.raised evSkimEnded t := by
  obtain ⟨v, hv⟩ : ∃ v : State, v = { modCh s (1 - o) (fun c => { c with lost := false }) with
      link := { (modCh s (1 - o) (fun c => { c with lost := false })).link with skim := none } } := ⟨_, rfl⟩
  have he : skimEnded s = checkDelays 1 (checkDelays 0 (raise evSkimEnded v)) := by
    rw [hv]
    unfold skimEnded
    simp only [hk]
    rw [if_pos (by simp [hret, hm, hr]; exact hd)]
  obtain ⟨hl, hst, hev⟩ := (raise_lanesKept evSkimEnded v).trans
    ((checkDelays_lanesKept 0 (raise evSkimEnded v)).trans (checkDelays_lanesKept 1 _))
  obtain ⟨-, -, hup⟩ := (checkDelays_lanesKept 0 (raise evSkimEnded v)).trans (checkDelays_lanesKept 1 _)
  refine ⟨_, he, by rw [hl, hv], by rw [hst, hv]; rfl, hup _ (raise_raised _ _ (by decide) (by decide))⟩

/-- Settles O16: the judgement and the loss of a channel, the end of skim, and wrap and unwrap. -/
theorem channelFaults : Obligations.ChannelFaults := by
  unfold Obligations.ChannelFaults
  refine ⟨fun s ch o hp => ?noted, fun s ch o hch hp hc hl hn h0 h1 => ?gone, fun s o ho hk hret hm hr hd => ?skim,
    fun s ch port how hr hw => ?wrap, fun s ch port how hr => ?passive, fun s ch b hp hb hst => ?order,
    fun s ch p hp hw hu hm hlock hr => ?unwrap⟩
  case noted => exact congrArg Host.Outcome.next (by rw [channelJudgement, if_pos (by simp [hp])])
  case gone =>
    obtain ⟨u, hu⟩ := channelJudgement_gone ch o s hp hc (by simp [notePorts, h0, h1]; omega) hl
    obtain ⟨hlost, hev⟩ := channelLost_lost ch u hch
    obtain ⟨hl', -, he⟩ := judgedRest_lossStands ch (channelLost ch u)
    exact ⟨_, congrArg Host.Outcome.next hu, hl'.trans hlost, he _ hev⟩
  case skim =>
    obtain ⟨t, ht, hlink, hst, hev⟩ := skimEnded_of_returned s o hk hret hm hr hd
    exact ⟨_, congrArg Host.Outcome.next ht, by rw [hlink], by rw [getCh, hlink, ← getCh, getCh_modCh_self], hev, hst⟩
  case wrap =>
    refine ⟨_, congrArg Host.Outcome.next (portLoss_wraps ch port how s hr hw), ?_⟩
    have hch : getCh (modCh (modCh s ch (noteLoss port how)) ch (wrappedAt port)) ch =
        wrappedAt port (noteLoss port how (getCh s ch)) := by rw [getCh_modCh_self, getCh_modCh_self]
    rw [hch]
    refine ⟨?_, ?_, ?_, ?_, ?_, rfl, fun k hk => by rw [getCh_modCh_ne _ _ _ _ hk, getCh_modCh_ne _ _ _ _ hk]⟩
    · by_cases h : port = 0 <;> simp [wrappedAt, h]
    · exact wrappedAt_txdis port how (getCh s ch)
    · rintro rfl; by_cases h : port = 0 <;> simp [wrappedAt, noteLoss, h]
    · rintro rfl; by_cases h : port = 0 <;> simp [wrappedAt, noteLoss, h]
    · rintro rfl; by_cases h : port = 0 <;> simp [wrappedAt, noteLoss, h]
  case passive => exact congrArg Host.Outcome.next (by rw [portLoss, if_neg (by simp [hr])])
  case order =>
    exact congrArg Host.Outcome.next (by simp [unwrapOrder, hp, hb, hst])
  case unwrap =>
    exact congrArg Host.Outcome.next (by simp [Machine.unwrap, hp, hw, hu, hm, hlock, hr])

end Sys2Proof.Machine

namespace Sys2Proof.Machine

/-! ### O17: a second pass of the partner's marker (R250) -/

/-- A unit in COLDSTART whose lane A wraps at port 0 and has had a marker in this round. -/
def wrappedStarter : State := { State.reset with
  sys := { hstate := .coldstart, round := 640#32, roundRan := true, epoch := 4 }
  cfg := [(lkW 0, packWord [(31, 31, 1)])]
  link := { chans := [(0, { wrapPort := some 0, marks := 1 })] } }

/-- The partner's marker of the round, with its epoch. -/
def partnerMark : RxSlot :=
  { ch := 0, port := 0, start := 0, arrival := 0, codeErr := false,
    bytes := slotBytes ((if isAlt wrappedStarter then 0 else 256) * 16 + tyMARK) 128 5 (beBytes 4 640 ++ beBytes 2 5) }

/-- Refutes O17: a marker that passes a second time is only repeated (R250), so that the unit that has wrapped stays in
COLDSTART. -/
theorem not_startUp : ¬ Obligations.StartUp := by
  unfold Obligations.StartUp
  rintro ⟨-, -, h⟩
  obtain ⟨t, ht, hst, -⟩ := h wrappedStarter partnerMark (by decide +kernel) (by decide +kernel) (by decide +kernel)
    (by decide +kernel) (by decide +kernel) (by decide +kernel) (by decide +kernel) (by decide +kernel) (by decide +kernel)
    (by decide +kernel)
  obtain rfl : markAccepted partnerMark wrappedStarter = t := Host.Outcome.next.inj ht
  have hstays : (markAccepted partnerMark wrappedStarter).sys.hstate = .coldstart := by decide +kernel
  rw [hst] at hstays
  cases hstays

/-! ### O18: a matching digest while an entry is noted (R272, R275) -/

/-- An ACTIVE unit on its twin lane with the digest 77 of round 640, that has an entry of its own noted with every copy unit
present. The statement does not ask that the unit be without an entry. -/
def activeInEntry : State :=
  let s : State := { State.reset with
    sys := { hstate := .active, round := 640#32, roundRan := true }
    cfg := [(0x40400000, packWord [(31, 31, 1)])] }
  { s with twin := { locked := true, entry := true, units := copyUnits s, ownDig := some (640#32, 77) } }

/-- The peer's digest of the round, equal to the unit's own. -/
def equalDigest : LaneSlot :=
  { arrival := 0, clk := 5, codeErr := false, bytes := slotBytes (16 * 16 + twTDIG) 1 0 (beBytes 4 640 ++ beBytes 8 77 ++ beBytes 4 0) }

/-- Refutes O18: a digest that agrees counts towards the entry (R275) as well as clearing the run of differences, and an entry
of the active unit is not excluded. -/
theorem not_laneSlots : ¬ Obligations.LaneSlots := by
  unfold Obligations.LaneSlots
  rintro ⟨-, h, -⟩
  obtain ⟨h, -⟩ := h activeInEntry equalDigest (beBytes 4 640 ++ beBytes 8 77 ++ beBytes 4 0) (by decide +kernel)
    (by decide +kernel) (by decide +kernel)
  have ht := Host.Outcome.next.inj (h (by decide +kernel))
  have hcounts : (tdigReceived equalDigest activeInEntry).twin.matched = 1 := by decide +kernel
  have hkept : ({ activeInEntry with twin := { activeInEntry.twin with digRun := 0 } } : State).twin.matched = 0 := by
    decide +kernel
  rw [ht, hkept] at hcounts
  cases hcounts

end Sys2Proof.Machine

namespace Sys2Proof.Machine

/-! ### Nodes that start loading (R239) -/

/-- An element's operation reaches a property that every other operation keeps, on states with an invariant. -/
theorem forAll_reaches {α : Type} (P Q : State → Prop) (l : List α) (f : α → State → State) (s : State) (x : α) (hx : x ∈ l)
    (hP : ∀ y t, P t → P (f y t)) (hQ : ∀ y t, P t → Q t → Q (f y t)) (hreach : ∀ t, P t → Q (f x t)) (hs : P s) :
    Q (forAll l f s) := by
  unfold forAll
  induction l generalizing s with
  | nil => cases hx
  | cons y l ih =>
    rw [List.foldl_cons]
    rcases List.mem_cons.1 hx with rfl | hx
    · exact (forAll_keeps (fun t => P t ∧ Q t) l f (f x s) (fun y _ t ht => ⟨hP y t ht.1, hQ y t ht.1 ht.2⟩)
        ⟨hP x s hs, hreach s hs⟩).2
    · exact ih _ hx (hP y s hs)

/-- A node after a change of one. -/
theorem getNode_modNode (s : State) (ch n k m : Nat) (f : NodeSt → NodeSt) :
    getNode (modNode s ch n f) k m = if k = ch ∧ m = n then f (getNode s ch n) else getNode s k m := by
  by_cases hk : k = ch
  · subst hk
    rw [getNode, modNode, getCh_modCh_self]
    by_cases hm : m = n
    · subst hm; rw [if_pos ⟨rfl, rfl⟩]; exact tget_tset_self _ _ _ _
    · rw [if_neg fun h => hm h.2]; exact tget_tset_ne _ _ _ _ _ hm
  · rw [if_neg fun h => hk h.1, getNode, modNode, getCh_modCh_ne _ _ _ _ hk, getNode]

/-- A node starts its load sequence, or is RETIRED (R239). -/
def startNode (ch n : Nat) (s : State) : State :=
  if isRetired s clsNode n then modNode s ch n (fun d => { d with st := 5 })
  else modNode s ch n (fun _ => { st := 1, countAt := s.sys.round })

theorem startNode_link (ch n : Nat) (s : State) : startNode ch n s = { s with link := (startNode ch n s).link } := by
  unfold startNode
  split <;> rfl

theorem startLoading_eq (s : State) : startLoading s =
    forAll (chansOn s) (fun ch t => forAll (nodesOn t ch) (fun n u => startNode ch n u) t) s := rfl

/-- t is s but for the lanes. -/
def OnlyLink (s t : State) : Prop := t = { s with link := t.link }

theorem OnlyLink.refl (s : State) : OnlyLink s s := rfl

theorem OnlyLink.trans {s t u : State} (h : OnlyLink s t) (k : OnlyLink t u) : OnlyLink s u := by
  rw [OnlyLink] at *; rw [k, h]

theorem OnlyLink.forAll {α : Type} (l : List α) (f : α → State → State) (s : State) (hf : ∀ x t, OnlyLink t (f x t)) :
    OnlyLink s (forAll l f s) :=
  forAll_keeps (fun t => OnlyLink s t) l f s (fun x _ t ht => ht.trans (hf x t)) (.refl s)

/-- The start of loading touches the lanes alone. -/
theorem startLoading_onlyLink (s : State) : OnlyLink s (startLoading s) := by
  rw [startLoading_eq]
  exact OnlyLink.forAll _ _ _ fun ch t => OnlyLink.forAll _ _ _ fun n u => startNode_link ch n u

/-- Which nodes a lane has rests on the image. -/
theorem nodesOn_congr {s t : State} (h : t.cfg = s.cfg) (ch : Nat) : nodesOn t ch = nodesOn s ch := by
  change nodesOn { State.reset with cfg := t.cfg } ch = nodesOn { State.reset with cfg := s.cfg } ch
  rw [h]

/-- Every node that is not retired is LOADING after it. -/
theorem startLoading_loading (s : State) (ch n : Nat) (hch : ch ∈ chansOn s) (hn : n ∈ nodesOn s ch)
    (hr : isRetired s clsNode n = false) : (getNode (startLoading s) ch n).st = 1 := by
  have hret : ∀ t, OnlyLink s t → isRetired t clsNode n = false := fun t ht => by rw [ht]; exact hr
  have hstep : ∀ k m t, OnlyLink s t → (getNode t ch n).st = 1 → (getNode (startNode k m t) ch n).st = 1 := by
    intro k m t ht hst
    unfold startNode
    by_cases hm : m = n
    · subst hm
      rw [hret t ht, if_neg (by simp), getNode_modNode]
      split
      · rfl
      · exact hst
    · split <;> rw [getNode_modNode, if_neg fun h => hm h.2.symm] <;> exact hst
  rw [startLoading_eq]
  refine forAll_reaches (OnlyLink s) (fun t => (getNode t ch n).st = 1) _ _ s ch hch
    (fun k t ht => ht.trans (OnlyLink.forAll _ _ _ fun m u => startNode_link k m u)) (fun k t ht hst => ?_) (fun t ht => ?_) (.refl s)
  · exact (forAll_keeps (fun u => OnlyLink s u ∧ (getNode u ch n).st = 1) _ _ t
      (fun m _ u hu => ⟨hu.1.trans (startNode_link k m u), hstep k m u hu.1 hu.2⟩) ⟨ht, hst⟩).2
  · have hn' : n ∈ nodesOn t ch := by rw [nodesOn_congr (s := s) (by rw [ht])]; exact hn
    refine forAll_reaches (OnlyLink s) (fun u => (getNode u ch n).st = 1) _ _ t n hn'
      (fun m u hu => hu.trans (startNode_link ch m u)) (fun m u hu h => hstep ch m u hu h) (fun u hu => ?_) ht
    unfold startNode
    rw [hret u hu, if_neg (by simp), getNode_modNode, if_pos ⟨rfl, rfl⟩]

/-! ### A transient on the twin lane or the cascade lane (R32, R34) -/

/-- A retirement in the retire block, with its event. -/
theorem retireCore_onlyRet (cause cls idx : Nat) (c : RetCh) (s : State) :
    State.onlyEvents { s with ret := (retireCore cause cls idx c s).ret } (retireCore cause cls idx c s) := by
  obtain ⟨u, hu⟩ : ∃ u, u = retLog cause cls idx (setRet s cls idx { c with
      st := .retired, backoff := 0, perm := cause = 2,
      cnt := (c.stamps.filter (fun t => s.sys.ms ≤ t + (retCfgOf s cls).window)).length }) := ⟨_, rfl⟩
  have h : retireCore cause cls idx c s = raise evRetirement u := by rw [hu]; rfl
  have hus : u = { s with ret := u.ret } := by rw [hu]; rfl
  rw [h, raise_ret, ← hus]
  exact raise_onlyEvents _ _

/-- The channel after its retirement keeps its stamps. -/
theorem retireCore_stamps (cause cls idx : Nat) (c : RetCh) (s : State) :
    (getRet (retireCore cause cls idx c s) cls idx).stamps = c.stamps := by
  rw [getRet, retireCore, raise_ret]
  exact (congrArg RetCh.stamps (tget_tset_self _ _ _ _)).trans rfl

/-- A transient stands in the stamps of its channel, where the retirement of the class leaves the retire block alone. -/
theorem transient_stamps (cls idx : Nat) (s : State) (hr : (getRet s cls idx).st ≠ .retired)
    (hkeep : ∀ u, (retireEffect cls idx u).ret = u.ret) : s.sys.ms ∈ (getRet (transient cls idx s) cls idx).stamps := by
  have hset : ∀ (c : RetCh), (getRet (setRet s cls idx c) cls idx).stamps = c.stamps := fun c =>
    congrArg RetCh.stamps (tget_tset_self _ _ _ _)
  unfold transient
  dsimp only
  rw [if_neg hr]
  split
  · rw [getRet, hkeep, ← getRet, retireCore_stamps]
    exact List.mem_cons_self
  · split
    · rw [hset]; exact List.mem_cons_self
    · rw [hset]; exact List.mem_cons_self

/-- A retired cascade lane: nothing but its record. -/
theorem retireEffect_cascade (u : State) : retireEffect clsCascade 0 u = u := rfl

/-- A retired twin lane: its event, once. -/
theorem retireEffect_twin (u : State) : State.onlyEvents { u with twin := { u.twin with tll := (retireEffect clsTwin 0 u).twin.tll } }
    (retireEffect clsTwin 0 u) := by
  have h : retireEffect clsTwin 0 u =
      if u.twin.tll then u else raise evTwinLinkLost { u with twin := { u.twin with tll := true } } := rfl
  rw [h]
  split
  · exact onlyEvents_refl u
  · rw [raise_twin]
    exact raise_onlyEvents _ _

theorem retireEffect_twin_ret (u : State) : (retireEffect clsTwin 0 u).ret = u.ret := by
  rw [(retireEffect_twin u).1]

/-- A transient on the cascade lane touches the retire block, with its event. -/
theorem transient_cascade (s : State) :
    State.onlyEvents { s with ret := (transient clsCascade 0 s).ret } (transient clsCascade 0 s) := by
  rcases transient_cases clsCascade 0 s with ⟨r, h⟩ | ⟨r, c, h⟩
  · rw [h]; exact onlyEvents_refl _
  · rw [h, retireEffect_cascade]
    exact retireCore_onlyRet 1 clsCascade 0 c { s with ret := r }

/-- A transient on the twin lane touches the retire block and the mark of the lost lane, with their events. -/
theorem transient_twin (s : State) : State.onlyEvents { s with
    ret := (transient clsTwin 0 s).ret, twin := { s.twin with tll := (transient clsTwin 0 s).twin.tll } } (transient clsTwin 0 s) := by
  rcases transient_cases clsTwin 0 s with ⟨r, h⟩ | ⟨r, c, h⟩
  · rw [h]; exact onlyEvents_refl _
  · rw [h]
    obtain ⟨u, hu⟩ : ∃ u, u = retireCore 1 clsTwin 0 c { s with ret := r } := ⟨_, rfl⟩
    have h1 : State.onlyEvents { s with ret := u.ret } u := by rw [hu]; exact retireCore_onlyRet 1 clsTwin 0 c { s with ret := r }
    obtain ⟨h2, h3⟩ := retireEffect_twin u
    rw [← hu]
    refine ⟨?_, fun e he => h3 e (h1.2 e he)⟩
    rw [h2, h1.1]

/-! ### What a change of the head state or the epoch leaves (R263, R297, R402) -/

theorem leaveTwin_eq (h : HeadState) (s : State) :
    leaveTwin h s = { s.twin with entry := (leaveTwin h s).entry, hand := (leaveTwin h s).hand } := by
  unfold leaveTwin
  dsimp only
  split <;> split <;> rfl

/-- A unit that neither shadows nor drives keeps its twin record. -/
theorem leaveTwin_of_apart (h : HeadState) (s : State) (hs : shadows s = false) (hd : driving s = false) : leaveTwin h s = s.twin := by
  simp [leaveTwin, hs, hd]

@[simp] theorem setHead_hstate (h : HeadState) (s : State) : (setHead h s).sys.hstate = h := by
  unfold setHead
  split
  case isTrue hs => exact hs
  case isFalse => rw [raise_sys_hstate]

/-- The head state, what goes with it in the twin record, and an event. -/
theorem setHead_onlyEvents (h : HeadState) (s : State) : State.onlyEvents { s with
    sys := { s.sys with hstate := h, reached := (setHead h s).sys.reached }
    twin := { s.twin with entry := (setHead h s).twin.entry, hand := (setHead h s).twin.hand } } (setHead h s) := by
  unfold setHead
  split
  case isTrue hs => subst hs; exact onlyEvents_refl s
  case isFalse hs =>
    obtain ⟨u, hu⟩ : ∃ u : State, u = { s with
      sys := { s.sys with hstate := h, reached := s.sys.reached || h = .active || h = .standby || h = .isolated }
      twin := leaveTwin h s } := ⟨_, rfl⟩
    have hus : u = { s with
        sys := { s.sys with hstate := h, reached := u.sys.reached }
        twin := { s.twin with entry := u.twin.entry, hand := u.twin.hand } } := by
      rw [hu]; dsimp only; rw [← leaveTwin_eq]
    obtain ⟨hr, hf⟩ := raise_onlyEvents evHeadState u
    have hreached : (raise evHeadState u).sys.reached = u.sys.reached := by rw [hr]
    rw [← hu, hreached, raise_twin, ← hus]
    exact ⟨hr, hf⟩

/-- A new head state is reported. -/
theorem setHead_raised (h : HeadState) (s : State) (hn : s.sys.hstate ≠ h) : State.raised evHeadState (setHead h s) := by
  rw [setHead, if_neg hn]
  exact raise_raised _ _ (by decide) (by decide)

/-- The twin record of a unit that neither shadows nor drives outlasts the change. -/
theorem setHead_twin_of_apart (h : HeadState) (s : State) (hs : shadows s = false) (hd : driving s = false) :
    (setHead h s).twin = s.twin := by
  unfold setHead
  split
  · rfl
  · rw [raise_twin]; exact leaveTwin_of_apart h s hs hd

/-- The epoch, and what starts anew with it. -/
theorem setEpoch_eq (e : Nat) (s : State) : setEpoch e s = { s with
    sys := { s.sys with epoch := e, lastEpoch := (setEpoch e s).sys.lastEpoch }
    sag := { s.sag with brakes := (setEpoch e s).sag.brakes }, host := { s.host with subs := (setEpoch e s).host.subs } } := by
  unfold setEpoch
  split
  case isTrue h => subst h; rfl
  case isFalse => rfl

/-- No test runs that could end. -/
theorem testEnd_of_none (res : Nat) (s : State) (h : s.sag.test = none) : testEnd res s = s := by
  rw [testEnd, h]

/-- No lock-out is stored that could take effect. -/
theorem storedLock_of_none (s : State) (h : s.sag.stored = none) : storedLock s = s := by
  rw [storedLock, h]

/-- The timer of LISTEN as the unit enters it (R236, R237). -/
def listenTimed (pref alt : Nat) (s : State) : State :=
  { s with sys := { s.sys with listenTimer := if isAlt s then alt else pref, stateRounds := 0, quietRounds := 0 } }

/-- The entry to LISTEN (R236, R237): the head state, the timer and what goes with the state in the twin record. -/
theorem enterListen_kept (pref alt : Nat) (s : State) : ∃ e g, State.onlyEvents { s with
    sys := (enterListen pref alt s).sys, twin := { s.twin with entry := e, hand := g } } (enterListen pref alt s) ∧
    (enterListen pref alt s).sys.hstate = .listen ∧
    (enterListen pref alt s).sys.listenTimer = (if isAlt s then alt else pref) ∧
    (enterListen pref alt s).sys.epoch = s.sys.epoch := by
  obtain ⟨h, hf⟩ := setHead_onlyEvents .listen (listenTimed pref alt s)
  have he : enterListen pref alt s = setHead .listen (listenTimed pref alt s) := rfl
  rw [he]
  generalize setHead .listen (listenTimed pref alt s) = u at h hf
  refine ⟨u.twin.entry, u.twin.hand, ⟨?_, hf⟩, ?_, ?_, ?_⟩
  · rw [h]; rfl
  · rw [h]
  · rw [h]; rfl
  · rw [h]; rfl

/-! ### O19: takeover, and the loss and return of the lane (R263, R267, R268, R286) -/

/-- A channel with the heal of a takeover in force (R251, R267). -/
def healTaken (c : Chan) : Chan := { c with heal := true, healTake := true, hseg := none, noReturn := 0, checkNext := true }

theorem forAll_modCh_onlyLink (l : List Nat) (f : Chan → Chan) (s : State) :
    OnlyLink s (forAll l (fun ch t => modCh t ch f) s) := OnlyLink.forAll _ _ _ fun _ _ => rfl

/-- Every channel of a list has the heal in force. -/
theorem forAll_healTaken (l : List Nat) (s : State) (ch : Nat) (h : ch ∈ l) :
    (getCh (forAll l (fun ch t => modCh t ch healTaken) s) ch).heal = true := by
  refine forAll_reaches (fun _ => True) (fun t => (getCh t ch).heal = true) l _ s ch h (fun _ _ _ => trivial)
    (fun k t _ ht => ?_) (fun t _ => by rw [getCh_modCh_self]; rfl) trivial
  by_cases hk : ch = k
  · subst hk; rw [getCh_modCh_self]; rfl
  · rw [getCh_modCh_ne _ _ _ _ hk]; exact ht

/-- The takeover before its heal: the unit is the active one, with the next epoch. -/
def tookOver (s : State) : State :=
  becomeActive .active (modTwin (fun t => { t with takeovers := inc16 t.takeovers })
    (setEpoch ((s.sys.epoch + 1) % 65536) (newActive true (modTwin (fun t => { t with takeNext := false }) s))))

theorem takeoverRound_eq (s : State) (hst : s.sys.hstate = .standby) (ht : s.twin.takeNext = true) :
    takeoverRound s = storedLock (forAll (chansOn (startLoading (tookOver s))) (fun ch t => modCh t ch healTaken)
      (modTwin (fun t => { t with lastRnd := s.sys.round + 1 }) (startLoading (tookOver s)))) := by
  rw [takeoverRound, if_pos ht]
  dsimp only
  rw [if_pos hst]
  rfl

/-- The unit becomes the active one: head state, event, and the round and state noted (R287). -/
theorem becomeActive_kept (h : HeadState) (s : State) : ∃ e g, State.onlyEvents { s with
    sys := (becomeActive h s).sys, twin := { s.twin with lastRnd := s.sys.round, entry := e, hand := g } } (becomeActive h s) ∧
    (becomeActive h s).sys.hstate = h ∧ (becomeActive h s).sys.epoch = s.sys.epoch ∧
    (becomeActive h s).sys.round = s.sys.round ∧ State.raised evActiveChanged (becomeActive h s) := by
  obtain ⟨v, hv⟩ : ∃ v : State, v = { s with
    sys := { s.sys with stateRounds := 0 }, twin := { s.twin with lastRnd := s.sys.round } } := ⟨_, rfl⟩
  obtain ⟨u, hu⟩ : ∃ u, u = setHead h v := ⟨_, rfl⟩
  obtain ⟨hf, hr⟩ : State.onlyEvents { v with
    sys := { v.sys with hstate := h, reached := u.sys.reached }
    twin := { v.twin with entry := u.twin.entry, hand := u.twin.hand } } u := by rw [hu]; exact setHead_onlyEvents h v
  have he : becomeActive h s = raise evActiveChanged u := by rw [hu, hv]; rfl
  obtain ⟨hf2, hr2⟩ := raise_onlyEvents evActiveChanged u
  have hev : State.raised evActiveChanged (raise evActiveChanged u) := raise_raised _ _ (by decide) (by decide)
  rw [he]
  generalize raise evActiveChanged u = w at hf2 hr2 hev
  refine ⟨u.twin.entry, u.twin.hand, ⟨?_, fun e h => hr2 e (hr e (by rw [hv]; exact h))⟩, ?_, ?_, ?_, hev⟩
  · rw [hf2, hf, hv]
  · rw [hf2, hf]
  · rw [hf2, hf, hv]
  · rw [hf2, hf, hv]

/-- A new active unit without a brake test: its twin record and its subscribers start anew (R281, R286, R403). -/
theorem newActive_kept (b : Bool) (s : State) (h : s.sag.test = none) :
    newActive b s = { s with twin := (newActive b s).twin, host := (newActive b s).host } ∧
      (newActive b s).twin.takeovers = s.twin.takeovers ∧ (newActive b s).twin.takeNext = s.twin.takeNext := by
  rw [newActive, testEnd_of_none]
  · exact ⟨rfl, rfl, rfl⟩
  · exact h

/-- What the takeover leaves of the unit. -/
theorem tookOver_kept (s : State) (htest : s.sag.test = none) :
    (tookOver s).sys.hstate = .active ∧ (tookOver s).sys.epoch = (s.sys.epoch + 1) % 65536 ∧
      (tookOver s).twin.takeovers = inc16 s.twin.takeovers ∧ (tookOver s).twin.takeNext = false ∧
      (tookOver s).sys.round = s.sys.round ∧ State.raised evActiveChanged (tookOver s) ∧ (tookOver s).axes = s.axes ∧
      (tookOver s).mem = s.mem ∧ (tookOver s).sag.stored = s.sag.stored ∧ (tookOver s).cfg = s.cfg := by
  obtain ⟨w, hw⟩ : ∃ w, w = modTwin (fun t => { t with takeNext := false }) s := ⟨_, rfl⟩
  obtain ⟨v, hv⟩ : ∃ v, v = newActive true w := ⟨_, rfl⟩
  obtain ⟨hvw, hto, hnx⟩ := newActive_kept true w (by rw [hw]; exact htest)
  rw [← hv] at hvw hto hnx
  obtain ⟨a, ha⟩ : ∃ a, a = setEpoch ((s.sys.epoch + 1) % 65536) v := ⟨_, rfl⟩
  have hav := setEpoch_eq ((s.sys.epoch + 1) % 65536) v
  rw [← ha] at hav
  obtain ⟨b, hb⟩ : ∃ b, b = modTwin (fun t => { t with takeovers := inc16 t.takeovers }) a := ⟨_, rfl⟩
  have he : tookOver s = becomeActive .active b := by rw [hb, ha, hv, hw]; rfl
  obtain ⟨e, g, ⟨hf, -⟩, hst, hepoch, hround, hraised⟩ := becomeActive_kept .active b
  rw [he]
  refine ⟨hst, ?_, ?_, ?_, ?_, hraised, ?_, ?_, ?_, ?_⟩
  · rw [hepoch, hb, modTwin, hav]
  · rw [hf, hb, modTwin, hav]; exact congrArg inc16 (hto.trans (by rw [hw]; rfl))
  · rw [hf, hb, modTwin, hav]; exact hnx.trans (by rw [hw]; rfl)
  · rw [hround, hb, modTwin, hav, hvw, hw]; rfl
  · rw [hf, hb, modTwin, hav, hvw, hw]; rfl
  · rw [hf, hb, modTwin, hav, hvw, hw]; rfl
  · rw [hf, hb, modTwin, hav, hvw, hw]; rfl
  · rw [hf, hb, modTwin, hav, hvw, hw]; rfl

/-- Which channels are in use rests on the image. -/
theorem chansOn_congr {s t : State} (h : t.cfg = s.cfg) : chansOn t = chansOn s := by
  change chansOn { State.reset with cfg := t.cfg } = chansOn { State.reset with cfg := s.cfg }
  rw [h]

/-- A unit that is isolated (R263). -/
theorem isolate_kept (c : Nat) (s : State) : ∃ e g, State.onlyEvents { s with
    sys := (isolate c s).sys, twin := { s.twin with cause := c, hbReq := false, entry := e, hand := g } } (isolate c s) ∧
    (isolate c s).sys.hstate = .isolated := by
  obtain ⟨v, hv⟩ : ∃ v : State, v = { s with
    twin := { s.twin with cause := c, hbReq := false, hand := none }, sys := { s.sys with quietRounds := 0 } } := ⟨_, rfl⟩
  obtain ⟨h, hf⟩ := setHead_onlyEvents .isolated v
  have he : isolate c s = setHead .isolated v := by rw [hv]; rfl
  rw [he]
  generalize setHead .isolated v = u at h hf
  refine ⟨u.twin.entry, u.twin.hand, ⟨?_, fun e he => hf e (by rw [hv]; exact he)⟩, ?_⟩
  · rw [h, hv]
  · rw [h]

/-- The lane of a unit whose receiver loses its lock (R268, R286). -/
def unlockedLane (now : Word) (t : Twin) : Twin := { t with
  locked := false, lostAt := now, sinceLease := 3, hand := none, peerGrant := none, hbReq := false, partBody := [] }

/-- A unit that lacks the twin lane (R268). -/
def lackingLane (t : Twin) : Twin := { t with tll := true }

/-- The lane's receiver locks. -/
def lockedLane (t : Twin) : Twin := { t with locked := true }

/-- Settles O19: what the standby, the isolated unit and the loss and return of the lane leave. -/
theorem leaseAndLane : Obligations.LeaseAndLane := by
  unfold Obligations.LeaseAndLane
  refine ⟨fun s hst hs hl hk => ?takeNext, fun s hst ht hstored htest => ?takeover, fun s hst hs hl hk => ?listen,
    fun s hst hu' hm hl => ?linkLost, fun s hr hq => ?laneLoss, fun s hst hc hr => ?locked, fun s hst hq => ?timeout⟩
  case takeNext =>
    have hx : ¬ (s.sys.hstate ≠ .standby ∨ !silentNow s ∨ s.twin.silent + 1 < Cfg.TWCFG_LEASE s) := by simp [hst, hs, hl]
    exact congrArg Host.Outcome.next (by rw [leaseExpiry, if_neg hx, if_pos hk]; rfl)
  case takeover =>
    obtain ⟨hact, hep, hto, htn, hrnd, hev, hax, hmem, hsto, hcfg⟩ := tookOver_kept s htest
    obtain ⟨u, hu⟩ : ∃ u, u = startLoading (tookOver s) := ⟨_, rfl⟩
    have hul : OnlyLink (tookOver s) u := by rw [hu]; exact startLoading_onlyLink _
    obtain ⟨w, hw⟩ : ∃ w, w = modTwin (fun t => { t with lastRnd := s.sys.round + 1 }) u := ⟨_, rfl⟩
    obtain ⟨v, hv⟩ : ∃ v, v = forAll (chansOn u) (fun ch t => modCh t ch healTaken) w := ⟨_, rfl⟩
    have hwv : OnlyLink w v := by rw [hv]; exact forAll_modCh_onlyLink _ _ _
    have he : takeoverRound s = v := by
      rw [takeoverRound_eq s hst ht, ← hu, ← hw, ← hv]
      refine storedLock_of_none v ?_
      rw [hwv, hw, modTwin, hul]
      exact hsto.trans hstored
    rw [he]
    have hsys : v.sys = (tookOver s).sys := by rw [hwv, hw, modTwin, hul]
    have htw : v.twin = { (tookOver s).twin with lastRnd := s.sys.round + 1 } := by rw [hwv, hw, modTwin, hul]
    have hchans : chansOn u = chansOn s := chansOn_congr (by rw [hul]; exact hcfg)
    refine ⟨by rw [hsys, hact], by rw [hsys, hep], by rw [htw]; exact hto, by rw [htw], by rw [htw]; exact htn, by rw [hsys, hrnd],
      fun ch hch => ?_, ?_, ?_, ?_⟩
    · rw [hv]; exact forAll_healTaken _ _ ch (by rw [hchans]; exact hch)
    · rw [State.raised, hwv, hw, modTwin, hul]; exact hev
    · rw [hwv, hw, modTwin, hul]; exact hax
    · rw [hwv, hw, modTwin, hul]; exact hmem
  case listen =>
    have hx : ¬ (s.sys.hstate ≠ .standby ∨ !silentNow s ∨ s.twin.silent + 1 < Cfg.TWCFG_LEASE s) := by simp [hst, hs, hl]
    have he : leaseExpiry s = enterListen 64 88 s := by rw [leaseExpiry, if_neg hx, if_neg (by simp [hk])]
    obtain ⟨e, g, ⟨hf, -⟩, hlist, htime, hep⟩ := enterListen_kept 64 88 s
    exact ⟨_, congrArg Host.Outcome.next he, hlist, hep, by rw [hf], htime⟩
  case linkLost =>
    obtain ⟨u, hu⟩ : ∃ u, u = raise evTwinLinkLost (modTwin lackingLane s) := ⟨_, rfl⟩
    obtain ⟨hf1, -⟩ := raise_onlyEvents evTwinLinkLost (modTwin lackingLane s)
    rw [← hu] at hf1
    have hev : State.raised evTwinLinkLost u := by rw [hu]; exact raise_raised _ _ (by decide) (by decide)
    have he : twinLinkLost s = isolate 1 u := by rw [hu, twinLinkLost, if_pos (by simp [hst, hu', hm, hl])]; rfl
    obtain ⟨e, g, ⟨hf, hr⟩, hiso⟩ := isolate_kept 1 u
    refine ⟨_, congrArg Host.Outcome.next he, hiso, by rw [hf], ?_, hr _ hev, ?_, ?_⟩
    · rw [hf, hf1]; rfl
    · rw [hf, hf1]; rfl
    · rw [hf, hf1]; rfl
  case laneLoss =>
    have hx : ¬ (s.sys.hstate = .standby && silentNow s && decide (0 < s.twin.silent)) = true := by
      intro h
      simp only [Bool.and_eq_true, decide_eq_true_eq] at h
      obtain ⟨⟨h1, h2⟩, h3⟩ := h
      rcases hq h1 with h | h
      · rw [h] at h2; cases h2
      · omega
    obtain ⟨v, hv⟩ : ∃ v, v = modTwin (unlockedLane s.sys.round) s := ⟨_, rfl⟩
    have he : laneLoss s = transient clsTwin 0 v := by rw [hv, laneLoss]; exact if_neg hx
    obtain ⟨hf, -⟩ := transient_twin v
    have hms : v.sys.ms ∈ (getRet (transient clsTwin 0 v) clsTwin 0).stamps :=
      transient_stamps clsTwin 0 v (by rw [hv]; exact hr) retireEffect_twin_ret
    refine ⟨_, congrArg Host.Outcome.next he, ?_, ?_, ?_, by rw [hv] at hms ⊢; exact hms, ?_, ?_⟩
    · rw [hf, hv]; rfl
    · rw [hf, hv]; rfl
    · rw [hf, hv]; rfl
    · rw [hf, hv]; rfl
    · rw [hf, hv]; rfl
  case locked =>
    have he : isoRejoin (modTwin lockedLane s) =
        enterListen 64 88 (modTwin (fun t => { t with tll := false, cause := 0 }) (modTwin lockedLane s)) := by
      rw [isoRejoin]
      exact if_pos (by simp [modTwin, lockedLane, getRet, hst, hc]; exact hr)
    obtain ⟨e, g, ⟨hf, -⟩, hlist, -⟩ :=
      enterListen_kept 64 88 (modTwin (fun t => { t with tll := false, cause := 0 }) (modTwin lockedLane s))
    refine ⟨_, congrArg Host.Outcome.next he, hlist, ?_, ?_, ?_, ?_⟩
    · rw [hf]; rfl
    · rw [hf]; rfl
    · rw [hf]; rfl
    · rw [hf]; rfl
  case timeout =>
    have he : isolatedTimeout s = enterListen 64 88 s := if_pos ⟨hst, hq⟩
    obtain ⟨e, g, ⟨hf, -⟩, hlist, -⟩ := enterListen_kept 64 88 s
    have hne : (listenTimed 64 88 s).sys.hstate ≠ .listen := by
      change s.sys.hstate ≠ .listen
      rw [hst]; decide
    refine ⟨_, congrArg Host.Outcome.next he, hlist, ?_, by rw [hf], setHead_raised .listen (listenTimed 64 88 s) hne⟩
    refine setHead_twin_of_apart .listen (listenTimed 64 88 s) ?_ ?_
    · change (decide (s.sys.hstate = _) || (decide (s.sys.hstate = _) && _)) = false
      simp [hst]
    · change (decide (s.sys.hstate = _) || decide (s.sys.hstate = _)) = false
      simp [hst]

end Sys2Proof.Machine

namespace Sys2Proof.Machine

/-! ### O21: handback and the TWCMD commands (R263, R276, R277) -/

theorem twAct_of_some {c : Nat} {s t : State} (h : twCommand c s = some t) : twAct c s = t := by rw [twAct, h]; rfl

theorem twAct_of_none {c : Nat} {s : State} (h : twCommand c s = none) : twAct c s = refuseWrite s := by rw [twAct, h]; rfl

/-- The active unit that gives way in round h (R276), before its head state. -/
def givesWay (h : Word) (t : Twin) : Twin := { t with
  hand := none, entry := false, handbacks := inc16 t.handbacks, silent := 0, peerHbReq := false, lastRnd := h }

/-- The handback round of an active unit whose peer still asks (R276). -/
theorem handbackRound_gives (s : State) (hst : s.sys.hstate = .active) (hh : s.twin.hand = some (s.sys.round + 1))
    (hl : s.twin.sinceLease = 0) (hu : laneInUse s = true) (hp : s.twin.peerHbReq = true) :
    handbackRound s = testEnd 3 (setHead .standby (dropUnsure (modTwin (givesWay (s.sys.round + 1)) (raise evActiveChanged s)))) := by
  unfold handbackRound
  dsimp only
  rw [if_pos (by simp [hst, hh]), if_pos (by simp [hl, hu, hp])]
  rfl

/-- No handshake comes of a change of the head state. -/
theorem setHead_hand_none (h : HeadState) (s : State) (hn : s.twin.hand = none) : (setHead h s).twin.hand = none := by
  have hl : (leaveTwin h s).hand = none := by
    unfold leaveTwin
    dsimp only
    split
    · split <;> rfl
    · split <;> exact hn
  unfold setHead
  split
  · exact hn
  · rw [raise_twin]; exact hl

/-- The end of a handback leaves the twin record. -/
theorem setHead_active_twin (s : State) (hst : s.sys.hstate = .handback) : (setHead .active s).twin = s.twin := by
  rw [setHead, if_neg (by rw [hst]; decide), raise_twin]
  simp [leaveTwin, shadows, keepsTo, driving, hst]

/-- A YIELD to the preferred unit inhibits handback (R277). -/
def yielding (alt : Bool) (t : Twin) : Twin := { t with hbinh := t.hbinh || !alt }

/-- Settles O21: the request, the round and the end of a handback, and the TWCMD commands. -/
theorem handback : Obligations.Handback := by
  unfold Obligations.Handback
  refine ⟨fun s hs hh => ?request, fun s hst hh hl hu hp htest => ?round, fun s hst hr hsto => ?done,
    fun s m hm hst hu hk hh => ?yield, fun s m hm hst => ?rejoin, fun s m hm => ?inhibit, fun s m hm hst => ?refused⟩
  case request => exact congrArg Host.Outcome.next (by rw [hbreq, if_pos (by simp [hs, hh])]; rfl)
  case round =>
    obtain ⟨u, hu⟩ : ∃ u, u = raise evActiveChanged s := ⟨_, rfl⟩
    obtain ⟨hf1, -⟩ := raise_onlyEvents evActiveChanged s
    have hev : State.raised evActiveChanged u := by rw [hu]; exact raise_raised _ _ (by decide) (by decide)
    rw [← hu] at hf1
    obtain ⟨v, hv⟩ : ∃ v, v = dropUnsure (modTwin (givesWay (s.sys.round + 1)) u) := ⟨_, rfl⟩
    have hvu : v = { u with twin := { givesWay (s.sys.round + 1) u.twin with outq := [] }, host := v.host } := by rw [hv]; rfl
    obtain ⟨hf, hr⟩ := setHead_onlyEvents .standby v
    have hhand : (setHead .standby v).twin.hand = none := setHead_hand_none .standby v (by rw [hvu]; rfl)
    have hst' := setHead_hstate .standby v
    generalize hw : setHead .standby v = w at hf hr hhand hst'
    have hwev : State.raised evActiveChanged w := hr _ (by rw [State.raised, hvu]; exact hev)
    have he : handbackRound s = w := by
      rw [handbackRound_gives s hst hh hl (by assumption) hp, ← hu, ← hv, hw]
      refine testEnd_of_none 3 w ?_
      rw [hf, hvu, hf1]
      exact htest
    refine ⟨w, congrArg Host.Outcome.next he, hst', hhand, ?_, ?_, ?_, ?_, hwev, ?_, ?_⟩
    · rw [hf, hvu, hf1]; rfl
    · rw [hf, hvu, hf1]; rfl
    · rw [hf, hvu, hf1]
    · rw [hf, hvu, hf1]
    · rw [hf, hvu, hf1]
    · rw [hf, hvu, hf1]
  case done =>
    obtain ⟨v, hv⟩ : ∃ v, v = setHead .active s := ⟨_, rfl⟩
    obtain ⟨hf, -⟩ := setHead_onlyEvents .active s
    rw [← hv] at hf
    have hl := startLoading_onlyLink v
    have hcfg : v.cfg = s.cfg := by rw [hf]
    have he : handbackEnd s = startLoading v := by
      rw [handbackEnd, if_pos (by simp [hst, hr]), ← hv]
      refine storedLock_of_none _ ?_
      rw [hl, hf]
      exact hsto
    refine ⟨_, congrArg Host.Outcome.next he, ?_, ?_, ?_, fun ch hch n hn hret => ?_, ?_, ?_⟩
    · rw [hl, hv]; exact setHead_hstate _ _
    · rw [hl, hf]
    · rw [hl, hf]
    · exact startLoading_loading v ch n (by rw [chansOn_congr hcfg]; exact hch) (by rw [nodesOn_congr hcfg]; exact hn)
        (by rw [hf]; exact hret)
    · rw [hl, hv]
      exact setHead_active_twin s hst
    · rw [State.raised, hl, hv]
      exact setHead_raised .active s (by rw [hst]; decide)
  case yield =>
    have hc : twCommand 1 s = some (grant (modTwin (yielding (isAlt s)) s)) := by
      change yieldCmd s = _
      rw [yieldCmd, if_pos (by simp [hst, hu, hk])]
      rfl
    have hg : grant (modTwin (yielding (isAlt s)) s) =
        modTwin (fun t => { yielding (isAlt s) t with hand := some (grantRound s.sys.round) }) s := by
      simp [grant, modTwin, yielding, hh]
    refine ⟨_, congrArg Host.Outcome.next ((withRight_of_reaches _ _ _ _ hm).trans ((twAct_of_some hc).trans hg)), rfl, fun ha => ?_, rfl⟩
    simp [modTwin, yielding, ha]
  case rejoin =>
    obtain ⟨e, g, ⟨hf, -⟩, hlist, -⟩ := enterListen_kept 64 88 (modTwin (fun t => { t with cause := 0, tll := false }) s)
    have he : exec (.rejoin m) s = .next (enterListen 64 88 (modTwin (fun t => { t with cause := 0, tll := false }) s)) :=
      congrArg Host.Outcome.next ((withRight_of_reaches _ _ _ _ hm).trans (twAct_of_some (if_pos hst)))
    refine ⟨_, he, hlist, ?_, ?_, ?_⟩
    · rw [hf]; rfl
    · rw [hf]; rfl
    · rw [hf]; rfl
  case inhibit =>
    refine ⟨congrArg Host.Outcome.next ((withRight_of_reaches _ _ _ _ hm).trans ?_),
      congrArg Host.Outcome.next ((withRight_of_reaches _ _ _ _ hm).trans ?_)⟩
    · rw [twAct_of_some (c := 3) rfl]
      simp [modTwin]
    · rw [twAct_of_some (c := 4) rfl]
      simp [modTwin]
  case refused =>
    have he : exec (.rejoin m) s = .next (refuseWrite s) :=
      congrArg Host.Outcome.next ((withRight_of_reaches _ _ _ _ hm).trans (twAct_of_none (if_neg hst)))
    exact ⟨_, he, raise_onlyEvents _ _, raise_raised _ _ (by decide) (by decide)⟩

/-! ### O20: commands across a pair, and copy units (R264, R274, R279) -/

/-- The standby's twin record with one more whole command (R279). -/
def storedCommand (c : HostCmd) (t : Twin) : Twin := { t with
  partBody := [], stored := t.stored ++ [c], confirmed := t.confirmed ++ [c.seq] }

/-- A command that was confirmed, or that the active unit accepts alone, acts in the next round (R279). -/
def acceptNext (s : State) (c : HostCmd) : HostCmd := { c with ok := true, round := s.sys.round + 1 }

/-- A forwarded command that no TCONF has confirmed within four rounds (R279). -/
def forwardedLate (s : State) (seq : Word) (c : HostCmd) : Bool :=
  c.seq = seq && c.fwd && !c.ok && !s.twin.outq.any (fun q => q.1 = seq) && decide (4 ≤ (s.sys.round - c.round).toNat)

/-- The unit's twin record after a committed command (R279). -/
def committedCommand (c x : HostCmd) (t : Twin) : Twin := { t with
  stored := t.stored.filter (fun y => y.seq ≠ c.seq), committed := t.committed ++ [x] }

/-- A copy unit of a slow block touches neither the head's system record nor the lanes (R274). -/
theorem takeCopy_slow (c : CopyContent) (s : State) (h : isSlow c = true) :
    (takeCopy c s).sys = s.sys ∧ (takeCopy c s).link = s.link := by
  cases c with
  | bank a b0 b1 act pend at_ => exact ⟨rfl, rfl⟩
  | slow mask flags pin route ret win safety log count total => exact ⟨rfl, rfl⟩
  | ladle c bytes => exact absurd h (by simp [isSlow, copyKey])
  | owner o p r => cases o <;> exact absurd h (by simp [isSlow, copyKey])
  | group g r => exact absurd h (by simp [isSlow, copyKey])
  | axis a x => exact absurd h (by simp [isSlow, copyKey])
  | mover g r ms => exact absurd h (by simp [isSlow, copyKey])

/-- Settles O20: what the lane's commands, their confirmations and commits, and copy units leave. -/
theorem pairCommands : Obligations.PairCommands := by
  unfold Obligations.PairCommands
  refine ⟨fun s r p h hs hlast => ?store, fun s r p h => ?confirm, fun s c hc hf ho hr hq => ?alone, fun s r p c h ht hn hd hfind => ?commit,
    fun s u hs he hw hl hslow hr => ?unit, fun s u hs he hw hl hslow => ?slow, fun s u hslow hr => ?late⟩
  case store =>
    obtain ⟨c, hseq, hop, hok, hc⟩ : ∃ c : HostCmd, c.seq = BitVec.ofNat 32 (beNat p 0 4) ∧
        c.op = beNat (s.twin.partBody ++ p.drop 8) 0 2 ∧ c.ok = false ∧
        tcmdReceived r s = modTwin (storedCommand c) s.tick.tick := by
      unfold tcmdReceived
      simp only [h, hs, hlast, Bool.not_true, Bool.false_eq_true, if_false]
      exact ⟨_, rfl, rfl, rfl, rfl⟩
    exact ⟨_, c, congrArg Host.Outcome.next hc, rfl, hseq, hop, hok, rfl, rfl, rfl⟩
  case confirm =>
    have he : tconfReceived r s = modWaiting (List.map (fun c =>
        if c.fwd && !c.ok && (beWords p).contains c.seq then acceptNext s c else c)) s := by
      unfold tconfReceived
      simp only [h]
      rfl
    refine ⟨_, congrArg Host.Outcome.next he, rfl, List.length_map _, fun c hc hf ho hq => ?_⟩
    exact List.mem_map.2 ⟨c, hc, if_pos (by simp [hf, ho]; exact hq)⟩
  case alone =>
    obtain ⟨v, hv⟩ : ∃ v, v = voidHand (modWaiting (List.map (fun x => if forwardedLate s c.seq x then acceptNext s x else x)) s) :=
      ⟨_, rfl⟩
    have hl : forwardedLate s c.seq c = true := by
      have hq' : s.twin.outq.any (fun q => q.1 = c.seq) = false := by simpa using hq
      simp [forwardedLate, hf, ho, hq']
      exact hr
    have he : tconfTimeout c.seq s = transient clsTwin 0 v := by
      rw [hv]
      exact if_pos (List.any_eq_true.2 ⟨c, hc, hl⟩)
    obtain ⟨ht, -⟩ := transient_twin v
    have hwait : v.host.waiting = s.host.waiting.map (fun x => if forwardedLate s c.seq x then acceptNext s x else x) := by
      rw [hv]; rfl
    refine ⟨_, congrArg Host.Outcome.next he, ?_, ?_, ?_, ?_⟩
    · rw [ht]
      change _ ∈ v.host.waiting
      rw [hwait]
      exact List.mem_map.2 ⟨c, hc, if_pos hl⟩
    · rw [ht, hv]; rfl
    · rw [ht, hv]; rfl
    · by_cases hret : (getRet s clsTwin 0).st = .retired
      · exact .inl hret
      · have hms := transient_stamps clsTwin 0 v (by rw [hv]; exact hret) retireEffect_twin_ret
        rw [hv] at hms ⊢
        exact .inr hms
  case commit =>
    obtain ⟨q, l, hq⟩ : ∃ q l, (beWords p).drop 1 = q :: l := List.exists_cons_of_ne_nil hd
    have hnth : nth 0#32 (beWords p) 1 = q := by
      have h1 : ((beWords p).drop 1)[0]? = some q := by rw [hq]; rfl
      rw [List.getElem?_drop] at h1
      simpa [nth] using congrArg (Option.getD · 0#32) h1
    have hseq : c.seq = q := by simpa [hnth] using List.find?_some hfind
    have he : tcommitReceived r s = modWaiting (fun l => l ++ [{ c with ok := true, round := s.sys.round }])
        (modTwin (committedCommand c { c with ok := true, round := s.sys.round }) s) := by
      rw [hnth] at hfind
      unfold tcommitReceived
      simp only [h, ht, hn, hq, Bool.not_true, Bool.false_eq_true, if_false]
      change forAll [q] _ s = _
      rw [forAll_singleton]
      simp only [hfind]
      rw [← hseq]
      rfl
    refine ⟨_, congrArg Host.Outcome.next he, rfl, fun x hx => ?_, rfl, rfl⟩
    have hx' : x ∈ s.twin.stored.filter (fun y => y.seq ≠ c.seq) := hx
    simpa using (List.mem_filter.1 hx').2
  case unit =>
    have he : tcopyReceived u s = modTwin (fun t => { t with
        arrived := t.arrived.filter (fun v => copyKey v.content ≠ copyKey u.content) ++ [u] }) s := by
      rw [tcopyReceived, if_neg (show ¬ (!(shadows s && s.twin.entry && u.complete && laneInUse s)) = true by simp [hs, he, hw, hl]),
        if_neg (show ¬ isSlow u.content = true by simp [hslow]), if_pos hr]
    refine ⟨_, congrArg Host.Outcome.next he, List.mem_append_right _ List.mem_cons_self, fun v hv => ?_, rfl⟩
    rcases List.mem_append.1 hv with hv | hv
    · obtain ⟨h1, h2⟩ := List.mem_filter.1 hv
      exact .inr ⟨h1, by simpa using h2⟩
    · exact .inl (List.mem_singleton.1 hv)
  case slow =>
    have he : tcopyReceived u s = noteUnit (copyKey u.content) (takeCopy u.content s) := by
      simp [tcopyReceived, hs, he, hw, hl, hslow]
    obtain ⟨hsys, hlink⟩ := takeCopy_slow u.content s hslow
    exact ⟨_, congrArg Host.Outcome.next he, rfl, rfl, hsys, hlink⟩
  case late =>
    refine congrArg Host.Outcome.next ?_
    rw [tcopyReceived]
    split
    · rfl
    · rw [if_neg (show ¬ isSlow u.content = true by simp [hslow]), if_neg (by omega)]

/-! ### O22: round number and T0 of a cascade slave (R283, R284, R288) -/

/-- The cascade unit takes a new state and reports it (R288). -/
theorem setCasc_kept (st : Nat) (s : State) (h : s.casc.st ≠ st) :
    State.onlyEvents { s with casc := { s.casc with st := st } } (setCasc st s) ∧ State.raised evCascade (setCasc st s) := by
  rw [setCasc, if_neg h]
  exact ⟨raise_onlyEvents _ (modCasc (fun c => { c with st := st }) s), raise_raised _ _ (by decide) (by decide)⟩

/-- The same, whether or not the state is new. -/
theorem setCasc_onlyEvents (st : Nat) (s : State) : State.onlyEvents { s with casc := { s.casc with st := st } } (setCasc st s) := by
  by_cases h : s.casc.st = st
  · rw [setCasc, if_pos h]
    subst h
    exact onlyEvents_refl s
  · exact (setCasc_kept st s h).1

/-- The listen timer that starts with the time base touches the system record alone (R236). -/
theorem startTimer_eq (s : State) : startTimer s = { s with sys := (startTimer s).sys } := by
  unfold startTimer
  split <;> rfl

theorem startTimer_listen (s : State) (h : s.sys.hstate = .listen) :
    (startTimer s).sys.listenTimer = if isAlt s then 88 else 64 := by
  rw [startTimer, if_pos h]

theorem startTimer_sys (s : State) : (startTimer s).sys = { s.sys with listenTimer := (startTimer s).sys.listenTimer } := by
  unfold startTimer
  split <;> rfl

/-- A state of the cascade unit with which the wait for its time base is over (R236, R283). -/
theorem setCasc_startTimer (st : Nat) (s : State) (h : s.casc.st ≠ st) : ∃ t, startTimer (setCasc st s) = t ∧
    t.casc = { s.casc with st := st } ∧ State.raised evCascade t ∧
    (s.sys.hstate = .listen → t.sys.listenTimer = (if isAlt s then 88 else 64)) ∧ t.sys.round = s.sys.round ∧
    State.onlyEvents { s with casc := t.casc, sys := t.sys } t := by
  obtain ⟨⟨hf, hr⟩, hev⟩ := setCasc_kept st s h
  obtain ⟨u, hu⟩ : ∃ u, u = setCasc st s := ⟨_, rfl⟩
  rw [← hu] at hf hr hev ⊢
  obtain ⟨t, ht⟩ : ∃ t, t = startTimer u := ⟨_, rfl⟩
  have h1 := startTimer_eq u
  have h2 := startTimer_sys u
  have h3 := startTimer_listen u
  rw [← ht] at h1 h2 h3 ⊢
  have hst : u.sys.hstate = s.sys.hstate := by rw [hf]
  have halt : isAlt u = isAlt s := by rw [hf]; rfl
  refine ⟨t, rfl, ?_, ?_, fun hl => ?_, ?_, ?_, ?_⟩
  · rw [h1, hf]
  · rw [State.raised, h1]; exact hev
  · rw [← halt]; exact h3 (by rw [hst]; exact hl)
  · rw [h2, hf]
  · rw [h1, hf]
  · intro e he
    rw [State.raised, h1]
    exact hr e he

/-- What CMARK leaves of the cascade record (R283, R284). -/
def marked (n : Word) (ep : Nat) (c : Casc) : Casc := { c with cmark := some n, cepoch := ep, locked := true, rndErr := false }

/-- An accepted CMARK, taken (R283, R284). -/
theorem takeCmark_accepted (s : State) (r : LaneSlot) (hs : cascSlave s = true) (hh : s.sys.hstate ≠ .boot) (hc : r.codeErr = false)
    (hret : cascRetired s = false) (hcrc : rxCrcOk 6 r.bytes = true) (hty : rxHdr r.bytes % 16 = 1) (n : Word) (ep : Nat)
    (hn : BitVec.ofNat 32 (beNat (rxPayload r.bytes) 0 4) = n) (hep : beNat (rxPayload r.bytes) 4 2 = ep) :
    takeCmark r s = if s.casc.st = 1 ∧ s.sys.hstate = .listen ∧ !s.sys.roundRan then
      { s with casc := marked n ep s.casc, sys := { s.sys with round := n, roundRan := true } }
      else { s with casc := { marked n ep s.casc with rndErr := decide (n ≠ s.sys.round) } } := by
  unfold takeCmark
  dsimp only
  rw [if_neg (by simp [hs, hh, hc, hret]), if_neg (by simp [hcrc]), if_neg (by simp [hty]), hn, hep]
  rfl

/-- A retired cascade lane ends the following (R284): nothing but the cascade record and an event, and the lock as it was. -/
theorem cascOff_kept (s : State) : State.onlyEvents { s with casc := (cascOff s).casc } (cascOff s) ∧
    (cascOff s).casc.locked = s.casc.locked := by
  unfold cascOff
  split
  · obtain ⟨v, hv⟩ : ∃ v, v = modCasc (fun c => { c with exports := [], cmark := none }) s := ⟨_, rfl⟩
    have h := setCasc_onlyEvents 4 v
    have hc : (setCasc 4 v).casc = { v.casc with st := 4 } := by rw [h.1]
    rw [← hv, hc]
    refine ⟨?_, by rw [hv]; rfl⟩
    rw [hv] at h ⊢
    exact h
  · exact ⟨onlyEvents_refl s, rfl⟩

/-- Settles O22: CMARK, the edge of CSYNC, the loss of the time base, and the loss of the cascade lane. -/
theorem cascadeTime : Obligations.CascadeTime := by
  unfold Obligations.CascadeTime
  refine ⟨fun s r hs hh hc hret hcrc hty => ?mark, fun s ofs hs hh hret hst hm => ?first, fun s ofs hs hh hret hst ho hr => ?synced,
    fun s hs h2 h4 hn => ?lost, fun s hst hw hms => ?waited, fun s hret => ?loss⟩
  case mark =>
    obtain ⟨u, hu⟩ : ∃ u, u = repeatCasc r s := ⟨_, rfl⟩
    have h1 : u = { s with tx := u.tx } := by rw [hu]; exact repeatCasc_eq r s
    have he := takeCmark_accepted u r (by rw [h1]; exact hs) (by rw [h1]; exact hh) hc (by rw [h1]; exact hret) hcrc hty _ _ rfl rfl
    have hcasc : u.casc = s.casc := by rw [h1]
    have hsys : u.sys = s.sys := by rw [h1]
    rw [hcasc, hsys] at he
    have hx : cmarkReceived r s = takeCmark r u := by rw [hu]; rfl
    by_cases hw : s.casc.st = 1 ∧ s.sys.hstate = .listen ∧ !s.sys.roundRan
    · rw [if_pos hw] at he
      refine ⟨_, congrArg Host.Outcome.next (hx.trans he), rfl, rfl, fun _ _ _ => ⟨rfl, rfl⟩, fun hn => absurd hw.1 hn, ?_⟩
      rw [h1]
    · rw [if_neg hw] at he
      refine ⟨_, congrArg Host.Outcome.next (hx.trans he), rfl, rfl, fun a b c => absurd ⟨a, b, by simp [c]⟩ hw,
        fun _ => ⟨rfl, by simp⟩, ?_⟩
      rw [h1]
  case first =>
    have hm' : s.casc.cmark.isSome = true := Option.isSome_iff_ne_none.2 hm
    obtain ⟨v, hv⟩ : ∃ v, v = modCasc (fun c => { c with offs := 0, noSync := 0, inRange := 0 }) s := ⟨_, rfl⟩
    have he : csyncEdge ofs s = startTimer (setCasc 2 v) := by
      rw [hv, csyncEdge, if_neg (by simp [hs, hh, hret])]
      dsimp only
      rw [if_pos hst, if_pos hm']
    have hvst : v.casc.st ≠ 2 := by rw [hv]; change s.casc.st ≠ 2; omega
    obtain ⟨t, ht, hcasc, hev, htimer, hround, hf⟩ := setCasc_startTimer 2 v hvst
    refine ⟨t, congrArg Host.Outcome.next (he.trans ht), by rw [hcasc], by rw [hcasc, hv]; rfl, hev, ?_, ?_, ?_⟩
    · rw [hv] at htimer; exact htimer
    · rw [hround, hv]; rfl
    · rw [hv] at hf; exact hf
  case synced =>
    obtain ⟨v, hv, hcst, hax⟩ : ∃ v : State, csyncEdge ofs s = setCasc 3 v ∧ v.casc.st = 2 ∧ v.axes = s.axes := by
      have hrun : (if decide (((Cfg.CSDLY_DLY s : Int) - ofs).natAbs ≤ 20) then incSat 16 s.casc.inRange else 0) = 16 := by
        rw [if_pos (by simp [ho]), hr]; rfl
      unfold csyncEdge
      dsimp only
      rw [if_neg (by simp [hs, hh, hret]), if_neg (by omega), hrun, if_pos rfl]
      refine ⟨_, rfl, ?_, ?_⟩
      · split <;> exact hst
      · split <;> rfl
    obtain ⟨hf, hev⟩ := setCasc_kept 3 v (by omega)
    refine ⟨_, congrArg Host.Outcome.next hv, by rw [hf.1], hev, by rw [hf.1, ← hax]⟩
  case lost =>
    have he : csyncLost s = setCasc 4 s := by rw [csyncLost, if_pos (by simp [hs, h2, hn])]
    obtain ⟨hf, hev⟩ := setCasc_kept 4 s h4
    have hc : (setCasc 4 s).casc = { s.casc with st := 4 } := by rw [hf.1]
    refine ⟨_, congrArg Host.Outcome.next he, hc, hev, ?_⟩
    rw [hc]; exact hf
  case waited =>
    have he : cwaitExpiry s = startTimer (setCasc 4 s) := by rw [cwaitExpiry, if_pos (by simp [hst, hw, hms])]
    obtain ⟨t, ht, hrest⟩ := setCasc_startTimer 4 s (by omega)
    exact ⟨t, congrArg Host.Outcome.next (he.trans ht), hrest⟩
  case loss =>
    obtain ⟨v, hv⟩ : ∃ v, v = modCasc (fun c => { c with locked := false }) s := ⟨_, rfl⟩
    obtain ⟨u, hu⟩ : ∃ u, u = transient clsCascade 0 v := ⟨_, rfl⟩
    have hst : (getRet v clsCascade 0).st ≠ .retired := by
      rw [hv]
      exact of_decide_eq_false hret
    have hms : v.sys.ms ∈ (getRet u clsCascade 0).stamps := by
      rw [hu]
      exact transient_stamps clsCascade 0 v hst fun _ => rfl
    obtain ⟨huv, -⟩ := transient_cascade v
    rw [← hu] at huv
    obtain ⟨⟨hf, -⟩, hl⟩ := cascOff_kept u
    have he : exec .cascadeLaneLoss s = .next (cascOff u) := by rw [hu, hv]; rfl
    refine ⟨_, he, ?_, ?_, ?_, ?_, ?_, ?_⟩
    · rw [hl, huv, hv]; rfl
    · rw [getRet, hf, ← getRet]
      rw [hv] at hms
      exact hms
    · rw [hf, huv, hv]; rfl
    · rw [hf, huv, hv]; rfl
    · rw [hf, huv, hv]; rfl
    · rw [hf, huv, hv]; rfl

end Sys2Proof.Machine

namespace Sys2Proof.Machine

/-! ### What the local outputs touch (R302) -/

/-- The safety record but for the pairs' commands and feedback. -/
def withPairs (g h : Saggar) : Saggar := { g with outOn := h.outOn, outCmd := h.outCmd, sfb := h.sfb }

/-- t is s, but for the pairs' commands and feedback, what a brake's report makes of axes and groups, and raised events. -/
def PairsOnly (s t : State) : Prop :=
  State.onlyEvents { s with sag := withPairs s.sag t.sag, axes := t.axes, groups := t.groups } t

theorem PairsOnly.refl (s : State) : PairsOnly s s := onlyEvents_refl s

theorem PairsOnly.trans {s t u : State} (h : PairsOnly s t) (k : PairsOnly t u) : PairsOnly s u := by
  obtain ⟨h1, h2⟩ := h
  obtain ⟨k1, k2⟩ := k
  refine ⟨?_, fun e he => k2 e (h2 e he)⟩
  rw [k1, h1]
  rfl

/-- t is s but for axes, groups and raised events. -/
def AxesOnly (s t : State) : Prop := State.onlyEvents { s with axes := t.axes, groups := t.groups } t

theorem AxesOnly.refl (s : State) : AxesOnly s s := onlyEvents_refl s

theorem AxesOnly.trans {s t u : State} (h : AxesOnly s t) (k : AxesOnly t u) : AxesOnly s u := by
  obtain ⟨h1, h2⟩ := h
  obtain ⟨k1, k2⟩ := k
  refine ⟨?_, fun e he => k2 e (h2 e he)⟩
  rw [k1, h1]

theorem AxesOnly.sag {s t : State} (h : AxesOnly s t) : t.sag = s.sag := by rw [h.1]

theorem PairsOnly.of_axes {s t : State} (h : AxesOnly s t) : PairsOnly s t := by
  rw [PairsOnly, h.sag]
  exact h

theorem modCtl_axesOnly (s : State) (a : Nat) (f : AxCtl → AxCtl) : AxesOnly s (modCtl s a f) := onlyEvents_refl _

theorem raise_axesOnly (e : Nat) (s : State) : AxesOnly s (raise e s) := by
  rw [AxesOnly, raise_axes, raise_groups]
  exact raise_onlyEvents e s

theorem raise_pairsOnly (e : Nat) (s : State) : PairsOnly s (raise e s) := .of_axes (raise_axesOnly e s)

theorem raiseAx_axesOnly (a c : Nat) (s : State) : AxesOnly s (raiseAx a c s) := by
  refine AxesOnly.trans ?_ (raise_axesOnly _ _)
  exact ⟨rfl, fun _ h => h⟩

theorem enterOff_axesOnly (st : AxState) (a : Nat) (s : State) : AxesOnly s (enterOff st a s) := by
  refine AxesOnly.trans ?_ (modCtl_axesOnly _ _ _)
  unfold abortPrestart
  split
  · refine AxesOnly.trans ?_ (raiseAx_axesOnly _ _ _)
    exact onlyEvents_refl _
  · exact .refl s

theorem brakeDone_axesOnly (a : Nat) (s : State) : AxesOnly s (brakeDone a s) := by
  unfold brakeDone
  dsimp only
  split
  · exact .refl s
  · split
    · exact modCtl_axesOnly _ _ _
    · exact enterOff_axesOnly _ _ _
    · exact enterOff_axesOnly _ _ _
    · exact .refl s

/-- A report of a brake touches axes and groups (R294). -/
theorem brakeReport_axesOnly (o : Owner) (on : Bool) (s : State) : AxesOnly s (brakeReport o on s) := by
  cases o with
  | axis a =>
    unfold brakeReport
    dsimp only
    split
    · exact modCtl_axesOnly _ _ _
    · split
      · exact modCtl_axesOnly _ _ _
      · exact (modCtl_axesOnly _ _ _).trans (brakeDone_axesOnly _ _)
  | group g => exact onlyEvents_refl _

/-- The command of one pair. -/
theorem switchPair_pairsOnly (k : Nat) (on : Bool) (s : State) : PairsOnly s (switchPair k on s) := by
  obtain ⟨v, hv⟩ : ∃ v, v = if s.sag.outOn.testBit k = (on && driving s) then s
    else modSag (fun g => { g with outOn := setBit g.outOn k (on && driving s) }) s := ⟨_, rfl⟩
  have h0 : PairsOnly s v := by
    rw [hv]
    split
    · exact .refl s
    · exact onlyEvents_refl _
  unfold switchPair
  rw [← hv]
  dsimp only
  split
  · exact h0
  · have h1 : PairsOnly v (modSag (fun g => { g with outCmd := setBit g.outCmd k on, sfb := setBit g.sfb k on }) v) := onlyEvents_refl _
    split
    · exact (h0.trans h1).trans (.of_axes (brakeReport_axesOnly _ _ _))
    · exact h0.trans h1

theorem outputs_pairsOnly (s : State) : PairsOnly s (outputs s) :=
  forAll_keeps (fun t => PairsOnly s t) _ _ s (fun k _ t ht => ht.trans (switchPair_pairsOnly k (pairOn t k) t)) (.refl s)

/-- The record of a state whose pairs alone have changed. -/
theorem PairsOnly.sag {s t : State} (h : PairsOnly s t) : t.sag = withPairs s.sag t.sag := by
  obtain ⟨h1, -⟩ := h
  rw [h1]
  rfl

theorem PairsOnly.driving {s t : State} (h : PairsOnly s t) : driving t = driving s := by rw [h.1]; rfl

theorem PairsOnly.sagClear {s t : State} (h : PairsOnly s t) : sagClear t = sagClear s := by
  rw [Machine.sagClear, h.sag]; rfl

/-- The energised pairs after one pair was commanded. -/
theorem switchPair_outOn (k : Nat) (on : Bool) (s : State) (j : Nat) :
    (switchPair k on s).sag.outOn.testBit j = if j = k then (on && driving s) else s.sag.outOn.testBit j := by
  obtain ⟨v, hv⟩ : ∃ v, v = if s.sag.outOn.testBit k = (on && driving s) then s
    else modSag (fun g => { g with outOn := setBit g.outOn k (on && driving s) }) s := ⟨_, rfl⟩
  have h0 : v.sag.outOn.testBit j = if j = k then (on && driving s) else s.sag.outOn.testBit j := by
    rw [hv]
    split
    case isTrue h =>
      split
      case isTrue hj => rw [hj]; exact h
      case isFalse => rfl
    case isFalse h => exact testBit_setBit _ _ _ _
  rw [← h0]
  unfold switchPair
  rw [← hv]
  dsimp only
  split
  · rfl
  · split
    · rw [(brakeReport_axesOnly _ _ _).sag]; rfl
    · rfl

/-- After the outputs are set, a pair that is to be off in every state that the other pairs can give is off. -/
theorem outputs_off (s : State) (h : sagClear s = false) (k : Nat) (hk : k < 4) : (outputs s).sag.outOn.testBit k = false := by
  have hoff : ∀ t, PairsOnly s t → ∀ j, pairOn t j = false := fun t ht j => by simp [pairOn, ht.sagClear, h]
  refine forAll_reaches (PairsOnly s) (fun t => t.sag.outOn.testBit k = false) _ _ s k (List.mem_range.2 hk)
    (fun j t ht => ht.trans (switchPair_pairsOnly j (pairOn t j) t)) (fun j t ht hb => ?_) (fun t ht => ?_) (.refl s)
  · rw [switchPair_outOn, hoff t ht j]
    split
    · rfl
    · exact hb
  · rw [switchPair_outOn, if_pos rfl, hoff t ht k]
    rfl

/-! ### O23: the causes of a lock-out (R303, R304) -/

/-- The record of the first cause of a lock-out (R303, R304). -/
def lockedRecord (code i : Nat) (g : Saggar) : Saggar := { g with
  standing := if g.standing.contains (code, i) then g.standing else g.standing ++ [(code, i)]
  others := code ≠ 12, st := 2, cause := code, index := i, stored := some (code, i) }

theorem foundCause_normal (code i : Nat) (s : State) (h : s.sag.st = 1) : foundCause code i s =
    outputs (raise evLockOut { s with
      sag := lockedRecord code i s.sag, sys := { s.sys with lockAt := some (s.sys.round + if code = 12 then 1 else 2) } }) := by
  rw [foundCause, if_neg (by omega), if_pos h]
  rfl

/-- A lock-out as the statement describes it. -/
def LockOut (code i : Nat) (s t : State) : Prop :=
  t.sag.st = 2 ∧ t.sag.cause = code ∧ t.sag.index = i ∧ t.sag.stored = some (code, i) ∧
    (code, i) ∈ t.sag.standing ∧ (∀ k, k < 4 → t.sag.outOn.testBit k = false) ∧
    t.sys.lockAt = some (s.sys.round + 2) ∧ State.raised evLockOut t ∧
    State.onlyEvents { s with
      sag := t.sag, axes := t.axes, groups := t.groups, sys := { s.sys with lockAt := t.sys.lockAt } } t

/-- A cause that is found in NORMAL is a lock-out. -/
theorem foundCause_lockOut (code i : Nat) (s : State) (h : s.sag.st = 1) (hc : code ≠ 12) : LockOut code i s (foundCause code i s) := by
  obtain ⟨v, hv⟩ : ∃ v : State, v = { s with
      sag := lockedRecord code i s.sag, sys := { s.sys with lockAt := some (s.sys.round + 2) } } := ⟨_, rfl⟩
  have he : foundCause code i s = outputs (raise evLockOut v) := by rw [foundCause_normal code i s h, if_neg hc, hv]
  have hp : PairsOnly v (outputs (raise evLockOut v)) := (raise_pairsOnly evLockOut v).trans (outputs_pairsOnly _)
  have hoff : ∀ k, k < 4 → (outputs (raise evLockOut v)).sag.outOn.testBit k = false := fun k hk =>
    outputs_off _ (by rw [(raise_pairsOnly evLockOut v).sagClear, hv]; rfl) k hk
  have hev : State.raised evLockOut (outputs (raise evLockOut v)) :=
    (outputs_pairsOnly _).2 _ (raise_raised _ _ (by decide) (by decide))
  rw [he]
  generalize outputs (raise evLockOut v) = t at hp hoff hev
  have hsag := hp.sag
  have hlock : t.sys.lockAt = v.sys.lockAt := by rw [hp.1]
  refine ⟨by rw [hsag, hv]; rfl, by rw [hsag, hv]; rfl, by rw [hsag, hv]; rfl, by rw [hsag, hv]; rfl, ?_, hoff,
    by rw [hlock, hv], hev, ?_⟩
  · rw [hsag, hv]
    change _ ∈ if s.sag.standing.contains (code, i) then s.sag.standing else s.sag.standing ++ [(code, i)]
    split
    case isTrue h => simpa using h
    case isFalse => simp
  · rw [hlock]
    rw [PairsOnly, ← hsag] at hp
    rw [hv] at hp ⊢
    exact hp

/-- What may happen before Saggar finds a cause: its record, axes and groups, and raised events. -/
def SagOnly (s t : State) : Prop := State.onlyEvents { s with sag := t.sag, axes := t.axes, groups := t.groups } t

theorem SagOnly.of_pairs {s t : State} (h : PairsOnly s t) : SagOnly s t := by
  rw [SagOnly, h.sag]
  exact h

theorem modSag_sagOnly (f : Saggar → Saggar) (s : State) : SagOnly s (modSag f s) := onlyEvents_refl _

theorem SagOnly.trans {s t u : State} (h : SagOnly s t) (k : SagOnly t u) : SagOnly s u := by
  obtain ⟨h1, h2⟩ := h
  obtain ⟨k1, k2⟩ := k
  refine ⟨?_, fun e he => k2 e (h2 e he)⟩
  rw [k1, h1]

/-- A cause that is found after a change of the record alone. -/
theorem foundCause_lockOut_after (code i : Nat) (s v : State) (hv : SagOnly s v) (h : v.sag.st = 1) (hc : code ≠ 12) :
    LockOut code i s (foundCause code i v) := by
  obtain ⟨h1, h2, h3, h4, h5, h6, h7, h8, hf, hr⟩ := foundCause_lockOut code i v h hc
  obtain ⟨hvf, hvr⟩ := hv
  refine ⟨h1, h2, h3, h4, h5, h6, ?_, h8, ?_, fun e he => hr e (hvr e he)⟩
  · rw [h7, hvf]
  · rw [hf, hvf]

/-- The hard stop switches every pair off (R290). -/
theorem hardStop_sagOnly (s : State) : SagOnly s (hardStop s) ∧ (hardStop s).sag.st = s.sag.st := by
  obtain ⟨v, hv⟩ : ∃ v, v = modSag (fun g => { g with stopped := true }) s := ⟨_, rfl⟩
  have hp := outputs_pairsOnly v
  have he : hardStop s = outputs v := by rw [hv]; rfl
  rw [he]
  refine ⟨SagOnly.trans (t := v) (by rw [hv]; exact modSag_sagOnly _ s) (.of_pairs hp), ?_⟩
  rw [hp.sag, hv]
  rfl

/-- A channel's record after its brake test ends with a result (R300, R301). -/
def testedBrake (res : Nat) (b : Brake) : Brake :=
  if res = 1 then { b with tres := 1, hrs := 0, due := false, blocked := false } else { b with tres := res, blocked := true }

/-- A state whose brake test t is over. -/
def testOver (res : Nat) (t : BTest) (s : State) : State :=
  modSag (fun g => { g with test := none }) (modBrk s t.ch (testedBrake res))

theorem testEnd_of_some (res : Nat) (s : State) (t : BTest) (h : s.sag.test = some t) :
    testEnd res s = raise evBrakeTest (testOver res t s) := by rw [testEnd, h]; rfl

theorem testOver_sagOnly (res : Nat) (t : BTest) (s : State) : SagOnly s (testOver res t s) := onlyEvents_refl _

/-- The end of a brake test: its channel's record, and its event (R301). -/
theorem testEnd_sagOnly (res : Nat) (s : State) : SagOnly s (testEnd res s) ∧ (testEnd res s).sag.st = s.sag.st := by
  cases h : s.sag.test with
  | none =>
    rw [testEnd_of_none res s h]
    exact ⟨onlyEvents_refl s, rfl⟩
  | some t =>
    rw [testEnd_of_some res s t h, raise_sag]
    exact ⟨(testOver_sagOnly res t s).trans (.of_pairs (raise_pairsOnly _ _)), rfl⟩

/-- Settles O23: every finding reduces to a cause that is found in NORMAL. -/
theorem lockOutCauses : Obligations.LockOutCauses := by
  unfold Obligations.LockOutCauses
  intro s c code i hst hc12 hcases
  suffices h : ∃ v, exec c s = .next (foundCause code i v) ∧ SagOnly s v ∧ v.sag.st = 1 by
    obtain ⟨v, he, hv, hvst⟩ := h
    exact ⟨_, he, foundCause_lockOut_after code i s v hv hvst hc12⟩
  have hnow : SagOnly s s := onlyEvents_refl s
  have hstop := hardStop_sagOnly s
  rcases hcases with rfl | ⟨rfl, rfl, hon⟩ | ⟨rfl, rfl⟩ | ⟨rfl, rfl, rfl⟩ | ⟨rfl, rfl, rfl⟩ | ⟨rfl, rfl, rfl⟩ | ⟨rfl, rfl, rfl⟩ |
    ⟨rfl, rfl, rfl⟩ | ⟨rfl, rfl, rfl⟩ | ⟨rfl, rfl, rfl⟩ | ⟨rfl, rfl, rfl⟩ | ⟨rfl, rfl, rfl⟩ | ⟨rfl, rfl, rfl, hdeg, hms⟩ |
    ⟨rfl, rfl, hfb, t, hct, ht⟩
  · exact ⟨s, rfl, hnow, hst⟩
  · exact ⟨s, congrArg Host.Outcome.next (if_pos (by simp [hon])), hnow, hst⟩
  · exact ⟨_, rfl, modSag_sagOnly _ s, hst⟩
  · exact ⟨_, rfl, hstop.1, hstop.2.trans hst⟩
  · exact ⟨_, rfl, hstop.1, hstop.2.trans hst⟩
  · exact ⟨_, rfl, modSag_sagOnly _ s, hst⟩
  · exact ⟨_, rfl, modSag_sagOnly _ s, hst⟩
  · exact ⟨_, rfl, modSag_sagOnly _ s, hst⟩
  · exact ⟨_, rfl, modSag_sagOnly _ s, hst⟩
  · exact ⟨_, rfl, modSag_sagOnly _ s, hst⟩
  · exact ⟨_, rfl, modSag_sagOnly _ s, hst⟩
  · exact ⟨_, rfl, modSag_sagOnly _ s, hst⟩
  · exact ⟨s, congrArg Host.Outcome.next (if_pos ⟨hdeg, hms⟩), hnow, hst⟩
  · obtain ⟨v, he, hv, hvst⟩ : ∃ v, brakeTimeout i s = foundCause 3 i v ∧ SagOnly s v ∧ v.sag.st = s.sag.st := by
      unfold brakeTimeout
      simp only [hct]
      rw [if_pos ⟨ht, hfb⟩]
      split
      · split
        · exact ⟨_, rfl, testEnd_sagOnly 4 s⟩
        · exact ⟨s, rfl, hnow, rfl⟩
      · exact ⟨s, rfl, hnow, rfl⟩
    exact ⟨v, congrArg Host.Outcome.next he, hv, hvst.trans hst⟩

/-! ### O25: the entry to LOCKED (R263, R276, R304) -/

/-- An ACTIVE unit that has granted a handback for round 656 and whose lock-out is due. -/
def grantingUnit : State := { State.reset with
  sys := { hstate := .active, round := 640#32, roundRan := true, lockAt := some 640#32 }
  sag := { st := 2 }, twin := { hand := some 656#32 } }

/-- Refutes O25: a unit that leaves ACTIVE for LOCKED voids the handback that it has granted, so that its twin record does
change. -/
theorem not_lockOutAndReset : ¬ Obligations.LockOutAndReset := by
  unfold Obligations.LockOutAndReset
  rintro ⟨h, -⟩
  obtain ⟨t, ht, -, -, -, -, -, -, -, -, -, -, -, -, htw, -⟩ := h grantingUnit 640#32 (by decide +kernel) (by decide +kernel)
    (by decide +kernel) (by decide +kernel) (by decide +kernel)
  obtain rfl : lockout grantingUnit = t := Host.Outcome.next.inj ht
  have hvoid : (lockout grantingUnit).twin.hand = none := by decide +kernel
  have hgrant : grantingUnit.twin.hand = some 656#32 := by decide +kernel
  rw [htw, hgrant] at hvoid
  cases hvoid

/-! ### O24: self-tests (R290, R292, R307) -/

/-- Causes none of which clears. -/
theorem clearCause_of_none (p : Nat × Nat → Bool) (s : State) (h : ∀ q ∈ s.sag.standing, p q = false) : clearCause p s = s := by
  have hf : s.sag.standing.filter (fun q => !p q) = s.sag.standing := List.filter_eq_self.2 fun q hq => by simp [h q hq]
  rw [clearCause]
  exact if_pos (by rw [hf])

/-- Settles O24: what each self-test that passes leaves, and how they end. -/
theorem selfTests : Obligations.SelfTests := by
  unfold Obligations.SelfTests
  refine ⟨fun s => ⟨rfl, rfl, rfl, rfl, rfl, fun h => ?comparator, fun h => ?pulse, fun k h => ?dark⟩,
    fun s hst hcpu hram hrom hcmp => ?ends⟩
  case comparator => exact congrArg Host.Outcome.next (clearCause_of_none _ _ fun q hq => by simpa using h q hq)
  case pulse =>
    have hmin : min (s.sag.pulseOkMs + 50) 1000 = s.sag.pulseOkMs + 50 := by omega
    refine congrArg Host.Outcome.next ?_
    rw [testPulse, if_pos (by decide)]
    simp only [modSag, hmin]
    rw [if_neg (by omega)]
  case dark => exact congrArg Host.Outcome.next (if_neg (by simp))
  case ends =>
    have hdone : ¬ (s.sag.st ≠ 0 ∨ s.sag.selfCpu.isNone ∨ s.sag.selfRam.isNone ∨ s.sag.selfRom.isNone ∨ s.sag.selfCmp.isNone) := by
      rw [Option.isSome_iff_exists] at hcpu hram hrom hcmp
      obtain ⟨⟨a, ha⟩, ⟨b, hb⟩, ⟨c, hc⟩, d, hd⟩ := And.intro hcpu (And.intro hram (And.intro hrom hcmp))
      simp [hst, ha, hb, hc, hd]
    refine ⟨fun hnone hbad => ?_, fun c i l hl hbad => ?_⟩
    · have he : selfTestEnd s = modSag (fun g => { g with st := 1 }) s := by
        rw [selfTestEnd, if_neg hdone]
        simp only [hbad, hnone, Bool.false_and, Bool.false_eq_true, if_false]
      exact congrArg Host.Outcome.next he
    · obtain ⟨v, hv⟩ : ∃ v : State, v = { s with
        sag := { s.sag with st := 2, cause := c, index := i, others := true, stored := some (c, i) }
        sys := { s.sys with lockAt := some s.sys.round } } := ⟨_, rfl⟩
      have he : selfTestEnd s = raise evLockOut v := by
        rw [selfTestEnd, if_neg hdone, hv]
        simp only [hbad, hl, Bool.false_and, Bool.false_eq_true, if_false]
      refine ⟨_, congrArg Host.Outcome.next he, raise_raised _ _ (by decide) (by decide), by rw [raise_sag, hv], ?_⟩
      rw [raise_sag, hv]
      exact raise_onlyEvents _ _

end Sys2Proof.Machine

namespace Sys2Proof.Machine

/-! ### O26: safe copies and safe periods (R294, R296 to R298) -/

/-- t keeps the brake channels, the memory, the configuration and the round of s. -/
def BrakesKept (s t : State) : Prop :=
  t.sag.brakes = s.sag.brakes ∧ t.mem = s.mem ∧ t.cfg = s.cfg ∧ t.sys.round = s.sys.round

theorem BrakesKept.refl (s : State) : BrakesKept s s := ⟨rfl, rfl, rfl, rfl⟩

theorem BrakesKept.trans {s t u : State} (h : BrakesKept s t) (k : BrakesKept t u) : BrakesKept s u := by
  obtain ⟨h1, h2, h3, h4⟩ := h
  obtain ⟨k1, k2, k3, k4⟩ := k
  exact ⟨k1.trans h1, k2.trans h2, k3.trans h3, k4.trans h4⟩

theorem BrakesKept.of_pairs {s t : State} (h : PairsOnly s t) : BrakesKept s t := by
  obtain ⟨h, -⟩ := h
  rw [h]
  exact ⟨rfl, rfl, rfl, rfl⟩

theorem BrakesKept.getBrk {s t : State} (h : BrakesKept s t) (b : Nat) : getBrk t b = getBrk s b := by
  rw [Machine.getBrk, h.1]; rfl

theorem raise_brakesKept (e : Nat) (s : State) : BrakesKept s (raise e s) := .of_pairs (raise_pairsOnly e s)

theorem foundCause_brakesKept (c i : Nat) (s : State) : BrakesKept s (foundCause c i s) := by
  unfold foundCause
  dsimp only
  split
  · exact ⟨rfl, rfl, rfl, rfl⟩
  · split
    · refine BrakesKept.trans ?_ (.of_pairs (outputs_pairsOnly _))
      refine BrakesKept.trans ?_ (raise_brakesKept _ _)
      exact ⟨rfl, rfl, rfl, rfl⟩
    · unfold onlyIf
      split
      · refine BrakesKept.trans ?_ (raise_brakesKept _ _)
        exact ⟨rfl, rfl, rfl, rfl⟩
      · exact ⟨rfl, rfl, rfl, rfl⟩

theorem clearCause_brakesKept (p : Nat × Nat → Bool) (s : State) : BrakesKept s (clearCause p s) := by
  unfold clearCause
  dsimp only
  split
  · exact .refl s
  · split
    · split <;> exact ⟨rfl, rfl, rfl, rfl⟩
    · exact ⟨rfl, rfl, rfl, rfl⟩

theorem pairsBack_brakesKept (s : State) : BrakesKept s (pairsBack s) := by
  unfold pairsBack
  split
  · have h := clearCause_brakesKept (fun q => q.1 = 1 || q.1 = 2 || q.1 = 13) s
    dsimp only
    split
    · refine h.trans (BrakesKept.trans ?_ (raise_brakesKept _ _))
      exact ⟨rfl, rfl, rfl, rfl⟩
    · exact h
  · exact .refl s

/-- What a report of channel b leaves: of its record the feedback alone may change. -/
def ReportLeaves (b : Nat) (s t : State) : Prop :=
  ((getBrk t b).got = (getBrk s b).got ∧ (getBrk t b).link = (getBrk s b).link ∧
    (getBrk t b).misses = (getBrk s b).misses ∧ (getBrk t b).basis = (getBrk s b).basis) ∧
  t.mem = s.mem ∧ t.cfg = s.cfg ∧ t.sys.round = s.sys.round

theorem ReportLeaves.of_kept {b : Nat} {s t : State} (h : BrakesKept s t) : ReportLeaves b s t := by
  obtain ⟨-, hm, hc, hr⟩ := id h
  rw [ReportLeaves, h.getBrk]
  exact ⟨⟨rfl, rfl, rfl, rfl⟩, hm, hc, hr⟩

theorem ReportLeaves.trans {b : Nat} {s t u : State} (h : ReportLeaves b s t) (k : ReportLeaves b t u) : ReportLeaves b s u := by
  obtain ⟨⟨h1, h2, h3, h4⟩, h5, h6, h7⟩ := h
  obtain ⟨⟨k1, k2, k3, k4⟩, k5, k6, k7⟩ := k
  exact ⟨⟨k1.trans h1, k2.trans h2, k3.trans h3, k4.trans h4⟩, k5.trans h5, k6.trans h6, k7.trans h7⟩

/-- The channel's feedback (R294). -/
def feedbackIs (fb : Nat) (k : Brake) : Brake := { k with fb := fb, changeRounds := if fb = k.cmd then none else k.changeRounds }

theorem modBrk_feedback (s : State) (b fb : Nat) : ReportLeaves b s (modBrk s b (feedbackIs fb)) := by
  rw [ReportLeaves, getBrk_modBrk, if_pos rfl]
  exact ⟨⟨rfl, rfl, rfl, rfl⟩, rfl, rfl, rfl⟩

/-- A brake test that waits for the applied report of channel b begins its first current (R301). -/
def testApplied (o : Owner) (b fb : Nat) (s : State) : State :=
  match s.sag.test with
  | some t =>
    if t.ch = b ∧ t.phase = 0 ∧ fb = 1 then
      modSag (fun g => { g with test := some { t with phase := 1, rounds := 0, dev := 0, p0 := ownerPos s o } }) s
    else s
  | none => s

theorem testApplied_kept (o : Owner) (b fb : Nat) (s : State) : BrakesKept s (testApplied o b fb s) := by
  unfold testApplied
  split
  · split <;> exact ⟨rfl, rfl, rfl, rfl⟩
  · exact .refl s

/-- Saggar judges the report's echo (R303). -/
def judgedEcho (b low : Nat) (s : State) : State :=
  if decide (low / 256 ≠ 0) || decide (low % 4 ≠ (getBrk s b).prevCmd) then foundCause 14 b s
  else clearCause (fun q => q = (14, b)) s

/-- The feedback of a report is taken, and clears its cause when it agrees with the command (R294, R303). -/
def judgedFeedback (b fb cmd : Nat) (s : State) : State :=
  if fb = cmd then clearCause (fun q => q = (3, b)) (modBrk s b (feedbackIs fb)) else modBrk s b (feedbackIs fb)

theorem takeReport_eq (b low : Nat) (s : State) : takeReport b low s =
    if low / 4 % 4 = 0 ∨ low / 4 % 4 = 3 then foundCause 3 b (judgedEcho b low s)
    else testApplied (brakeOwner s b) b (low / 4 % 4) (brakeReport (brakeOwner s b) (low / 4 % 4 = 2)
      (judgedFeedback b (low / 4 % 4) (getBrk s b).cmd (judgedEcho b low s))) := rfl

theorem judgedEcho_leaves (b low : Nat) (s : State) : ReportLeaves b s (judgedEcho b low s) := by
  unfold judgedEcho
  split
  · exact .of_kept (foundCause_brakesKept _ _ _)
  · exact .of_kept (clearCause_brakesKept _ _)

theorem judgedFeedback_leaves (b fb cmd : Nat) (s : State) : ReportLeaves b s (judgedFeedback b fb cmd s) := by
  unfold judgedFeedback
  split
  · exact (modBrk_feedback s b fb).trans (.of_kept (clearCause_brakesKept _ _))
  · exact modBrk_feedback s b fb

/-- A report of a channel is taken (R294, R296). -/
theorem takeReport_leaves (b low : Nat) (s : State) : ReportLeaves b s (takeReport b low s) := by
  rw [takeReport_eq]
  split
  · exact (judgedEcho_leaves b low s).trans (.of_kept (foundCause_brakesKept _ _ _))
  · exact (((judgedEcho_leaves b low s).trans (judgedFeedback_leaves _ _ _ _)).trans
      (.of_kept (.of_pairs (.of_axes (brakeReport_axesOnly _ _ _))))).trans (.of_kept (testApplied_kept _ _ _ _))

/-- A channel with a valid pair (R298). -/
def paired (k : Brake) : Brake := { k with link := 0, got := true, misses := 0, basis := true }

/-- A valid pair leaves its channel with link 0, a basis and no miss (R298, R299). -/
theorem formed_pair (b low : Nat) (s : State) :
    (getBrk (formed b 0 low s) b).got = true ∧ (getBrk (formed b 0 low s) b).link = 0 ∧
      (getBrk (formed b 0 low s) b).misses = 0 ∧ (getBrk (formed b 0 low s) b).basis = true ∧
      (formed b 0 low s).mem = s.mem ∧ (formed b 0 low s).cfg = s.cfg ∧ (formed b 0 low s).sys.round = s.sys.round := by
  have he : formed b 0 low s = pairsBack (takeReport b low (modBrk s b paired)) := rfl
  obtain ⟨⟨h1, h2, h3, h4⟩, h5, h6, h7⟩ := (takeReport_leaves b low (modBrk s b paired)).trans (.of_kept (pairsBack_brakesKept _))
  have hp : getBrk (modBrk s b paired) b = paired (getBrk s b) := by rw [getBrk_modBrk, if_pos rfl]
  rw [hp] at h1 h2 h3 h4
  rw [he]
  exact ⟨h1, h2, h3, h4, h5, h6, h7⟩

/-- The copy that a slot of the SAFE entry brings: SSEQ, and the low half of SDATA (R296). -/
def copyOf (r : RxSlot) : Nat × Nat := (beNat (rxPayload r.bytes) 2 2, beNat (rxPayload r.bytes) 6 2)

/-- The channel with the copy that a Toelle channel has brought. -/
def copyTaken (r : RxSlot) (k : Brake) : Brake :=
  if r.ch = 0 then { k with copyA := some (copyOf r) } else { k with copyB := some (copyOf r) }

/-- An accepted copy is judged with the other one of its period (R298). -/
theorem safeReceived_ok (s u : State) (r : RxSlot) (e : SEntry) (h : acceptUp r tySAFE s = (u, some e))
    (hen : Cfg.SGBRK_EN s e.aux = true) (hok : copyOk u e.aux r = true) :
    safeReceived r s = judgeCopies e.aux (modBrk u e.aux (copyTaken r)) := by
  unfold safeReceived
  simp only [h, hen, hok, Bool.not_true, Bool.false_eq_true, if_false, if_true]
  rfl

/-- t keeps, of channel b, the command sent, the SSEQ to come and the absence of copies. -/
def CommandKept (b : Nat) (k : Brake) (s t : State) : Prop :=
  ((getBrk t b).sent = k.sent ∧ (getBrk t b).sseqDn = k.sseqDn ∧ (getBrk t b).fresh = k.fresh ∧ (getBrk t b).got = false ∧
    (getBrk t b).copyA = none ∧ (getBrk t b).copyB = none) ∧ t.mem = s.mem ∧ t.cfg = s.cfg ∧ t.sys.round = s.sys.round

theorem CommandKept.trans {b : Nat} {k : Brake} {s t u : State} (h : CommandKept b k s t) (hk : BrakesKept t u) : CommandKept b k s u := by
  obtain ⟨h1, h2, h3, h4⟩ := h
  obtain ⟨-, k2, k3, k4⟩ := id hk
  rw [CommandKept, hk.getBrk]
  exact ⟨h1, k2.trans h2, k3.trans h3, k4.trans h4⟩

/-- The record of a channel whose period ends (R298, R299). -/
def periodClosed (seq : Nat) (k : Brake) : Brake := { k with
  sseqUp := seq, copyA := none, copyB := none, got := false, link := if k.got then k.link else 2
  misses := if k.got || !k.basis then 0 else k.misses + 1 }

/-- What the end of a period leaves of its channel: no copies, and its command and sequence as they were (R294, R298). -/
theorem closePeriod_kept (b : Nat) (s : State) : CommandKept b (getBrk s b) s (closePeriod b s) := by
  have h1 : ∀ seq, CommandKept b (getBrk s b) s (modBrk s b (periodClosed seq)) := fun seq => by
    rw [CommandKept, getBrk_modBrk, if_pos rfl]
    exact ⟨⟨rfl, rfl, rfl, rfl, rfl, rfl⟩, rfl, rfl, rfl⟩
  have hmiss : ∀ v, CommandKept b (getBrk s b) s v → CommandKept b (getBrk s b) s (modBrk v b (fun k => { k with misses := 8 })) := by
    intro v hv
    rw [CommandKept, getBrk_modBrk, if_pos rfl]
    exact hv
  unfold closePeriod
  dsimp only
  split
  · exact h1 _
  · have h2 := fun seq => (h1 seq).trans (u := modSag (fun g => { g with missPeriods := sat16 (g.missPeriods + 1) })
      (modBrk s b (periodClosed seq))) ⟨rfl, rfl, rfl, rfl⟩
    split
    · unfold onlyIf
      split
      · exact (hmiss _ (h2 _)).trans (foundCause_brakesKept 2 b _)
      · exact hmiss _ (h2 _)
    · exact h2 _

/-- The channel after its command of a period is chosen, and with the SSEQ of the period (R294, R297). -/
def commanded (cmd : Nat) (c : Option Nat) (refused : Bool) (k : Brake) : Brake :=
  { k with prevCmd := k.sent, sent := cmd, cmd := cmd, changeRounds := c, refusedNow := refused }

def sequenced (k : Brake) : Brake :=
  { k with began := true, first := k.fresh, fresh := false, sseqDn := if k.fresh then 0 else (k.sseqDn + 1) % 65536 }

theorem requestSeen_kept (o : Owner) (s : State) : BrakesKept s (requestSeen o s) := by
  unfold requestSeen
  split
  · exact .refl s
  · cases o <;> exact ⟨rfl, rfl, rfl, rfl⟩

/-- The command of the new period is release exactly when the release is granted (R294). -/
theorem decideBrake_kept (b : Nat) (s : State) : ∃ c r,
    getBrk (decideBrake b s) b = commanded (if granted s b then 2 else 1) c r (getBrk s b) ∧
    (decideBrake b s).mem = s.mem ∧ (decideBrake b s).cfg = s.cfg ∧ (decideBrake b s).sys.round = s.sys.round := by
  obtain ⟨c, hc⟩ : ∃ c, c = if (if granted s b then 2 else 1) = (getBrk s b).cmd then (getBrk s b).changeRounds else some 0 :=
    ⟨_, rfl⟩
  obtain ⟨r, hr⟩ : ∃ r, r = if decide (s.sag.test.map BTest.ch = some b) then (getBrk s b).refusedNow
      else wantsRelease s (brakeOwner s b) && !granted s b := ⟨_, rfl⟩
  obtain ⟨v, hv⟩ : ∃ v, v = modBrk s b (fun _ => commanded (if granted s b then 2 else 1) c r (getBrk s b)) := ⟨_, rfl⟩
  obtain ⟨w, hw⟩ : ∃ w, w = onlyIf (!decide (s.sag.test.map BTest.ch = some b)) (requestSeen (brakeOwner s b)) v := ⟨_, rfl⟩
  have hwv : BrakesKept v w := by
    rw [hw]
    unfold onlyIf
    split
    · exact requestSeen_kept _ v
    · exact .refl v
  have he : BrakesKept w (decideBrake b s) := by
    have h : decideBrake b s = if wantsRelease s (brakeOwner s b) && !granted s b &&
        (!(getBrk s b).refusedNow || newRequest s (brakeOwner s b)) && !decide (s.sag.test.map BTest.ch = some b) then
        raise evBrakeRefused w else w := by
      rw [hw, hv, hc, hr]
      rfl
    rw [h]
    split
    · exact raise_brakesKept _ w
    · exact .refl w
  have hk := hwv.trans he
  refine ⟨c, r, ?_, ?_⟩
  · rw [hk.getBrk, hv, getBrk_modBrk, if_pos rfl]
  · obtain ⟨-, h2, h3, h4⟩ := hk
    exact ⟨h2.trans (by rw [hv]; rfl), h3.trans (by rw [hv]; rfl), h4.trans (by rw [hv]; rfl)⟩

theorem sendSafe_kept (b : Nat) (es : List (Nat × SEntry)) (s : State) : BrakesKept s (sendSafe b es s) := by
  unfold sendSafe
  split
  · exact .refl s
  · refine forAll_keeps (fun t => BrakesKept s t) _ _ s (fun q _ t ht => ht.trans ?_) (.refl s)
    unfold sendEntry sendSlot
    dsimp only
    split <;> exact ⟨rfl, rfl, rfl, rfl⟩

theorem clearOutputs_kept (s : State) : BrakesKept s (clearOutputs s) := by
  unfold clearOutputs
  split
  · exact clearCause_brakesKept _ s
  · exact .refl s

/-- Settles O26: refused, first and second copies, and the command of a safe period. -/
theorem safeFrames : Obligations.SafeFrames := by
  unfold Obligations.SafeFrames
  refine ⟨fun s u r e h hen hbad => ?refused, fun s u r e h hen hok hch hb hlow => ?first, fun s u r e h hen hok hch hgot ha => ?second,
    fun s b hb hes => ?period⟩
  case refused =>
    refine congrArg Host.Outcome.next ?_
    unfold safeReceived
    simp only [h, hen, hbad, Bool.not_true, Bool.false_eq_true, if_false]
    rfl
  case first =>
    have hk : getBrk (modBrk u e.aux (copyTaken r)) e.aux = copyTaken r (getBrk u e.aux) := by rw [getBrk_modBrk, if_pos rfl]
    have hj : judgeCopies e.aux (modBrk u e.aux (copyTaken r)) = modBrk u e.aux (copyTaken r) := by
      rw [judgeCopies, hk]
      simp only [copyTaken, if_pos hch, hb]
      split
      · rfl
      · exact if_neg (by simp [copyOf, hlow])
    refine congrArg Host.Outcome.next ((safeReceived_ok s u r e h hen hok).trans (hj.trans ?_))
    have hcopy : copyTaken r = fun k => { k with copyA := some (copyOf r) } := funext fun k => if_pos hch
    rw [hcopy]
    rfl
  case second =>
    have hu := acceptUp_onlyLanes r tySAFE s u e h
    obtain ⟨v, hv⟩ : ∃ v, v = modBrk u e.aux (copyTaken r) := ⟨_, rfl⟩
    have hk : getBrk v e.aux = copyTaken r (getBrk u e.aux) := by rw [hv, getBrk_modBrk, if_pos rfl]
    have hj : judgeCopies e.aux v = formed e.aux 0 (beNat (rxPayload r.bytes) 6 2) v := by
      rw [judgeCopies, hk]
      simp [copyTaken, hch, hgot, ha, copyOf]
    obtain ⟨h1, h2, h3, h4, h5, h6, h7⟩ := formed_pair e.aux (beNat (rxPayload r.bytes) 6 2) v
    refine ⟨_, congrArg Host.Outcome.next ((safeReceived_ok s u r e h hen hok).trans ((congrArg _ hv.symm).trans hj)),
      h1, h2, h3, h4, ?_, ?_, ?_⟩
    · rw [h5, hv, modBrk, hu]
    · rw [h6, hv, modBrk, hu]
    · rw [h7, hv, modBrk, hu]
  case period =>
    obtain ⟨⟨hs1, hs2, hs3, hs4, hs5, hs6⟩, hm, hc, hr⟩ := closePeriod_kept b s
    obtain ⟨c, ref, hd, hdm, hdc, hdr⟩ := decideBrake_kept b (closePeriod b s)
    obtain ⟨v, hv⟩ : ∃ v, v = nextSseq b (decideBrake b (closePeriod b s)) := ⟨_, rfl⟩
    have hk : getBrk v b = sequenced (getBrk (decideBrake b (closePeriod b s)) b) := by
      rw [hv]; exact (getBrk_modBrk _ b b sequenced).trans (if_pos rfl)
    obtain ⟨t, ht⟩ : ∃ t, t = clearOutputs (outputs (sendSafe b (safeEntries s b) v)) := ⟨_, rfl⟩
    have he : safePeriod s = t := by
      rw [safePeriod, hb, forAll_singleton, ht, hv]
      dsimp only
      rw [if_neg (by simpa using hes)]
    have hvt : BrakesKept v t := by
      rw [ht]
      exact ((sendSafe_kept _ _ v).trans (.of_pairs (outputs_pairsOnly _))).trans (clearOutputs_kept _)
    rw [hd] at hk
    obtain ⟨-, htm, htc, htr⟩ := id hvt
    refine ⟨t, congrArg Host.Outcome.next he, ?_⟩
    rw [hvt.getBrk b, hk]
    refine ⟨hs1, rfl, rfl, ?_, rfl, hs4, hs5, hs6, ?_, ?_, ?_⟩
    · rw [← hs2, ← hs3]; rfl
    · rw [htm, hv]; exact hdm.trans hm
    · rw [htc, hv]; exact hdc.trans hc
    · rw [htr, hv]; exact hdr.trans hr

/-! ### O27: password, seal, safety parameters and change log (R308 to R310) -/

/-- A command register of Saggar that is written with its right. -/
theorem exec_sgcmd {s : State} {m : Master} (h : State.reaches m aSGCMD s) (f : State → State) :
    Host.Outcome.next (ρ := Refusal) (φ := Fault) (withRight m aSGCMD f s) = .next (f s) :=
  congrArg Host.Outcome.next (withRight_of_reaches _ _ _ _ h)

theorem pwdCmd_of_ready (n : Nat) (s : State) (hst : s.sag.st ≠ 0) (hb : s.sag.blkMs = none) (h8 : 8 ≤ n) (h32 : n ≤ 32) :
    pwdCmd n s =
      if sha256 (pwdBytes s.sag.pwd n) = s.sag.pwdHash then
        modSag (fun g => { g with pwdOk := !g.sealPin, pwdMs := 0, wrong := 0 }) (clearPwd s)
      else if s.sag.wrong + 1 < 3 then modSag (fun g => { g with wrong := g.wrong + 1 }) (clearPwd s)
      else raise evPwdBlocked (modSag (fun g => { g with wrong := 0, blkMs := some 60000 }) (clearPwd s)) := by
  rw [pwdCmd, if_neg (by simp [hst, hb]; omega)]

/-- The words of a change-log entry (R310). -/
def logEntry (kind id : Nat) (old new : Word) (s : State) : List Word :=
  let ws := [packWord [(31, 24, kind), (23, 8, s.sag.logTotal), (7, 0, id)], old, new, s.rcd.pc, s.rcd.sec, s.sys.round, 0#32]
  ws ++ [BitVec.ofNat 32 (crc32 (ws.flatMap (fun w => leBytes 4 w.toNat)))]

theorem changeLog_eq (kind id : Nat) (old new : Word) (s : State) : changeLog kind id old new s = { s with sag := { s.sag with
    log := tset s.sag.log s.sag.logCount (logEntry kind id old new s), logCount := s.sag.logCount + 1
    logTotal := (s.sag.logTotal + 1) % 65536 } } := rfl

/-- The kind of a change-log entry stands in the upper byte of its first word. -/
theorem logEntry_kind (kind id : Nat) (old new : Word) (s : State) (hk : kind < 256) :
    bits (nth 0#32 (logEntry kind id old new s) 0) 31 24 = kind := by
  have hw : nth 0#32 (logEntry kind id old new s) 0 = packWord [(31, 24, kind), (23, 8, s.sag.logTotal), (7, 0, id)] := rfl
  rw [hw]
  simp only [packWord, bits, List.foldl_cons, List.foldl_nil, BitVec.toNat_ofNat]
  simp only [Nat.reduceAdd, Nat.reduceSub, Nat.reducePow, Nat.shiftRight_eq_div_pow]
  omega

/-- Settles O27: each command of the seal, of the parameters and of the change log, and its refusal. -/
theorem sealedCommands : Obligations.SealedCommands := by
  unfold Obligations.SealedCommands
  refine ⟨fun s m n hm hst hb h8 h32 => ⟨fun hh => ?right, fun hh hw => ?wrong, fun hh hw => ?blocked⟩,
    fun s m n hm hst ho hc h8 h32 => ?set, fun s m hm hst => ?close, fun s => ⟨?high, ?low⟩, fun s hp hms => ?timeout,
    fun s hb => ?blockEnd, fun s m hm hst ho hc hp hs => ?param, fun s m hm hst ho hv => ?clear, fun s m c hm ho hc => ?refused⟩
  case right => exact (exec_sgcmd hm _).trans (congrArg _ ((pwdCmd_of_ready n s hst hb h8 h32).trans (if_pos hh)))
  case wrong =>
    refine (exec_sgcmd hm _).trans (congrArg _ ((pwdCmd_of_ready n s hst hb h8 h32).trans ?_))
    rw [if_neg hh, if_pos (by omega)]
    rfl
  case blocked =>
    have he := (pwdCmd_of_ready n s hst hb h8 h32).trans ((if_neg hh).trans (if_neg (by omega)))
    refine ⟨_, (exec_sgcmd hm _).trans (congrArg _ he), by rw [raise_sag]; rfl, raise_raised _ _ (by decide) (by decide), ?_⟩
    rw [raise_sag]
    exact raise_onlyEvents _ _
  case set =>
    have he : pwdsetCmd n s = modSag (fun g => { g with pwdHash := sha256 (pwdBytes s.sag.pwd n), pwdSet := true })
        (clearPwd (changeLog 2 0 (hashWord s.sag.pwdHash) (hashWord (sha256 (pwdBytes s.sag.pwd n))) s)) := by
      rw [pwdsetCmd, if_neg (by simp [hst, ho]; omega)]
    exact ⟨_, (exec_sgcmd hm _).trans (congrArg _ he), rfl, rfl, rfl, rfl, rfl⟩
  case close => exact (exec_sgcmd hm _).trans (congrArg _ (if_neg hst))
  case high => exact congrArg Host.Outcome.next (by simp [sealPin])
  case low => exact congrArg Host.Outcome.next (by simp [sealPin])
  case timeout => exact congrArg Host.Outcome.next (if_pos ⟨hp, hms⟩)
  case blockEnd => exact congrArg Host.Outcome.next (if_pos hb)
  case param =>
    obtain ⟨v, hv⟩ : ∃ v, v = modSag (fun g => { g with
        params := if s.sag.regionBlank || s.sag.regionBad then wholeSet s else g.params
        pend := g.pend ++ [(s.sag.sel.toNat, s.sag.val)], regionBlank := false, regionBad := false })
        (changeLog 1 s.sag.sel.toNat (sagParam s s.sag.sel.toNat) s.sag.val s) := ⟨_, rfl⟩
    have he : paramCmd s = v := by
      rw [paramCmd, if_neg (by simp [hst, ho, hp]; omega)]
      dsimp only
      rw [← hv]
      exact clearCause_of_none _ v fun q hq => by
        rw [hv] at hq
        simpa using hs q hq
    have hlog : v.sag.log = tset s.sag.log s.sag.logCount
        (logEntry 1 s.sag.sel.toNat (sagParam s s.sag.sel.toNat) s.sag.val s) := by rw [hv]; rfl
    refine ⟨v, (exec_sgcmd hm _).trans (congrArg _ he), by rw [hv]; rfl, by rw [hv]; rfl, ?_, ?_, fun k hk => ?_, by rw [hv]; rfl⟩
    · rw [hlog, tget_tset_self]; rfl
    · rw [hlog, tget_tset_self]; rfl
    · rw [hlog, tget_tset_ne _ _ _ _ _ hk]
  case clear =>
    have he : logclearCmd s = changeLog 3 0 (BitVec.ofNat 32 s.sag.logCount) (BitVec.ofNat 32 (crc32 (logBytes s)))
        (modSag (fun g => { g with log := [], logCount := 0 }) s) := by
      rw [logclearCmd]
      exact if_neg (by simp [hst, ho, hv])
    obtain ⟨v, hvs⟩ : ∃ v, v = modSag (fun g => { g with log := [], logCount := 0 }) s := ⟨_, rfl⟩
    rw [← hvs] at he
    have hlog : (logclearCmd s).sag.log = tset [] 0
        (logEntry 3 0 (BitVec.ofNat 32 s.sag.logCount) (BitVec.ofNat 32 (crc32 (logBytes s))) v) := by rw [he, changeLog_eq, hvs]; rfl
    refine ⟨_, exec_sgcmd hm _, ?_, ?_, ?_, fun k hk => ?_, ?_⟩
    · rw [he, hvs]; rfl
    · rw [hlog, tget_tset_self]; exact logEntry_kind 3 0 _ _ v (by omega)
    · rw [hlog, tget_tset_self]; rfl
    · rw [hlog, tget_tset_ne _ _ _ _ _ hk]; rfl
    · rw [he, hvs]; rfl
  case refused =>
    have he : exec c s = .next (sagRefuse s) := by
      simp only [List.mem_cons, List.not_mem_nil, or_false] at hc
      rcases hc with rfl | rfl
      · exact (exec_sgcmd hm _).trans (congrArg _ (if_pos (by simp [ho])))
      · exact (exec_sgcmd hm _).trans (congrArg _ (if_pos (by simp [ho])))
    exact ⟨_, he, raise_onlyEvents _ _, raise_raised _ _ (by decide) (by decide)⟩

/-! ### O28: brake tests and outputs (R300 to R302) -/

/-- A running brake test ends with a result: its channel's record and an event. -/
theorem testEnd_kept (res : Nat) (s : State) (t : BTest) (h : s.sag.test = some t) :
    (testEnd res s).sag.test = none ∧ getBrk (testEnd res s) t.ch = testedBrake res (getBrk s t.ch) ∧
      State.raised evBrakeTest (testEnd res s) ∧ State.onlyEvents { s with sag := (testEnd res s).sag } (testEnd res s) := by
  rw [testEnd_of_some res s t h]
  refine ⟨by rw [raise_sag]; rfl, ?_, raise_raised _ _ (by decide) (by decide), ?_⟩
  · rw [(raise_brakesKept _ _).getBrk]
    exact (getBrk_modBrk s t.ch t.ch (testedBrake res)).trans (if_pos rfl)
  · rw [raise_sag]
    exact raise_onlyEvents _ (testOver res t s)

/-- Settles O28: BTEST, BTABORT, the end of a test, and OUTSET. -/
theorem brakeTestAndOutputs : Obligations.BrakeTestAndOutputs := by
  unfold Obligations.BrakeTestAndOutputs
  refine ⟨fun s m b hm hst hen hd hr ha hq hc ht hp => ?test, fun s m t hm hst ht => ?abort, fun s t ht hp hl hmv => ?ended,
    fun s m mask hm hst hd hcl => ?outset⟩
  case test =>
    refine (exec_sgcmd hm _).trans (congrArg _ ?_)
    exact if_neg (by simp [hst, hen, hd, hr, ha, hq, hc, ht, hp])
  case abort =>
    have he : btabortCmd s = testEnd 3 s := if_neg (by simp [hst, ht])
    obtain ⟨h1, h2, h3, h4⟩ := testEnd_kept 3 s t ht
    exact ⟨_, (exec_sgcmd hm _).trans (congrArg _ he), h1, by rw [h2]; rfl, by rw [h2]; rfl, h3, h4⟩
  case ended =>
    have he : btestEnd s = testEnd 1 s := by
      unfold btestEnd
      simp only [ht]
      rw [if_neg (by simp [hp, hl]), if_neg (by simp [hmv]), if_pos hp]
    obtain ⟨h1, h2, h3, h4⟩ := testEnd_kept 1 s t ht
    exact ⟨_, congrArg Host.Outcome.next he, h1, by rw [h2]; rfl, by rw [h2]; rfl, by rw [h2]; rfl, by rw [h2]; rfl, h3, h4⟩
  case outset =>
    obtain ⟨v, hv⟩ : ∃ v, v = modSag (fun g => { g with outset := mask % 16 }) s := ⟨_, rfl⟩
    have he : outsetCmd mask s = outputs v := by rw [hv]; exact if_neg hst
    have hp := outputs_pairsOnly v
    refine ⟨_, (exec_sgcmd hm _).trans (congrArg _ he), ?_, fun k hk hf => ?_, ?_⟩
    · rw [hp.sag, hv]; rfl
    · have hbit : (mask % 16).testBit k = mask.testBit k := by
        rw [show (16 : Nat) = 2 ^ 4 from rfl, Nat.testBit_mod_two_pow, decide_eq_true hk, Bool.true_and]
      have hon : ∀ t, PairsOnly v t → (pairOn t k && driving t) = mask.testBit k := fun t ht => by
        have hdt : driving t = true := by rw [ht.driving, hv]; exact hd
        have hct : sagClear t = true := by rw [ht.sagClear, hv]; exact hcl
        have hft : Cfg.SGOUT_FUNC t k = 2 := by rw [ht.1, hv]; exact hf
        have hot : t.sag.outset = mask % 16 := by rw [ht.sag, hv]; rfl
        simp [pairOn, decides, hdt, hct, hft, hot, hbit]
      exact forAll_reaches (PairsOnly v) (fun t => t.sag.outOn.testBit k = mask.testBit k) _ _ v k (List.mem_range.2 hk)
        (fun j t ht => ht.trans (switchPair_pairsOnly j (pairOn t j) t))
        (fun j t ht hb => by
          rw [switchPair_outOn]
          split
          case isTrue h => subst h; exact hon t ht
          case isFalse => exact hb)
        (fun t ht => by rw [switchPair_outOn, if_pos rfl]; exact hon t ht) (.refl v)
    · exact (SagOnly.trans (by rw [hv]; exact modSag_sagOnly _ s) (.of_pairs hp))

end Sys2Proof.Machine

namespace Sys2Proof.Machine

/-! ### O29: a release in the round of the retirement (R35) -/

/-- The power stage 0, retired by a transient of this round, as the host's RTSEL names it. -/
def freshlyRetired : State := { State.reset with
  sys := { hstate := .active, round := 640#32, roundRan := true }
  ret := { chans := [(retKey clsStage 0, { st := .retired })], fresh := [retKey clsStage 0]
           sel := [(masterNo .host, packWord [(18, 16, clsStage)])] } }

/-- Refutes O29: a release comes before the transients of its round (R35), so that a channel that one of them has retired
stays retired, which the statement does not except. -/
theorem not_backoffAndRelease : ¬ Obligations.BackoffAndRelease := by
  unfold Obligations.BackoffAndRelease
  rintro ⟨-, h, -⟩
  obtain ⟨h, -⟩ := h freshlyRetired .host (packWord [(31, 16, Config.key), (0, 0, 1)]) clsStage 0
    ⟨by decide +kernel, fun hm => by cases hm⟩ (by decide +kernel) (by decide +kernel) (by decide +kernel) (by decide +kernel)
  obtain ⟨t, ht, hret, -⟩ := h (by decide +kernel) (by decide +kernel)
  obtain rfl : rtrelWrite .host (packWord [(31, 16, Config.key), (0, 0, 1)]) freshlyRetired = t := Host.Outcome.next.inj ht
  have hstays : (getRet (rtrelWrite .host (packWord [(31, 16, Config.key), (0, 0, 1)]) freshlyRetired) clsStage 0).st = .retired := by
    decide +kernel
  rw [hret] at hstays
  cases hstays

end Sys2Proof.Machine

namespace Sys2Proof.Machine

/-! ### O30: the power stage's steps (R115, R119, R120) -/

theorem getAx_modStage_self (s : State) (a : Nat) (f : AxStage → AxStage) :
    getAx (modStage s a f) a = { getAx s a with stage := f (getAx s a).stage } := getAx_modAx_self s a _

/-- A power stage whose sequence has ended with a result. -/
def endedStage (res phase : Nat) (g : AxStage) : AxStage :=
  { g with seq := .idle, step := 0, sendStep := false, result := res, phase := phase }

/-- The axis whose pre-start sequence has ended. -/
def seqOver (a res phase : Nat) (s : State) : State := raiseAx a caPrestart (modStage s a (endedStage res phase))

/-- A pre-start sequence that passes takes its axis to READY (R120). -/
theorem seqEnd_pass (a phase : Nat) (s : State) (h : (getAx s a).stage.seq = .prestart) :
    seqEnd a 0 phase s = modCtl (seqOver a 0 phase s) a (fun c => { c with st := .ready }) := by
  unfold seqEnd
  simp only [h, resFault, if_true]
  rw [if_neg (by simp)]
  rfl

/-- A pre-start sequence without a response gives its axis fault 0x16 (R120). -/
theorem seqEnd_noResponse (a : Nat) (s : State) (h : (getAx s a).stage.seq = .prestart) :
    seqEnd a resNORESP 7 s = faultAx a 0x16 3 (seqOver a resNORESP 7 s) := by
  unfold seqEnd
  simp only [h]
  rw [if_neg (by simp)]
  rfl

/-- A change of one axis's power stage and its event. -/
theorem seqOver_onlyAxis (a res phase : Nat) (s : State) : State.onlyAxis a s (seqOver a res phase s) :=
  onlyAxis_events (modAx_onlyAxis s a _) (raiseAx_onlyEvents _ _ _)

/-- One more change of the axis. -/
theorem onlyAxis_modAx {a : Nat} {s t : State} (h : State.onlyAxis a s t) (f : Axis → Axis) : State.onlyAxis a s (modAx t a f) := by
  obtain ⟨⟨h1, h2⟩, h3⟩ := h
  refine ⟨⟨?_, h2⟩, fun b hb => by rw [getAx_modAx_ne _ _ _ _ hb, h3 b hb]⟩
  rw [modAx, setAx_eq, h1]

/-- An axis without a parent takes a fault of its own alone. -/
theorem faultAx_alone (a code : Nat) (s : State) (hp : parentOf s a = none) : faultAx a code 3 s = faultOne a code 3 s := by
  unfold faultAx
  simp [hp]

/-- A fault of class 3 takes an axis without a sequence from PRESTART to FAULT: its control record, its power stage kept. -/
theorem faultReact_prestart (a code : Nat) (s : State) (hst : axSt s a = .prestart) (hseq : (getAx s a).stage.seq = .idle) :
    axSt (faultReact a code 3 s) a = .fault ∧ (getAx (faultReact a code 3 s) a).stage = (getAx s a).stage ∧
      (faultReact a code 3 s).ev = s.ev := by
  obtain ⟨u, hu⟩ : ∃ u, u = modCtl s a (reactKeep code 3 s.sys.round) := ⟨_, rfl⟩
  have huax : (getAx u a).stage = (getAx s a).stage := by rw [hu, modCtl_getAx_self]
  have hoff : enterOff .fault a u = modCtl u a (fun c => { c with st := .fault, qscmd := false, wait := .none }) := by
    rw [enterOff, abortPrestart, if_neg (by rw [huax, hseq]; simp)]
  have he : faultReact a code 3 s = requestBrake a (enterOff .fault a u) := by
    rw [axSt] at hst
    rw [hu]
    simp [faultReact, hst]
  have hax := getAx_requestBrake a a (enterOff .fault a u)
  rw [he]
  rw [modCtl_getAx_self, hoff, modCtl_getAx_self] at hax
  refine ⟨?_, ?_, ?_⟩
  · rw [axSt, hoff, hax]; rfl
  · rw [hoff, hax]; exact huax
  · rw [requestBrake_eq, hoff, hu]; rfl

/-- The words staged for an axis change with the flags of the step in force; its control record and its profile do not. -/
theorem patchStaged_kept (a kind : Nat) (lat : Bool) (m : Word) (x : Axis) :
    (patchStaged a kind lat m x).stage.step = x.stage.step ∧ (patchStaged a kind lat m x).stage.seq = x.stage.seq ∧
      (patchStaged a kind lat m x).ctl = x.ctl ∧ (patchStaged a kind lat m x).prof = x.prof := by
  unfold patchStaged
  split
  · dsimp only
    (repeat' split) <;> exact ⟨rfl, rfl, rfl, rfl⟩
  · exact ⟨rfl, rfl, rfl, rfl⟩

/-- A power stage with the result of a RES step that is not open. -/
def resistance (r : F32) (g : AxStage) : AxStage := { g with rMeas := r }

/-- A power stage that goes on to its next step. -/
def nextStep (k : Nat) (g : AxStage) : AxStage := { g with step := k + 1, sendStep := true }

/-- A test step that is evaluated without a finding goes on to the next one (R119). -/
theorem testEvaluate_next (s : State) (a : Nat) (x y : TestStep) (b : List Byte) (hdue : evalDue s a = true)
    (hx : testStep (kindOf s a) (getAx s a).stage.step = some x) (hb : (getIn s a (sampleNow s)).fup = some b)
    (hecho : echoOk x b = true) (hj : judgeStep s a x b = none) (hcode : x.code ≠ 3)
    (hy : testStep (kindOf s a) ((getAx s a).stage.step + 1) = some y) :
    testEvaluate a s = modAx (modStage s a (nextStep (getAx s a).stage.step)) a
      (patchStaged a (kindOf s a) (Cfg.RNDCFG_LAT3 s) s.sys.round) := by
  unfold testEvaluate
  simp only [hdue, hx, hb, hecho, hj, hy, hcode]
  rfl

/-- The last step, a RES step that is not open, after steps that were not: the sequence passes (R119, R120). -/
theorem testEvaluate_last (s : State) (a : Nat) (x : TestStep) (b : List Byte) (hdue : evalDue s a = true)
    (hopens : (getAx s a).stage.opens = [])
    (hx : testStep (kindOf s a) (getAx s a).stage.step = some x) (hb : (getIn s a (sampleNow s)).fup = some b)
    (hecho : echoOk x b = true) (hj : judgeStep s a x b = none) (hcode : x.code = 3)
    (hr : fLt (Cfg.RMAX s (axW a)) (stepR s a b) = false)
    (hlast : testStep (kindOf s a) ((getAx s a).stage.step + 1) = none) :
    testEvaluate a s = seqEnd a 0 7 (modStage s a (resistance (stepR s a b))) := by
  have hres : (fun g : AxStage => { g with rMeas := stepR s a b, opens := if fLt (Cfg.RMAX s (axW a)) (stepR s a b)
      then g.opens ++ [g.step] else g.opens }) = resistance (stepR s a b) := by
    funext g; simp [hr, resistance]
  have hopen : (getAx (modStage s a (resistance (stepR s a b))) a).stage.opens = [] := by
    rw [getAx_modStage_self]; exact hopens
  unfold testEvaluate
  simp only [hdue, hx, hb, hecho, hj, hlast, hcode, if_true, hres, hopen]
  rfl

/-- A pre-start sequence that ends without a response: its result, and its axis in FAULT with fault 0x16. -/
theorem seqEnd_noResponse_kept (s : State) (a : Nat) (ha : a < 128) (hseq : (getAx s a).stage.seq = .prestart)
    (hst : axSt s a = .prestart) (hp : parentOf s a = none) :
    axSt (seqEnd a resNORESP 7 s) a = .fault ∧
      (getAx (seqEnd a resNORESP 7 s) a).stage = endedStage resNORESP 7 (getAx s a).stage ∧
      State.raised (128 + a) (seqEnd a resNORESP 7 s) ∧ State.axisCause a caPrestart (seqEnd a resNORESP 7 s) ∧
      State.axisCause a caFault (seqEnd a resNORESP 7 s) := by
  obtain ⟨u, hu⟩ : ∃ u, u = seqOver a resNORESP 7 s := ⟨_, rfl⟩
  obtain ⟨v, hv⟩ : ∃ v, v = modCtl u a fun c => { c with lastCode := 0x16, seen := setBit c.seen (min 3 4) true } := ⟨_, rfl⟩
  have hfr := (seqOver_onlyAxis a resNORESP 7 s).1.1
  have huax : getAx u a = { getAx s a with stage := endedStage resNORESP 7 (getAx s a).stage } := by
    rw [hu, seqOver, getAx_raiseAx, getAx_modStage_self]
  have hup : parentOf u a = none := by
    rw [parentOf_congr (s := s) (by rw [hu, hfr]) (by rw [hu, hfr]), hp]
  have hvax : axSt (raiseAx a caFault v) a = .prestart ∧
      (getAx (raiseAx a caFault v) a).stage = endedStage resNORESP 7 (getAx s a).stage := by
    rw [axSt, getAx_raiseAx, hv, modCtl_getAx_self, huax]
    exact ⟨hst, rfl⟩
  obtain ⟨hf, hstage, hev⟩ := faultReact_prestart a 0x16 (raiseAx a caFault v) hvax.1 (by rw [hvax.2]; rfl)
  have he : seqEnd a resNORESP 7 s = faultReact a 0x16 3 (raiseAx a caFault v) := by
    rw [seqEnd_noResponse a s hseq, ← hu, faultAx_alone a 0x16 u hup, hv]; rfl
  rw [he]
  refine ⟨hf, by rw [hstage, hvax.2], ?_, ?_, ?_⟩
  · rw [State.raised, hev]; exact raiseAx_raised a _ _ ha
  · rw [State.axisCause, hev, raiseAx, raise_axCause, tget_tset_self, BitVec.getLsbD_or, hv]
    have := raiseAx_axisCause a caPrestart (modStage s a (endedStage resNORESP 7)) (by decide)
    rw [State.axisCause] at this
    rw [hu]
    exact Bool.or_eq_true_iff.2 (.inl this)
  · rw [State.axisCause, hev]; exact raiseAx_axisCause a _ _ (by decide)

/-- Settles O30: a completed retry, the next step, the pass of a pre-start sequence and its end without a response. -/
theorem powerStageSteps : Obligations.PowerStageSteps := by
  unfold Obligations.PowerStageSteps
  refine ⟨fun s a ha h => ?retry, fun s a x y b ha hdue hx hb hecho hj hcode hy => ?next,
    fun s a x b ha hdue hseq hopens hx hb hecho hj hcode hr hlast => ?pass, fun s a ha hno hseq hst hp => ?silent⟩
  case retry =>
    refine ⟨_, congrArg Host.Outcome.next (if_pos h), ?_, raiseAx_raised a _ _ ha, raiseAx_axisCause a _ _ (by decide),
      onlyAxis_events (onlyAxis_modAx (onlyAxis_modAx (modAx_onlyAxis s a _) _) _) (raiseAx_onlyEvents _ _ _)⟩
    rw [retryComplete, getAx_raiseAx, setCause, modCtl_getAx_self, setCause, modCtl_getAx_self, getAx_modStage_self]
  case next =>
    obtain ⟨hk1, hk2, hk3, hk4⟩ := patchStaged_kept a (kindOf s a) (Cfg.RNDCFG_LAT3 s) s.sys.round
      (getAx (modStage s a (nextStep (getAx s a).stage.step)) a)
    refine ⟨_, congrArg Host.Outcome.next (testEvaluate_next s a x y b hdue hx hb hecho hj hcode hy), ?_, ?_, ?_, ?_, rfl,
      fun k hk => ?_⟩
    · rw [getAx_modAx_self, hk1, getAx_modStage_self]; rfl
    · rw [getAx_modAx_self, hk2, getAx_modStage_self]; rfl
    · rw [getAx_modAx_self, hk3, getAx_modStage_self]
    · rw [getAx_modAx_self, hk4, getAx_modStage_self]
    · rw [getAx_modAx_ne _ _ _ _ hk, modStage, getAx_modAx_ne _ _ _ _ hk]
  case pass =>
    have he := testEvaluate_last s a x b hdue hopens hx hb hecho hj hcode hr hlast
    obtain ⟨u, hu⟩ : ∃ u, u = modStage s a (resistance (stepR s a b)) := ⟨_, rfl⟩
    have huax : getAx u a = { getAx s a with stage := resistance (stepR s a b) (getAx s a).stage } := by
      rw [hu, getAx_modStage_self]
    rw [← hu, seqEnd_pass a 7 u (by rw [huax]; exact hseq)] at he
    have hfin : getAx (modCtl (seqOver a 0 7 u) a (fun c => { c with st := .ready })) a =
        { getAx s a with stage := endedStage 0 7 (resistance (stepR s a b) (getAx s a).stage)
                         ctl := { (getAx s a).ctl with st := .ready } } := by
      rw [modCtl_getAx_self, seqOver, getAx_raiseAx, getAx_modStage_self, huax]
    refine ⟨_, congrArg Host.Outcome.next he, by rw [axSt, hfin], by rw [hfin]; rfl,
      by rw [hfin]; rfl, by rw [hfin]; rfl, raiseAx_raised a _ _ ha, raiseAx_axisCause a caPrestart _ (by decide), ?_⟩
    rw [hu]
    exact onlyAxis_modAx (onlyAxis_events (onlyAxis_modAx (modAx_onlyAxis s a _) _) (raiseAx_onlyEvents _ _ _)) _
  case silent =>
    obtain ⟨hf, hstage, hr, hpre, hfault⟩ := seqEnd_noResponse_kept s a ha hseq hst hp
    refine ⟨_, congrArg Host.Outcome.next (if_pos hno), hf, by rw [hstage]; rfl, by rw [hstage]; rfl, by rw [hstage]; rfl, ?_,
      hr, hpre, hfault, ?_⟩
    · rw [seqEnd_noResponse a s hseq]; exact faultAx_lastCode a _ _ _
    · rw [seqEnd_noResponse a s hseq]
      exact onlyReaction_trans (onlyReaction_trans (modStage_onlyReaction s a _) (raiseAx_onlyReaction _ _ _))
        (faultAx_onlyReaction _ _ _ _)

end Sys2Proof.Machine

namespace Sys2Proof.Machine

/-! ### O31: over-voltage and the chopper (R124, R126) -/

/-- The stop of the diagnostic runs is one of power stages alone. -/
theorem pauseDiags_onlyReaction (s : State) : State.onlyReaction s (pauseDiags s) :=
  onlyReaction_forAll _ _ _ fun a t => by
    split
    · exact modStage_onlyReaction t a _
    · exact onlyReaction_refl t

/-- It leaves every control record. -/
theorem pauseDiags_ctl (s : State) (a : Nat) : (getAx (pauseDiags s) a).ctl = (getAx s a).ctl :=
  forAll_keeps (fun t => (getAx t a).ctl = (getAx s a).ctl) _ _ s (fun b _ t ht => by
    split
    · rw [modStage_ctl]; exact ht
    · exact ht) rfl

/-- A cause that is set and a fault, for each axis of a list: every one of them has the cause. -/
theorem causeAndFault_stands (l : List Nat) (code cls a : Nat) (s : State) (ha : a ∈ l) (h0 : code ≠ 0x10) (h1 : code ≠ 0x11)
    (h3 : code ≠ 0x13) :
    (getAx (forAll l (fun b t => faultAx b code cls (setCause b code true t)) s) a).ctl.causes.testBit code = true := by
  refine forAll_reaches (fun _ => True) (fun t => (getAx t a).ctl.causes.testBit code = true) l _ s a ha (fun _ _ _ => trivial)
    (fun b t _ h => ?_) (fun t _ => ?_) trivial
  · exact faultAx_causesStand b a code cls _ code h0 h1 h3 (setCause_causesStand b a code t code h0 h1 h3 h)
  · refine faultAx_causesStand a a code cls _ code h0 h1 h3 ?_
    rw [setCause, modCtl_getAx_self]
    simp [testBit_setBit]

/-- The power record after a trip. -/
def trippedPs (s : State) (d : Detector) : Pstage := { s.ps with
  tripCnt := inc16 s.ps.tripCnt, tripped := true, tripRounds := 0, forced := chopEnabled s
  srcAna := s.ps.srcAna || decide (d = .analogue), srcSdi := s.ps.srcSdi || decide (d = .sigmaDelta) }

/-- What a trip does beside its record. -/
def tripReaction (l : List Nat) (s : State) : State :=
  raise evOverVoltage (pauseDiags (forAll l (fun a t => faultAx a 0x17 3 (setCause a 0x17 true t)) s))

theorem ovTrip_eq (s : State) (d : Detector) (h : canTrip s d = true) :
    ovTrip d s = tripReaction (ovAxes s) { s with ps := trippedPs s d } := by
  rw [ovTrip, if_neg (by simp [h])]; rfl

theorem tripReaction_onlyReaction (l : List Nat) (s : State) : State.onlyReaction s (tripReaction l s) :=
  onlyReaction_trans (onlyReaction_trans (onlyReaction_forAll l _ s fun a t =>
    onlyReaction_trans (setCause_onlyReaction a _ _ t) (faultAx_onlyReaction _ _ _ _)) (pauseDiags_onlyReaction _))
    (raise_onlyReaction _ _)

/-- The cause of fault 0x17 stands on every axis of the list. -/
theorem tripReaction_stands (l : List Nat) (s : State) (a : Nat) (ha : a ∈ l) :
    (getAx (tripReaction l s) a).ctl.causes.testBit 0x17 = true := by
  rw [tripReaction, getAx_raise, pauseDiags_ctl]
  exact causeAndFault_stands l 0x17 3 a s ha (by decide) (by decide) (by decide)

/-- The times on of the chopper channels that are on. -/
def timesOn (on : Nat) (l : List Nat) (t : Tab Nat) : Tab Nat := l.foldl (fun t j => if on.testBit j then t else tset t j 0) t

/-- A channel that is not on has lost its time on, and no other. -/
theorem tget_timesOn (on : Nat) (l : List Nat) (t : Tab Nat) (j : Nat) :
    tget 0 (timesOn on l t) j = if j ∈ l ∧ on.testBit j = false then 0 else tget 0 t j := by
  unfold timesOn
  induction l generalizing t with
  | nil => simp
  | cons i l ih =>
    rw [List.foldl_cons, ih]
    by_cases hi : on.testBit i = true
    · rw [if_pos hi]
      by_cases hj : j = i
      · subst hj; simp [hi]
      · simp [hj]
    · rw [if_neg hi]
      by_cases hj : j = i
      · subst hj; simp [hi, tget_tset_self]
      · simp [hj, tget_tset_ne]

/-- The power record after the end of the forcing. -/
def releasedPs (p : Pstage) : Pstage := { p with
  tripped := false, forced := 0, overload := p.overload &&& p.on, onRounds := timesOn p.on (List.range 4) p.onRounds }

/-- An operation of power stages and control records alone, by its frame. -/
def OnlyAxesOf (s t : State) : Prop := t = { s with axes := t.axes }

theorem OnlyAxesOf.forAll {α : Type} (l : List α) (f : α → State → State) (s : State)
    (hf : ∀ x t, (f x t) = { t with axes := (f x t).axes }) : OnlyAxesOf s (forAll l f s) :=
  forAll_keeps (OnlyAxesOf s) l f s (fun x _ t ht => by
    have ht' : t = { s with axes := t.axes } := ht
    rw [OnlyAxesOf, hf x t, ht']) rfl

/-- The restart of the stopped diagnostic runs. -/
theorem resumeDiags_kept (s : State) (a : Nat) :
    OnlyAxesOf s (resumeDiags s) ∧ (getAx (resumeDiags s) a).ctl = (getAx s a).ctl :=
  ⟨OnlyAxesOf.forAll _ _ s fun b t => by split <;> rfl,
   forAll_keeps (fun t => (getAx t a).ctl = (getAx s a).ctl) _ _ s (fun b _ t ht => by
    split
    · rw [modStage_ctl]; exact ht
    · exact ht) rfl⟩

/-- A cause that ends for each axis of a list stands on none of them. -/
theorem causeEnds (l : List Nat) (code a : Nat) (s : State) (ha : a ∈ l) :
    (getAx (forAll l (fun b => setCause b code false) s) a).ctl.causes.testBit code = false := by
  refine forAll_reaches (fun _ => True) (fun t => (getAx t a).ctl.causes.testBit code = false) l _ s a ha (fun _ _ _ => trivial)
    (fun b t _ h => ?_) (fun t _ => ?_) trivial
  · by_cases hb : a = b
    · subst hb
      rw [setCause, modCtl_getAx_self]
      simp [testBit_setBit]
    · rw [setCause, modCtl_getAx_ne _ _ _ _ hb]; exact h
  · rw [setCause, modCtl_getAx_self]
    simp [testBit_setBit]

/-- Settles O31: a trip and its reactions, the end of the forcing, and the overload of a channel. -/
theorem overVoltage : Obligations.OverVoltage := by
  unfold Obligations.OverVoltage
  refine ⟨fun s d h => ?trip, fun s d h => ?none, fun s ht hr => ?released, fun s ht hr => ?early,
    fun s j hen hmax hon hlong => ⟨fun hov => ?overload, fun hov => ?again⟩⟩
  case trip =>
    have hfr := tripReaction_onlyReaction (ovAxes s) { s with ps := trippedPs s d }
    have hps : (tripReaction (ovAxes s) { s with ps := trippedPs s d }).ps = trippedPs s d := by rw [hfr.1]
    refine ⟨_, congrArg Host.Outcome.next (ovTrip_eq s d h), hps, fun a ha => tripReaction_stands _ _ a ha,
      raise_raised _ _ (by decide) (by decide), ?_⟩
    rw [hps]
    exact hfr
  case none => exact congrArg Host.Outcome.next (if_pos (by simp [h]))
  case released =>
    obtain ⟨u, hu⟩ : ∃ u, u = forAll (ovAxes s) (fun a => setCause a 0x17 false) { s with ps := releasedPs s.ps } := ⟨_, rfl⟩
    have he : ovForcingEnd s = resumeDiags u := by rw [ovForcingEnd, if_pos ⟨ht, hr⟩, hu]; rfl
    have hus : u = { s with ps := releasedPs s.ps, axes := u.axes } := by
      have h : OnlyAxesOf { s with ps := releasedPs s.ps } u := by rw [hu]; exact .forAll _ _ _ fun b t => rfl
      exact h
    have hfr : resumeDiags u = { s with ps := releasedPs s.ps, axes := (resumeDiags u).axes } := by
      have h : resumeDiags u = { u with axes := (resumeDiags u).axes } := (resumeDiags_kept u 0).1
      rw [h, hus]
    have hps : (resumeDiags u).ps = releasedPs s.ps := by rw [hfr]
    refine ⟨_, congrArg Host.Outcome.next he, by rw [hps]; rfl, fun j hj => ?_, fun a ha => ?_, by rw [hps]; exact hfr⟩
    · rw [hps]
      refine (tget_timesOn _ _ _ j).trans ?_
      cases s.ps.on.testBit j <;> simp [hj]
    · rw [(resumeDiags_kept u a).2, hu]
      exact causeEnds _ _ a _ ha
  case early => exact congrArg Host.Outcome.next (if_neg fun h => absurd h.2 (by omega))
  case overload =>
    have hcond : Cfg.PSCHOP_EN s j = true ∧ Cfg.PSCHOP_MAXON s j ≠ 0 ∧
        (s.ps.on.testBit j || s.ps.forced.testBit j) = true ∧
        Config.roundsPerMs * Cfg.PSCHOP_MAXON s j ≤ tget 0 s.ps.onRounds j ∧ (!s.ps.overload.testBit j) = true :=
      ⟨hen, hmax, by simpa using hon, hlong, by simp [hov]⟩
    refine ⟨_, congrArg Host.Outcome.next (if_pos hcond), by rw [raise_ps], raise_raised _ _ (by decide) (by decide), ?_⟩
    rw [raise_ps]
    exact raise_onlyEvents _ _
  case again =>
    refine congrArg Host.Outcome.next (if_neg ?_)
    rintro ⟨-, -, -, -, h⟩
    simp [hov] at h

end Sys2Proof.Machine

namespace Sys2Proof.Machine

/-! ### O32: sigma-delta inputs and the comparator self-test (R128 to R130) -/

/-- With a detector available that was not lost, the judgement of R127 changes nothing. -/
theorem checkDetection_avail (s : State) (h : anaAvail s = true) (hl : s.ps.lost = false) : checkDetection s = s := by
  have hs : ({ s with ps := { s.ps with lost := false } } : State) = s := by rw [← hl]
  unfold checkDetection
  simp only [h, hl, Bool.true_or, Bool.not_true, Bool.false_and, Bool.and_false, Bool.false_eq_true, if_false]
  exact hs

/-- The judgement of R127 touches the mark of the lost detection, axes, groups and retired channels, and raises events. -/
theorem checkDetection_onlyReaction (s : State) :
    ∃ b, State.onlyReaction { s with ps := { s.ps with lost := b } } (checkDetection s) := by
  unfold checkDetection
  dsimp only
  split
  · exact ⟨_, onlyReaction_forAll _ _ _ fun a t => onlyReaction_trans (setCause_onlyReaction a _ _ t) (faultAx_onlyReaction _ _ _ _)⟩
  · split
    · exact ⟨_, onlyReaction_forAll _ _ _ fun a t => setCause_onlyReaction a _ _ t⟩
    · exact ⟨_, onlyReaction_refl _⟩

/-- A channel's record when a transient comes, by the stamps that then stand in its window (R32). -/
def stampedCh (c : RetCh) (l : List Nat) : RetCh := { c with stamps := l }

/-- A transient on a sigma-delta input in use: a backoff or nothing while fewer than the threshold stand, else its retirement. -/
theorem transient_sdi (s : State) (k : Nat) (l : List Nat) (hr : isRetired s clsSdi k = false)
    (hl : l = s.sys.ms :: (getRet s clsSdi k).stamps.filter (fun t => s.sys.ms ≤ t + (retCfgOf s clsSdi).window)) :
    transient clsSdi k s =
      if (retCfgOf s clsSdi).threshold ≤ l.length then
        retireCore 1 clsSdi k (stampedCh (getRet s clsSdi k) l)
          { s with ret := { s.ret with fresh := retKey clsSdi k :: s.ret.fresh } }
      else if 0 < (retCfgOf s clsSdi).backoff then
        setRet s clsSdi k { stampedCh (getRet s clsSdi k) l with
          st := .backoff, backoff := min ((retCfgOf s clsSdi).backoff * 2 ^ (l.length - 1)) (16 * (retCfgOf s clsSdi).backoff) }
      else setRet s clsSdi k (stampedCh (getRet s clsSdi k) l) := by
  rw [isRetired, decide_eq_false_iff_not] at hr
  unfold transient
  dsimp only
  rw [if_neg hr, ← hl]
  rfl

theorem getRet_setRet (s : State) (cls i : Nat) (c : RetCh) : getRet (setRet s cls i c) cls i = c := tget_tset_self _ _ _ _

/-- The channel after its retirement. -/
theorem retireCore_st (cause cls idx : Nat) (c : RetCh) (s : State) :
    (getRet (retireCore cause cls idx c s) cls idx).st = .retired ∧
      (getRet (retireCore cause cls idx c s) cls idx).perm = decide (cause = 2) := by
  rw [getRet, retireCore, raise_ret]
  exact ⟨congrArg RetCh.st (tget_tset_self _ _ _ _), congrArg RetCh.perm (tget_tset_self _ _ _ _)⟩

theorem retireCore_raised (cause cls idx : Nat) (c : RetCh) (s : State) : State.raised evRetirement (retireCore cause cls idx c s) :=
  raise_raised _ _ (by decide) (by decide)

/-- What a transient on a sigma-delta input leaves. -/
theorem transient_sdi_onlyEvents (s : State) (k : Nat) :
    State.onlyEvents { s with ret := (transient clsSdi k s).ret } (transient clsSdi k s) := by
  rcases transient_cases clsSdi k s with ⟨r, h⟩ | ⟨r, c, h⟩
  · rw [h]; exact onlyEvents_refl _
  · have hk : ∀ u, retireEffect clsSdi k u = u := fun u => rfl
    rw [h, hk]
    exact retireCore_onlyRet 1 clsSdi k c { s with ret := r }

/-- The power record at the end of a comparator self-test, the marks of failed detectors written. -/
def testedPs (p : Pstage) (res : Nat) (dc : Nat) : Pstage := { p with
  testBusy := false, testResult := res
  anaFail := p.anaFail || (res ≠ 1 && p.testTarget = 0), sdiFail := p.sdiFail || (res ≠ 1 && p.testTarget = 1 + dc) }

/-- RESULT of a comparator self-test (R130). -/
def compResult (trip rel : Bool) : Nat := if !trip then 2 else if !rel then 3 else 1

theorem comparatorEnd_eq (trip rel : Bool) (s : State) (h : s.ps.testBusy = true) : comparatorEnd trip rel s =
    checkDetection (raise evComparator { s with ps := testedPs s.ps (compResult trip rel) (Cfg.PSOVCFG_DCSDI s) }) := by
  rw [comparatorEnd, if_neg (by simp [h])]; rfl

/-- A reaction beside another power record. -/
theorem onlyReaction_withPs {s t : State} (h : State.onlyReaction s t) (p : Pstage) :
    State.onlyReaction { s with ps := p } { t with ps := p } := by
  obtain ⟨h1, h2⟩ := h
  refine ⟨?_, h2⟩
  rw [h1]

/-- The end of a comparator self-test, by its frame. -/
theorem comparatorEnd_kept (trip rel : Bool) (s : State) (h : s.ps.testBusy = true) :
    ∃ b, State.onlyReaction { s with ps := { testedPs s.ps (compResult trip rel) (Cfg.PSOVCFG_DCSDI s) with lost := b } }
      (comparatorEnd trip rel s) ∧ State.raised evComparator (comparatorEnd trip rel s) := by
  obtain ⟨u, hu⟩ : ∃ u : State, u = { s with ps := testedPs s.ps (compResult trip rel) (Cfg.PSOVCFG_DCSDI s) } := ⟨_, rfl⟩
  obtain ⟨b, hb⟩ := checkDetection_onlyReaction (raise evComparator u)
  refine ⟨b, ?_, ?_⟩
  · rw [comparatorEnd_eq trip rel s h, ← hu]
    have hr := onlyReaction_withPs (raise_onlyReaction evComparator u) { u.ps with lost := b }
    rw [raise_ps] at hb
    have := onlyReaction_trans hr hb
    rw [hu] at this ⊢
    exact this
  · rw [comparatorEnd_eq trip rel s h, ← hu]
    exact hb.2 _ (raise_raised _ u (by decide) (by decide))

/-- What a test of Saggar leaves of the rest: memory, configuration, the power record, and its own result. -/
structure TestKept (s t : State) : Prop where
  mem : t.mem = s.mem
  cfg : t.cfg = s.cfg
  ps : t.ps = s.ps
  cmp : t.sag.selfCmp = s.sag.selfCmp

theorem TestKept.trans {s t u : State} (h : TestKept s t) (k : TestKept t u) : TestKept s u :=
  ⟨k.mem.trans h.mem, k.cfg.trans h.cfg, k.ps.trans h.ps, k.cmp.trans h.cmp⟩

theorem TestKept.of_pairs {s t : State} (h : PairsOnly s t) : TestKept s t := by
  have hsag := h.sag
  exact ⟨by rw [h.1], by rw [h.1], by rw [h.1], by rw [hsag]; rfl⟩

/-- A cause that is found, in every state of Saggar. -/
theorem foundCause_testKept (c i : Nat) (s : State) : TestKept s (foundCause c i s) := by
  unfold foundCause
  dsimp only
  split
  · exact ⟨rfl, rfl, rfl, rfl⟩
  · split
    · refine TestKept.trans ?_ (.of_pairs (outputs_pairsOnly _))
      refine TestKept.trans ?_ (.of_pairs (raise_pairsOnly _ _))
      exact ⟨rfl, rfl, rfl, rfl⟩
    · unfold onlyIf
      split
      · refine TestKept.trans ?_ (.of_pairs (raise_pairsOnly _ _))
        exact ⟨rfl, rfl, rfl, rfl⟩
      · exact ⟨rfl, rfl, rfl, rfl⟩

/-- Causes that clear. -/
theorem clearCause_testKept (p : Nat × Nat → Bool) (s : State) : TestKept s (clearCause p s) := by
  unfold clearCause
  dsimp only
  (repeat' split) <;> exact ⟨rfl, rfl, rfl, rfl⟩

/-- The note of the comparator's result in Saggar's record. -/
def cmpNoted (ok : Bool) (s : State) : State := modSag (fun g => { g with selfCmp := some ok }) s

/-- The comparator's result as Saggar takes it. -/
theorem comparatorTest_kept (ok : Bool) (s : State) : TestKept (cmpNoted ok s) (comparatorTest ok s) := by
  cases ok with
  | true => exact clearCause_testKept _ _
  | false => exact foundCause_testKept 6 0 (cmpNoted false s)

/-- Settles O32: the fast filter, a faulty input, and the start and the end of a comparator self-test. -/
theorem sigmaDeltaAndSelfTest : Obligations.SigmaDeltaAndSelfTest := by
  unfold Obligations.SigmaDeltaAndSelfTest
  refine ⟨fun s k hen hst => ?fast, fun s k l hen hret hana hlost hl => ?faulty, fun s n hb => ⟨fun hok hblind => ?starts, fun hok => ?refused⟩,
    fun s n hb => congrArg Host.Outcome.next (if_pos hb), fun s trip rel hb ht => ?saggars, fun s trip rel hb ht => ?ends⟩
  case fast =>
    exact ⟨_, congrArg Host.Outcome.next (if_pos (by simp [hen, hst])), raise_onlyEvents _ s, raise_raised _ s (by decide) (by decide)⟩
  case faulty =>
    obtain ⟨u, hu⟩ : ∃ u, u = transient clsSdi k s := ⟨_, rfl⟩
    have huf : State.onlyEvents { s with ret := u.ret } u := by rw [hu]; exact transient_sdi_onlyEvents s k
    have hps : u.ps = s.ps := by rw [huf.1]
    have hcfg : u.cfg = s.cfg := by rw [huf.1]
    have hkeep : checkDetection (raise evSdiFault u) = raise evSdiFault u := by
      refine checkDetection_avail _ ?_ (by rw [raise_ps, hps, hlost])
      rw [anaAvail, raise_ps, hps]
      change (Cfg.PSOVCFG_ANAEN { State.reset with cfg := (raise evSdiFault u).cfg } && _) = true
      rw [raise_cfg, hcfg]
      exact hana
    have he : exec (.sdiFault k) s = .next (raise evSdiFault u) :=
      congrArg Host.Outcome.next ((if_pos hen).trans (by rw [← hu, hkeep]))
    have hget : getRet (raise evSdiFault u) clsSdi k = getRet u clsSdi k := by rw [getRet, raise_ret, getRet]
    have htr := transient_sdi s k l hret hl
    rw [← hu] at htr
    refine ⟨_, he, raise_raised _ u (by decide) (by decide), ?_, fun hn hbo => ?_, fun hn hbo => ?_, fun hn => ?_, ?_⟩
    · rw [hget, htr]
      split
      · exact retireCore_stamps _ _ _ _ _
      · split <;> exact congrArg RetCh.stamps (getRet_setRet _ _ _ _)
    · rw [hget, htr, if_neg (by omega), if_pos hbo, getRet_setRet]
      exact ⟨rfl, rfl⟩
    · rw [hget, htr, if_neg (by omega), if_neg (by omega), getRet_setRet]
      rfl
    · rw [hget]
      rw [if_pos hn] at htr
      refine ⟨by rw [htr]; exact (retireCore_st _ _ _ _ _).1, by rw [htr]; exact (retireCore_st _ _ _ _ _).2, ?_⟩
      exact (raise_onlyEvents evSdiFault u).2 _ (by rw [htr]; exact retireCore_raised _ _ _ _ _)
    · rw [raise_ret]
      exact onlyEvents_trans huf (raise_onlyEvents _ u)
  case starts =>
    refine congrArg Host.Outcome.next ?_
    rw [psctestGo, if_neg (by simp [hb]), if_neg (by simp [hok, hblind])]
  case refused =>
    refine congrArg Host.Outcome.next ?_
    rw [psctestGo, if_neg (by simp [hb]), if_pos (by simp [hok])]
  case saggars =>
    obtain ⟨b, hr, -⟩ := comparatorEnd_kept trip rel s hb
    obtain ⟨u, hu⟩ : ∃ u, u = comparatorEnd trip rel s := ⟨_, rfl⟩
    have hk := comparatorTest_kept (trip && rel) u
    rw [← hu] at hr
    have he : exec (.comparatorSelfTestEnd trip rel) s = .next (comparatorTest (trip && rel) u) :=
      congrArg Host.Outcome.next (by rw [hu]; exact if_pos (by simp [hb, ht]))
    have hps := hk.ps
    have hups : (cmpNoted (trip && rel) u).ps =
        { testedPs s.ps (compResult trip rel) (Cfg.PSOVCFG_DCSDI s) with lost := b } := by
      change u.ps = _; rw [hr.1]
    rw [hups] at hps
    refine ⟨_, he, by rw [hps]; rfl, by rw [hps]; rfl, by rw [hk.cmp]; rfl, ?_, ?_⟩
    · rw [hk.mem]; change u.mem = _; rw [hr.1]
    · rw [hk.cfg]; change u.cfg = _; rw [hr.1]
  case ends =>
    obtain ⟨b, hr, hev⟩ := comparatorEnd_kept trip rel s hb
    have he : exec (.comparatorSelfTestEnd trip rel) s = .next (comparatorEnd trip rel s) :=
      congrArg Host.Outcome.next (if_neg (by simp [ht]))
    have hps : (comparatorEnd trip rel s).ps = { testedPs s.ps (compResult trip rel) (Cfg.PSOVCFG_DCSDI s) with lost := b } := by
      rw [hr.1]
    refine ⟨_, he, by rw [hps]; rfl, by rw [hps]; rfl, ?_, hev, by rw [hps]; exact hr⟩
    have hfails : decide (compResult trip rel ≠ 1) = (!trip || !rel) := by cases trip <;> cases rel <;> rfl
    rw [hps, ← hfails, Bool.beq_eq_decide_eq]
    rfl

end Sys2Proof.Machine

namespace Sys2Proof.Machine

/-! ### Reads after a block was replaced, in every memory -/

/-- Cells without the address in front of a memory. -/
theorem mget_append_right (d : Byte) (x y : Memory) (k : Nat) (h : ∀ c ∈ x, c.1 ≠ k) : mget d (x ++ y) k = mget d y k := by
  induction x with
  | nil => rfl
  | cons c t ih =>
    rw [List.cons_append, mget, if_neg (Ne.symm (h c List.mem_cons_self))]
    exact ih fun c hc => h c (List.mem_cons_of_mem _ hc)

/-- Cells without the address behind a memory. -/
theorem mget_append_left (d : Byte) (x y : Memory) (k : Nat) (h : ∀ c ∈ y, c.1 ≠ k) : mget d (x ++ y) k = mget d x k := by
  induction x with
  | nil => rw [← List.append_nil ([] ++ y), List.nil_append, mget_append_right d y [] k h]
  | cons c t ih => rw [List.cons_append, mget, mget, ih]

/-- A filter that keeps the address. -/
theorem mget_filter (d : Byte) (m : Memory) (p : Host.Cell → Bool) (k : Nat) (h : ∀ v, p (k, v) = true) :
    mget d (m.filter p) k = mget d m k := by
  induction m with
  | nil => rfl
  | cons c t ih =>
    obtain ⟨k', v⟩ := c
    by_cases hk : k = k'
    · subst hk; rw [List.filter_cons_of_pos (h v), mget, mget, if_pos rfl, if_pos rfl]
    · rw [mget, if_neg hk, ← ih, List.filter_cons]
      split
      · rw [mget, if_neg hk]
      · rfl

/-- The bytes of a block by their cells. -/
theorem mget_blockCells (d : Byte) (bs : List Byte) : ∀ a i, i < bs.length → mget d (blockCells d a bs) (a + i) = bs.getD i d := by
  induction bs with
  | nil => intro a i h; simp at h
  | cons b bs ih =>
    intro a i h
    unfold blockCells
    cases i with
    | zero =>
      split
      case isTrue hb =>
        rw [mget_low d _ _ fun c hc => by have := (blockCells_range d bs _ c hc).1; omega]
        simpa using hb.symm
      case isFalse => simp [mget]
    | succ i =>
      have h1 := ih (a + 1) i (by simpa using h)
      rw [show a + 1 + i = a + (i + 1) by omega] at h1
      split
      · rw [h1, List.getD_cons_succ]
      · rw [mget, if_neg (by omega), h1, List.getD_cons_succ]

/-- A byte outside a replaced block. -/
theorem mget_mblock_out (d : Byte) (m : Memory) (a : Nat) (bs : List Byte) (j : Nat) (h : j < a ∨ a + bs.length ≤ j) :
    mget d (mblock d m a bs) j = mget d m j := by
  have hr := blockCells_range d bs a
  unfold mblock
  rcases h with h | h
  · rw [mget_append_left, mget_append_left, mget_filter]
    · intro v; simp [h]
    · intro c hc; have := hr c hc; omega
    · intro c hc; have := (List.mem_filter.1 hc).2; simp at this; omega
  · rw [mget_append_right, mget_filter]
    · intro v; simp [h]
    · intro c hc
      rcases List.mem_append.1 hc with hc | hc
      · have := (List.mem_filter.1 hc).2; simp at this; omega
      · have := hr c hc; omega

/-- A byte of a replaced block. -/
theorem mget_mblock_in (d : Byte) (m : Memory) (a : Nat) (bs : List Byte) (i : Nat) (h : i < bs.length) (e : Byte) :
    mget d (mblock d m a bs) (a + i) = bs.getD i e := by
  have hd : bs.getD i e = bs.getD i d := by simp only [List.getD_eq_getElem?_getD, List.getElem?_eq_getElem h, Option.getD_some]
  unfold mblock
  rw [mget_append_left, mget_append_right, mget_blockCells d bs a i h, hd]
  · intro c hc; have := (List.mem_filter.1 hc).2; simp at this; omega
  · intro c hc; have := (List.mem_filter.1 hc).2; simp at this; omega

/-- Another byte than the one that was written. -/
theorem mget_mset_ne (d : Byte) (k : Nat) (v : Byte) (m : Memory) (j : Nat) (h : j ≠ k) : mget d (mset d m k v) j = mget d m j := by
  induction m with
  | nil => unfold mset; split <;> simp [mget, h]
  | cons c t ih =>
    obtain ⟨k', v'⟩ := c
    unfold mset
    split
    case isTrue hk =>
      subst hk
      split <;> simp [mget, h]
    case isFalse hk =>
      split
      · split <;> simp [mget, h]
      · rw [mget, mget, ih]

/-- A byte outside the bytes that were written, in every memory. -/
theorem mget_mwrite_ne (d : Byte) (bs : List Byte) (m : Memory) (a j : Nat) (h : j < a ∨ a + bs.length ≤ j) :
    mget d (mwrite d m a bs) j = mget d m j := by
  induction bs generalizing m a with
  | nil => rfl
  | cons b bs ih =>
    rw [List.length_cons] at h
    rw [mwrite, ih _ _ (by omega), mget_mset_ne d a b m j (by omega)]

/-! ### O33: the recorder's commands (R317, R328, R331 to R333) -/

theorem wordBytes_length (ws : List Word) : (wordBytes ws).length = 4 * ws.length := by
  induction ws with
  | nil => rfl
  | cons w ws ih =>
    rw [wordBytes, List.flatMap_cons, List.length_append, ← wordBytes, ih, leBytes_length, List.length_cons]
    omega

theorem retLogBytes_length (s : State) : (retLogBytes s).length = 1024 := by
  have h : ∀ l : List Nat, (l.flatMap fun i => wordBytes (retEntryWords (tget {} s.ret.log i))).length = 16 * l.length := by
    intro l
    induction l with
    | nil => rfl
    | cons i l ih =>
      have h4 : (retEntryWords (tget {} s.ret.log i)).length = 4 := rfl
      rw [List.flatMap_cons, List.length_append, ih, wordBytes_length, h4, List.length_cons]
      omega
  rw [retLogBytes, h, List.length_range]

theorem mread_length (d : Byte) (m : Memory) (a n : Nat) : (mread d m a n).length = n := by
  rw [mread, List.length_map, List.length_range]

/-- A copy fills its 64 KB (R327). -/
theorem copyBytes_length (s : State) (q : Word) : (copyBytes s q).length = 0x10000 := by
  simp only [copyBytes, List.length_append, wordBytes_length, List.length_replicate, retLogBytes_length, mread_length,
    List.length_cons, List.length_nil]

/-- The recorder's record when a save starts. -/
def savingRcd (r : Recorder) : Recorder := { r with saving := true, saveStart := r.sec, savePc := r.pc }

/-- A save that can start starts (R328). -/
theorem startSave_free (s : State) (hs : s.rcd.saving = false) (hd : s.sys.dip = false) (hf : s.sys.defer = false) :
    startSave s = wakeFrom 4 { s with rcd := savingRcd s.rcd } := by
  rw [startSave, if_neg (by simp [hs]), if_neg (by simp [hd, hf])]; rfl

theorem wakeFrom_rcd (c : Nat) (s : State) : (wakeFrom c s).rcd = s.rcd := by rw [wakeFrom_eq]

/-- The start of a save touches the recorder's record, and may wake the head. -/
theorem startSave_onlyEvents (s : State) : State.onlyEvents { s with rcd := (startSave s).rcd } (startSave s) := by
  unfold startSave
  split
  · exact onlyEvents_refl _
  · split
    · exact onlyEvents_refl _
    · rw [wakeFrom_rcd]
      exact wakeFrom_onlyEvents _ _

/-- It keeps the recorder's time. -/
theorem startSave_time (s : State) : (startSave s).rcd.sec = s.rcd.sec ∧ (startSave s).rcd.ms = s.rcd.ms ∧
    (startSave s).rcd.pc = s.rcd.pc := by
  unfold startSave
  split
  · exact ⟨rfl, rfl, rfl⟩
  · split
    · exact ⟨rfl, rfl, rfl⟩
    · rw [wakeFrom_rcd]; exact ⟨rfl, rfl, rfl⟩

/-- What a powered hour leaves beside brakes and events. -/
structure HourKept (s t : State) : Prop where
  sec : t.rcd.sec = s.rcd.sec
  ms : t.rcd.ms = s.rcd.ms
  pc : t.rcd.pc = s.rcd.pc
  mem : t.mem = s.mem
  cfg : t.cfg = s.cfg
  boot : t.boot = s.boot
  round : t.sys.round = s.sys.round

theorem HourKept.refl (s : State) : HourKept s s := ⟨rfl, rfl, rfl, rfl, rfl, rfl, rfl⟩

theorem HourKept.trans {s t u : State} (h : HourKept s t) (k : HourKept t u) : HourKept s u :=
  ⟨k.sec.trans h.sec, k.ms.trans h.ms, k.pc.trans h.pc, k.mem.trans h.mem, k.cfg.trans h.cfg, k.boot.trans h.boot,
    k.round.trans h.round⟩

theorem HourKept.of_events {s t : State} (h : State.onlyEvents s t) : HourKept s t := by
  rw [h.1]; exact ⟨rfl, rfl, rfl, rfl, rfl, rfl, rfl⟩

theorem dueCheck_hourKept (b : Nat) (s : State) : HourKept s (dueCheck b s) := by
  unfold dueCheck
  dsimp only
  split
  · refine HourKept.trans ?_ (.of_events (raise_onlyEvents _ _))
    exact ⟨rfl, rfl, rfl, rfl, rfl, rfl, rfl⟩
  · exact .refl s

theorem poweredHour_kept (s : State) : HourKept s (poweredHour s) := by
  obtain ⟨u, hu⟩ : ∃ u, u = forAll (brakesOn s) (fun b s => dueCheck b (modBrk s b (fun k => { k with hrs := sat16 (k.hrs + 1) }))) s :=
    ⟨_, rfl⟩
  have hsu : HourKept s u := by
    rw [hu]
    refine forAll_keeps (HourKept s) _ _ s (fun b _ t ht => ht.trans (HourKept.trans ?_ (dueCheck_hourKept b _))) (.refl s)
    exact ⟨rfl, rfl, rfl, rfl, rfl, rfl, rfl⟩
  have he : poweredHour s = startSave u := by rw [hu]; rfl
  have hfr := (startSave_onlyEvents u).1
  obtain ⟨h1, h2, h3⟩ := startSave_time u
  rw [he]
  exact hsu.trans ⟨h1, h2, h3, by rw [hfr], by rw [hfr], by rw [hfr], by rw [hfr]⟩

/-- The record after a second of powered time. -/
def ticked (r : Recorder) : Recorder := { r with sec := incWord r.sec, ms := 0 }

theorem poweredSecond_eq (s : State) (h : s.sys.inReset = false) : poweredSecond s =
    if (incWord s.rcd.sec).toNat % 3600 = 0 ∧ incWord s.rcd.sec ≠ s.rcd.sec then poweredHour { s with rcd := ticked s.rcd }
    else { s with rcd := ticked s.rcd } := by
  rw [poweredSecond, if_neg (by simp [h])]; rfl

/-- The recorder's record once a save has ended and the one that was asked for meanwhile has started. -/
def nextSave (again : Bool) (r : Recorder) : Recorder := { r with
  saving := again, saveStart := if again then r.sec else r.saveStart, savePc := if again then r.pc else r.savePc }

theorem nextSave_false (r : Recorder) (h : r.saving = false) : nextSave false r = r := by
  cases r; cases h; rfl

/-- A save that was asked for meanwhile starts (R328). -/
theorem nextSave_kept (again : Bool) (u : State) (hs : u.rcd.saving = false) (hd : u.sys.dip = false) (hf : u.sys.defer = false) :
    (if again then startSave u else u).rcd = nextSave again u.rcd ∧
      State.onlyEvents { u with rcd := nextSave again u.rcd } (if again then startSave u else u) := by
  cases again with
  | false =>
    rw [nextSave_false u.rcd hs]
    exact ⟨rfl, onlyEvents_refl u⟩
  | true =>
    rw [if_pos rfl, startSave_free u hs hd hf, wakeFrom_rcd]
    exact ⟨rfl, wakeFrom_onlyEvents 4 _⟩

/-- The record of a save that is no longer under way. -/
def saveOver (r : Recorder) : Recorder := { r with saving := false, saveAgain := false }

/-- The record of a save that failed. -/
def saveFailed (r : Recorder) : Recorder := { saveOver r with saveFail := sat16 (r.saveFail + 1), saveErr := true }

/-- The record of a save that is in flash. -/
def saveDone (r : Recorder) : Recorder := { saveOver r with
  saveSeq := r.saveSeq + 1, saveSec := r.saveStart, saveErr := false, lastCopy := if r.lastCopy = 1 then 2 else 1 }

/-- The address of the copy that a save writes (R328). -/
def copyAddr (s : State) : Nat := (Cfg.RCFLASH s).toNat + (if s.rcd.lastCopy = 1 then 0x10000 else 0)

/-- A state with the copy of the next save in flash. -/
def copyWritten (s : State) : State := { s with
  rcd := saveDone s.rcd
  boot := { s.boot with flash := mblock 0xFF s.boot.flash (copyAddr s) (copyBytes s (s.rcd.saveSeq + 1)) } }

theorem saveComplete_good (s : State) (hs : s.rcd.saving = true) (hd : s.sys.dip = false) (hf : s.sys.defer = false) :
    saveComplete true s = if s.rcd.saveAgain then startSave (copyWritten s) else copyWritten s := by
  have ha : (Cfg.RCFLASH s).toNat + 0x10000 * ((if s.rcd.lastCopy = 1 then 2 else 1) - 1) = copyAddr s := by
    rw [copyAddr]; split <;> rfl
  rw [saveComplete, if_neg (by simp [hs, hd, hf])]
  simp only [ha]
  rfl

theorem saveComplete_bad (s : State) (hs : s.rcd.saving = true) (hd : s.sys.dip = false) (hf : s.sys.defer = false) :
    saveComplete false s = if s.rcd.saveAgain then startSave (raise evSaveFailed { s with rcd := saveFailed s.rcd })
      else raise evSaveFailed { s with rcd := saveFailed s.rcd } := by
  rw [saveComplete, if_neg (by simp [hs, hd, hf])]
  rfl

/-- The words of a clear-log record (R333). -/
def clearWords (s : State) (src : Source) (scope : Nat) : List Word :=
  withCrc [packWord [(19, 16, scope), (15, 0, s.rcd.clrCnt + 1)], s.rcd.pc, s.rcd.sec, s.sys.round,
    BitVec.ofNat 32 s.rcd.count, BitVec.ofNat 32 s.rcd.lost, if src = .spi then 1#32 else 0#32]

/-- A clear that is accepted (R332, R333). -/
theorem rcClear_accepted (s : State) (src : Source) (scope : Nat) (hsrc : src ≠ .compact) (hscope : scope ≠ 0)
    (hauth : s.rcd.auth = true) (hcnt : s.rcd.clrCnt < 16) (hd : s.sys.dip = false) (hf : s.sys.defer = false) :
    rcClear src scope true s = { s with
      rcd := { s.rcd with
        clrCnt := s.rcd.clrCnt + 1, clearPend := some ((s.rcd.clearPend.getD 0) ||| scope), lastCmd := 2, result := 1 }
      mem := mwrite 0 s.mem (recAddr s (0xC000 + 32 * s.rcd.clrCnt)) (wordBytes (clearWords s src scope))
      boot := { s.boot with
        flash := mblock 0xFF s.boot.flash ((Cfg.RCFLASH s).toNat + 0x28000 + 32 * s.rcd.clrCnt)
          (wordBytes (clearWords s src scope)) } } := by
  have hlast : packWord [(1, 0, b2n (src = .spi))] = if src = .spi then 1#32 else 0#32 := by
    by_cases h : src = .spi
    · simp only [h, decide_true, if_true]; decide
    · simp only [h, decide_false, if_false]; decide
  rw [rcClear, if_neg (by simp [hsrc, hscope]), if_neg (by simp [hauth]), if_neg (by omega), if_neg (by simp [hd, hf]),
    if_neg (by simp)]
  dsimp only
  rw [hlast]
  unfold clearWords
  generalize wordBytes (withCrc _) = bs
  rfl

/-- A clear that is refused, by its code (R332). -/
theorem rcClear_refused (s : State) (src : Source) (scope n : Nat) (ok : Bool)
    (h : n = 8 ∧ (src = .compact ∨ scope = 0) ∨ src ≠ .compact ∧ scope ≠ 0 ∧
      (n = 2 ∧ s.rcd.auth = false ∨ s.rcd.auth = true ∧
        (n = 3 ∧ 16 ≤ s.rcd.clrCnt ∨ s.rcd.clrCnt < 16 ∧
          (n = 4 ∧ (s.sys.dip = true ∨ s.sys.defer = true) ∨
            s.sys.dip = false ∧ s.sys.defer = false ∧ n = 5 ∧ ok = false)))) :
    rcClear src scope ok s = rcResult 2 n s := by
  unfold rcClear
  dsimp only
  rcases h with ⟨rfl, h⟩ | ⟨hsrc, hscope, h⟩
  · rw [if_pos h]
  rw [if_neg (by simp [hsrc, hscope])]
  rcases h with ⟨rfl, h⟩ | ⟨hauth, h⟩
  · rw [if_pos (by simp [h])]
  rw [if_neg (by simp [hauth])]
  rcases h with ⟨rfl, h⟩ | ⟨hcnt, h⟩
  · rw [if_pos h]
  rw [if_neg (by omega)]
  rcases h with ⟨rfl, h⟩ | ⟨hd, hf, rfl, h⟩
  · rw [if_pos (by simpa using h)]
  · rw [if_neg (by simp [hd, hf]), if_pos (by simp [h])]

/-- A password command outside a block (R331). -/
theorem rcPwd_free (n : Nat) (s : State) (hb : s.rcd.blkMs = none) (h8 : 8 ≤ n) (h32 : n ≤ 32) : rcPwd n s =
    if sha256 (pwdBytes s.rcd.pwd n) = s.rcd.pwdHash then
      { s with rcd := { s.rcd with pwd := [], auth := !s.sag.sealPin, authMs := 0, wrong := 0, lastCmd := 1, result := 1 } }
    else if s.rcd.wrong + 1 < 3 then
      { s with rcd := { s.rcd with pwd := [], wrong := s.rcd.wrong + 1, lastCmd := 1, result := 6 } }
    else { s with rcd := { s.rcd with pwd := [], wrong := 0, blkMs := some 60000, lastCmd := 1, result := 6 } } := by
  rw [rcPwd]
  dsimp only
  rw [if_neg (by simp [hb]), if_neg (by omega)]
  rfl

/-- Settles O33: each command of the recorder by its effect. -/
theorem recorderCommands : Obligations.RecorderCommands := by
  unfold Obligations.RecorderCommands
  refine ⟨fun s h => ?second, fun s h => ?stands, fun s m hm => ⟨fun hs hd hf => ?save, fun hs => ?again, fun hs hdf => ?waits⟩,
    fun s hs hd hf => ⟨?copied, ?failed⟩, fun s ok h => ?nothing,
    fun s src scope hsrc hscope hauth hcnt hd hf l hl fa ma hfa hma => ?clear, fun s src scope n ok h => ?noClear,
    fun s m n hm hb => ⟨fun h8 h32 hok => ?right, fun h8 h32 hbad hw => ?wrong, fun h8 h32 hbad hw => ?third, fun hlen => ?length⟩,
    fun s m n k hm hb => ?blocked, fun s m hm => ?lock, fun s ha ht => ?authEnd, fun s h => ?authStands, fun s h => ?blockEnd,
    fun s h => ?blockStands⟩
  case second =>
    have hone : s.rcd.sec ≠ 0xFFFFFFFF#32 → incWord s.rcd.sec = s.rcd.sec + 1 := fun hne => if_neg hne
    have hk : HourKept { s with rcd := ticked s.rcd } (poweredSecond s) := by
      rw [poweredSecond_eq s h]
      split
      · exact poweredHour_kept _
      · exact .refl _
    refine ⟨_, rfl, hk.sec, hk.ms, hk.pc, fun hne => hk.sec.trans (hone hne), hk.mem, hk.cfg, by rw [hk.boot], hk.round, fun hn => ?_⟩
    rw [poweredSecond_eq s h, if_neg]
    · rfl
    · rintro ⟨h0, hne⟩
      by_cases hmax : s.rcd.sec = 0xFFFFFFFF#32
      · exact hne (if_pos hmax)
      · rw [hone hmax] at h0; exact hn h0
  case stands => exact congrArg Host.Outcome.next (if_pos h)
  case save =>
    refine ⟨_, congrArg Host.Outcome.next ((withRight_of_reaches m aRCCMD _ s hm).trans
      (congrArg (rcResult 3 1) (startSave_free s hs hd hf))), ?_, ?_⟩
    · rw [rcResult, modRcd, wakeFrom_rcd]; rfl
    · rw [wakeFrom_eq]; exact ⟨rfl, fun _ h => h⟩
  case again =>
    refine congrArg Host.Outcome.next ((withRight_of_reaches m aRCCMD _ s hm).trans ?_)
    rw [rcSave, startSave, if_pos hs]; rfl
  case waits =>
    refine congrArg Host.Outcome.next ((withRight_of_reaches m aRCCMD _ s hm).trans ?_)
    rw [rcSave, startSave, if_neg (by simp [hs]), if_pos (by simpa using hdf)]; rfl
  case copied =>
    obtain ⟨hr, hev⟩ := nextSave_kept s.rcd.saveAgain (copyWritten s) rfl hd hf
    have hboot : (if s.rcd.saveAgain then startSave (copyWritten s) else copyWritten s).boot.flash =
        mblock 0xFF s.boot.flash (copyAddr s) (copyBytes s (s.rcd.saveSeq + 1)) := by rw [hev.1]; rfl
    refine ⟨_, congrArg Host.Outcome.next (saveComplete_good s hs hd hf), hr, fun i hi => ?_, fun x hx => ?_, ?_⟩
    · rw [hboot]
      exact mget_mblock_in _ _ _ _ _ (by rw [copyBytes_length]; exact hi) _
    · rw [hboot, mget_mblock_out]
      rw [copyBytes_length, copyAddr]
      revert hx
      split <;> omega
    · rw [hr, hboot]
      exact hev
  case failed =>
    obtain ⟨v, hv⟩ : ∃ v, v = raise evSaveFailed { s with rcd := saveFailed s.rcd } := ⟨_, rfl⟩
    have hve : State.onlyEvents { s with rcd := saveFailed s.rcd } v := by rw [hv]; exact raise_onlyEvents _ _
    have hvr : v.rcd = saveFailed s.rcd := by rw [hve.1]
    obtain ⟨hr, hev⟩ := nextSave_kept s.rcd.saveAgain v (by rw [hvr]; rfl) (by rw [hve.1]; exact hd) (by rw [hve.1]; exact hf)
    refine ⟨_, congrArg Host.Outcome.next (saveComplete_bad s hs hd hf), ?_, ?_, ?_⟩
    · rw [← hv, hr, hvr]; rfl
    · rw [← hv]; exact hev.2 _ (by rw [hv]; exact raise_raised _ _ (by decide) (by decide))
    · rw [← hv, hr]
      obtain ⟨hv1, hv2⟩ := hve
      obtain ⟨he1, he2⟩ := hev
      refine ⟨?_, fun e h => he2 e (hv2 e h)⟩
      rw [he1, hv1]
  case nothing =>
    refine congrArg Host.Outcome.next (if_pos ?_)
    rcases h with h | h | h <;> simp [h]
  case clear =>
    have hw : clearWords s src scope = withCrc [packWord [(19, 16, scope), (15, 0, s.rcd.clrCnt + 1)], s.rcd.pc, s.rcd.sec,
        s.sys.round, BitVec.ofNat 32 s.rcd.count, BitVec.ofNat 32 s.rcd.lost, if src = .spi then 1#32 else 0#32] := rfl
    rw [← hw] at hl
    have hlen : l.length = 32 := by rw [hl, wordBytes_length]; rfl
    have he := rcClear_accepted s src scope hsrc hscope hauth hcnt hd hf
    rw [← hl, ← hfa, ← hma] at he
    refine ⟨_, congrArg Host.Outcome.next he, rfl, fun i hi => mget_mblock_in _ _ _ _ _ (by omega) _,
      fun x hx => mget_mblock_out _ _ _ _ _ (by omega), fun hwf i hi => ?_, fun x hx => mget_mwrite_ne _ _ _ _ _ (by omega), rfl⟩
    rw [mget_mwrite_in 0 l s.mem ma i hwf (by omega)]
  case noClear => exact congrArg Host.Outcome.next (rcClear_refused s src scope n ok h)
  case right =>
    refine congrArg Host.Outcome.next ((withRight_of_reaches m aRCCMD _ s hm).trans ?_)
    rw [rcPwd_free n s hb h8 h32, if_pos hok]
  case wrong =>
    refine congrArg Host.Outcome.next ((withRight_of_reaches m aRCCMD _ s hm).trans ?_)
    rw [rcPwd_free n s hb h8 h32, if_neg hbad, if_pos (by omega)]
  case third =>
    refine congrArg Host.Outcome.next ((withRight_of_reaches m aRCCMD _ s hm).trans ?_)
    rw [rcPwd_free n s hb h8 h32, if_neg hbad, if_neg (by omega)]
  case length =>
    refine congrArg Host.Outcome.next ((withRight_of_reaches m aRCCMD _ s hm).trans ?_)
    rw [rcPwd]
    dsimp only
    rw [if_neg (by simp [hb]), if_pos hlen]
    rfl
  case blocked =>
    refine congrArg Host.Outcome.next ((withRight_of_reaches m aRCCMD _ s hm).trans ?_)
    rw [rcPwd]
    dsimp only
    rw [if_pos (by simp [hb])]
    rfl
  case lock => exact congrArg Host.Outcome.next (withRight_of_reaches m aRCCMD _ s hm)
  case authEnd => exact congrArg Host.Outcome.next (if_pos ⟨ha, ht⟩)
  case authStands =>
    refine congrArg Host.Outcome.next (if_neg ?_)
    rintro ⟨ha, ht⟩
    rcases h with h | h
    · simp [h] at ha
    · omega
  case blockEnd => exact congrArg Host.Outcome.next (if_pos h)
  case blockStands => exact congrArg Host.Outcome.next (if_neg h)

end Sys2Proof.Machine

namespace Sys2Proof.Machine

/-! ### O34: the boot sequence and the start of LISTEN (R364, R371 to R374) -/

/-- What the load of the recorder leaves: the configuration, the network, the head state and round, and the boot record but
for the flash. -/
structure LoadKept (s t : State) : Prop where
  cfg : t.cfg = s.cfg
  net : t.host.net = s.host.net
  hstate : t.sys.hstate = s.sys.hstate
  round : t.sys.round = s.sys.round
  boot : t.boot = { s.boot with flash := t.boot.flash }

theorem LoadKept.refl (s : State) : LoadKept s s := ⟨rfl, rfl, rfl, rfl, rfl⟩

theorem LoadKept.trans {s t u : State} (h : LoadKept s t) (k : LoadKept t u) : LoadKept s u :=
  ⟨k.cfg.trans h.cfg, k.net.trans h.net, k.hstate.trans h.hstate, k.round.trans h.round, by rw [k.boot, h.boot]⟩

theorem LoadKept.of_events {s t : State} (h : State.onlyEvents s t) : LoadKept s t := by
  rw [h.1]; exact ⟨rfl, rfl, rfl, rfl, rfl⟩

theorem LoadKept.forAll {α : Type} (l : List α) (f : α → State → State) (s : State) (hf : ∀ x t, LoadKept t (f x t)) :
    LoadKept s (forAll l f s) :=
  forAll_keeps (LoadKept s) l f s (fun x _ t ht => ht.trans (hf x t)) (.refl s)

theorem withMem_loadKept (s : State) (m : Memory) : LoadKept s { s with mem := m } := ⟨rfl, rfl, rfl, rfl, rfl⟩

theorem modRcd_loadKept (f : Recorder → Recorder) (s : State) : LoadKept s (modRcd f s) := ⟨rfl, rfl, rfl, rfl, rfl⟩

theorem loadCopy_loadKept (a k : Nat) (q : Word) (s : State) : LoadKept s (loadCopy a k q s) := ⟨rfl, rfl, rfl, rfl, rfl⟩

theorem loadBlank_loadKept (s : State) : LoadKept s (loadBlank s) := by
  unfold loadBlank
  refine LoadKept.trans ?_ (.of_events (raise_onlyEvents _ _))
  refine LoadKept.trans ?_ (modRcd_loadKept _ _)
  exact (withMem_loadKept s _).trans (.forAll _ _ _ fun c t => withMem_loadKept t _)

theorem stamp_loadKept (k : Nat) (s : State) : LoadKept s (stamp k s) := by
  unfold stamp
  dsimp only
  split <;> exact ⟨rfl, rfl, rfl, rfl, rfl⟩

theorem recLoad_loadKept (s : State) : LoadKept s (recLoad s) := by
  unfold recLoad
  dsimp only
  refine LoadKept.trans (LoadKept.trans ?_ (modRcd_loadKept _ _)) (stamp_loadKept 1 _)
  split
  · exact (loadCopy_loadKept _ _ _ s).trans (withMem_loadKept _ _)
  · exact (loadBlank_loadKept s).trans (withMem_loadKept _ _)

/-- What a verified image leaves of the boot record. -/
def imageBoot (k : Nat) (v : Verified) (b : Boot) : Boot := { b with
  verified := true, noImage := false, slot := k, inact := 1 - k, auth := v.auth, seq := v.header.seq
  len := v.header.len, digest := imageDigest v }

/-- The axes without feedback have a position (R134). -/
def positioned (s : State) : State :=
  forAll ((List.range 128).filter (fun a => Cfg.FBCFG_SRC s (axW a) = 3)) (fun a t => modFb t a (fun f => { f with posRel := true })) s

theorem positioned_loadKept (s : State) : LoadKept s (positioned s) := .forAll _ _ _ fun _ _ => ⟨rfl, rfl, rfl, rfl, rfl⟩

theorem installImage_eq (k : Nat) (rc : Tab RetCfg) (v : Verified) (s : State) : installImage k rc v s =
    modBoot (fun b => { b with recLoaded := true }) (recLoad (positioned (imageState k rc v s))) := by
  unfold installImage positioned
  rfl

theorem imageState_kept (k : Nat) (rc : Tab RetCfg) (v : Verified) (s : State) :
    (imageState k rc v s).boot = imageBoot k v s.boot ∧ (imageState k rc v s).cfg = v.load.st.cfg ∧
      (imageState k rc v s).host.net = v.load.net ∧ (imageState k rc v s).sys = s.sys := ⟨rfl, rfl, rfl, rfl⟩

/-- The mark of the loaded recorder, on a state that the load has reached. -/
theorem recLoaded_kept {s t : State} (h : LoadKept s t) (b : Boot) (hb : s.boot = b) :
    (∃ fl, (modBoot (fun b => { b with recLoaded := true }) t).boot = { b with flash := fl, recLoaded := true }) ∧
      (modBoot (fun b => { b with recLoaded := true }) t).cfg = s.cfg ∧
      (modBoot (fun b => { b with recLoaded := true }) t).host.net = s.host.net ∧
      (modBoot (fun b => { b with recLoaded := true }) t).sys.hstate = s.sys.hstate ∧
      (modBoot (fun b => { b with recLoaded := true }) t).sys.round = s.sys.round := by
  refine ⟨⟨t.boot.flash, ?_⟩, h.cfg, h.net, h.hstate, h.round⟩
  rw [modBoot, h.boot, hb]

/-- A verified image in force. -/
theorem installImage_kept (k : Nat) (rc : Tab RetCfg) (v : Verified) (s : State) :
    (∃ fl, (installImage k rc v s).boot = { imageBoot k v s.boot with flash := fl, recLoaded := true }) ∧
      (installImage k rc v s).cfg = v.load.st.cfg ∧ (installImage k rc v s).host.net = v.load.net ∧
      (installImage k rc v s).sys.hstate = s.sys.hstate ∧ (installImage k rc v s).sys.round = s.sys.round := by
  obtain ⟨h1, h2, h3, h4⟩ := imageState_kept k rc v s
  have h := recLoaded_kept ((positioned_loadKept _).trans (recLoad_loadKept _)) _ h1
  rw [← installImage_eq, h2, h3, h4] at h
  exact h

/-- What the verdicts of the first and of the second slot lead to (R371, R372). -/
def bootOutcome (b : BootObs) (k k' : Nat) (s : State) (x y : Verdict Verified) : State :=
  match x with
  | .good v => installImage k (slotRet b k) v s
  | .bad c r =>
    match y with
    | .good v => installImage k' (slotRet b k') v (modBoot (fun q => { q with fallback := true }) (slotFailed k c r s))
    | .bad c' r' => noImage (slotFailed k' c' r' (slotFailed k c r s))

/-- The boot unit tries the slots in their order (R371, R372). -/
theorem bootSequence_tries (s : State) (b : BootObs) (k k' : Nat) (hst : s.sys.hstate = .boot) (hr : s.sys.inReset = false)
    (hv : s.boot.verified = false) (hn : s.boot.noImage = false) (hf : b.sfdpOk = true)
    (hx : s.sys.oct = true → b.xspiOk = true) (hd : 0x800000 ≤ b.density) (ho : slotOrder s b = [k, k']) :
    bootSequence b s = bootOutcome b k k' (modBoot (fun q => { q with density := b.density }) s)
      (bootVerify s b k) (bootVerify s b k') := by
  have hxb : (s.sys.oct && !b.xspiOk) = false := by
    cases ho : s.sys.oct with
    | false => rfl
    | true => simp [hx ho]
  unfold bootSequence
  rw [if_neg (by simp [hst, hr, hv, hn])]
  dsimp only
  rw [if_neg (by simp [hf, hxb]; omega)]
  simp only [ho]
  generalize bootVerify s b k = x, bootVerify s b k' = y
  cases x <;> cases y <;> rfl

/-- A slot that failed: the boot record, and of that nothing but the failure. -/
theorem slotFailed_kept (k c r : Nat) (s : State) : slotFailed k c r s = { s with boot := (slotFailed k c r s).boot } ∧
    (slotFailed k c r s).boot.verified = s.boot.verified := by
  unfold slotFailed modBoot
  dsimp only
  split <;> exact ⟨rfl, rfl⟩

/-- The head as it leaves BOOT, but for its cores (R374, R420). -/
def leavingBoot (s : State) : State := { s.tick with
  sys := { s.sys with
    bootMs := freeIn s 0 65535, wdLeft := if Cfg.WDCFG_TIME s = 0 then none else some (Cfg.WDCFG_TIME s)
    lockAt := if s.sag.st = 2 then some s.sys.round else s.sys.lockAt }
  link := { s.link with chans := (List.range 2).map (fun ch =>
    (ch, { getCh s ch with txdis0 := !chOn s ch, txdis1 := !chOn s ch })) }
  casc := if (Cfg.CSCFG_EN s && !masterPair s) = true then { s.casc with st := 1 } else s.casc }

/-- The cores as the head leaves BOOT (R358, R361). -/
theorem coresStart_cores (s : State) : (tget {} (coresStart s).lad.cores 4).st = 1 ∧
    (tget {} (coresStart s).lad.cores 4).pc = Cfg.LDCENTRY s ∧ (tget {} (coresStart s).lad.cores 4).shadow = false ∧
    ∀ c, c < 4 → (tget {} (coresStart s).lad.cores c).st = (if clusterOn s c then 0 else 3) := by
  refine ⟨rfl, rfl, rfl, fun c hc => ?_⟩
  match c, hc with
  | 0, _ | 1, _ | 2, _ | 3, _ => rfl

theorem bootComplete_eq (s : State) (hst : s.sys.hstate = .boot) (hr : s.sys.inReset = false) (hv : s.boot.verified = true)
    (hl : s.boot.recLoaded = true) (hg : s.sag.st ≠ 0) :
    bootComplete s = onlyIf s.boot.fallback (raise evImageFallback) (bootInfo (enterListen 64 88 (coresStart (leavingBoot s)))) := by
  rw [bootComplete, if_neg (by simp [hst, hr, hv, hl, hg])]
  rfl

/-- What the start of LISTEN after BOOT leaves (R374). -/
structure Started (s t : State) : Prop where
  hstate : t.sys.hstate = .listen
  timer : t.sys.listenTimer = if isAlt s then 88 else 64
  wd : t.sys.wdLeft = if Cfg.WDCFG_TIME s = 0 then none else some (Cfg.WDCFG_TIME s)
  cores : t.lad.cores = (coresStart (leavingBoot s)).lad.cores
  event : State.raised evHeadState t
  casc : t.casc = if (Cfg.CSCFG_EN s && !masterPair s) = true then { s.casc with st := 1 } else s.casc
  mem : t.mem = s.mem
  cfg : t.cfg = s.cfg
  axes : t.axes = s.axes
  flash : t.boot.flash = s.boot.flash
  round : t.sys.round = s.sys.round

theorem Started.of_events {s u t : State} (h : Started s u) (k : State.onlyEvents u t) : Started s t := by
  obtain ⟨hfr, hrk⟩ := k
  exact ⟨by rw [hfr]; exact h.hstate, by rw [hfr]; exact h.timer, by rw [hfr]; exact h.wd, by rw [hfr]; exact h.cores,
    hrk _ h.event, by rw [hfr]; exact h.casc, by rw [hfr]; exact h.mem, by rw [hfr]; exact h.cfg, by rw [hfr]; exact h.axes,
    by rw [hfr]; exact h.flash, by rw [hfr]; exact h.round⟩

theorem bootInfo_started (s : State) (hst : s.sys.hstate = .boot) :
    Started s (bootInfo (enterListen 64 88 (coresStart (leavingBoot s)))) := by
  have hev := setHead_raised .listen (listenTimed 64 88 (coresStart (leavingBoot s))) (by change s.sys.hstate ≠ _; rw [hst]; decide)
  have hfr := (setHead_onlyEvents .listen (listenTimed 64 88 (coresStart (leavingBoot s)))).1
  obtain ⟨w, hw⟩ : ∃ w, w = setHead .listen (listenTimed 64 88 (coresStart (leavingBoot s))) := ⟨_, rfl⟩
  have he : enterListen 64 88 (coresStart (leavingBoot s)) = w := hw.symm
  rw [he]
  rw [← hw] at hev hfr
  exact ⟨by rw [bootInfo, hfr]; rfl, by rw [bootInfo, hfr]; rfl, by rw [bootInfo, hfr]; rfl, by rw [bootInfo, hfr]; rfl, hev,
    by rw [bootInfo, hfr]; rfl, by rw [bootInfo, hfr]; rfl, by rw [bootInfo, hfr]; rfl, by rw [bootInfo, hfr]; rfl,
    by rw [bootInfo, hfr]; rfl, by rw [bootInfo, hfr]; rfl⟩

/-- The start of LISTEN, with the report of a fallback. -/
theorem bootComplete_kept (s : State) (hst : s.sys.hstate = .boot) (hr : s.sys.inReset = false) (hv : s.boot.verified = true)
    (hl : s.boot.recLoaded = true) (hg : s.sag.st ≠ 0) :
    Started s (bootComplete s) ∧ (s.boot.fallback = true → State.raised evImageFallback (bootComplete s)) := by
  have hs := bootInfo_started s hst
  rw [bootComplete_eq s hst hr hv hl hg]
  cases s.boot.fallback with
  | false => exact ⟨hs, (nomatch ·)⟩
  | true =>
    rw [onlyIf, if_pos rfl]
    exact ⟨hs.of_events (raise_onlyEvents _ _), fun _ => raise_raised _ _ (by decide) (by decide)⟩

/-- Settles O34: the slots in their order, no image, and the start of LISTEN. -/
theorem bootAndListen : Obligations.BootAndListen := by
  unfold Obligations.BootAndListen
  refine ⟨fun s b k k' v hst hr hv hn hf hx hd ho => ?_, fun s b hst hr hv hn hf => ?noFlash, fun s hst hr hv hl hg => ?complete⟩
  · have he := bootSequence_tries s b k k' hst hr hv hn hf hx hd ho
    refine ⟨fun hgood => ?first, fun c r hbad hgood => ?second, fun c r c' r' hbad hbad' => ?neither⟩
    case first =>
      simp only [hgood, bootOutcome] at he
      obtain ⟨⟨fl, hboot⟩, hcfg, hnet, hh, hrd⟩ := installImage_kept k (slotRet b k) v (modBoot (fun q => { q with density := b.density }) s)
      exact ⟨_, congrArg Host.Outcome.next he, (congrArg Boot.verified hboot).trans rfl, (congrArg Boot.slot hboot).trans rfl, (congrArg Boot.noImage hboot).trans rfl,
        (congrArg Boot.seq hboot).trans rfl, (congrArg Boot.recLoaded hboot).trans rfl, (congrArg Boot.fallback hboot).trans rfl, hcfg, hnet, hh.trans hst, hrd,
        (congrArg Boot.fuseCells hboot).trans rfl⟩
    case second =>
      simp only [hbad, hgood, bootOutcome] at he
      obtain ⟨u, hu⟩ : ∃ u, u = modBoot (fun q => { q with fallback := true })
        (slotFailed k c r (modBoot (fun q => { q with density := b.density }) s)) := ⟨_, rfl⟩
      have hus : u.sys = s.sys := by rw [hu, (slotFailed_kept _ _ _ _).1]; rfl
      have huf : u.boot.fallback = true := by rw [hu]; rfl
      rw [← hu] at he
      obtain ⟨⟨fl, hboot⟩, hcfg, -, hh, -⟩ := installImage_kept k' (slotRet b k') v u
      refine ⟨_, congrArg Host.Outcome.next he, by rw [hboot]; rfl, by rw [hboot]; rfl, ?_, hcfg, ?_⟩
      · rw [hboot]; exact huf
      · rw [hh, hus, hst]
    case neither =>
      simp only [hbad, hbad', bootOutcome] at he
      obtain ⟨h1, hv1⟩ := slotFailed_kept k c r (modBoot (fun q => { q with density := b.density }) s)
      generalize slotFailed k c r (modBoot (fun q => { q with density := b.density }) s) = u at he h1 hv1
      obtain ⟨h2, hv2⟩ := slotFailed_kept k' c' r' u
      generalize slotFailed k' c' r' u = w at he h2 hv2
      refine ⟨_, congrArg Host.Outcome.next he, rfl, rfl, (hv2.trans hv1).trans hv, ?_⟩
      rw [noImage, modBoot, h2, h1]
      rfl
  case noFlash =>
    refine congrArg Host.Outcome.next ?_
    rw [bootSequence, if_neg (by simp [hst, hr, hv, hn])]
    dsimp only
    rw [if_pos (by simp [hf])]
    rfl
  case complete =>
    obtain ⟨t, ht⟩ : ∃ t, t = bootComplete s := ⟨_, rfl⟩
    obtain ⟨hk, hfb⟩ := bootComplete_kept s hst hr hv hl hg
    obtain ⟨h1, h2, h3, h4⟩ := coresStart_cores (leavingBoot s)
    rw [← ht] at hk hfb
    refine ⟨t, congrArg Host.Outcome.next ht.symm, hk.hstate, hk.timer, hk.wd, ?_, ?_, ?_, fun c hc => ?_, hk.event, hfb, ?_,
      hk.mem, hk.cfg, hk.axes, hk.flash, hk.round⟩
    · rw [hk.cores]; exact h1
    · rw [hk.cores]; exact h2
    · rw [hk.cores]; exact h3
    · rw [hk.cores]; exact h4 c hc
    · intro hen hm
      rw [hk.casc, if_pos (by simp [hen, hm])]

end Sys2Proof.Machine

namespace Sys2Proof.Machine

/-! ### O35: image commands (R376, R377) -/

/-- A byte of an erased range, in every memory. -/
theorem mget_merase (d : Byte) (m : Memory) (a n x : Nat) :
    mget d (merase m a n) x = if a ≤ x ∧ x < a + n then d else mget d m x := by
  unfold merase
  split
  case isTrue h =>
    have hnone : ∀ c ∈ m.filter (fun c => decide (c.1 < a) || decide (a + n ≤ c.1)), c.1 ≠ x := by
      intro c hc he
      have := (List.mem_filter.1 hc).2
      simp only [Bool.or_eq_true, decide_eq_true_eq] at this
      omega
    have h := mget_append_right d _ [] x hnone
    rw [List.append_nil] at h
    exact h
  case isFalse h =>
    refine mget_filter d m _ x fun v => ?_
    simp only [Bool.or_eq_true, decide_eq_true_eq]
    omega

/-- An image command of a master whose write reaches IMGCMD (R376, R377). -/
theorem imageCmd_accepted (cmd slot nw : Nat) (ws : List Word) (s : State) (hr : imgRefusal s cmd slot nw = 0) (h5 : cmd ≠ 5) :
    imageCmd cmd slot nw ws s = { s with boot := { s.boot with
      lastCmd := cmd, busy := true, job := some (cmd, if s.boot.noImage then slot else s.boot.inact, ws.take nw) } } := by
  unfold imageCmd
  dsimp only
  rw [if_neg (by simp [hr]), if_neg (by simp [h5])]
  rfl

/-- A refused image command, by its code. -/
theorem imageCmd_refused (cmd slot nw : Nat) (ws : List Word) (s : State) (hr : imgRefusal s cmd slot nw ≠ 0) :
    imageCmd cmd slot nw ws s =
      raise evImageCommand { s with boot := { s.boot with lastCmd := cmd, result := imgRefusal s cmd slot nw } } := by
  unfold imageCmd
  dsimp only
  rw [if_pos hr]
  rfl

/-- A REBOOT outside a deferral. -/
theorem imageCmd_reboot (s : State) (hr : imgRefusal s 5 0 0 = 0) (hd : deferring s = false) (ws : List Word) :
    imageCmd 5 0 0 ws s = raise evImageCommand { s with
      boot := { s.boot with lastCmd := 5, result := 1 }, sys := { s.sys with rebootReq := true } } := by
  unfold imageCmd
  dsimp only
  rw [if_neg (by simp [hr]), if_pos (by simp [hd])]
  rfl

/-- The boot record and the event of an image command that has ended. -/
theorem raise_boot_kept (e : Nat) (s : State) (b : Boot) (he : evValid e = true) (hl : e < 256) :
    (raise e { s with boot := b }).boot = b ∧ State.raised e (raise e { s with boot := b }) ∧
      State.onlyEvents { s with boot := (raise e { s with boot := b }).boot } (raise e { s with boot := b }) := by
  rw [raise_boot]
  exact ⟨rfl, raise_raised e _ he hl, raise_onlyEvents e _⟩

/-- The boot record once its job is over. -/
def jobOver (b : Boot) : Boot := { b with busy := false, job := none }

/-- The completion of a job outside a deferral (R377). -/
theorem imageCommandDone_eq (ok : Bool) (rc : Tab RetCfg) (s : State) (cmd k : Nat) (ws : List Word)
    (hj : s.boot.job = some (cmd, k, ws)) (hd : deferring s = false) :
    imageCommandDone ok rc s = raise evImageCommand (if ok then runImage cmd k ws rc { s with boot := jobOver s.boot }
      else { s with boot := { jobOver s.boot with result := 7 } }) := by
  unfold imageCommandDone
  simp only [hj]
  rw [if_neg (by simp [hd])]
  rfl

/-- A job that leaves the boot record b. -/
theorem jobEnds (ok : Bool) (ret : List (Nat × Nat × Nat × Nat)) (s : State) (cmd k : Nat) (ws : List Word) (b : Boot)
    (hj : s.boot.job = some (cmd, k, ws)) (hd : deferring s = false)
    (hb : (if ok then runImage cmd k ws (retParams ret) { s with boot := jobOver s.boot }
      else { s with boot := { jobOver s.boot with result := 7 } }) = { s with boot := b }) :
    ∃ t, exec (.imageCommandDone ⟨ok, ret⟩) s = .next t ∧ t.boot = b ∧ State.raised evImageCommand t ∧
      State.onlyEvents { s with boot := t.boot } t := by
  have he := imageCommandDone_eq ok (retParams ret) s cmd k ws hj hd
  rw [hb] at he
  exact ⟨_, congrArg Host.Outcome.next he, raise_boot_kept _ _ _ (by decide) (by decide)⟩

/-- The bytes of PROGRAM behind the header (R376). -/
theorem programBytes_behind (k : Nat) (bs : List Byte) (s : State) (hf : 64 ≤ s.boot.fill) :
    ∃ fl, programBytes k bs s = { s with boot := { s.boot with flash := fl, fill := s.boot.fill + bs.length } } ∧
      (∀ i, i < bs.length → mget 0xFF fl (k * 0x200000 + s.boot.fill + i) = bs.getD i 0) ∧
      ∀ x, (x < k * 0x200000 + s.boot.fill ∨ k * 0x200000 + s.boot.fill + bs.length ≤ x) →
        mget 0xFF fl x = mget 0xFF s.boot.flash x := by
  have h0 : 64 - s.boot.fill = 0 := by omega
  have hm : max s.boot.fill 64 = s.boot.fill := by omega
  unfold programBytes
  simp only [h0, hm, List.take_zero, List.drop_zero, List.append_nil]
  cases bs with
  | nil => exact ⟨_, rfl, fun i hi => by simp at hi, fun _ _ => rfl⟩
  | cons b bs =>
    exact ⟨_, rfl, fun i hi => mget_mblock_in _ _ _ _ _ hi _, fun x hx => mget_mblock_out _ _ _ _ _ hx⟩

/-- A verification that passes and is newer writes the held header (R376). -/
theorem verifyInactive_good (k : Nat) (rc : Tab RetCfg) (s : State) (v : Verified)
    (hv : verifySlot (loadBase s rc) (heldByte s k) s.boot.density false = .good v)
    (hn : s.boot.noImage = true ∨ later v.header.seq s.boot.seq = true) :
    verifyInactive k rc s = { s with boot := { s.boot with
      flash := mblock 0xFF s.boot.flash (k * 0x200000) (readSlot (heldByte s k) 0 64), result := 1 } } := by
  rw [verifyInactive, hv, verifyOutcome, if_pos (by simpa using hn)]
  rfl

/-- The end of a job touches nothing that a verification reads. -/
theorem loadBase_jobOver (s : State) (rc : Tab RetCfg) : loadBase { s with boot := jobOver s.boot } rc = loadBase s rc := rfl

theorem heldByte_jobOver (s : State) (k : Nat) : heldByte { s with boot := jobOver s.boot } k = heldByte s k := rfl

theorem runImage_verify (s : State) (k : Nat) (ws : List Word) (rc : Tab RetCfg) (v : Verified)
    (hv : verifySlot (loadBase s rc) (heldByte s k) s.boot.density false = .good v)
    (hn : s.boot.noImage = true ∨ later v.header.seq s.boot.seq = true) :
    runImage 3 k ws rc { s with boot := jobOver s.boot } = { s with boot := { jobOver s.boot with
      flash := mblock 0xFF s.boot.flash (k * 0x200000) (readSlot (heldByte s k) 0 64), result := 1 } } := by
  have h := verifyInactive_good k rc { s with boot := jobOver s.boot } v (by
    rw [loadBase_jobOver, heldByte_jobOver]; exact hv) hn
  rw [heldByte_jobOver] at h
  unfold runImage
  rw [h]
  rfl

theorem readSlot_length (rd : Nat → Byte) (o n : Nat) : (readSlot rd o n).length = n := by
  rw [readSlot, List.length_map, List.length_range]

theorem readSlot_getD (rd : Nat → Byte) (n i : Nat) (e : Byte) (h : i < n) : (readSlot rd 0 n).getD i e = rd i := by
  rw [List.getD_eq_getElem?_getD, List.getElem?_eq_getElem (by rw [readSlot_length]; exact h), Option.getD_some]
  simp [readSlot]

theorem runImage_program (k : Nat) (ws : List Word) (rc : Tab RetCfg) (s : State) :
    runImage 2 k ws rc s = modBoot (fun b => { b with result := 1 }) (programBytes k (wordBytes ws) s) := rfl

/-- Settles O35: accepted and refused image commands, and what each job leaves in the flash. -/
theorem imageCommandsAndJobs : Obligations.ImageCommandsAndJobs := by
  unfold Obligations.ImageCommandsAndJobs
  refine ⟨fun s m slot n hm => ⟨fun c k ws hc => ?command, fun hr hd => ?reboot⟩, fun s hb => ?refusal,
    fun s k ws ret hd hk => ⟨fun hj => ?erase, fun hj => ?invalidate, fun hj hf => ?program, fun v hj hv hn => ?verify⟩,
    fun s j ret hd hj => ?failed⟩
  case command =>
    obtain ⟨he, hk5, hws⟩ : exec c s = .next (imageCmd k slot (if k = 2 then n else 0) (stagedWords s m) s) ∧ k ≠ 5 ∧
        (stagedWords s m).take (if k = 2 then n else 0) = ws := by
      rcases hc with ⟨rfl, rfl, rfl⟩ | ⟨rfl, rfl, rfl⟩ | ⟨rfl, rfl, rfl⟩ | ⟨rfl, rfl, rfl⟩ <;>
        exact ⟨congrArg Host.Outcome.next (withRight_of_reaches m aIMGCMD _ s hm), by decide, rfl⟩
    rw [he]
    refine ⟨fun hr => ?_, fun hr => ⟨_, rfl, ?_⟩⟩
    · rw [imageCmd_accepted _ _ _ _ _ hr hk5, hws]
    · rw [imageCmd_refused _ _ _ _ _ hr]
      exact raise_boot_kept _ _ _ (by decide) (by decide)
  case reboot =>
    have he := withRight_of_reaches m aIMGCMD (imageCmd 5 0 0 (stagedWords s m)) s hm
    rw [imageCmd_reboot s hr hd] at he
    obtain ⟨h1, h2, h3⟩ := raise_boot_kept evImageCommand { s with sys := { s.sys with rebootReq := true } }
      { s.boot with lastCmd := 5, result := 1 } (by decide) (by decide)
    refine ⟨_, congrArg Host.Outcome.next he, ?_, h1, h2, h3⟩
    rw [h3.1]
  case refusal =>
    unfold imgRefusal
    rw [if_neg (by simp [hb]), if_neg (by omega), if_pos rfl]
    split
    case isTrue h => simpa using h
    case isFalse h => simpa using h
  case erase =>
    obtain ⟨t, he, hb, hev, hfr⟩ := jobEnds true ret s 1 k ws { jobOver s.boot with
      flash := merase s.boot.flash (k * 0x200000) 0x200000, fill := 0, header := [], result := 1 } hj hd rfl
    refine ⟨t, he, by rw [hb]; rfl, by rw [hb]; rfl, by rw [hb], by rw [hb], by rw [hb], fun x => ?_, hev, hfr⟩
    rw [hb, mget_merase, show k * 0x200000 + 0x200000 = (k + 1) * 0x200000 by omega]
  case invalidate =>
    obtain ⟨t, he, hb, hev, hfr⟩ := jobEnds true ret s 4 k ws { jobOver s.boot with
      flash := merase s.boot.flash (k * 0x200000) 0x1000, result := 1 } hj hd rfl
    refine ⟨t, he, by rw [hb]; rfl, by rw [hb]; rfl, by rw [hb], fun x => ?_, hev, hfr⟩
    rw [hb, mget_merase]
  case program =>
    obtain ⟨fl, hp, hin, hout⟩ := programBytes_behind k (wordBytes ws) { s with boot := jobOver s.boot } hf
    rw [wordBytes_length] at hp hin hout
    obtain ⟨t, he, hb, hev, hfr⟩ := jobEnds true ret s 2 k ws { jobOver s.boot with
      flash := fl, fill := s.boot.fill + 4 * ws.length, result := 1 } hj hd (by
        rw [if_pos rfl, runImage_program, hp]; rfl)
    refine ⟨t, he, by rw [hb]; rfl, by rw [hb]; rfl, by rw [hb], by rw [hb], by rw [hb]; rfl, fun i hi => ?_, fun x hx => ?_, hev, hfr⟩
    · rw [hb]; exact hin i hi
    · rw [hb]; exact hout x hx
  case verify =>
    obtain ⟨t, he, hb, hev, hfr⟩ := jobEnds true ret s 3 k ws { jobOver s.boot with
      flash := mblock 0xFF s.boot.flash (k * 0x200000) (readSlot (heldByte s k) 0 64), result := 1 } hj hd (by
        rw [if_pos rfl]
        exact runImage_verify s k ws (retParams ret) v hv hn)
    refine ⟨t, he, by rw [hb]; rfl, by rw [hb], fun x => ?_, hev, hfr⟩
    rw [hb]
    split
    case isTrue hx =>
      obtain ⟨i, rfl⟩ : ∃ i, x = k * 0x200000 + i := ⟨x - k * 0x200000, by omega⟩
      have hi : i < 64 := by omega
      have h1 := mget_mblock_in 0xFF s.boot.flash (k * 0x200000) (readSlot (heldByte s k) 0 64) i (by rw [readSlot_length]; exact hi) 0
      rw [readSlot_getD _ _ _ _ hi] at h1
      rw [Nat.add_sub_cancel_left]
      exact h1
    case isFalse hx => exact mget_mblock_out _ _ _ _ _ (by rw [readSlot_length]; omega)
  case failed =>
    obtain ⟨cmd, k, ws⟩ := j
    exact jobEnds false ret s cmd k ws { s.boot with busy := false, job := none, result := 7 } hj hd rfl

end Sys2Proof.Machine

namespace Sys2Proof.Machine

/-! ### O36: fuse programming (R378 to R380) -/

/-- A boot record with fuse cells of its own. -/
def withCells (t : Tab Word) (s : State) : State := { s with boot := { s.boot with fuseCells := t } }

/-- A fuse word after one was written. -/
theorem fuseCell_set (s : State) (o : Nat) (w : Word) (j : Nat) :
    fuseCell (withCells (tset s.boot.fuseCells o w) s) j = if j = o then w else fuseCell s j := by
  unfold fuseCell withCells
  rw [tget_tset]

/-- The write of a field of words 10H and 14H that reads back (R380). -/
theorem fuseWrite_field (s : State) (h : s.boot.fpField ≠ 6) : fuseWrite true s =
    withCells (tset s.boot.fuseCells (fuseField s.boot.fpField).1 (fuseCell s (fuseField s.boot.fpField).1 |||
      BitVec.ofNat 32 (fuseValue s s.boot.fpField * 2 ^ (fuseField s.boot.fpField).2.1))) s := by
  unfold fuseWrite
  dsimp only
  rw [if_neg h]
  rfl

/-- One word of KEYHASH, as FPDATA gives it. -/
def putKeyWord (i : Nat) (s : State) : State :=
  withCells (tset s.boot.fuseCells (0x20 + 4 * i) (tget 0#32 s.boot.fpData i)) s

theorem fuseWrite_key (s : State) (h : s.boot.fpField = 6) :
    fuseWrite true s = forAll (List.range 8) putKeyWord s := by
  unfold fuseWrite
  dsimp only
  rw [if_pos h]
  exact congrArg (fun f => forAll (List.range 8) f s) (funext fun _ => funext fun _ => rfl)

/-- KEYHASH words written one after the other: each stands, and no other fuse word has changed. -/
theorem forAll_putKeyWord (l : List Nat) (s : State) :
    (∃ t, forAll l putKeyWord s = withCells t s) ∧
      (∀ i ∈ l, fuseCell (forAll l putKeyWord s) (0x20 + 4 * i) = tget 0#32 s.boot.fpData i) ∧
      ∀ o, (∀ i ∈ l, o ≠ 0x20 + 4 * i) → fuseCell (forAll l putKeyWord s) o = fuseCell s o := by
  unfold forAll
  induction l generalizing s with
  | nil => exact ⟨⟨_, rfl⟩, fun i hi => absurd hi List.not_mem_nil, fun _ _ => rfl⟩
  | cons i l ih =>
    obtain ⟨⟨t, ht⟩, hin, hout⟩ := ih (putKeyWord i s)
    rw [List.foldl_cons]
    refine ⟨⟨t, ht⟩, fun j hj => ?_, fun o ho => ?_⟩
    · by_cases hjl : j ∈ l
      · exact hin j hjl
      · obtain rfl : j = i := (List.mem_cons.1 hj).resolve_right hjl
        rw [hout _ fun k hk he => hjl (by rwa [show j = k by omega]), putKeyWord, fuseCell_set, if_pos rfl]
    · rw [hout o fun k hk => ho k (List.mem_cons_of_mem _ hk), putKeyWord, fuseCell_set, if_neg (ho i List.mem_cons_self)]

/-- The LOCK word with one bit more. -/
theorem lockWord (w : Word) (f : Nat) : BitVec.ofNat 32 (setBit w.toNat f true) = w ||| BitVec.ofNat 32 (2 ^ f) := by
  rw [setBit, if_pos rfl, BitVec.ofNat_or, BitVec.ofNat_toNat, BitVec.setWidth_eq]

/-- The completion of a programming with a good read-back (R380). -/
theorem fuseProgramDone_eq (s u : State) (hb : s.boot.fpBusy = true) (hu : fuseWrite true s = u)
    (hf : u.boot.fpField = s.boot.fpField) : fuseProgramDone true s = { u with boot := { u.boot with
      fpBusy := false, fpResult := 1
      fuseCells := tset u.boot.fuseCells 0x18 (fuseCell u 0x18 ||| BitVec.ofNat 32 (2 ^ s.boot.fpField)) } } := by
  unfold fuseProgramDone
  dsimp only
  rw [if_neg (by simp [hb]), hu, ← lockWord, ← hf]
  rfl

/-- What the completion leaves of the fuse words. -/
theorem fuseCell_done (s u : State) (hb : s.boot.fpBusy = true) (hu : fuseWrite true s = u)
    (hf : u.boot.fpField = s.boot.fpField) (o : Nat) : fuseCell (fuseProgramDone true s) o =
      if o = 0x18 then fuseCell u 0x18 ||| BitVec.ofNat 32 (2 ^ s.boot.fpField) else fuseCell u o := by
  rw [fuseProgramDone_eq s u hb hu hf]
  exact fuseCell_set u 0x18 _ o

/-- The fields of words 10H and 14H stand in those words. -/
theorem fuseField_word (f : Nat) : (fuseField f).1 ≠ 0x18 := by
  unfold fuseField
  split <;> decide

/-- Settles O36: the refusals of GO, and what a programming with a good read-back leaves. -/
theorem fuseProgramming : Obligations.FuseProgramming := by
  unfold Obligations.FuseProgramming
  refine ⟨fun s m w vpp hm hkey hgo hb => ?go, fun s h => ?grounds, fun s hb hf => ?field, fun s hb hf => ?key⟩
  case go =>
    have he : fpcmdGo m w vpp s =
        if fuseRefusal { s with boot := { s.boot with vpp := vpp } } ≠ 0 then { s with boot := { s.boot with
          vpp := vpp, fpResult := fuseRefusal { s with boot := { s.boot with vpp := vpp } } } }
        else { s with boot := { s.boot with vpp := vpp, fpBusy := true, fpField := s.boot.fpSel.toNat } } := by
      rw [fpcmdGo, withRight_of_reaches m aFPCMD _ s hm, keyed, if_pos hkey]
      dsimp only
      rw [if_neg (by simp [hgo, hb])]
      rfl
    exact ⟨fun h => congrArg Host.Outcome.next (he.trans (if_neg (by simp [h]))),
      fun h => congrArg Host.Outcome.next (he.trans (if_pos h))⟩
  case grounds =>
    unfold fuseRefusal at h
    dsimp only at h
    split at h
    · cases h
    split at h
    · cases h
    split at h
    · cases h
    split at h
    · cases h
    case isFalse hv ho hs hl => exact ⟨by simpa using hv, by simpa using ho, by simpa using hs, by simpa using hl⟩
  case field =>
    have hw := fuseWrite_field s (by omega)
    obtain ⟨u, hu⟩ : ∃ u, u = fuseWrite true s := ⟨_, rfl⟩
    rw [hw] at hu
    have hcell := fuseCell_done s u hb (hw.trans hu.symm) (by rw [hu]; rfl)
    have hset := fuseCell_set s (fuseField s.boot.fpField).1 (fuseCell s (fuseField s.boot.fpField).1 |||
      BitVec.ofNat 32 (fuseValue s s.boot.fpField * 2 ^ (fuseField s.boot.fpField).2.1))
    rw [← hu] at hset
    have he := fuseProgramDone_eq s u hb (hw.trans hu.symm) (by rw [hu]; rfl)
    have hne := fuseField_word s.boot.fpField
    refine ⟨_, rfl, by rw [he], by rw [he], ?_, ?_, fun o h1 h2 => ?_, by rw [he, hu]; rfl, ?_⟩
    · rw [hcell, if_neg hne, hset, if_pos rfl]
    · rw [hcell, if_pos rfl, hset, if_neg (Ne.symm hne)]
    · rw [hcell, if_neg h1, hset, if_neg h2]
    · rw [he, hu]; rfl
  case key =>
    have hw := fuseWrite_key s hf
    obtain ⟨⟨t, ht⟩, hin, hout⟩ := forAll_putKeyWord (List.range 8) s
    rw [← hw] at ht hin hout
    have hcell := fuseCell_done s _ hb rfl (by rw [ht]; rfl)
    have he := fuseProgramDone_eq s _ hb ht rfl
    refine ⟨_, rfl, by rw [he], by rw [he], fun i hi => ?_, ?_, fun o h1 h2 => ?_, by rw [he]; rfl⟩
    · rw [hcell, if_neg (by omega), hin i (List.mem_range.2 hi)]
    · rw [hcell, if_pos rfl, hout 0x18 fun i _ => by omega, hf]
    · rw [hcell, if_neg h1, hout o fun i hi => by have := List.mem_range.1 hi; omega]

end Sys2Proof.Machine

namespace Sys2Proof.Machine

/-! ### O37: power states and supply supervision (R412, R416, R417) -/

/-- The system record when a rail warns. -/
def railWarned (rail : Rail) (mv : Nat) (y : Sys) : Sys :=
  match rail with
  | .core => { y with corWarn := true, spCore := mv }
  | .aon => { y with aonWarn := true, spAon := mv }

/-- The head as a dip begins, before the recorder's stamp (R417). -/
def dipBegun (rail : Rail) (mv : Nat) (s : State) : State :=
  wakeFrom 5 (raise evSupplyWarning { s with sys := { railWarned rail mv s.sys with dip := true, defer := true } })

/-- The first warning of a dip (R416, R417). -/
theorem supplyWarning_first (rail : Rail) (mv : Nat) (s : State) (hr : s.sys.inReset = false) (hd : s.sys.dip = false) :
    supplyWarning rail mv s = onlyIf s.boot.recLoaded dipStamp (dipBegun rail mv s) := by
  unfold supplyWarning
  dsimp only
  rw [if_neg (by simp [hr, hd])]
  cases rail <;> rfl

/-- The beginning of a dip raises its event and wakes a head in DEEP PARK, and touches nothing else but the warnings. -/
theorem dipBegun_kept (rail : Rail) (mv : Nat) (s : State) :
    State.onlyEvents { s with sys := { railWarned rail mv s.sys with dip := true, defer := true } } (dipBegun rail mv s) ∧
      State.raised evSupplyWarning (dipBegun rail mv s) ∧ (s.sys.pwr = .deep → (dipBegun rail mv s).sys.waking ≠ none) := by
  obtain ⟨u, hu⟩ : ∃ u : State, u = { s with sys := { railWarned rail mv s.sys with dip := true, defer := true } } := ⟨_, rfl⟩
  have hpwr : (raise evSupplyWarning u).sys.pwr = s.sys.pwr := by
    rw [raise_sys_pwr, hu]
    cases rail <;> rfl
  have he : dipBegun rail mv s = wakeFrom 5 (raise evSupplyWarning u) := by rw [hu]; rfl
  rw [he, ← hu]
  have hw := wakeFrom_onlyEvents 5 (raise evSupplyWarning u)
  refine ⟨onlyEvents_trans (raise_onlyEvents evSupplyWarning u) hw, hw.2 _ (raise_raised _ u (by decide) (by decide)), fun h => ?_⟩
  unfold wakeFrom
  split
  case isTrue => simp
  case isFalse hn =>
    intro hnone
    exact hn ⟨hpwr.trans h, by rw [hnone]; rfl⟩

/-- The stamp of a dip while the dip defers the erasure of a sector: flash, place of the next stamp, and the save that waits. -/
theorem dipStamp_kept (s : State) (hd : s.sys.dip = true) : dipStamp s = { s with
    rcd := { s.rcd with deferred := true, stampPos := (s.rcd.stampPos + 1) % 1024 }
    boot := { s.boot with flash := (dipStamp s).boot.flash } } := by
  unfold dipStamp stamp
  dsimp only
  rw [if_pos (by simp [hd])]
  rfl

/-- What the first warning of a dip leaves, whether or not the recorder is loaded. -/
theorem supplyWarning_kept (rail : Rail) (mv : Nat) (s : State) (hr : s.sys.inReset = false) (hd : s.sys.dip = false) :
    (supplyWarning rail mv s).sys = (dipBegun rail mv s).sys ∧ (supplyWarning rail mv s).ev = (dipBegun rail mv s).ev ∧
      (supplyWarning rail mv s).mem = s.mem ∧ (supplyWarning rail mv s).cfg = s.cfg ∧ (supplyWarning rail mv s).axes = s.axes ∧
      (supplyWarning rail mv s).boot.fuseCells = s.boot.fuseCells ∧
      (s.boot.recLoaded = false → (supplyWarning rail mv s).boot = s.boot ∧ (supplyWarning rail mv s).rcd = s.rcd) ∧
      (s.boot.recLoaded = true → (supplyWarning rail mv s).rcd.deferred = true ∧
        (supplyWarning rail mv s).rcd.stampPos = (s.rcd.stampPos + 1) % 1024) := by
  have hfr := (dipBegun_kept rail mv s).1.1
  rw [supplyWarning_first rail mv s hr hd]
  generalize dipBegun rail mv s = u at hfr
  cases hl : s.boot.recLoaded with
  | false =>
    exact ⟨rfl, rfl, by rw [hfr]; rfl, by rw [hfr]; rfl, by rw [hfr]; rfl, by rw [hfr]; rfl, fun _ => by rw [hfr]; exact ⟨rfl, rfl⟩,
      (nomatch ·)⟩
  | true =>
    have hk := dipStamp_kept u (by rw [hfr])
    rw [onlyIf, if_pos rfl]
    generalize dipStamp u = w at hk
    exact ⟨by rw [hk], by rw [hk], by rw [hk, hfr], by rw [hk, hfr], by rw [hk, hfr], by rw [hk, hfr], (nomatch ·),
      fun _ => by rw [hk, hfr]; exact ⟨rfl, rfl⟩⟩

/-- The system record when both warnings of a dip have cleared. -/
def dipCleared (core aon : DipObs) (y : Sys) : Sys := { y with
  dip := false, corWarn := false, aonWarn := false, defer := true, deferMs := 100
  dipCDur := if core.warned then min core.ticks 0xFFFFF else y.dipCDur
  dipCMin := if core.warned then min core.minMv 0xFFF else y.dipCMin
  dipADur := if aon.warned then min aon.ticks 0xFFFFF else y.dipADur
  dipAMin := if aon.warned then min aon.minMv 0xFFF else y.dipAMin
  dips := inc16 y.dips
  long := if (core.warned && decide (1600 < core.ticks)) || (aon.warned && decide (1600 < aon.ticks)) then inc16 y.long else y.long }

/-- Settles O37: DEEP PARK and its wake causes, and a dip from its first warning to the end of its deferral. -/
theorem powerAndSupply : Obligations.PowerAndSupply := by
  unfold Obligations.PowerAndSupply
  refine ⟨fun s m hm => ⟨fun hp hdr hb hf => ?deep, fun h => ?refused⟩, fun s k h1 h5 h3 => ⟨fun hp hw => ?wakes, fun h => ?awake⟩,
    fun s h => ?noWake, fun s mv hr hd => ⟨?core, ?aon⟩, fun s mv hr hd => ?second, fun s core aon hd => ?cleared,
    fun s hdf hd hms => ⟨fun hw => ?lifts, fun hw hs => ?saves⟩⟩
  case deep =>
    exact congrArg Host.Outcome.next ((withRight_of_reaches m aPWRCMD _ s hm).trans (if_pos (by simp [hp, hdr, hb, hf])))
  case refused =>
    refine ⟨_, congrArg Host.Outcome.next ((withRight_of_reaches m aPWRCMD _ s hm).trans (if_neg ?_)), raise_onlyEvents evRefusedWrite s,
      raise_raised evRefusedWrite s (by decide) (by decide)⟩
    rcases h with h | h | h | h <;> simp [h]
  case wakes =>
    have hcond : (decide (1 ≤ k) && decide (k ≤ 5) && (decide (k ≠ 3) || Cfg.PWRCFG_EVWAKE s)) = true := by
      by_cases hk : k = 3
      · simp [hk, h3 hk]
      · simp [h1, h5, hk]
    exact congrArg Host.Outcome.next ((if_pos hcond).trans (if_pos ⟨hp, by simp [hw]⟩))
  case awake =>
    have hstays : wakeFrom k s = s := by
      refine if_neg ?_
      rintro ⟨hp, hw⟩
      rcases h with h | h
      · exact h hp
      · exact h (Option.isNone_iff_eq_none.1 hw)
    refine congrArg Host.Outcome.next ?_
    rw [hstays]
    exact ite_self s
  case noWake => exact congrArg Host.Outcome.next (if_neg (by simp [h]))
  case core =>
    obtain ⟨hfr, hev, hwk⟩ := dipBegun_kept .core mv s
    obtain ⟨hsys, hevs, hmem, hcfg, haxes, hfuse, hno, hyes⟩ := supplyWarning_kept .core mv s hr hd
    refine ⟨_, congrArg Host.Outcome.next (if_neg (by simp [hr])), ?_, ?_, ?_, ?_, ?_, ?_, fun h => ?_, hmem, hcfg, haxes, hfuse, hno, hyes⟩
    · rw [hsys, hfr.1]
    · rw [hsys, hfr.1]
    · rw [hsys, hfr.1]; rfl
    · rw [hsys, hfr.1]; rfl
    · rw [hsys, hfr.1]; rfl
    · rw [State.raised, hevs]; exact hev
    · rw [hsys]; exact hwk h
  case aon =>
    obtain ⟨hfr, hev, -⟩ := dipBegun_kept .aon mv s
    obtain ⟨hsys, hevs, -⟩ := supplyWarning_kept .aon mv s hr hd
    refine ⟨_, congrArg Host.Outcome.next (if_neg (by simp [hr])), ?_, ?_, ?_, ?_, ?_, ?_⟩
    · rw [hsys, hfr.1]
    · rw [hsys, hfr.1]
    · rw [hsys, hfr.1]; rfl
    · rw [hsys, hfr.1]; rfl
    · rw [hsys, hfr.1]; rfl
    · rw [State.raised, hevs]; exact hev
  case second =>
    exact congrArg Host.Outcome.next ((if_neg (by simp [hr])).trans (if_pos (by simp [hd])))
  case cleared =>
    have he : supplyClear core aon s = raise evDipRecovered { s with sys := dipCleared core aon s.sys } := by
      rw [supplyClear, if_neg (by simp [hd])]; rfl
    obtain ⟨t, ht⟩ : ∃ t, t = raise evDipRecovered { s with sys := dipCleared core aon s.sys } := ⟨_, rfl⟩
    obtain ⟨hfr, hrk⟩ := raise_onlyEvents evDipRecovered { s with sys := dipCleared core aon s.sys }
    rw [← ht] at he hfr hrk
    refine ⟨t, congrArg Host.Outcome.next he, by rw [hfr]; rfl, by rw [hfr]; rfl, by rw [hfr]; rfl, by rw [hfr]; rfl, by rw [hfr]; rfl,
      by rw [hfr]; rfl, ?_, by rw [hfr]; rfl, by rw [hfr]; rfl, by rw [ht]; exact raise_raised _ _ (by decide) (by decide), ?_⟩
    · rw [hfr]
      simp [dipCleared]
    · refine ⟨?_, hrk⟩
      rw [hfr]
  case lifts =>
    refine congrArg Host.Outcome.next ?_
    rw [deferralEnd, if_pos (by simp [hdf, hd, hms])]
    dsimp only
    rw [if_neg (by simp [hw])]
    rfl
  case saves =>
    obtain ⟨u, hu⟩ : ∃ u : State, u = { s with sys := { s.sys with defer := false }, rcd := { s.rcd with deferred := false } } := ⟨_, rfl⟩
    have he : deferralEnd s = wakeFrom 4 { u with rcd := savingRcd u.rcd } := by
      rw [← startSave_free u (by rw [hu]; exact hs) (by rw [hu]; exact hd) (by rw [hu]), deferralEnd, if_pos (by simp [hdf, hd, hms]), hu]
      dsimp only
      rw [if_pos hw]
      rfl
    obtain ⟨hfr, hrk⟩ := wakeFrom_onlyEvents 4 { u with rcd := savingRcd u.rcd }
    rw [← he] at hfr hrk
    have hrcd : (deferralEnd s).rcd = { s.rcd with deferred := false, saving := true, saveStart := s.rcd.sec, savePc := s.rcd.pc } := by
      rw [hfr, hu]; rfl
    refine ⟨_, rfl, by rw [hfr, hu], hrcd, ?_, fun e h => hrk e (by rw [hu]; exact h)⟩
    rw [hrcd, hfr, hu]
    rfl

end Sys2Proof.Machine

namespace Sys2Proof.Machine

/-! ### O39: the round counter at T0 (R42) -/

/-- The anchor without the epochs: a takeover, a handback and the sent epoch leave it. -/
def roundMarks (s : State) : Anchor := { anchor s with epoch := 0, lastEpoch := 0 }

theorem marks_of_anchor {s t : State} (h : anchor t = anchor s) : roundMarks t = roundMarks s :=
  congrArg (fun a : Anchor => { a with epoch := 0, lastEpoch := 0 }) h

theorem setEpoch_marks (e : Nat) (s : State) : roundMarks (setEpoch e s) = roundMarks s := by
  rw [setEpoch_eq]; rfl

/-- The takeover sets the epoch, and nothing else of the anchor (R267). -/
theorem takeOver_marks (s : State) : roundMarks (takeOver s) = roundMarks s := by
  unfold takeOver
  refine (marks_of_anchor (t := storedLock _) (s := setEpoch ((s.sys.epoch + 1) % 65536) (newActive true s)) (by simp)).trans ?_
  exact (setEpoch_marks _ _).trans (marks_of_anchor (newActive_anchor true s))

theorem takeoverRound_marks (s : State) : roundMarks (takeoverRound s) = roundMarks s := by
  unfold takeoverRound
  dsimp only
  split
  · split
    · exact takeOver_marks _
    · rfl
  · rfl

/-- So does the end of a handback (R276). -/
theorem handbackRound_marks (s : State) : roundMarks (handbackRound s) = roundMarks s := by
  unfold handbackRound
  dsimp only
  split
  · refine marks_of_anchor ?_
    split <;> simp
  · split
    · refine (marks_of_anchor (s := setEpoch ((s.sys.epoch + 1) % 65536) (newActive false s)) (by simp)).trans ?_
      exact (setEpoch_marks _ _).trans (marks_of_anchor (newActive_anchor false s))
    · rfl

/-- A unit in shadow entry that comes into step works on states of the past, and keeps its own anchor (R274). -/
theorem replay_anchor (q : Nat × Nat) (l : List PastRound) (c : CopyContent) (s : State) :
    anchor (replay q c l s) = anchor s := by
  induction l generalizing c s with
  | nil => rfl
  | cons h l ih =>
    cases l with
    | nil => exact takeCopy_anchor c s
    | cons h' rest => exact ih _ _

theorem comeIntoStep_anchor (u : CopyUnit) (s : State) : anchor (comeIntoStep u s) = anchor s := by
  unfold comeIntoStep
  dsimp only
  split
  · rfl
  · rw [noteUnit_anchor, replay_anchor]

theorem takeArrived_anchor (s : State) : anchor (takeArrived s) = anchor s := by
  unfold takeArrived
  split
  · rfl
  · rw [anchor_forAll _ _ _ comeIntoStep_anchor]
    rfl

/-- What leaves at T0 leaves all but the epoch last sent (R236). -/
theorem roundSends_marks (s : State) : roundMarks (roundSends s) = roundMarks s := by
  have hrings : ∀ t, roundMarks (sendRings t) = roundMarks t := fun t => by
    unfold sendRings
    split
    · exact (marks_of_anchor (s := { t with sys := { t.sys with lastEpoch := t.sys.epoch } }) (by simp)).trans rfl
    · rfl
  unfold roundSends
  dsimp only
  refine (marks_of_anchor (s := sendRings (onlyIf (pairRole s) skimEnded s)) (by simp)).trans ?_
  exact (hrings _).trans (marks_of_anchor (by simp))

/-- The round that has ended is closed before the counter goes on. -/
def roundClosed (s : State) : State :=
  isoRejoin (prepareCopies (takeArrived (closeCounts (closeSilence (closeLink (cascListen (closeDigest (closePast
    (handbackRound (takeoverRound s))))))))))

theorem roundClosed_marks (s : State) : roundMarks (roundClosed s) = roundMarks s := by
  unfold roundClosed
  refine (marks_of_anchor (s := handbackRound (takeoverRound s)) ?_).trans ((handbackRound_marks _).trans (takeoverRound_marks s))
  rw [isoRejoin_anchor, prepareCopies_anchor, takeArrived_anchor]
  simp

/-- The state of a round that begins, with its counter (R42). -/
def roundCounted (n : Word) (s : State) : State := { s with
  sys := { s.sys with round := if s.sys.roundRan then n + 1 else n, roundRan := s.sys.roundRan || generates s }
  ret := { s.ret with late := [], fresh := [] }, tx := [] }

theorem roundBegin_marks (s : State) : roundMarks (roundBegin s) = roundMarks (roundCounted s.sys.round (roundClosed s)) := by
  obtain ⟨u, hu⟩ : ∃ u, u = roundActions (roundInputs (notify s.sys.round (roundCounted s.sys.round (roundClosed s)))) := ⟨_, rfl⟩
  have he : roundBegin s = onlyIf (decide ((roundSends u).sys.pwr ≠ .deep)) scrubRound (trimStep (roundTick (roundSends u))) := by
    rw [hu]; rfl
  have hua : anchor u = anchor (roundCounted s.sys.round (roundClosed s)) := by
    rw [hu, roundActions_anchor, roundInputs_anchor, notify_anchor]
  rw [he]
  refine (marks_of_anchor (s := roundSends u) (by simp)).trans ((roundSends_marks u).trans (marks_of_anchor hua))

/-- What the timers of a round leave: the head state, the configuration and memory. -/
structure TimerKept (s t : State) : Prop where
  hstate : t.sys.hstate = s.sys.hstate
  mem : t.mem = s.mem
  cfg : t.cfg = s.cfg

theorem TimerKept.trans {s t u : State} (h : TimerKept s t) (k : TimerKept t u) : TimerKept s u :=
  ⟨k.hstate.trans h.hstate, k.mem.trans h.mem, k.cfg.trans h.cfg⟩

theorem stageRounds_timerKept (s : State) : TimerKept s (stageRounds s) := by
  unfold stageRounds
  split <;> exact ⟨rfl, rfl, rfl⟩

theorem wdMs_timerKept (s : State) : TimerKept s (wdMs s) := by
  unfold wdMs
  split <;> exact ⟨rfl, rfl, rfl⟩

theorem modSys_timerKept (f : Sys → Sys) (s : State) (h : (f s.sys).hstate = s.sys.hstate) : TimerKept s (modSys f s) := ⟨h, rfl, rfl⟩

theorem tickMs_timerKept (s : State) : TimerKept s (tickMs s) := by
  unfold tickMs
  dsimp only
  have hbefore : ∀ t, TimerKept t (retMs (rcMs (sagMs t))) := fun t => ⟨rfl, rfl, rfl⟩
  have hafter : ∀ t (f : Casc → Casc) (g : Twin → Twin), TimerKept t (tjMs (modCasc f (modTwin g t))) := fun t f g => ⟨rfl, rfl, rfl⟩
  exact (modSys_timerKept _ s rfl).trans ((hbefore _).trans ((wdMs_timerKept _).trans (hafter _ _ _)))

theorem msTick_timerKept (s : State) : TimerKept s (msTick s) := by
  have h : TimerKept s (stageRounds (sagRounds s)) := TimerKept.trans (t := sagRounds s) ⟨rfl, rfl, rfl⟩ (stageRounds_timerKept _)
  unfold msTick
  dsimp only
  split
  · exact h.trans (modSys_timerKept _ _ rfl)
  · exact h.trans (tickMs_timerKept _)

/-- Settles O39: everything else that T0 does keeps the round marks, and in BOOT only the timers run. -/
theorem roundCounts : Obligations.RoundCounts := by
  unfold Obligations.RoundCounts
  refine ⟨fun s hi hr hb hran => ?counts, fun s hi hr hb => ?stands⟩
  case counts =>
    have he : roundStart s = railTick (msTick (roundBegin s)) := by
      rw [roundStart, if_neg (by simp [hi]), if_neg (by simp [hr]), if_neg hb]
    have hm : roundMarks (roundStart s) = roundMarks (roundCounted s.sys.round (roundClosed s)) := by
      rw [he]
      exact (marks_of_anchor (by simp)).trans (roundBegin_marks s)
    have hc := roundClosed_marks s
    simp only [roundMarks, anchor, Anchor.mk.injEq, true_and] at hm hc
    obtain ⟨c1, c2, c3, c4, c5, c6, c7, c8, c9⟩ := hc
    obtain ⟨m1, m2, m3, m4, m5, m6, m7, m8, m9⟩ := hm
    refine ⟨_, rfl, ?_, ?_, (roundStart_storage s s (kept_refl s)).1, ?_, ?_, ?_, ?_⟩
    · rw [m1, roundCounted]; simp [c2, hran]
    · rw [m2, roundCounted]; simp [c2, hran]
    · exact m3.trans (c3.trans hi)
    · exact m7.trans c7
    · exact m4.trans c4
    · exact m5.trans c5
  case stands =>
    have he : roundStart s = railTick (msTick { s with tx := [] }) := by
      rw [roundStart, if_neg (by simp [hi]), if_neg (by simp [hr]), if_pos hb]
    have hk := msTick_timerKept { s with tx := [] }
    have ha : anchor (railTick (msTick { s with tx := [] })) = anchor s := by simp
    obtain ⟨hround, -⟩ := fields_of_anchor_eq ha
    refine ⟨_, congrArg Host.Outcome.next he, hround, ?_, ?_, ?_⟩
    · exact hk.hstate.trans hb
    · exact hk.mem
    · exact hk.cfg

end Sys2Proof.Machine

namespace Sys2Proof.Machine

/-! ### Registers of the set in use (R336, R338) -/

/-- The register set in use changes, and nothing else of the core. -/
theorem modSet_eq (f : RegSet → RegSet) (k : Core) : modSet f k = { k with
    prim := if k.shadow then k.prim else f k.prim, shad := if k.shadow then f k.shad else k.shad } := by
  unfold modSet
  split <;> rfl

theorem curSet_modSet (f : RegSet → RegSet) (k : Core) : curSet (modSet f k) = f (curSet k) := by
  rw [modSet_eq, curSet, curSet]
  cases k.shadow <;> rfl

/-- What a register set holds of a register; an accumulator belongs to no set. -/
def regOf (q : RegSet) : Res → Nat
  | .d i => (tget 0#32 q.d i).toNat
  | .p i => (tget 0#32 q.p i).toNat
  | .m i => (tget 0#32 q.m i).toNat
  | .acc _ => 0
  | .flags => setFlags q

/-- A register rests on the accumulators and the set in use. -/
theorem resNow_congr {k q : Core} (r : Res) (hacc : q.acc = k.acc) (h : regOf (curSet q) r = regOf (curSet k) r) :
    resNow q r = resNow k r := by
  cases r with
  | acc i => rw [resNow, resNow, hacc]
  | d _ | p _ | m _ | flags => exact h

/-- A change of the set in use that keeps the register keeps it in either set; the other set it cannot reach. -/
theorem resNow_modSet (f : RegSet → RegSet) (k : Core) (sh : Bool) (r : Res)
    (h : sh = k.shadow → ∀ q, regOf (f q) r = regOf q r) : resNow { modSet f k with shadow := sh } r = resNow { k with shadow := sh } r := by
  refine resNow_congr r (by rw [modSet_eq]) ?_
  rw [modSet_eq, curSet, curSet]
  cases hk : k.shadow <;> cases hs : sh
  · exact h (hs.trans hk.symm) _
  · rfl
  · rfl
  · exact h (hs.trans hk.symm) _

/-- The bits of a flag nibble (R337). -/
theorem nzcv_testBit (n z c v : Bool) : (nzcv n z c v).testBit 3 = n ∧ (nzcv n z c v).testBit 2 = z ∧
    (nzcv n z c v).testBit 1 = c ∧ (nzcv n z c v).testBit 0 = v := by
  cases n <;> cases z <;> cases c <;> cases v <;> decide

/-- A nibble is the flags that it sets. -/
theorem nzcv_testBits (f : Nat) (h : f < 16) : nzcv (f.testBit 3) (f.testBit 2) (f.testBit 1) (f.testBit 0) = f := by
  revert f
  decide

/-- The width of a register. -/
def resWidth : Res → Nat
  | .acc _ => 72
  | .flags => 4
  | _ => 32

/-- A register reads back what it takes. -/
theorem resNow_resSet_same (r : Res) (v : Nat) (k : Core) (h : v < 2 ^ resWidth r) : resNow (resSet r v k) r = v := by
  cases r with
  | d i =>
    rw [resSet, resNow, curSet_modSet]
    simp only [tget_tset_self, BitVec.toNat_ofNat]
    exact Nat.mod_eq_of_lt h
  | p i =>
    rw [resSet, resNow, curSet_modSet]
    simp only [tget_tset_self, BitVec.toNat_ofNat]
    exact Nat.mod_eq_of_lt h
  | m i =>
    rw [resSet, resNow, curSet_modSet]
    simp only [tget_tset_self, BitVec.toNat_ofNat]
    exact Nat.mod_eq_of_lt h
  | acc i =>
    rw [resSet, resNow]
    simp only [tget_tset_self, BitVec.toNat_ofNat]
    exact Nat.mod_eq_of_lt h
  | flags =>
    rw [resSet, resNow, curSet_modSet]
    exact nzcv_testBits v h

/-- Every other register keeps its value, and in the set that is not in use every register but an accumulator. -/
theorem resNow_resSet_other (r r' : Res) (v : Nat) (k : Core) (sh : Bool)
    (h : r' = r → sh ≠ k.shadow ∧ isAcc r = false) :
    resNow { resSet r v k with shadow := sh } r' = resNow { k with shadow := sh } r' := by
  have hne : sh = k.shadow → r' ≠ r := fun hs he => (h he).1 hs
  cases r with
  | acc i =>
    cases r' with
    | acc j =>
      have hj : j ≠ i := fun e => by simpa [isAcc] using (h (by rw [e])).2
      rw [resSet, resNow, resNow]
      simp only [tget_tset_ne _ _ _ _ _ hj]
    | d _ | p _ | m _ | flags => rfl
  | d i =>
    refine resNow_modSet _ k sh r' fun hs q => ?_
    cases r' with
    | d j => simp [regOf, tget_tset_ne _ _ _ _ _ fun e => hne hs (congrArg Res.d e)]
    | p _ | m _ | acc _ | flags => rfl
  | p i =>
    refine resNow_modSet _ k sh r' fun hs q => ?_
    cases r' with
    | p j => simp [regOf, tget_tset_ne _ _ _ _ _ fun e => hne hs (congrArg Res.p e)]
    | d _ | m _ | acc _ | flags => rfl
  | m i =>
    refine resNow_modSet _ k sh r' fun hs q => ?_
    cases r' with
    | m j => simp [regOf, tget_tset_ne _ _ _ _ _ fun e => hne hs (congrArg Res.m e)]
    | d _ | p _ | acc _ | flags => rfl
  | flags =>
    refine resNow_modSet _ k sh r' fun hs q => ?_
    cases r' with
    | flags => exact absurd rfl (hne hs)
    | d _ | p _ | m _ | acc _ => rfl

/-! ### What an instruction makes of its core -/

/-- Core q is core k but for the registers rs of the set in use and for what the issue of an instruction writes: the program
counter, delay slots, repeat levels, clocks and the record of recent writes. -/
structure RegsKept (rs : List Res) (k q : Core) : Prop where
  status : q.st = k.st ∧ q.hcause = k.hcause ∧ q.halts = k.halts ∧ q.fpc = k.fpc ∧ q.faddr = k.faddr ∧ q.ovrCnt = k.ovrCnt ∧
    q.axis = k.axis ∧ q.limit = k.limit ∧ q.overran = k.overran ∧ q.retPc = k.retPc ∧ q.waiting = k.waiting
  mode : q.shadow = k.shadow ∧ q.prim.ie = k.prim.ie ∧ q.shad.ie = k.shad.ie ∧ q.rtiPend = k.rtiPend
  regs : ∀ r sh, (r ∈ rs → sh ≠ k.shadow ∧ isAcc r = false) → resNow { q with shadow := sh } r = resNow { k with shadow := sh } r

theorem RegsKept.refl (k : Core) : RegsKept [] k k :=
  ⟨⟨rfl, rfl, rfl, rfl, rfl, rfl, rfl, rfl, rfl, rfl, rfl⟩, ⟨rfl, rfl, rfl, rfl⟩, fun _ _ _ => rfl⟩

theorem RegsKept.trans {rs rs' : List Res} {k q w : Core} (h : RegsKept rs k q) (g : RegsKept rs' q w) : RegsKept (rs ++ rs') k w := by
  obtain ⟨⟨h1, h2, h3, h4, h5, h6, h7, h8, h9, h10, h11⟩, ⟨m1, m2, m3, m4⟩, hr⟩ := h
  obtain ⟨⟨g1, g2, g3, g4, g5, g6, g7, g8, g9, g10, g11⟩, ⟨n1, n2, n3, n4⟩, gr⟩ := g
  refine ⟨⟨g1.trans h1, g2.trans h2, g3.trans h3, g4.trans h4, g5.trans h5, g6.trans h6, g7.trans h7, g8.trans h8, g9.trans h9,
    g10.trans h10, g11.trans h11⟩, ⟨n1.trans m1, n2.trans m2, n3.trans m3, n4.trans m4⟩, fun r sh hc => ?_⟩
  rw [gr r sh fun hm => by rw [m1]; exact hc (List.mem_append_right _ hm), hr r sh fun hm => hc (List.mem_append_left _ hm)]

/-- A register is written. -/
theorem put_regsKept (kind : Producer) (r : Res) (v : Nat) (k : Core) : RegsKept [r] k (put kind r v k) := by
  have hrest : ∀ w : Core, (resSet r v w).st = w.st ∧ (resSet r v w).hcause = w.hcause ∧ (resSet r v w).halts = w.halts ∧
      (resSet r v w).fpc = w.fpc ∧ (resSet r v w).faddr = w.faddr ∧ (resSet r v w).ovrCnt = w.ovrCnt ∧ (resSet r v w).axis = w.axis ∧
      (resSet r v w).limit = w.limit ∧ (resSet r v w).overran = w.overran ∧ (resSet r v w).retPc = w.retPc ∧
      (resSet r v w).waiting = w.waiting := fun w => by
    cases r with
    | acc _ => exact ⟨rfl, rfl, rfl, rfl, rfl, rfl, rfl, rfl, rfl, rfl, rfl⟩
    | d _ | p _ | m _ | flags => rw [resSet, modSet_eq]; exact ⟨rfl, rfl, rfl, rfl, rfl, rfl, rfl, rfl, rfl, rfl, rfl⟩
  have hmode : ∀ w : Core, (resSet r v w).shadow = w.shadow ∧ (resSet r v w).prim.ie = w.prim.ie ∧ (resSet r v w).shad.ie = w.shad.ie ∧
      (resSet r v w).rtiPend = w.rtiPend := fun w => by
    cases r with
    | acc _ => exact ⟨rfl, rfl, rfl, rfl⟩
    | d _ | p _ | m _ | flags =>
      rw [resSet, modSet_eq]
      refine ⟨rfl, ?_, ?_, rfl⟩ <;> dsimp only <;> split <;> rfl
  exact ⟨hrest _, hmode _, fun r' sh h => resNow_resSet_other r r' v _ sh fun he => by subst he; exact h (List.mem_singleton.2 rfl)⟩

/-- The register that was written. -/
theorem resNow_put_same (kind : Producer) (r : Res) (v : Nat) (k : Core) (h : v < 2 ^ resWidth r) : resNow (put kind r v k) r = v :=
  resNow_resSet_same r v _ h

/-- Another register. -/
theorem resNow_put_ne (kind : Producer) (r r' : Res) (v : Nat) (k : Core) (h : r' ≠ r) : resNow (put kind r v k) r' = resNow k r' := by
  have hs := (put_regsKept kind r v k).mode.1
  have := (put_regsKept kind r v k).regs r' k.shadow fun hm => absurd (List.mem_singleton.1 hm) h
  rw [← hs] at this
  rw [show ({ put kind r v k with shadow := (put kind r v k).shadow } : Core) = put kind r v k from rfl, hs] at this
  exact this

/-- What the flow of an instruction leaves. -/
structure FlowKept (k q : Core) : Prop where
  status : q.st = k.st ∧ q.hcause = k.hcause ∧ q.halts = k.halts ∧ q.fpc = k.fpc ∧ q.faddr = k.faddr ∧ q.ovrCnt = k.ovrCnt ∧
    q.axis = k.axis ∧ q.limit = k.limit ∧ q.overran = k.overran ∧ q.retPc = k.retPc ∧ q.waiting = k.waiting
  issued : q.issued = k.issued
  regs : ∀ r sh, resNow { q with shadow := sh } r = resNow { k with shadow := sh } r

theorem FlowKept.trans {k q w : Core} (h : FlowKept k q) (g : FlowKept q w) : FlowKept k w := by
  obtain ⟨⟨h1, h2, h3, h4, h5, h6, h7, h8, h9, h10, h11⟩, hi, hr⟩ := h
  obtain ⟨⟨g1, g2, g3, g4, g5, g6, g7, g8, g9, g10, g11⟩, gi, gr⟩ := g
  exact ⟨⟨g1.trans h1, g2.trans h2, g3.trans h3, g4.trans h4, g5.trans h5, g6.trans h6, g7.trans h7, g8.trans h8, g9.trans h9,
    g10.trans h10, g11.trans h11⟩, gi.trans hi, fun r sh => (gr r sh).trans (hr r sh)⟩

theorem goOn_flowKept (last : Word) (k : Core) : FlowKept k (goOn last k) := by
  refine ⟨?_, ?_, fun r sh => ?_⟩
  · rw [goOn, modSet_eq]; exact ⟨rfl, rfl, rfl, rfl, rfl, rfl, rfl, rfl, rfl, rfl, rfl⟩
  · rw [goOn, modSet_eq]
  · exact (resNow_modSet (fun q => { q with reps := (closeLevels last (curSet k).reps).1 }) k sh r fun _ q => by cases r <;> rfl)

theorem goOn_mode (last : Word) (k : Core) : (goOn last k).shadow = k.shadow ∧ (goOn last k).prim.ie = k.prim.ie ∧
    (goOn last k).shad.ie = k.shad.ie ∧ (goOn last k).rtiPend = k.rtiPend := by
  rw [goOn, modSet_eq]
  refine ⟨rfl, ?_, ?_, rfl⟩ <;> dsimp only <;> split <;> rfl

theorem rtiDone_flowKept (k : Core) : FlowKept k (rtiDone k) :=
  ⟨⟨rfl, rfl, rfl, rfl, rfl, rfl, rfl, rfl, rfl, rfl, rfl⟩, rfl, fun r sh => by cases sh <;> cases r <;> rfl⟩

/-- Delay slots and program counter are no registers. -/
theorem at_flowKept (k : Core) (d : Option (Nat × Option Word)) (a : Word) : FlowKept k { k with delay := d, pc := a } :=
  ⟨⟨rfl, rfl, rfl, rfl, rfl, rfl, rfl, rfl, rfl, rfl, rfl⟩, rfl, fun r _ => by cases r <;> rfl⟩

/-- The flow leaves the registers and the status of the core (R344, R345). -/
theorem flow_flowKept (old : Core) (last : Word) (k : Core) : FlowKept k (flow old last k) := by
  have hgo := goOn_flowKept last k
  have hdel : ∀ d, FlowKept k { goOn last k with delay := d } := fun d => hgo.trans (at_flowKept _ d (goOn last k).pc)
  unfold flow
  split
  case h_1 n t _ =>
    split
    · exact hdel _
    · have h2 : FlowKept k (if old.rtiPend then rtiDone { goOn last k with delay := none } else { goOn last k with delay := none }) := by
        split
        · exact (hdel none).trans (rtiDone_flowKept _)
        · exact hdel none
      dsimp only
      split
      · exact h2.trans (at_flowKept _ _ _)
      · exact h2
  case h_2 => exact hgo

/-- It leaves the set in use and the enables unless it ends an RTI. -/
theorem flow_mode (old : Core) (last : Word) (k : Core) (h : old.rtiPend = false) :
    (flow old last k).shadow = k.shadow ∧ (flow old last k).prim.ie = k.prim.ie ∧ (flow old last k).shad.ie = k.shad.ie ∧
      (flow old last k).rtiPend = k.rtiPend := by
  have hgo := goOn_mode last k
  unfold flow
  split
  case h_1 n t _ =>
    split
    · exact hgo
    · dsimp only
      rw [h, if_neg (by simp)]
      split <;> exact hgo
  case h_2 => exact hgo

/-! ### What an instruction makes of the head -/

/-- Core k with its instruction counted, which takes n clocks more than its own. -/
def counted (k : Core) (n : Nat) (w : Core) : Core := { w with issued := k.issued + 1, clocks := k.clocks + 1 + n }

/-- Of the head only core c has changed, and of that the registers rs; q holds what the core's registers hold now. -/
def Acted (c : Nat) (rs : List Res) (s t : State) (q : Core) : Prop :=
  State.onlyCore c rs s t ∧ ∀ r, State.held c (getCore s c).shadow r t = resNow q r

/-- An instruction that finds no halt cause acts (R342). -/
theorem issue_acts (c : Nat) (trap : State → Core → Trap) (last : Core → Word) (stall : State → Core → Nat)
    (act : Core → State → State) (s : State) (h : State.coreRuns c s) (ht : trap s (getCore s c) = none) :
    issue c trap last stall act s = modCore c (fun w => flow (getCore s c) (last (getCore s c))
      (counted (getCore s c) (stall s (getCore s c)) w)) (act (getCore s c) s) := by
  obtain ⟨h1, h2⟩ := h
  unfold issue
  simp only [h1, h2, ht]
  rfl

/-- The flow after an action that makes q of core c and leaves the rest of s. -/
theorem flow_acted (c : Nat) (last : Word) (n : Nat) (s u : State) (rs : List Res) (q : Core)
    (hone : State.oneCore c s u) (hq : getCore u c = q) (hk : RegsKept rs (getCore s c) q) :
    Acted c rs s (modCore c (fun w => flow (getCore s c) last (counted (getCore s c) n w)) u) q := by
  obtain ⟨hs, hi, hr⟩ := flow_flowKept (getCore s c) last (counted (getCore s c) n q)
  have hm := flow_mode (getCore s c) last (counted (getCore s c) n q)
  obtain ⟨hks, hkm, hkr⟩ := hk
  have hcount : ∀ r sh, resNow { counted (getCore s c) n q with shadow := sh } r = resNow { q with shadow := sh } r :=
    fun r _ => by cases r <;> rfl
  obtain ⟨hone1, hone2⟩ := hone
  refine ⟨⟨⟨?_, fun e he => by rw [getCore_modCore_ne _ _ _ _ he, hone2 e he]⟩, ?_, ?_⟩, fun r => ?_⟩
  · rw [modCore, hone1]
  · rw [getCore_modCore_same, hq]
    obtain ⟨a1, a2, a3, a4, a5, a6, a7, a8, a9, a10, a11⟩ := hs
    obtain ⟨b1, b2, b3, b4, b5, b6, b7, b8, b9, b10, b11⟩ := hks
    exact ⟨a1.trans b1, a2.trans b2, a3.trans b3, a4.trans b4, a5.trans b5, a6.trans b6, a7.trans b7, a8.trans b8, a9.trans b9,
      a10.trans b10, a11.trans b11, hi, fun r sh hc => (hr r sh).trans ((hcount r sh).trans (hkr r sh hc))⟩
  · rw [getCore_modCore_same, hq]
    intro hp
    obtain ⟨m1, m2, m3, m4⟩ := hm hp
    obtain ⟨n1, n2, n3, n4⟩ := hkm
    exact ⟨m1.trans n1, m2.trans n2, m3.trans n3, m4.trans (n4.trans hp)⟩
  · rw [State.held, getCore_modCore_same, hq, hr, hcount, ← hkm.1]

/-- What an instruction leaves, by what its action makes of the core. -/
theorem issue_acted (c : Nat) (trap : State → Core → Trap) (last : Core → Word) (stall : State → Core → Nat)
    (act : Core → State → State) (s : State) (h : State.coreRuns c s) (ht : trap s (getCore s c) = none) (rs : List Res) (q : Core)
    (hone : State.oneCore c s (act (getCore s c) s)) (hq : getCore (act (getCore s c) s) c = q) (hk : RegsKept rs (getCore s c) q) :
    Acted c rs s (issue c trap last stall act s) q := by
  rw [issue_acts c trap last stall act s h ht]
  exact flow_acted c _ _ s _ rs q hone hq hk

/-- An instruction that only changes its core. -/
theorem issueK_acted (c : Nat) (f : Core → Core) (s : State) (h : State.coreRuns c s) (rs : List Res)
    (hk : RegsKept rs (getCore s c) (f (getCore s c))) : Acted c rs s (issueK c f s) (f (getCore s c)) :=
  issue_acted c noTrap Core.pc noStall _ s h rfl rs _ (modCore_oneCore c _ s) (getCore_modCore_same c _ s) hk

end Sys2Proof.Machine

namespace Sys2Proof.Machine

/-! ### O46: integer instructions (R337, R341, R348) -/

theorem nzcv_lt (n z c v : Bool) : nzcv n z c v < 16 := by cases n <;> cases z <;> cases c <;> cases v <;> decide

/-- An instruction that writes a data register and no flag. -/
theorem dataOp_acted (kind : Producer) (c d : Nat) (f : Core → Word) (s : State) (h : State.coreRuns c s) :
    State.held c (getCore s c).shadow (.d d) (dataOp kind c d f s) = (f (getCore s c)).toNat ∧
      State.onlyCore c [.d d] s (dataOp kind c d f s) := by
  obtain ⟨h1, h2⟩ := issueK_acted c (fun k => putD kind d (f k) k) s h [.d d] (put_regsKept kind (.d d) _ _)
  exact ⟨(h2 (.d d)).trans (resNow_put_same kind (.d d) _ _ (BitVec.isLt _)), h1⟩

/-- An instruction that writes the flags alone. -/
theorem flagOp_acted (c : Nat) (f : Core → Nat) (s : State) (h : State.coreRuns c s) (hf : f (getCore s c) < 16) :
    State.held c (getCore s c).shadow .flags (issueK c (fun k => putF (f k) k) s) = f (getCore s c) ∧
      State.onlyCore c [.flags] s (issueK c (fun k => putF (f k) k) s) := by
  obtain ⟨h1, h2⟩ := issueK_acted c (fun k => putF (f k) k) s h [.flags] (put_regsKept .flagOp .flags _ _)
  exact ⟨(h2 .flags).trans (resNow_put_same .flagOp .flags _ _ hf), h1⟩

/-- An instruction that writes a data register and the flags. -/
theorem dataFlagOp_acted (kind : Producer) (c d : Nat) (f : Core → Word) (g : Core → Nat) (s : State) (h : State.coreRuns c s)
    (hg : g (getCore s c) < 16) :
    State.held c (getCore s c).shadow (.d d) (issueK c (fun k => putF (g k) (putD kind d (f k) k)) s) = (f (getCore s c)).toNat ∧
      State.held c (getCore s c).shadow .flags (issueK c (fun k => putF (g k) (putD kind d (f k) k)) s) = g (getCore s c) ∧
      State.onlyCore c [.d d, .flags] s (issueK c (fun k => putF (g k) (putD kind d (f k) k)) s) := by
  obtain ⟨h1, h2⟩ := issueK_acted c (fun k => putF (g k) (putD kind d (f k) k)) s h [.d d, .flags]
    ((put_regsKept kind (.d d) _ _).trans (put_regsKept .flagOp .flags _ _))
  refine ⟨(h2 (.d d)).trans ?_, (h2 .flags).trans (resNow_put_same .flagOp .flags _ _ hg), h1⟩
  exact (resNow_put_ne .flagOp .flags (.d d) _ _ (by simp)).trans (resNow_put_same kind (.d d) _ _ (BitVec.isLt _))

theorem neg32_eq (x : Word) : neg32 x = decide (x.toInt < 0) := by
  rw [neg32, BitVec.msb_eq_toInt]

/-- Signed overflow of a sum shows in the signs (R337). -/
theorem overflow_add (x y : Word) :
    (decide (neg32 x = neg32 y) && decide (neg32 (x + y) ≠ neg32 x)) = decide (x.toInt + y.toInt ≠ (x + y).toInt) := by
  rw [Bool.eq_iff_iff]
  simp only [neg32_eq, Bool.and_eq_true, decide_eq_true_eq, decide_eq_decide, ne_eq]
  have hx := x.isLt
  have hy := y.isLt
  have hr : (x + y).toNat = (x.toNat + y.toNat) % 2 ^ 32 := BitVec.toNat_add x y
  simp only [BitVec.toInt_eq_toNat_cond]
  generalize x.toNat = a at *
  generalize y.toNat = b at *
  generalize (x + y).toNat = r at *
  split <;> split <;> split <;> omega

/-- Signed overflow of a difference. -/
theorem overflow_sub (x y : Word) :
    (decide (neg32 x ≠ neg32 y) && decide (neg32 (x - y) ≠ neg32 x)) = decide (x.toInt - y.toInt ≠ (x - y).toInt) := by
  rw [Bool.eq_iff_iff]
  simp only [neg32_eq, Bool.and_eq_true, decide_eq_true_eq, decide_eq_decide, ne_eq]
  have hx := x.isLt
  have hy := y.isLt
  have hr : (x - y).toNat = (2 ^ 32 - y.toNat + x.toNat) % 2 ^ 32 := BitVec.toNat_sub x y
  simp only [BitVec.toInt_eq_toNat_cond]
  generalize x.toNat = a at *
  generalize y.toNat = b at *
  generalize (x - y).toNat = r at *
  split <;> split <;> split <;> omega

/-- The flags of a sum (R337). -/
theorem addFlags_bits (x y : Word) : (addFlags x y).testBit 3 = decide ((x + y).toInt < 0) ∧
    (addFlags x y).testBit 2 = decide (x + y = 0#32) ∧ (addFlags x y).testBit 1 = decide (2 ^ 32 ≤ x.toNat + y.toNat) ∧
    (addFlags x y).testBit 0 = decide (x.toInt + y.toInt ≠ (x + y).toInt) := by
  obtain ⟨h3, h2, h1, h0⟩ := nzcv_testBit (neg32 (x + y)) (decide (x + y = 0#32)) (decide (2 ^ 32 ≤ x.toNat + y.toNat))
    (decide (neg32 x = neg32 y) && decide (neg32 (x + y) ≠ neg32 x))
  exact ⟨h3.trans (neg32_eq _), h2, h1, h0.trans (overflow_add x y)⟩

/-- The flags of a difference (R337). -/
theorem subFlags_bits (x y : Word) : (subFlags x y).testBit 3 = decide ((x - y).toInt < 0) ∧
    (subFlags x y).testBit 2 = decide (x = y) ∧ (subFlags x y).testBit 1 = decide (y.toNat ≤ x.toNat) ∧
    (subFlags x y).testBit 0 = decide (x.toInt - y.toInt ≠ (x - y).toInt) := by
  obtain ⟨h3, h2, h1, h0⟩ := nzcv_testBit (neg32 (x - y)) (decide (x - y = 0#32)) (decide (y.toNat ≤ x.toNat))
    (decide (neg32 x ≠ neg32 y) && decide (neg32 (x - y) ≠ neg32 x))
  have hz : x - y = 0#32 ↔ x = y := by
    constructor
    · intro h; bv_omega
    · rintro rfl; exact BitVec.sub_self x
  exact ⟨h3.trans (neg32_eq _), h2.trans (decide_eq_decide.2 hz), h1, h0.trans (overflow_sub x y)⟩

/-- The flags of another result: N and Z, with C and V as they were (R337). -/
theorem logicFlags_bits (r : Word) (f : Nat) : (logicFlags r f).testBit 3 = decide (r.toInt < 0) ∧
    (logicFlags r f).testBit 2 = decide (r = 0#32) ∧ (logicFlags r f).testBit 1 = f.testBit 1 ∧
    (logicFlags r f).testBit 0 = f.testBit 0 := by
  obtain ⟨h3, h2, h1, h0⟩ := nzcv_testBit (neg32 r) (decide (r = 0#32)) (f.testBit 1) (f.testBit 0)
  exact ⟨h3.trans (neg32_eq _), h2, h1, h0⟩

/-- An operation whose result sets N and Z alone (R337, R348). -/
theorem logicResult_acted (c d : Nat) (f : Core → Word) (s : State) (h : State.coreRuns c s) (r : Word) (hr : f (getCore s c) = r) :
    ∃ g, State.held c (getCore s c).shadow (.d d) (issueK c (fun k => putF (logicFlags (f k) (resNow k .flags)) (putD .alu d (f k) k)) s) = r.toNat ∧
      State.held c (getCore s c).shadow .flags (issueK c (fun k => putF (logicFlags (f k) (resNow k .flags)) (putD .alu d (f k) k)) s) = g ∧
      g.testBit 3 = decide (r.toInt < 0) ∧ g.testBit 2 = decide (r = 0#32) ∧
      g.testBit 1 = (State.held c (getCore s c).shadow .flags s).testBit 1 ∧
      g.testBit 0 = (State.held c (getCore s c).shadow .flags s).testBit 0 ∧
      State.onlyCore c [.d d, .flags] s (issueK c (fun k => putF (logicFlags (f k) (resNow k .flags)) (putD .alu d (f k) k)) s) := by
  subst hr
  obtain ⟨h1, h2, h3⟩ := dataFlagOp_acted .alu c d f (fun k => logicFlags (f k) (resNow k .flags)) s h (nzcv_lt _ _ _ _)
  obtain ⟨b3, b2, b1, b0⟩ := logicFlags_bits (f (getCore s c)) (resNow (getCore s c) .flags)
  exact ⟨_, h1, h2, b3, b2, b1, b0, h3⟩

/-- Settles O46: each integer instruction by its result and its flags. -/
theorem ladleInteger : Obligations.LadleInteger := by
  unfold Obligations.LadleInteger
  rintro s c d a b i u m h k rfl n hn
  refine ⟨fun cmd x y r hc => ?sum, fun cmd rs hc => ?difference, fun cmd r hc => ?logic, fun cmd r hc => ?data, ?nop⟩
  case sum =>
    have hadd : ∀ f : Core → Word, ∀ g : Core → Word, f (getCore s c) = x → g (getCore s c) = y → r = x + y →
        ∃ t fl, Host.Outcome.next (aluOp c d f g (· + ·) (fun _ => addFlags) s) = (Host.Outcome.next t : Host.Outcome State Fault Refusal) ∧
          State.held c (getCore s c).shadow (.d d) t = r.toNat ∧
          State.held c (getCore s c).shadow .flags t = fl ∧ fl.testBit 3 = decide (r.toInt < 0) ∧ fl.testBit 2 = decide (r = 0#32) ∧
          fl.testBit 1 = decide (2 ^ 32 ≤ x.toNat + y.toNat) ∧ fl.testBit 0 = decide (x.toInt + y.toInt ≠ r.toInt) ∧
          State.onlyCore c [.d d, .flags] s t := by
      rintro f g rfl rfl rfl
      obtain ⟨h1, h2, h3⟩ := dataFlagOp_acted .alu c d (fun k => f k + g k) (fun k => addFlags (f k) (g k)) s h (nzcv_lt _ _ _ _)
      obtain ⟨b3, b2, b1, b0⟩ := addFlags_bits (f (getCore s c)) (g (getCore s c))
      exact ⟨_, _, rfl, h1, h2, b3, b2, b1, b0, h3⟩
    rcases hc with ⟨rfl, hx, hy, hr⟩ | ⟨rfl, hx, hy, hr⟩
    · exact hadd (fun k => rd k a) (fun k => rd k b) hx.symm hy.symm hr
    · exact hadd (fun k => rd k a) (fun _ => i.signExtend 32) hx.symm hy.symm hr
  case difference =>
    obtain ⟨b3, b2, b1, b0⟩ := subFlags_bits (rd (getCore s c) a) (rd (getCore s c) b)
    rcases hc with ⟨rfl, rfl⟩ | ⟨rfl, rfl⟩
    · obtain ⟨h1, h2, h3⟩ := dataFlagOp_acted .alu c d (fun k => rd k a - rd k b) (fun k => subFlags (rd k a) (rd k b)) s h (nzcv_lt _ _ _ _)
      exact ⟨_, _, rfl, fun _ => h1, h2, b3, b2, b1, b0, h3⟩
    · obtain ⟨h2, h3⟩ := flagOp_acted c (fun k => subFlags (rd k a) (rd k b)) s h (nzcv_lt _ _ _ _)
      exact ⟨_, _, rfl, (nomatch ·), h2, b3, b2, b1, b0, h3⟩
  case logic =>
    have hamt : shAmount (getCore s c) m = n := by rw [hn]; cases m <;> rfl
    have hshift : ∀ kind r, r = shiftResult kind (rd (getCore s c) a) n →
        ∃ t f, Host.Outcome.next (ldShift kind c d a m s) = (Host.Outcome.next t : Host.Outcome State Fault Refusal) ∧
        State.held c (getCore s c).shadow (.d d) t = r.toNat ∧ State.held c (getCore s c).shadow .flags t = f ∧
        f.testBit 3 = decide (r.toInt < 0) ∧ f.testBit 2 = decide (r = 0#32) ∧
        f.testBit 1 = (State.held c (getCore s c).shadow .flags s).testBit 1 ∧
        f.testBit 0 = (State.held c (getCore s c).shadow .flags s).testBit 0 ∧ State.onlyCore c [.d d, .flags] s t := fun kind r hr => by
      obtain ⟨f, hf⟩ := logicResult_acted c d (fun k => shiftResult kind (rd k a) (shAmount k m)) s h r (by rw [hamt, hr])
      exact ⟨_, f, rfl, hf⟩
    have hlogic : ∀ f : Word → Word → Word, r = f (rd (getCore s c) a) (rd (getCore s c) b) →
        ∃ t g, Host.Outcome.next (logicOp c d a b f s) = (Host.Outcome.next t : Host.Outcome State Fault Refusal) ∧
        State.held c (getCore s c).shadow (.d d) t = r.toNat ∧ State.held c (getCore s c).shadow .flags t = g ∧
        g.testBit 3 = decide (r.toInt < 0) ∧ g.testBit 2 = decide (r = 0#32) ∧
        g.testBit 1 = (State.held c (getCore s c).shadow .flags s).testBit 1 ∧
        g.testBit 0 = (State.held c (getCore s c).shadow .flags s).testBit 0 ∧ State.onlyCore c [.d d, .flags] s t := fun f hr => by
      obtain ⟨g, hg⟩ := logicResult_acted c d (fun k => f (rd k a) (rd k b)) s h r hr.symm
      exact ⟨_, g, rfl, hg⟩
    rcases hc with ⟨rfl, hr⟩ | ⟨rfl, hr⟩ | ⟨rfl, hr⟩ | ⟨rfl, hr⟩ | ⟨rfl, hr⟩ | ⟨rfl, hr⟩ | ⟨rfl, hr⟩
    · exact hlogic (· &&& ·) hr
    · exact hlogic (· ||| ·) hr
    · exact hlogic (· ^^^ ·) hr
    · exact hshift 0 r hr
    · exact hshift 1 r hr
    · exact hshift 2 r hr
    · exact hshift 3 r hr
  case data =>
    rcases hc with ⟨rfl, rfl⟩ | ⟨rfl, rfl⟩ | ⟨rfl, rfl⟩ | ⟨rfl, rfl⟩
    · exact ⟨_, rfl, dataOp_acted .slow c d (fun k => rd k a * rd k b) s h⟩
    · exact ⟨_, rfl, dataOp_acted .alu c d (fun k => rd k a) s h⟩
    · exact ⟨_, rfl, dataOp_acted .alu c d (fun _ => u.setWidth 32) s h⟩
    · rw [BitVec.or_comm]
      exact ⟨_, rfl, dataOp_acted .alu c d (fun k => (rd k d &&& 0xFFFF#32) ||| (u.setWidth 32 <<< 16)) s h⟩
  case nop => exact ⟨_, rfl, (issueK_acted c id s h [] (.refl _)).1⟩

end Sys2Proof.Machine

namespace Sys2Proof.Machine

/-! ### O47: FP32 instructions (R337, R341, R348) -/

theorem ftz_eq_zero_sign (x : F32) (h : bits x 30 23 = 0) : ftz x = x &&& 0x80000000#32 := if_pos h

theorem ftz_of_normal (x : F32) (h : bits x 30 23 ≠ 0) : ftz x = x := if_neg h

/-- The exponent field. -/
theorem bits_exponent (x : F32) : bits x 30 23 = (x.extractLsb' 23 8).toNat := by
  rw [bits, BitVec.extractLsb'_toNat]

theorem ftz_fNeg_ftz (x : F32) : ftz (fNeg (ftz x)) = fNeg (ftz x) := by
  have hneg : ∀ y : F32, bits (fNeg y) 30 23 = bits y 30 23 := fun y => by
    rw [bits_exponent, bits_exponent, fNeg, BitVec.extractLsb'_xor]
    exact congrArg BitVec.toNat (BitVec.xor_zero)
  by_cases h : bits x 30 23 = 0
  · rw [ftz_eq_zero_sign x h]
    have h0 : bits (x &&& 0x80000000#32) 30 23 = 0 := by
      rw [bits_exponent, BitVec.extractLsb'_and]
      exact congrArg BitVec.toNat (BitVec.and_zero)
    rw [ftz_eq_zero_sign _ ((hneg _).trans h0)]
    ext i hi
    simp only [fNeg, BitVec.getElem_and, BitVec.getElem_xor]
    cases x[i] <;> cases (0x80000000#32)[i] <;> rfl
  · rw [ftz_of_normal x h, ftz_of_normal _ (by rwa [hneg])]

theorem fIsNaN_toIntSat (x : F32) (k : Nat) (h : fIsNaN x = true) : fToIntSat k x = 0#32 := by
  unfold fIsNaN at h
  unfold fToIntSat
  cases hx : fDecode x with
  | nan => rfl
  | inf _ => simp [hx] at h
  | fin _ _ _ => simp [hx] at h

theorem fpPick_of_ordered (min_ pick : Bool) (x0 y0 : F32) (hx : fIsNaN (ftz x0) = false) (hy : fIsNaN (ftz y0) = false)
    (he : fEq (ftz x0) (ftz y0) = false) :
    fpPick min_ pick x0 y0 = if fLt (ftz x0) (ftz y0) = min_ then ftz x0 else ftz y0 := by
  simp [fpPick, hx, hy, he]

/-- FMIN and FMAX. -/
theorem ldPick_acted (min_ : Bool) (c d a b : Nat) (s : State) (h : State.coreRuns c s) :
    Acted c [.d d] s (ldPick min_ c d a b s)
      (putD .slow d (fpPick min_ (freeB s) (rd (getCore s c) a) (rd (getCore s c) b)) (getCore s c)) :=
  issue_acted c noTrap Core.pc noStall _ s h rfl [.d d] _
    ⟨rfl, fun e he => getCore_modCore_ne c e _ s.tick he⟩ (getCore_modCore_same c _ s.tick) (put_regsKept .slow (.d d) _ _)

/-- Settles O47: each FP32 instruction by its value. -/
theorem ladleFp : Obligations.LadleFp := by
  unfold Obligations.LadleFp
  rintro s c d a b h k rfl x y z rfl rfl rfl
  have hdata : ∀ kind (f : Core → Word) r, f (getCore s c) = r →
      ∃ t, Host.Outcome.next (dataOp kind c d f s) = (Host.Outcome.next t : Host.Outcome State Fault Refusal) ∧
        State.held c (getCore s c).shadow (.d d) t = r.toNat ∧ State.onlyCore c [.d d] s t := by
    rintro kind f r rfl
    exact ⟨_, rfl, dataOp_acted kind c d f s h⟩
  have hpick : ∀ min_ m, (decide (fLt (ftz (rd (getCore s c) a)) (ftz (rd (getCore s c) b)) = min_)) = m →
      ∃ t, Host.Outcome.next (ldPick min_ c d a b s) = (Host.Outcome.next t : Host.Outcome State Fault Refusal) ∧
        State.onlyCore c [.d d] s t ∧ (fIsNaN (ftz (rd (getCore s c) a)) = false → fIsNaN (ftz (rd (getCore s c) b)) = false →
          fEq (ftz (rd (getCore s c) a)) (ftz (rd (getCore s c) b)) = false → State.held c (getCore s c).shadow (.d d) t =
            (if m then ftz (rd (getCore s c) a) else ftz (rd (getCore s c) b)).toNat) := by
    rintro min_ m rfl
    obtain ⟨h1, h2⟩ := ldPick_acted min_ c d a b s h
    refine ⟨_, rfl, h1, fun hx hy he => ?_⟩
    refine (h2 (.d d)).trans ((resNow_put_same .slow (.d d) _ _ (BitVec.isLt _)).trans ?_)
    rw [fpPick_of_ordered _ _ _ _ hx hy he]
    exact congrArg BitVec.toNat (ite_congr (propext decide_eq_true_iff.symm) (fun _ => rfl) (fun _ => rfl))
  refine ⟨fun cmd r hc => ?arith, fun cmd m hc => ?pick, ?compare, fun cmd r hc => ?convert,
    fun hn => ⟨fIsNaN_toIntSat _ _ hn, fIsNaN_toIntSat _ _ hn⟩⟩
  case arith =>
    rcases hc with ⟨rfl, rfl⟩ | ⟨rfl, rfl⟩ | ⟨rfl, rfl⟩ | ⟨rfl, rfl⟩ | ⟨rfl, rfl⟩ | ⟨rfl, rfl⟩ | ⟨rfl, rfl⟩ | ⟨rfl, rfl⟩
    · exact hdata .slow (fun k => fpOp2 fAdd (rd k a) (rd k b)) _ rfl
    · exact hdata .slow (fun k => fpOp2 fSub (rd k a) (rd k b)) _ rfl
    · exact hdata .slow (fun k => fpOp2 fMul (rd k a) (rd k b)) _ rfl
    · exact hdata .fma (fmaValue false d a b) _ rfl
    · refine hdata .fma (fmaValue true d a b) _ ?_
      rw [fmaValue, fpMulAdd, if_pos rfl, ftz_fNeg_ftz, fpResult]
    · exact hdata .slow (fun k => fpResult (fAbs (ftz (rd k a)))) _ rfl
    · exact hdata .slow (fun k => fpResult (fNeg (ftz (rd k a)))) _ rfl
    · exact hdata .frcp (fun k => fpResult (fDiv fOne (ftz (rd k a)))) _ rfl
  case pick =>
    rcases hc with ⟨rfl, rfl⟩ | ⟨rfl, rfl⟩
    · exact hpick true _ (by simp)
    · exact hpick false _ (by cases fLt (ftz (rd (getCore s c) a)) (ftz (rd (getCore s c) b)) <;> rfl)
  case compare =>
    obtain ⟨h2, h3⟩ := flagOp_acted c (fun k => fcmpFlags (rd k a) (rd k b)) s h (nzcv_lt _ _ _ _)
    obtain ⟨b3, b2, b1, b0⟩ := nzcv_testBit (fLt (ftz (rd (getCore s c) a)) (ftz (rd (getCore s c) b)))
      (fEq (ftz (rd (getCore s c) a)) (ftz (rd (getCore s c) b))) (fLt (ftz (rd (getCore s c) b)) (ftz (rd (getCore s c) a)))
      (fIsNaN (ftz (rd (getCore s c) a)) || fIsNaN (ftz (rd (getCore s c) b)))
    exact ⟨_, _, rfl, h2, b3, b2, b1, b0, h3⟩
  case convert =>
    rcases hc with ⟨rfl, rfl⟩ | ⟨rfl, rfl⟩ | ⟨rfl, rfl⟩ | ⟨rfl, rfl⟩
    · exact hdata .slow (fun k => fOfInt (rd k a).toInt) _ rfl
    · exact hdata .slow (fun k => fOfDyadic false (rd k a).toInt (-31)) _ rfl
    · exact hdata .slow (fun k => fToIntSat 0 (ftz (rd k a))) _ rfl
    · exact hdata .slow (fun k => fToIntSat 31 (ftz (rd k a))) _ rfl

end Sys2Proof.Machine

namespace Sys2Proof.Machine

/-! ### O48: accumulators (R341, R348) -/

/-- An instruction that writes an accumulator alone. -/
theorem accOp_acted (kind : Producer) (c e : Nat) (f : Core → BitVec 72) (s : State) (h : State.coreRuns c s) :
    State.onlyCore c [.acc e] s (issueK c (fun k => put kind (.acc e) (f k).toNat k) s) ∧
      State.held c (getCore s c).shadow (.acc e) (issueK c (fun k => put kind (.acc e) (f k).toNat k) s) = (f (getCore s c)).toNat := by
  obtain ⟨h1, h2⟩ := issueK_acted c (fun k => put kind (.acc e) (f k).toNat k) s h [.acc e] (put_regsKept kind (.acc e) _ _)
  exact ⟨h1, (h2 (.acc e)).trans (resNow_put_same kind (.acc e) _ _ (BitVec.isLt _))⟩

theorem ofInt_sub (w : Nat) (i j : Int) : BitVec.ofInt w i - BitVec.ofInt w j = BitVec.ofInt w (i - j) := by
  rw [BitVec.sub_eq_add_neg, ← BitVec.ofInt_neg, ← BitVec.ofInt_add, Int.sub_eq_add_neg]

/-- MAC adds or subtracts the product, wrapping (R341). -/
theorem macResult_eq (md : MacMode) (v : BitVec 72) (x y : Word) (p : Int)
    (hp : p = (if md.uns then (x.toNat : Int) * y.toNat else x.toInt * y.toInt) * (if md.frac then 2 else 1)) :
    macResult md v x y = BitVec.ofInt 72 ((if md.repl then 0 else v.toInt) + (if md.sub then -p else p)) := by
  have hprod : macProduct md x y = p := by
    rw [hp, macProduct]
    split
    · exact Int.mul_comm _ _
    · exact (Int.mul_one _).symm
  have hbase : (if md.repl then 0#72 else v) = BitVec.ofInt 72 (if md.repl then 0 else v.toInt) := by
    split
    · rfl
    · exact BitVec.ofInt_toInt.symm
  rw [macResult, hprod, hbase]
  cases md.sub
  · exact (BitVec.ofInt_add _ _).symm
  · exact (ofInt_sub _ _ _).trans (by rw [Int.sub_eq_add_neg]; rfl)

theorem sat32_eq (x : Int) : sat32 x = max (-(2 ^ 31)) (min (2 ^ 31 - 1) x) := by
  rw [sat32, clampInt]
  split
  · omega
  · split <;> omega

/-- RDA rounds half up and saturates (R341). -/
theorem rdaResult_eq (w : BitVec 72) (sh : Nat) :
    rdaResult w sh = BitVec.ofInt 32 (max (-(2 ^ 31)) (min (2 ^ 31 - 1) ((2 * w.toInt + 2 ^ sh).fdiv (2 * 2 ^ sh)))) := by
  have hq : (if sh = 0 then w.toInt else (w.toInt + 2 ^ (sh - 1)).fdiv (2 ^ sh)) = (2 * w.toInt + 2 ^ sh).fdiv (2 * 2 ^ sh) := by
    cases sh with
    | zero => rw [if_pos rfl, Int.fdiv_eq_ediv_of_nonneg _ (by decide)]; omega
    | succ n =>
      have hnum : 2 * w.toInt + 2 ^ (n + 1) = 2 * (w.toInt + 2 ^ n) := by omega
      rw [if_neg (Nat.succ_ne_zero n), Nat.add_sub_cancel, hnum, Int.mul_fdiv_mul_of_pos _ _ (by decide)]
  rw [rdaResult, wordOfInt, hq, sat32_eq]

/-- The guard bits are the accumulator over 2^64. -/
theorem guard_eq (w : BitVec 72) : ((w >>> 64).setWidth 8).signExtend 32 = BitVec.ofInt 32 (w.toInt / 2 ^ 64) := by
  apply BitVec.eq_of_toInt_eq
  have hw := w.isLt
  rw [BitVec.toInt_signExtend_of_le (by decide), BitVec.toInt_ofInt, BitVec.toInt_eq_toNat_bmod, BitVec.toInt_eq_toNat_cond, BitVec.toNat_setWidth,
    BitVec.toNat_ushiftRight, Nat.shiftRight_eq_div_pow]
  generalize w.toNat = n at hw ⊢
  simp only [Int.bmod]
  split <;> omega

/-- MVA is a product with 2^sh. -/
theorem mvaValue_eq (x : Word) (sh : Nat) : mvaValue x sh = BitVec.ofInt 72 (x.toInt * 2 ^ sh) := by
  have hx : x.signExtend 72 = BitVec.ofInt 72 x.toInt := by
    rw [← BitVec.toInt_signExtend_of_le (x := x) (v := 72) (by decide), BitVec.ofInt_toInt]
  rw [mvaValue, hx, BitVec.shiftLeft_eq_mul_twoPow, BitVec.ofInt_mul]
  congr 1
  apply BitVec.eq_of_toNat_eq
  rw [BitVec.toNat_twoPow, BitVec.toNat_ofInt]
  norm_cast

/-- Settles O48: each accumulator instruction by its value. -/
theorem ladleAccumulators : Obligations.LadleAccumulators := by
  unfold Obligations.LadleAccumulators
  rintro s c d e a b sh md h k rfl v rfl w rfl
  refine ⟨?mac, ?rda, ?mva, ?clr, ?rdg⟩
  case mac =>
    obtain ⟨h1, h2⟩ := accOp_acted .mac c e (fun k => macResult md (accSeen k e) (rd k a) (rd k b)) s h
    exact ⟨_, rfl, h1, fun p hp => h2.trans (congrArg BitVec.toNat (macResult_eq md _ _ _ p hp))⟩
  case rda =>
    have hacted : Acted c [.d d] s (ldRda c d e sh s) (putD .slow d
        (if sh ≤ 40 then rdaResult (BitVec.ofNat 72 (seen (getCore s c) .accRead (.acc e))) sh else freeW s) (getCore s c)) :=
      issue_acted c noTrap Core.pc noStall _ s h rfl [.d d] _
        ⟨rfl, fun e he => getCore_modCore_ne c e _ s.tick he⟩ (getCore_modCore_same c _ s.tick) (put_regsKept .slow (.d d) _ _)
    obtain ⟨h1, h2⟩ := hacted
    refine ⟨_, rfl, h1, ?_, ?_⟩
    · rw [ldRda, issue_acts _ _ _ _ _ s h rfl]
      rfl
    · rintro hs q rfl
      refine (h2 (.d d)).trans ((resNow_put_same .slow (.d d) _ _ (BitVec.isLt _)).trans ?_)
      rw [if_pos hs]
      exact congrArg BitVec.toNat (rdaResult_eq _ _)
  case mva =>
    obtain ⟨h1, h2⟩ := accOp_acted .accOp c e (fun k => mvaValue (rd k a) sh) s h
    exact ⟨_, rfl, h1, h2.trans (congrArg BitVec.toNat (mvaValue_eq _ _))⟩
  case clr =>
    obtain ⟨h1, h2⟩ := accOp_acted .accOp c e (fun _ => 0#72) s h
    exact ⟨_, rfl, h1, h2⟩
  case rdg =>
    obtain ⟨h1, h2⟩ := dataOp_acted .slow c d (fun k => rdgValue k e) s h
    exact ⟨_, rfl, h2, h1.trans (congrArg BitVec.toNat (guard_eq _))⟩

end Sys2Proof.Machine

namespace Sys2Proof.Machine

/-! ### The flow of an instruction (R344, R345) -/

/-- The core after an instruction that finds no halt cause. -/
theorem getCore_issue (c : Nat) (trap : State → Core → Trap) (last : Core → Word) (stall : State → Core → Nat)
    (act : Core → State → State) (s : State) (h : State.coreRuns c s) (ht : trap s (getCore s c) = none) :
    getCore (issue c trap last stall act s) c =
      flow (getCore s c) (last (getCore s c)) (counted (getCore s c) (stall s (getCore s c)) (getCore (act (getCore s c) s) c)) := by
  rw [issue_acts c trap last stall act s h ht, getCore_modCore_same]

/-- The core after an instruction that only changes its core. -/
theorem getCore_issueK (c : Nat) (f : Core → Core) (s : State) (h : State.coreRuns c s) :
    getCore (issueK c f s) c = flow (getCore s c) (getCore s c).pc (counted (getCore s c) 0 (f (getCore s c))) := by
  rw [issueK, getCore_issue c noTrap Core.pc noStall _ s h rfl, getCore_modCore_same, noStall]

theorem flow_outside_slots (old : Core) (last : Word) (k : Core) (h : old.delay = none) : flow old last k = goOn last k := by
  rw [flow, h]

/-- The repeat levels of the set in use. -/
theorem curSet_counted (k : Core) (n : Nat) (w : Core) : curSet (counted k n w) = curSet w := rfl

/-! ### O51: the clocks of an index that names no core -/

/-- A record of index 5 with one clock left of its slice, at the code of the wide cores, and 2 in d0. -/
def lastClock : State := { State.reset with
  cfg := [(0x40700104, 0x00010000#32)]
  lad := { State.reset.lad with cores := [(5, { st := 1, axis := some 0, clocks := 0, limit := 1, prim := { d := [(0, 2#32)] } })] } }

/-- Refutes O51: that the slice has a clock left for the second instruction is asked of the cores 0 to 3 alone. A record of index 5
issues as a wide core does, and at its last clock the NOP after MUL does not issue, so that the product is not yet seen. -/
theorem not_ladleFlowAndDistances : ¬ Obligations.LadleFlowAndDistances := by
  unfold Obligations.LadleFlowAndDistances
  rintro ⟨-, -, -, -, -, h⟩
  obtain ⟨-, -, h⟩ := h lastClock 5 0 0 0 ⟨by decide +kernel, by decide +kernel⟩ _ rfl (by decide +kernel) (by decide +kernel) (by decide +kernel)
  obtain ⟨t, ht, hseen⟩ := h (by decide +kernel) (fun hc => absurd hc (by decide))
  obtain rfl : ldNop 5 (ldMul 5 0 0 0 lastClock) = t := Host.Outcome.next.inj ht
  have hbefore : rd (getCore (ldNop 5 (ldMul 5 0 0 0 lastClock)) 5) 0 = 2#32 := by decide +kernel
  have hproduct : rd (getCore lastClock 5) 0 * rd (getCore lastClock 5) 0 = 4#32 := by decide +kernel
  rw [hbefore, hproduct] at hseen
  exact absurd hseen (by decide)

end Sys2Proof.Machine

namespace Sys2Proof.Machine

/-! ### O52: system instructions (R337, R338, R348, R352, R359) -/

/-- The flow leaves the enable of the set in use unless it ends an RTI. -/
theorem flow_ie (old : Core) (last : Word) (k : Core) (h : old.rtiPend = false) : (curSet (flow old last k)).ie = (curSet k).ie := by
  obtain ⟨hs, hp, hh, -⟩ := flow_mode old last k h
  rw [curSet, curSet, hs]
  split
  · exact hh
  · exact hp

/-- A change of the enable alone is a change of no register. -/
theorem modSet_ie_flowKept (v : Bool) (k : Core) : FlowKept k (modSet (fun q => { q with ie := v }) k) := by
  refine ⟨?_, ?_, fun r sh => resNow_modSet _ k sh r fun _ q => by cases r <;> rfl⟩
  · rw [modSet_eq]
    exact ⟨rfl, rfl, rfl, rfl, rfl, rfl, rfl, rfl, rfl, rfl, rfl⟩
  · rw [modSet_eq]

/-- An instruction that writes the registers rs and the enable of the set in use. -/
theorem ieOp_acted (c : Nat) (v : Core → Bool) (g : Core → Core) (s : State) (h : State.coreRuns c s) (hp : (getCore s c).rtiPend = false)
    (rs : List Res) (hk : RegsKept rs (getCore s c) (g (getCore s c))) :
    State.oneCore c s (issueK c (fun k => modSet (fun q => { q with ie := v k }) (g k)) s) ∧
      State.coreKept rs (getCore s c) (getCore (issueK c (fun k => modSet (fun q => { q with ie := v k }) (g k)) s) c) ∧
      (∀ r, State.held c (getCore s c).shadow r (issueK c (fun k => modSet (fun q => { q with ie := v k }) (g k)) s) =
        resNow (g (getCore s c)) r) ∧
      (curSet (getCore (issueK c (fun k => modSet (fun q => { q with ie := v k }) (g k)) s) c)).ie = v (getCore s c) := by
  have hcore := getCore_issueK c (fun k => modSet (fun q => { q with ie := v k }) (g k)) s h
  have hone : State.oneCore c s (issueK c (fun k => modSet (fun q => { q with ie := v k }) (g k)) s) := by
    rw [issueK, issue_acts _ _ _ _ _ s h rfl]
    exact ⟨rfl, fun e he => (getCore_modCore_ne c e _ _ he).trans (getCore_modCore_ne c e _ _ he)⟩
  generalize issueK c (fun k => modSet (fun q => { q with ie := v k }) (g k)) s = t at *
  obtain ⟨hs, hi, hr⟩ := flow_flowKept (getCore s c) (getCore s c).pc (counted (getCore s c) 0 (modSet (fun q => { q with ie := v (getCore s c) }) (g (getCore s c))))
  obtain ⟨gs, -, gr⟩ := modSet_ie_flowKept (v (getCore s c)) (g (getCore s c))
  obtain ⟨ks, km, kr⟩ := hk
  have hregs : ∀ r sh, resNow { getCore t c with shadow := sh } r = resNow { g (getCore s c) with shadow := sh } r := fun r sh => by
    rw [hcore, hr, ← gr]
    cases r <;> rfl
  refine ⟨hone, ?_, fun r => ?_, ?_⟩
  · rw [hcore] at hregs ⊢
    obtain ⟨a1, a2, a3, a4, a5, a6, a7, a8, a9, a10, a11⟩ := hs
    obtain ⟨b1, b2, b3, b4, b5, b6, b7, b8, b9, b10, b11⟩ := gs
    obtain ⟨c1, c2, c3, c4, c5, c6, c7, c8, c9, c10, c11⟩ := ks
    exact ⟨a1.trans (b1.trans c1), a2.trans (b2.trans c2), a3.trans (b3.trans c3), a4.trans (b4.trans c4), a5.trans (b5.trans c5),
      a6.trans (b6.trans c6), a7.trans (b7.trans c7), a8.trans (b8.trans c8), a9.trans (b9.trans c9), a10.trans (b10.trans c10),
      a11.trans (b11.trans c11), hi, fun r sh hc => (hregs r sh).trans (kr r sh hc)⟩
  · rw [State.held, hregs, ← km.1]
  · rw [hcore, flow_ie _ _ _ hp, curSet_counted, curSet_modSet]

/-- SR by its fields (R337). -/
theorem srWord_toNat (k : Core) (h : (curSet k).reps.length ≤ 3) : (srWord k).toNat =
    seen k .operand .flags % 16 + 16 * b2n (curSet k).ie + 32 * b2n k.shadow + 64 * (curSet k).reps.length := by
  have hb : ∀ b, b2n b < 2 := fun b => by cases b <;> decide
  have h1 := hb (curSet k).ie
  have h2 := hb k.shadow
  simp only [srWord, packWord, List.foldl_cons, List.foldl_nil, BitVec.toNat_ofNat]
  generalize (curSet k).reps.length = n at *
  generalize b2n (curSet k).ie = i at *
  generalize b2n k.shadow = j at *
  omega

/-- WAIT of the compact core: it sleeps (R359). -/
theorem ldWait_compact (s : State) (h : State.coreRuns 4 s) (hd : (getCore s 4).delay = none) :
    (getCore (ldWait 4 s) 4).waiting = true ∧ (getCore (ldWait 4 s) 4).st = 1 ∧ State.oneCore 4 s (ldWait 4 s) := by
  have ht : slotTrap s (getCore s 4) = none := by rw [slotTrap, hd]; rfl
  have hst : (getCore s 4).st = 1 := by
    obtain ⟨hi, -⟩ := h
    simp only [issues, Bool.and_eq_true, decide_eq_true_eq] at hi
    exact hi.1.1.1
  have hw : ldWait 4 s = modCore 4 (fun w => flow (getCore s 4) (getCore s 4).pc (counted (getCore s 4) 0 w))
      (modCore 4 (fun q => { q with waiting := true }) s) := issue_acts 4 _ _ _ _ s h ht
  have hcore : getCore (ldWait 4 s) 4 = goOn (getCore s 4).pc (counted (getCore s 4) 0 { getCore s 4 with waiting := true }) := by
    rw [hw, getCore_modCore_same, getCore_modCore_same, flow_outside_slots _ _ _ hd]
  obtain ⟨⟨a1, -, -, -, -, -, -, -, -, -, a11⟩, -, -⟩ := goOn_flowKept (getCore s 4).pc (counted (getCore s 4) 0 { getCore s 4 with waiting := true })
  refine ⟨by rw [hcore, a11]; rfl, by rw [hcore, a1]; exact hst, ?_⟩
  rw [hw]
  exact ⟨rfl, fun e he => (getCore_modCore_ne 4 e _ _ he).trans (getCore_modCore_ne 4 e _ _ he)⟩

/-- WAIT of a wide core: its slice ends (R352). -/
theorem ldWait_wide (c a : Nat) (s : State) (hc : c < 4) (h : State.coreRuns c s) (hd : (getCore s c).delay = none)
    (ha : (getCore s c).axis = some a) :
    (getCore (ldWait c s) c).st = 0 ∧ (getCore (ldWait c s) c).axis = none ∧ (getCore (ldWait c s) c).shadow = false ∧
      (∀ e, e ≠ c → getCore (ldWait c s) e = getCore s e) ∧
      ldWait c s = { s with lad := { s.lad with cores := (ldWait c s).lad.cores, slices := (ldWait c s).lad.slices } } := by
  have ht : slotTrap s (getCore s c) = none := by rw [slotTrap, hd]; rfl
  obtain ⟨n, hn⟩ : ∃ n, n = (getCore s c).clocks + 4 + Cfg.SLCFG_BUDGET s (slW a) - ((getCore s c).limit + 3) := ⟨_, rfl⟩
  have hact : (if c = 4 then modCore 4 (fun q => { q with waiting := true }) s else sliceEnd c (getCore s c) s) =
      modCore c (fun q => { q with st := 0, axis := none, shadow := false, peak := max q.peak n })
        (modSlice a (fun x => { x with last := n }) s) := by
    rw [if_neg (by omega), sliceEnd, ha, hn]
  have hw : ldWait c s = modCore c (fun w => flow (getCore s c) (getCore s c).pc (counted (getCore s c) 0 w))
      (modCore c (fun q => { q with st := 0, axis := none, shadow := false, peak := max q.peak n })
        (modSlice a (fun x => { x with last := n }) s)) := (issue_acts c _ _ _ _ s h ht).trans (congrArg _ hact)
  have hcore : getCore (ldWait c s) c = goOn (getCore s c).pc (counted (getCore s c) 0
      { getCore s c with st := 0, axis := none, shadow := false, peak := max (getCore s c).peak n }) := by
    rw [hw, getCore_modCore_same, getCore_modCore_same, flow_outside_slots _ _ _ hd]
    rfl
  obtain ⟨⟨a1, -, -, -, -, -, a7, -, -, -, -⟩, -, -⟩ := goOn_flowKept (getCore s c).pc (counted (getCore s c) 0
      { getCore s c with st := 0, axis := none, shadow := false, peak := max (getCore s c).peak n })
  refine ⟨by rw [hcore, a1]; rfl, by rw [hcore, a7]; rfl, by rw [hcore, (goOn_mode _ _).1]; rfl, fun e he => ?_, ?_⟩
  · rw [hw, getCore_modCore_ne c e _ _ he, getCore_modCore_ne c e _ _ he]
    rfl
  · rw [hw]
    rfl

/-- RDC (R348). -/
theorem ldRdc_acted (c d : Nat) (s : State) (h : State.coreRuns c s) : Acted c [.d d] s (ldRdc c d s)
    (putD .alu d (if c < 4 then BitVec.ofNat 32 (getCore s c).clocks else freeW s) (getCore s c)) :=
  issue_acted c noTrap Core.pc noStall _ s h rfl [.d d] _
    ⟨rfl, fun e he => getCore_modCore_ne c e _ s.tick he⟩ (getCore_modCore_same c _ s.tick) (put_regsKept .alu (.d d) _ _)

/-- Straight on where no level is open. -/
theorem goOn_no_levels (last : Word) (k : Core) (h : (curSet k).reps = []) : goOn last k = { k with pc := last + 4#32 } := by
  have hset : modSet (fun q => { q with reps := [] }) k = k := by
    rw [curSet] at h
    rw [modSet]
    split at h
    case isTrue hs =>
      have : ({ k.shad with reps := [] } : RegSet) = k.shad := by rw [← h]
      rw [if_pos hs, this]
    case isFalse hs =>
      have : ({ k.prim with reps := [] } : RegSet) = k.prim := by rw [← h]
      rw [if_neg hs, this]
  have hc : closeLevels last (curSet k).reps = ([], none) := by rw [h]; rfl
  rw [goOn, hc, hset]
  rfl

/-- The compact core at its next delay slot, whose branch goes to t after n more of them. -/
def atSlot (n : Nat) (t : Option Word) (k : Core) : Core :=
  { counted k 0 k with pc := k.pc + 4#32, delay := some (n, t), rtiPend := true }

/-- RTI of an interrupt (R359). -/
theorem getCore_ldRti (s : State) (h : State.coreRuns 4 s) (hs : (getCore s 4).shadow = true) (hd : (getCore s 4).delay = none)
    (hr : (curSet (getCore s 4)).reps = []) : getCore (ldRti 4 s) 4 = atSlot 2 (some (getCore s 4).retPc) (getCore s 4) := by
  have ht : rtiTrap 4 s (getCore s 4) = none := by rw [rtiTrap, hd]; rfl
  have hi := getCore_issue 4 (rtiTrap 4) Core.pc noStall (fun _ s => s.tick) s h ht
  rw [flow_outside_slots _ _ _ hd, goOn_no_levels _ (counted _ _ (getCore s.tick 4)) hr] at hi
  obtain ⟨h1, h2⟩ := h
  have hb : ldRti 4 s = modCore 4 (fun q => { q with delay := some (2, some (getCore s 4).retPc), rtiPend := true })
      (issue 4 (rtiTrap 4) Core.pc noStall (fun _ s => s.tick) s) := by
    rw [ldRti]
    simp only [h1, h2, ht, hs, Option.isNone_none, Bool.and_self, if_true]
  rw [hb, getCore_modCore_same, hi]
  rfl

/-- The flow in the first delay slot (R344). -/
theorem flow_firstSlot (old : Core) (last : Word) (k : Core) (t : Option Word) (h : old.delay = some (2, t)) :
    flow old last k = { goOn last k with delay := some (1, t) } := by
  simp [flow, h]

/-- The flow in the second delay slot of an RTI (R359). -/
theorem flow_rti (old : Core) (last : Word) (k : Core) (a : Word) (h : old.delay = some (1, some a)) (hr : old.rtiPend = true) :
    flow old last k = { rtiDone { goOn last k with delay := none } with pc := a } := by
  simp [flow, h, hr]

/-- NOP of the compact core in the first delay slot. -/
theorem getCore_nop_firstSlot (s : State) (k : Core) (t : Option Word) (h : State.coreRuns 4 s) (hk : getCore s 4 = atSlot 2 t k)
    (hr : (curSet k).reps = []) : getCore (ldNop 4 s) 4 = atSlot 1 t (atSlot 2 t k) := by
  refine (getCore_issueK 4 id s h).trans ?_
  rw [hk, flow_firstSlot _ _ _ t rfl, goOn_no_levels _ (counted _ _ (id (atSlot 2 t k))) hr]
  rfl

/-- And in the second one, which carries out the RTI. -/
theorem getCore_nop_secondSlot (s : State) (k : Core) (a : Word) (h : State.coreRuns 4 s) (hk : getCore s 4 = atSlot 1 (some a) k)
    (hr : (curSet k).reps = []) : (getCore (ldNop 4 s) 4).pc = a ∧ (getCore (ldNop 4 s) 4).shadow = false ∧
      (getCore (ldNop 4 s) 4).prim = { k.prim with ie := true } := by
  have hn : getCore (ldNop 4 s) 4 = { rtiDone { counted (atSlot 1 (some a) k) 0 (atSlot 1 (some a) k) with
      pc := k.pc + 4#32 + 4#32, delay := none } with pc := a } := by
    refine (getCore_issueK 4 id s h).trans ?_
    rw [hk, flow_rti _ _ _ a rfl rfl, goOn_no_levels _ (counted _ _ (id (atSlot 1 (some a) k))) hr]
    rfl
  rw [hn]
  exact ⟨rfl, rfl, rfl⟩

/-- In a delay slot of RTI the compact core issues the instruction that stands there. -/
theorem coreRuns_atSlot (s t : State) (n : Nat) (x : Option Word) (k : Core) (hi : issues 4 k = true) (hk : getCore t 4 = atSlot n x k)
    (hf : fetchOk s 4 (k.pc + 4#32) = true) : State.coreRuns 4 t :=
  ⟨by rw [hk]; exact hi, by rw [hk]; exact hf⟩

/-- Settles O52: each system instruction by what it writes; RTI through its two delay slots. -/
theorem ladleSystem : Obligations.LadleSystem := by
  unfold Obligations.LadleSystem
  refine ⟨fun s h hd => ?sleep, fun s c a hc h hd ha => ?sliceEnd, fun s c d a h k hk hp => ?status, fun s k hk h1 h2 h3 h4 h5 => ?interrupt,
    fun s k h hk hs hd hr hf1 hf2 => ?rti⟩
  case sleep => exact ⟨_, rfl, ldWait_compact s h hd⟩
  case sliceEnd => exact ⟨_, rfl, ldWait_wide c a s hc h hd ha⟩
  case status =>
    subst hk
    refine ⟨?_, ?_, ?_, ?_, ?_⟩
    · obtain ⟨h1, h2⟩ := dataOp_acted .alu c d srWord s h
      exact ⟨_, rfl, h2, fun hl => h1.trans (srWord_toNat _ hl)⟩
    · obtain ⟨h1, h2, h3, h4⟩ := ieOp_acted c (fun k => bit (rd k a) 4) (fun k => putF (bits (rd k a) 3 0) k) s h hp [.flags]
        (put_regsKept .flagOp .flags _ _)
      exact ⟨_, rfl, h1, h2, (h3 .flags).trans (resNow_put_same .flagOp .flags _ _ (Nat.mod_lt _ (by decide))), h4⟩
    · obtain ⟨h1, h2, -, h4⟩ := ieOp_acted c (fun _ => true) id s h hp [] (RegsKept.refl _)
      exact ⟨_, rfl, h1, h2, h4⟩
    · obtain ⟨h1, h2, -, h4⟩ := ieOp_acted c (fun _ => false) id s h hp [] (RegsKept.refl _)
      exact ⟨_, rfl, h1, h2, h4⟩
    · obtain ⟨h1, h2⟩ := ldRdc_acted c d s h
      refine ⟨_, rfl, h1, fun hc => (h2 (.d d)).trans ((resNow_put_same .alu (.d d) _ _ (BitVec.isLt _)).trans ?_)⟩
      rw [if_pos hc]
      exact BitVec.toNat_ofNat _ _
  case interrupt =>
    subst hk
    have he : compactInterrupt s = modCore 4 (fun k => { k with
        retPc := k.pc, shadow := true, shad := { k.shad with ie := false }, pc := Cfg.LDCVEC s, waiting := false }) s := by
      rw [compactInterrupt]
      simp only [h1, h2, h3, h4, h5, decide_true, Bool.not_false, Option.isNone_none, ne_eq, not_false_eq_true, Bool.and_self, if_true]
    refine ⟨_, congrArg Host.Outcome.next he, ?_⟩
    rw [getCore_modCore_same]
    exact ⟨rfl, rfl, rfl, rfl, rfl, rfl, modCore_oneCore 4 _ s⟩
  case rti =>
    subst hk
    have hlev : (curSet (getCore s 4)).reps = [] := by rw [curSet, hs]; exact hr
    obtain ⟨hi, -⟩ := id h
    have hk1 := getCore_ldRti s h hs hd hlev
    have hr1 := coreRuns_atSlot s (ldRti 4 s) 2 _ _ hi hk1 hf1
    have hk2 := getCore_nop_firstSlot (ldRti 4 s) _ _ hr1 hk1 hlev
    have hpc : (getCore s 4).pc + 4#32 + 4#32 = (getCore s 4).pc + 8#32 := by bv_omega
    have hr2 := coreRuns_atSlot s (ldNop 4 (ldRti 4 s)) 1 _ (atSlot 2 (some (getCore s 4).retPc) (getCore s 4)) hi hk2
      ((congrArg (fetchOk s 4) hpc).trans hf2)
    obtain ⟨h1, h2, h3⟩ := getCore_nop_secondSlot (ldNop 4 (ldRti 4 s)) _ _ hr2 hk2 hlev
    exact ⟨_, rfl, h1, h2, by rw [h3], by rw [h3]; rfl⟩

end Sys2Proof.Machine

namespace Sys2Proof.Machine

/-! ### O54: STOP, RESTART and LDMBOX (R354, R359, R360) -/

/-- An LDCMD of a master that reaches it (R354, R362). -/
theorem ldAct_of_command (m : Master) (cmd c : Nat) (s : State) (u : State) (h : State.reaches m aLDCMD s)
    (hc : ldCommand m cmd c s = some u) : withRight m aLDCMD (ldAct m cmd c) s = u := by
  rw [withRight_of_reaches m aLDCMD _ s h, ldAct, hc]
  rfl

/-- No master but the compact core is kept from a core of the block. -/
theorem ldCommand_of_core (m : Master) (c : Nat) (s : State) (hc : c ≤ 4) (hm : m ≠ .compact) :
    ldCommand m 1 c s = some (restartCore c s) ∧ ldCommand m 2 c s = some (stopCore c s) := by
  have : ¬(4 < c ∨ (m = .compact ∧ c = 4)) := by
    rintro (h | ⟨h, -⟩)
    · omega
    · exact hm h
  exact ⟨if_neg this, if_neg this⟩

/-- A halt of a wide core gives the axes of its slices fault 0x09 (R361). -/
def haltFault (a : Nat) (s : State) : State := ladleFault a 2 (Cfg.SLCFG_HREACT s (slW a)) (setCause a 0x09 true s)

theorem haltCore_wide (c cause : Nat) (faddr : Word) (s : State) (hc : c ≠ 4) :
    haltCore c cause faddr s = forAll (sliceAxes s c) haltFault (modCore c (haltedCore cause faddr) s) := if_neg hc

/-- The reaction to a fault of a halted core leaves every core and the memory, and the causes that stand. -/
theorem haltFault_keeps (a b : Nat) (s : State) : (haltFault a s).lad.cores = s.lad.cores ∧ (haltFault a s).mem = s.mem ∧
    CausesStand (getAx s b).ctl (getAx (haltFault a s) b).ctl := by
  obtain ⟨u, hu⟩ : ∃ u, u = modSlice a (fun x => { x with lastf := 2 }) (setCause a 0x09 true s) := ⟨_, rfl⟩
  have he : haltFault a s = faultAx a 0x09 (Cfg.SLCFG_HREACT s (slW a)) u := by rw [hu]; rfl
  have hr := faultAx_onlyReaction a 0x09 (Cfg.SLCFG_HREACT s (slW a)) u
  have hc := faultAx_causesStand a b 0x09 (Cfg.SLCFG_HREACT s (slW a)) u
  rw [← he] at hr hc
  refine ⟨(lad_of_onlyReaction hr).1.trans (by rw [hu]; rfl), ?_, CausesStand.trans ?_ hc⟩
  · obtain ⟨hf, -⟩ := hr
    rw [hf, hu]
    rfl
  · rw [hu]
    exact setCause_causesStand a b 0x09 s

/-- The cause of fault 0x09 stands on the axis. -/
theorem haltFault_stands (a : Nat) (s : State) : (getAx (haltFault a s) a).ctl.causes.testBit 9 = true := by
  refine faultAx_causesStand a a 0x09 _ (modSlice a (fun x => { x with lastf := 2 }) (setCause a 0x09 true s)) 9
    (by decide) (by decide) (by decide) ?_
  change (getAx (setCause a 0x09 true s) a).ctl.causes.testBit 9 = true
  rw [setCause, modCtl_getAx_self]
  simp [testBit_setBit]

/-- STOP of a wide core (R354). -/
theorem haltCore_wide_leaves (c cause : Nat) (faddr : Word) (s : State) (hc : c ≠ 4) :
    getCore (haltCore c cause faddr s) c = haltedCore cause faddr (getCore s c) ∧ (haltCore c cause faddr s).mem = s.mem ∧
      ∀ a ∈ sliceAxes s c, (getAx (haltCore c cause faddr s) a).ctl.causes.testBit 9 = true := by
  rw [haltCore_wide c cause faddr s hc]
  refine ⟨?_, ?_, fun a ha => ?_⟩
  · refine forAll_keeps (fun t => getCore t c = haltedCore cause faddr (getCore s c)) _ _ _ (fun a _ t ht => ?_) (getCore_modCore_same c _ s)
    rw [getCore, (haltFault_keeps a a t).1]
    exact ht
  · exact forAll_keeps (fun t => t.mem = s.mem) _ _ _ (fun a _ t ht => (haltFault_keeps a a t).2.1.trans ht) rfl
  · exact forAll_reaches (fun _ => True) (fun t => (getAx t a).ctl.causes.testBit 9 = true) _ _ _ a ha (fun _ _ _ => trivial)
      (fun b t _ h => (haltFault_keeps b a t).2.2 9 (by decide) (by decide) (by decide) h) (fun t _ => haltFault_stands a t) trivial

/-- What RESTART leaves of the wide core k (R354). -/
def restartedWide (k : Core) : Core := { k with st := 0, hcause := 0, faddr := 0, restartPend := true, shadow := false, recent := [] }

theorem restartCore_wide (c : Nat) (s : State) (hc : c ≠ 4) (h : (getCore s c).st = 2) :
    restartCore c s = forAll (sliceAxes s c) (fun a => setCause a 0x09 false) (modCore c restartedWide s) := by
  rw [restartCore, if_neg (by simp [h]), if_neg hc]
  rfl

/-- The end of a cause touches axes alone. -/
theorem endCause_frame (l : List Nat) (code : Nat) (s : State) :
    forAll l (fun a => setCause a code false) s = { s with axes := (forAll l (fun a => setCause a code false) s).axes } :=
  forAll_keeps (fun t => t = { s with axes := t.axes }) l _ s (fun a _ t ht => by
    rw [ht]
    rfl) rfl

/-- Settles O54: STOP and RESTART of the compact core and of the wide ones, their refusal, and LDMBOX. -/
theorem ladleControl : Obligations.LadleControl := by
  unfold Obligations.LadleControl
  refine ⟨fun s m hm hmc => ⟨fun hst => ?stopCompact, fun c hc hst => ?stopHalted, fun c hc hst => ?stopWide, fun hst => ?restartCompact,
    fun c hc hst => ?restartWide⟩, fun s cmd hm hcmd => ?own, fun s m v hm => ?mailbox⟩
  case stopCompact =>
    have hs : stopCore 4 s = haltCore 4 6 0 s := if_pos hst
    have he := ldAct_of_command m 2 4 s _ hm ((ldCommand_of_core m 4 s (Nat.le_refl 4) hmc).2.trans (congrArg some hs))
    refine ⟨_, congrArg Host.Outcome.next he, ?_⟩
    rw [getCore_haltCore_compact]
    refine ⟨rfl, rfl, rfl, rfl, haltCore_compact_raised 6 0 s, fun e h4 => ?_, haltCore_compact_onlyEvents 6 0 s⟩
    rw [haltCore_compact, getCore_raise, getCore_modCore_ne _ _ _ _ h4]
  case stopHalted =>
    have hs : stopCore c s = s := if_neg (Nat.not_lt.2 hst)
    exact congrArg Host.Outcome.next (ldAct_of_command m 2 c s _ hm ((ldCommand_of_core m c s hc hmc).2.trans (congrArg some hs)))
  case stopWide =>
    have hs : stopCore c s = haltCore c 6 0 s := if_pos hst
    have he := ldAct_of_command m 2 c s _ hm ((ldCommand_of_core m c s (Nat.le_of_lt hc) hmc).2.trans (congrArg some hs))
    obtain ⟨hcore, hmem, hcauses⟩ := haltCore_wide_leaves c 6 0 s (Nat.ne_of_lt hc)
    exact ⟨_, congrArg Host.Outcome.next he, by rw [hcore]; rfl, by rw [hcore]; rfl, hcauses, hmem⟩
  case restartCompact =>
    have he := ldAct_of_command m 1 4 s _ hm ((ldCommand_of_core m 4 s (Nat.le_refl 4) hmc).1.trans
      (congrArg some (restartCore_compact s hst)))
    refine ⟨_, congrArg Host.Outcome.next he, ?_⟩
    rw [getCore_modCore_same]
    exact ⟨rfl, rfl, rfl, rfl, modCore_oneCore 4 _ s⟩
  case restartWide =>
    have he := ldAct_of_command m 1 c s _ hm ((ldCommand_of_core m c s (Nat.le_of_lt hc) hmc).1.trans
      (congrArg some (restartCore_wide c s (Nat.ne_of_lt hc) hst)))
    have hf := endCause_frame (sliceAxes s c) 0x09 (modCore c restartedWide s)
    have hk : getCore (forAll (sliceAxes s c) (fun a => setCause a 0x09 false) (modCore c restartedWide s)) c = restartedWide (getCore s c) := by
      rw [hf]
      exact getCore_modCore_same c restartedWide s
    refine ⟨_, congrArg Host.Outcome.next he, by rw [hk]; rfl, by rw [hk]; rfl, fun a ha => causeEnds _ 0x09 a _ ha, ?_⟩
    generalize forAll (sliceAxes s c) (fun a => setCause a 0x09 false) (modCore c restartedWide s) = t at hf ⊢
    rw [hf]
    rfl
  case own =>
    have hrefused : ∀ n, withRight .compact aLDCMD (ldAct .compact n 4) s = refuseWrite s := fun n => by
      rw [withRight_of_reaches _ _ _ _ hm]
      rfl
    have hev : State.onlyEvents s (refuseWrite s) ∧ State.raised evRefusedWrite (refuseWrite s) :=
      ⟨raise_onlyEvents _ s, raise_raised _ _ rfl (by decide)⟩
    rcases hcmd with rfl | rfl
    · exact ⟨_, congrArg Host.Outcome.next (hrefused 2), hev⟩
    · exact ⟨_, congrArg Host.Outcome.next (hrefused 1), hev⟩
  case mailbox => exact congrArg Host.Outcome.next (withRight_of_reaches m aLDMBOX _ s hm)

end Sys2Proof.Machine

namespace Sys2Proof.Machine

/-! ### Accesses of the Ladle cores to memory (R21, R27, R340) -/

/-- A place where the cores find their data: SRAM for a wide core, local memory for the compact one. -/
def dataPlace (c a : Nat) : Prop := a < 0x400000 ∧ c < 4 ∨ inLocal a = true ∧ c = 4

theorem regionOf_local (a : Nat) (h : inLocal a = true) : regionOf a = some .ladle := by
  rw [inLocal, Bool.and_eq_true, decide_eq_true_eq, decide_eq_true_eq] at h
  obtain ⟨h1, h2⟩ := h
  have hp : a / 0x10000 = 0x4070 := by omega
  unfold regionOf
  rw [if_neg (by omega), if_neg (by omega), if_neg (by omega), if_neg (by omega)]
  rw [hp]
  rfl

theorem regionOf_sram (a : Nat) (h : a < 0x400000) : regionOf a = some .sram := if_pos h

theorem inLocal_of_sram (a : Nat) (h : a < 0x400000) : inLocal a = false := by
  rw [inLocal, Bool.and_eq_false_iff]
  left
  exact decide_eq_false (by omega)

/-- No such access is lost with the core PLL, and none lies outside every region or is too narrow for its region. -/
theorem dataPlace_reached (s : State) (c a n : Nat) (h : dataPlace c a) : lostAccess s c a = false ∧ (regionOf a).isNone = false ∧
    (decide (0x400000 ≤ a) && !inLocal a && decide (n ≠ 4)) = false := by
  rcases h with ⟨ha, hc⟩ | ⟨ha, rfl⟩
  · refine ⟨?_, by rw [regionOf_sram a ha]; rfl, ?_⟩
    · rw [lostAccess, decide_eq_false (Nat.ne_of_lt hc)]
      rfl
    · rw [decide_eq_false (Nat.not_le.2 ha)]
      rfl
  · refine ⟨?_, by rw [regionOf_local a ha]; rfl, ?_⟩
    · rw [lostAccess, ha]
      simp
    · rw [ha]
      simp

/-- An aligned load there finds no halt cause where no word has an error (R349). -/
theorem accessTrap_load (s : State) (c a n : Nat) (h : dataPlace c a) (hn : a % n = 0) (he : s.hardErr = []) :
    accessTrap s c false a n = none := by
  obtain ⟨h1, h2, h3⟩ := dataPlace_reached s c a n h
  have hbad : eccBad s (eccWord a) = false := by rw [eccBad, he]; rfl
  rw [accessTrap, h1, h2, h3, hbad]
  simp [hn]

/-- A store where the core may write. -/
theorem accessTrap_store (s : State) (c a n : Nat) (h : dataPlace c a) (hn : a % n = 0) (hw : mayWrite s (coreMaster c) a = true) :
    accessTrap s c true a n = none := by
  obtain ⟨h1, h2, h3⟩ := dataPlace_reached s c a n h
  rw [accessTrap, h1, h2, h3, hw]
  simp [hn]

/-- A misaligned access of the compact core to its local memory: code 3 (R349). -/
theorem accessTrap_misaligned (s : State) (store : Bool) (a : Nat) (h : inLocal a = true) (hn : a % 4 ≠ 0) (hw : mayWrite s (coreMaster 4) a = true) :
    accessTrap s 4 store a 4 = some 3 := by
  obtain ⟨h1, h2, h3⟩ := dataPlace_reached s 4 a 4 (.inr ⟨h, rfl⟩)
  rw [accessTrap, h1, h2, h3, hw]
  simp [hn]

/-- The compact core may write its local memory (R21). -/
theorem mayWrite_local (s : State) (a : Nat) (h : inLocal a = true) : mayWrite s .compact a = true := by
  have hb : compactBarred a = false := by
    rw [inLocal, Bool.and_eq_true, decide_eq_true_eq, decide_eq_true_eq] at h
    unfold compactBarred
    simp only [Bool.or_eq_false_iff, Bool.and_eq_false_iff, decide_eq_false_iff_not]
    omega
  simp [mayWrite, regionOf_local a h, hb]

/-- What such a load finds, where no word has an error. -/
theorem loadN_place (s : State) (c a n : Nat) (h : dataPlace c a) (he : s.softErr = []) :
    loadN c a n s = (s, leNat (mread 0 s.mem a n) 0 n) := by
  have hfix : eccFix (eccWord a) s = s := by rw [eccFix, he]; rfl
  obtain ⟨hlost, -⟩ := dataPlace_reached s c a n h
  rw [loadN, hlost, hfix]
  rcases h with ⟨ha, hc⟩ | ⟨ha, rfl⟩
  · rw [inLocal_of_sram a ha, ownMem, if_neg (Nat.ne_of_lt hc), if_pos ha]
    rfl
  · rw [ha]
    rfl

/-- What such a store leaves. -/
theorem storeN_place (s : State) (c a n : Nat) (v : Word) (h : dataPlace c a) (hn : a % n = 0) (hw : n = 1 ∨ n = 2 ∨ n = 4)
    (hp : c < 4 → inPart s ptLADLE a = true) : storeN c a n v s = memPut a (leBytes n v.toNat) s := by
  obtain ⟨hlost, -⟩ := dataPlace_reached s c a n h
  rw [storeN, hlost, if_neg (by decide)]
  rcases h with ⟨ha, hc⟩ | ⟨ha, rfl⟩
  · have hok : accessOk a n = true := by
      rw [accessOk, hn, decide_eq_true ha]
      rcases hw with rfl | rfl | rfl <;> rfl
    have hm : mayWrite s (.wide c) a = true := by
      simp [mayWrite, regionOf_sram a ha, hp hc]
    rw [if_neg (by simp [inLocal_of_sram a ha]), if_neg (Nat.ne_of_lt hc), busWrite, hok, hm, regionOf_sram a ha]
    change (sramWrite (.wide c) a (leBytes n v.toNat) s).1 = _
    rw [sramWrite, if_pos (hp hc)]
    rfl
  · exact if_pos ⟨ha, rfl⟩

/-! ### O49: pointers, modifiers and memory (R340, R347 to R349) -/

/-- Beside an instruction that finds no halt cause nothing of a refused load is to clear. -/
theorem zeroRefused_none (c : Nat) (trap : State → Core → Trap) (dest : State → Core → List Res) (s u : State)
    (h : trap s (getCore s c) = none) : zeroRefused c trap dest s u = u := by
  rw [zeroRefused, h]
  simp

/-- The core's clock line and its stall are no registers. -/
theorem RegsKept.lines {rs : List Res} {k q : Core} (h : RegsKept rs k q) (x y : Bool) :
    RegsKept rs k { q with clkOff := x, stalled := y } := by
  obtain ⟨hs, hm, hr⟩ := h
  exact ⟨hs, hm, fun r sh hc => (by cases r <;> rfl : _ = _).trans (hr r sh hc)⟩

theorem resNow_lines (q : Core) (x y : Bool) (r : Res) : resNow { q with clkOff := x, stalled := y } r = resNow q r := by
  cases r <;> rfl

/-- An instruction whose access makes u of the head and whose work makes f of its core. -/
theorem access_acted (c : Nat) (trap : State → Core → Trap) (stall : State → Core → Nat) (act : Core → State → State) (s u : State)
    (f : Core → Core) (rs : List Res) (h : State.coreRuns c s) (ht : trap s (getCore s c) = none)
    (hact : act (getCore s c) s = withCore c (getCore s c) f u) (hu : u.lad = s.lad) (hk : RegsKept rs (getCore s c) (f (getCore s c))) :
    State.onlyCore c rs u (issue c trap Core.pc stall act s) ∧
      ∀ r, State.held c (getCore s c).shadow r (issue c trap Core.pc stall act s) = resNow (f (getCore s c)) r := by
  have hcore : ∀ e, getCore u e = getCore s e := fun e => by rw [getCore, getCore, hu]
  obtain ⟨h1, h2⟩ := flow_acted c (getCore s c).pc (stall s (getCore s c)) u (withCore c (getCore s c) f u) rs
    { f (getCore s c) with clkOff := (getCore u c).clkOff, stalled := (getCore u c).stalled } (modCore_oneCore c _ u)
    (getCore_modCore_same c _ u) (by rw [hcore]; exact hk.lines _ _)
  rw [hcore] at h1 h2
  rw [issue_acts c trap Core.pc stall act s h ht, hact]
  exact ⟨h1, fun r => (h2 r).trans (resNow_lines _ _ _ r)⟩

/-- The pointer that mode 1 moves. -/
def movedPointer (md : MemMode) (p : Nat) : List Res := if md = .postModify then [.p p] else []

theorem memModify_regsKept (k q : Core) (p : Nat) (md : MemMode) : RegsKept (movedPointer md p) q (memModify k p md q) := by
  cases md with
  | offset o => exact .refl q
  | postModify => exact put_regsKept .addr (.p p) _ q

theorem memModify_data (k q : Core) (p d : Nat) (md : MemMode) : resNow (memModify k p md q) (.d d) = resNow q (.d d) := by
  cases md with
  | offset o => rfl
  | postModify => exact resNow_put_ne .addr (.p p) (.d d) _ q (by simp)

theorem memModify_pointer (k q : Core) (p : Nat) : resNow (memModify k p .postModify q) (.p p) = (postModify (rp k p) (rm k p)).toNat :=
  resNow_put_same .addr (.p p) _ q (BitVec.isLt _)

/-- LD (R340, R348). -/
theorem ldLoad_acted (s : State) (c d p : Nat) (md : MemMode) (w : MemWidth) (a : Nat) (h : State.coreRuns c s)
    (ho : offsetOk md w = true) (ha : a = (memAddr (getCore s c) p md).toNat) (hal : a % widthBytes w = 0) (hpl : dataPlace c a)
    (hhard : s.hardErr = []) (hsoft : s.softErr = []) :
    State.onlyCore c (.d d :: movedPointer md p) s (ldLoad c d p md w s) ∧
      State.held c (getCore s c).shadow (.d d) (ldLoad c d p md w s) =
        (extend w (leNat (mread 0 s.mem a (widthBytes w)) 0 (widthBytes w))).toNat ∧
      (md = .postModify → State.held c (getCore s c).shadow (.p p) (ldLoad c d p md w s) =
        (postModify (rp (getCore s c) p) (rm (getCore s c) p)).toNat) := by
  subst ha
  have ht : memTrap c false p md w s (getCore s c) = none := by
    simp [memTrap, ho, accessTrap_load s c _ _ hpl hal hhard]
  obtain ⟨v, hv⟩ : ∃ v, v = extend w (leNat (mread 0 s.mem (memAddr (getCore s c) p md).toNat (widthBytes w)) 0 (widthBytes w)) := ⟨_, rfl⟩
  obtain ⟨h1, h2⟩ := access_acted c (memTrap c false p md w) (fun _ k => accessStall c (memAddr k p md).toNat)
    (fun k s => withCore c k (fun k0 => memModify k p md (putD .slow d (extend w (loadN c (memAddr k p md).toNat (widthBytes w) s).2) k0))
      (loadN c (memAddr k p md).toNat (widthBytes w) s).1) s s (fun k0 => memModify (getCore s c) p md (putD .slow d v k0))
    (.d d :: movedPointer md p) h ht (by rw [loadN_place s c _ _ hpl hsoft, hv]) rfl
    ((put_regsKept .slow (.d d) _ _).trans (memModify_regsKept _ _ _ _))
  rw [← hv]
  have hld : ldLoad c d p md w s = issue c (memTrap c false p md w) Core.pc (fun _ k => accessStall c (memAddr k p md).toNat)
      (fun k s => withCore c k (fun k0 => memModify k p md (putD .slow d (extend w (loadN c (memAddr k p md).toNat (widthBytes w) s).2) k0))
        (loadN c (memAddr k p md).toNat (widthBytes w) s).1) s := zeroRefused_none _ _ _ _ _ ht
  rw [hld]
  refine ⟨h1, (h2 (.d d)).trans ((memModify_data _ _ _ _ _).trans (resNow_put_same .slow (.d d) _ _ (BitVec.isLt _))), ?_⟩
  rintro rfl
  exact (h2 (.p p)).trans (memModify_pointer _ _ _)

/-- ST (R340, R348). -/
theorem ldStore_acted (s : State) (c d p : Nat) (md : MemMode) (w : MemWidth) (a : Nat) (h : State.coreRuns c s)
    (ho : offsetOk md w = true) (hw : w ≠ .uhalf) (ha : a = (memAddr (getCore s c) p md).toNat) (hal : a % widthBytes w = 0)
    (hpl : dataPlace c a) (hpart : c < 4 → inPart s ptLADLE a = true) :
    State.onlyCore c (movedPointer md p) (memPut a (leBytes (widthBytes w) (rd (getCore s c) d).toNat) s) (ldStore c d p md w s) ∧
      (md = .postModify → State.held c (getCore s c).shadow (.p p) (ldStore c d p md w s) =
        (postModify (rp (getCore s c) p) (rm (getCore s c) p)).toNat) := by
  subst ha
  have hright : mayWrite s (coreMaster c) (memAddr (getCore s c) p md).toNat = true := by
    rcases hpl with ⟨hlt, hc⟩ | ⟨hin, rfl⟩
    · rw [coreMaster, if_pos hc]
      simp [mayWrite, regionOf_sram _ hlt, hpart hc]
    · exact mayWrite_local s _ hin
  have ht : memTrap c true p md w s (getCore s c) = none := by
    simp [memTrap, ho, hw, accessTrap_store s c _ _ hpl hal hright]
  have hbytes : widthBytes w = 1 ∨ widthBytes w = 2 ∨ widthBytes w = 4 := by cases w <;> simp [widthBytes]
  obtain ⟨h1, h2⟩ := access_acted c (memTrap c true p md w) (fun _ k => accessStall c (memAddr k p md).toNat)
    (fun k s => withCore c k (memModify k p md) (storeN c (memAddr k p md).toNat (widthBytes w) (rd k d) s)) s
    (memPut (memAddr (getCore s c) p md).toNat (leBytes (widthBytes w) (rd (getCore s c) d).toNat) s) (memModify (getCore s c) p md)
    (movedPointer md p) h ht (by rw [storeN_place s c _ _ _ hpl hal hbytes hpart]) rfl (memModify_regsKept _ _ _ _)
  refine ⟨h1, ?_⟩
  rintro rfl
  exact (h2 (.p p)).trans (memModify_pointer _ _ _)

/-- Bytes make a number below the power of 256. -/
theorem leNat_lt (l : List Byte) (i n : Nat) : leNat l i n < 256 ^ n := by
  induction n with
  | zero => exact Nat.one_pos
  | succ n ih =>
    rw [leNat, List.range_succ, List.foldl_append]
    change leNat l i n + byteAt l (i + n) * 256 ^ n < 256 ^ (n + 1)
    have hb : byteAt l (i + n) < 256 := (l.getD (i + n) 0).isLt
    have : byteAt l (i + n) * 256 ^ n ≤ 255 * 256 ^ n := Nat.mul_le_mul_right _ (Nat.le_of_lt_succ hb)
    rw [Nat.pow_succ]
    omega

/-- The address of LDP. -/
def ldpAddr (q : Nat) (u : BitVec 16) (k : Core) : Word := rp k q + u.signExtend 32

/-- Its halt cause. -/
def ldpTrap (c q : Nat) (u : BitVec 16) (s : State) (k : Core) : Trap :=
  (accessTrap s c false (ldpAddr q u k).toNat 4).map (fun h => (h, ldpAddr q u k))

/-- Its work on the state. -/
def ldpAct (c p q : Nat) (u : BitVec 16) (k : Core) (s : State) : State :=
  withCore c k (put .ldp (.p p) (loadN c (ldpAddr q u k).toNat 4 s).2) (loadN c (ldpAddr q u k).toNat 4 s).1

theorem ldLdp_eq (c p q : Nat) (u : BitVec 16) (s : State) : ldLdp c p q u s =
    zeroRefused c (ldpTrap c q u) (fun s k => if loadRefused s c (ldpAddr q u k).toNat 4 then [.p p] else []) s
      (issue c (ldpTrap c q u) Core.pc (fun _ k => accessStall c (ldpAddr q u k).toNat) (ldpAct c p q u) s) := rfl

/-- LDP (R348). -/
theorem ldLdp_acted (s : State) (c p q : Nat) (u : BitVec 16) (h : State.coreRuns c s)
    (hal : (ldpAddr q u (getCore s c)).toNat % 4 = 0) (hpl : dataPlace c (ldpAddr q u (getCore s c)).toNat)
    (hhard : s.hardErr = []) (hsoft : s.softErr = []) :
    State.onlyCore c [.p p] s (ldLdp c p q u s) ∧
      State.held c (getCore s c).shadow (.p p) (ldLdp c p q u s) = leNat (mread 0 s.mem (ldpAddr q u (getCore s c)).toNat 4) 0 4 := by
  have ht : ldpTrap c q u s (getCore s c) = none := by rw [ldpTrap, accessTrap_load s c _ _ hpl hal hhard]; rfl
  obtain ⟨h1, h2⟩ := access_acted c (ldpTrap c q u) (fun _ k => accessStall c (ldpAddr q u k).toNat) (ldpAct c p q u) s s
    (put .ldp (.p p) (leNat (mread 0 s.mem (ldpAddr q u (getCore s c)).toNat 4) 0 4)) [.p p] h ht
    (by rw [ldpAct, loadN_place s c _ _ hpl hsoft]) rfl (put_regsKept .ldp (.p p) _ _)
  rw [ldLdp_eq, zeroRefused_none _ _ _ _ _ ht]
  exact ⟨h1, (h2 (.p p)).trans (resNow_put_same .ldp (.p p) _ _ (leNat_lt _ _ 4))⟩

/-- A misaligned access halts the compact core with code 3 (R349). -/
theorem issue_misaligned (trap : State → Core → Trap) (stall : State → Core → Nat) (act : Core → State → State) (s : State) (a : Word)
    (h : State.coreRuns 4 s) (ht : trap s (getCore s 4) = some (3, a)) :
    issue 4 trap Core.pc stall act s = haltCore 4 3 a (busError s) := by
  obtain ⟨h1, h2⟩ := h
  unfold issue
  simp [h1, h2, ht]

/-- What t has of the halt with code 3 at address a, beside registers. -/
def HaltedAt (a : Word) (k : Core) (s t : State) : Prop :=
  (getCore t 4).st = 2 ∧ (getCore t 4).hcause = 3 ∧ (getCore t 4).faddr = a ∧ (getCore t 4).fpc = k.pc ∧ t.mem = s.mem ∧
    State.raised evLadleFault t

theorem haltedAt_misaligned (s : State) (a : Word) : HaltedAt a (getCore s 4) s (haltCore 4 3 a (busError s)) := by
  have hk : getCore (haltCore 4 3 a (busError s)) 4 = haltedCore 3 a (getCore s 4) := by
    rw [getCore_haltCore_compact, busError, getCore_raise]
  obtain ⟨hm, -⟩ := haltCore_compact_onlyEvents 3 a (busError s)
  refine ⟨by rw [hk]; rfl, by rw [hk]; rfl, by rw [hk]; rfl, by rw [hk]; rfl, ?_, haltCore_compact_raised 3 a _⟩
  rw [hm]
  exact raise_mem evBusError s

/-- Registers that are cleared do not undo the halt. -/
theorem HaltedAt.clear {a : Word} {k : Core} {s t : State} (h : HaltedAt a k s t) (l : List Res) :
    HaltedAt a k s (modCore 4 (fun q => l.foldl (fun q r => resSet r 0 q) q) t) := by
  have hset : ∀ r q, (resSet r 0 q).st = q.st ∧ (resSet r 0 q).hcause = q.hcause ∧ (resSet r 0 q).faddr = q.faddr ∧
      (resSet r 0 q).fpc = q.fpc := fun r q => by
    cases r with
    | acc _ => exact ⟨rfl, rfl, rfl, rfl⟩
    | d _ | p _ | m _ | flags => rw [resSet, modSet_eq]; exact ⟨rfl, rfl, rfl, rfl⟩
  have hall : ∀ q, (l.foldl (fun q r => resSet r 0 q) q).st = q.st ∧ (l.foldl (fun q r => resSet r 0 q) q).hcause = q.hcause ∧
      (l.foldl (fun q r => resSet r 0 q) q).faddr = q.faddr ∧ (l.foldl (fun q r => resSet r 0 q) q).fpc = q.fpc := by
    induction l with
    | nil => exact fun q => ⟨rfl, rfl, rfl, rfl⟩
    | cons r l ih =>
      intro q
      obtain ⟨a1, a2, a3, a4⟩ := ih (resSet r 0 q)
      obtain ⟨b1, b2, b3, b4⟩ := hset r q
      exact ⟨a1.trans b1, a2.trans b2, a3.trans b3, a4.trans b4⟩
  obtain ⟨h1, h2, h3, h4, h5, h6⟩ := h
  obtain ⟨a1, a2, a3, a4⟩ := hall (getCore t 4)
  rw [HaltedAt, getCore_modCore_same]
  exact ⟨a1.trans h1, a2.trans h2, a3.trans h3, a4.trans h4, h5, h6⟩

theorem HaltedAt.zeroRefused {a : Word} {k : Core} {s s0 t : State} (trap : State → Core → Trap) (dest : State → Core → List Res)
    (h : HaltedAt a k s t) : HaltedAt a k s (zeroRefused 4 trap dest s0 t) := by
  unfold Machine.zeroRefused
  dsimp only
  split
  · exact h.clear _
  · exact h

/-- The step of a modifier (R339). -/
theorem step_eq (m : Word) : sbits m 15 0 = (m.setWidth 16).toInt := by
  rw [sbits, signedN, bits, BitVec.toInt_eq_toNat_cond, BitVec.toNat_setWidth]
  simp only [Nat.shiftRight_zero]
  split <;> split <;> omega

/-- Linear post-modify (R339). -/
theorem postModify_linear (p m : Word) (h : bits m 31 16 = 0) : postModify p m = p + (m.setWidth 16).signExtend 32 := by
  rw [postModify]
  dsimp only
  rw [if_pos h, step_eq, wordOfInt, BitVec.ofInt_add, ← BitVec.toInt_signExtend_of_le (v := 32) (by decide), BitVec.ofInt_toInt]
  rw [BitVec.ofInt_natCast, BitVec.ofNat_toNat, BitVec.setWidth_eq]

/-- The power of 2 that holds a circular buffer. -/
theorem find_length (len b : Nat) (h : len ≤ 2 ^ b) (hb : b ≤ 16) (hmin : ∀ e, e < b → 2 ^ e < len) :
    (List.range 17).find? (fun b => decide (len ≤ 2 ^ b)) = some b := by
  rw [List.find?_range_eq_some]
  refine ⟨decide_eq_true h, List.mem_range.2 (by omega), fun e he => ?_⟩
  simpa using hmin e he

/-- Circular post-modify (R339). -/
theorem postModify_circular (p m : Word) (b : Nat) (x y z : Int) (h0 : 0 < bits m 31 16) (h1 : bits m 31 16 ≤ 2 ^ b)
    (hmin : ∀ e, e < b → 2 ^ e < bits m 31 16) (hx : x = (p.toNat : Int) - p.toNat / 2 ^ b * 2 ^ b + (m.setWidth 16).toInt)
    (hy : y = if (bits m 31 16 : Int) ≤ x then x - bits m 31 16 else x) (hz : z = if y < 0 then y + bits m 31 16 else y) :
    postModify p m = BitVec.ofInt 32 (((p.toNat / 2 ^ b * 2 ^ b : Nat) : Int) + z) := by
  have hb : b ≤ 16 := by
    refine Nat.le_of_not_lt fun hlt => ?_
    have hlen : bits m 31 16 < 2 ^ 16 := Nat.mod_lt _ (by decide)
    exact absurd (hmin 16 (by omega)) (by omega)
  rw [postModify]
  dsimp only
  rw [if_neg (Nat.ne_of_gt h0), find_length _ b h1 hb hmin, Option.getD_some, step_eq, wordOfInt]
  have hbase : (p.toNat : Int) - ((p.toNat / 2 ^ b * 2 ^ b : Nat) : Int) + (m.setWidth 16).toInt = x := by rw [hx]; push_cast; rfl
  rw [hbase, ← hy, ← hz]

/-- Settles O49: moves between the register files, loads and stores, their halt, and post-modify. -/
theorem ladlePointersAndMemory : Obligations.LadlePointersAndMemory := by
  unfold Obligations.LadlePointersAndMemory
  refine ⟨fun s c d p q u h k hk cmd r v hc => ?moves, fun s c d p md w h k hk ho a ha hal hpl rs hrs => ⟨fun hhard hsoft => ?load, fun hw hpart hmem => ?store⟩,
    fun s c p q u h hc k hk a ha hlt hal hhard hsoft => ?loadPointer, fun s d p cmd h k hk hin hal hcmd => ?misaligned,
    postModify_linear, postModify_circular⟩
  case moves =>
    subst hk
    have hput : ∀ kind (f : Core → Word) r, 2 ^ resWidth r = 2 ^ 32 → ∃ t, Host.Outcome.next (ptrOp kind c r f s) =
        (Host.Outcome.next t : Host.Outcome State Fault Refusal) ∧
        State.held c (getCore s c).shadow r t = (f (getCore s c)).toNat ∧ State.onlyCore c [r] s t := fun kind f r hw => by
      obtain ⟨h1, h2⟩ := issueK_acted c (fun k => put kind r (f k).toNat k) s h [r] (put_regsKept kind r _ _)
      exact ⟨_, rfl, (h2 r).trans (resNow_put_same kind r _ _ (by rw [hw]; exact BitVec.isLt _)), h1⟩
    rcases hc with ⟨rfl, rfl, rfl⟩ | ⟨rfl, rfl, rfl⟩ | ⟨rfl, rfl, rfl⟩ | ⟨rfl, rfl, rfl⟩ | ⟨rfl, rfl, rfl⟩ | ⟨rfl, rfl, rfl⟩ | ⟨rfl, rfl, rfl⟩
    · exact hput .pmvPM (fun k => rd k d) (.p p) rfl
    · exact hput .alu (fun k => rp k p) (.d d) rfl
    · exact hput .pmvPM (fun k => rd k d) (.m p) rfl
    · exact hput .alu (fun k => rm k p) (.d d) rfl
    · exact hput .addr (ldpAddr q u) (.p p) rfl
    · exact hput .addr (fun _ => u.setWidth 32) (.m p) rfl
    · rw [BitVec.or_comm]
      exact hput .addr (fun k => (rm k p &&& 0xFFFF#32) ||| (u.setWidth 32 <<< 16)) (.m p) rfl
  case load =>
    subst hk hrs
    exact ⟨_, rfl, ldLoad_acted s c d p md w a h ho ha hal hpl hhard hsoft⟩
  case store =>
    subst hk hrs
    obtain ⟨h1, h2⟩ := ldStore_acted s c d p md w a h ho hw ha hal hpl hpart
    obtain ⟨⟨hf, -⟩, -⟩ := id h1
    have hm : (ldStore c d p md w s).mem = mwrite 0 s.mem a (leBytes (widthBytes w) (rd (getCore s c) d).toNat) := by rw [hf]; rfl
    refine ⟨_, rfl, ?_, h2, fun i hi => ?_, fun x hx => ?_⟩
    · rw [hm]
      exact h1
    · rw [hm, mget_mwrite_in _ _ _ _ _ hmem (by rwa [leBytes_length])]
    · rw [hm, mget_mwrite_ne _ _ _ _ _ (by rwa [leBytes_length])]
  case loadPointer =>
    subst hk ha
    exact ⟨_, rfl, ldLdp_acted s c p q u h hal (.inl ⟨hlt, hc⟩) hhard hsoft⟩
  case misaligned =>
    subst hk
    have haddr : memAddr (getCore s 4) p (.offset 0#15) = rp (getCore s 4) p := BitVec.add_zero _
    have htrap : ∀ store, memTrap 4 store p (.offset 0#15) .word s (getCore s 4) = some (3, rp (getCore s 4) p) := fun store => by
      have hplain : memTrap 4 store p (.offset 0#15) .word s (getCore s 4) = (accessTrap s 4 store
          (memAddr (getCore s 4) p (.offset 0#15)).toNat 4).map (fun h => (h, memAddr (getCore s 4) p (.offset 0#15))) := by
        cases store <;> rfl
      rw [hplain, haddr, accessTrap_misaligned s store _ hin hal (mayWrite_local s _ hin)]
      rfl
    rcases hcmd with rfl | rfl
    · refine ⟨_, rfl, ?_⟩
      refine HaltedAt.zeroRefused _ _ ?_
      rw [issue_misaligned _ _ _ s _ h (htrap false)]
      exact haltedAt_misaligned s _
    · refine ⟨ldStore 4 d p (.offset 0#15) .word s, rfl, ?_⟩
      have hs : ldStore 4 d p (.offset 0#15) .word s = haltCore 4 3 (rp (getCore s 4) p) (busError s) :=
        issue_misaligned _ _ _ s _ h (htrap true)
      rw [hs]
      exact haltedAt_misaligned s _

end Sys2Proof.Machine

namespace Sys2Proof.Machine

/-! ### O50: dual loads (R347, R348) -/

theorem RegsKept.mono {rs rs' : List Res} {k q : Core} (h : RegsKept rs k q) (hsub : ∀ r ∈ rs, r ∈ rs') : RegsKept rs' k q :=
  ⟨h.status, h.mode, fun r sh hc => h.regs r sh fun hm => hc (hsub r hm)⟩

/-- A register that is none of those written keeps its value. -/
theorem RegsKept.resNow_eq {rs : List Res} {k q : Core} (h : RegsKept rs k q) (r : Res) (hr : r ∉ rs) : resNow q r = resNow k r := by
  have hs := h.mode.1
  have hk := h.regs r k.shadow fun hm => absurd hm hr
  exact (congrArg (fun b => resNow { q with shadow := b } r) hs).trans hk

/-- What a load writes. -/
def loadsOf (l : Option DualLoad) : List Res := l.toList.flatMap (fun x => [.d x.d, .p x.p])

theorem mem_loadsOf (l : Option DualLoad) (r : Res) : r ∈ loadsOf l ↔ ∃ x, l = some x ∧ (r = .d x.d ∨ r = .p x.p) := by
  cases l <;> simp [loadsOf]

/-- The core q after one load of core k has become q'. -/
structure LoadedOne (k : Core) (mem : Memory) (wr : List Nat) (l : Option DualLoad) (q q' : Core) : Prop where
  kept : RegsKept (loadsOf l) q q'
  pointer : ∀ x, l = some x → resNow q' (.p x.p) = (postModify (rp k x.p) (rm k x.p)).toNat
  data : ∀ x, l = some x → x.d ∉ wr → resNow q' (.d x.d) = leNat (mread 0 mem (rp k x.p).toNat 4) 0 4

theorem putEither_kept (wr : List Nat) (pick : Bool) (d : Nat) (v : Word) (k : Core) : RegsKept [.d d] k (putEither wr pick d v k) := by
  rw [putEither]
  split
  · exact (RegsKept.refl k).mono (fun r hr => absurd hr List.not_mem_nil)
  · exact put_regsKept .slow (.d d) _ k

theorem putEither_sole (wr : List Nat) (pick : Bool) (d : Nat) (v : Word) (k : Core) (h : d ∉ wr) :
    resNow (putEither wr pick d v k) (.d d) = v.toNat := by
  rw [putEither, if_neg (by simp [h])]
  exact resNow_put_same .slow (.d d) _ k (BitVec.isLt _)

/-- One load of a dual-load instruction. -/
theorem dualOne_loaded (c : Nat) (k : Core) (wr : List Nat) (l : Option DualLoad) (u : State) (q : Core)
    (hpl : ∀ x, l = some x → dataPlace c (rp k x.p).toNat) (hsoft : u.softErr = []) :
    (dualOne c k wr l (u, q)).1 = { u with free := (dualOne c k wr l (u, q)).1.free } ∧
      LoadedOne k u.mem wr l q (dualOne c k wr l (u, q)).2 := by
  cases l with
  | none => exact ⟨rfl, RegsKept.refl q, (nomatch ·, ·), (nomatch ·, ·)⟩
  | some x =>
    have hone : dualOne c k wr (some x) (u, q) = (u.tick, put .addr (.p x.p) (postModify (rp k x.p) (rm k x.p)).toNat
        (putEither wr (freeB u) x.d (BitVec.ofNat 32 (leNat (mread 0 u.mem (rp k x.p).toNat 4) 0 4)) q)) := by
      rw [dualOne, loadN_place u c _ 4 (hpl x rfl) hsoft]
    rw [hone]
    refine ⟨rfl, (putEither_kept _ _ _ _ _).trans (put_regsKept .addr (.p x.p) _ _), ?_, ?_⟩
    · rintro y ⟨⟩
      exact resNow_put_same .addr (.p x.p) _ _ (BitVec.isLt _)
    · rintro y ⟨⟩ hd
      refine (resNow_put_ne .addr (.p x.p) (.d x.d) _ _ (by simp)).trans ((putEither_sole _ _ _ _ _ hd).trans ?_)
      exact (BitVec.toNat_ofNat _ _).trans (Nat.mod_eq_of_lt (leNat_lt _ _ 4))

/-- Another state with its free values counted on serves as well. -/
theorem onlyCore_of_free {c : Nat} {rs : List Res} {s u t : State} (hu : u = { s with free := u.free }) (h : State.onlyCore c rs u t) :
    State.onlyCore c rs s t := by
  rw [hu] at h
  exact h

/-- The computation of a format D instruction, then its loads. -/
def dualAct (c : Nat) (wr : List Nat) (f : Core → Core) (x y : Option DualLoad) (k : Core) (s : State) : State × Core :=
  dualOne c k (wr ++ (x.map DualLoad.d).toList) y (dualOne c k wr x (s, f k))

theorem dualOp_eq (c : Nat) (wr : List Nat) (f : Core → Core) (x y : Option DualLoad) (s : State) : dualOp c wr f x y s =
    zeroRefused c (dualTrap c x y) (fun s k => (([x, y].filterMap id).filter (fun q => loadRefused s c (rp k q.p).toNat 4)).map
      (fun q => Res.d q.d)) s (issue c (dualTrap c x y) Core.pc (dualStall c x y)
        (fun k s => withCore c k (fun _ => (dualAct c wr f x y k s).2) (dualAct c wr f x y k s).1) s) := rfl

/-- A format D instruction (R347): its computation, and each of its loads. -/
theorem dualOp_acted (c : Nat) (wr : List Nat) (f : Core → Core) (o q : Option DualLoad) (s : State) (rs : List Res)
    (h : State.coreRuns c s) (hhard : s.hardErr = []) (hsoft : s.softErr = [])
    (hpl : ∀ x, o = some x ∨ q = some x → (rp (getCore s c) x.p).toNat % 4 = 0 ∧ dataPlace c (rp (getCore s c) x.p).toNat)
    (hf : RegsKept rs (getCore s c) (f (getCore s c))) :
    State.onlyCore c (rs ++ (loadsOf o ++ loadsOf q)) s (dualOp c wr f o q s) ∧
      (∀ x, o = some x ∨ q = some x → State.held c (getCore s c).shadow (.p x.p) (dualOp c wr f o q s) =
        (postModify (rp (getCore s c) x.p) (rm (getCore s c) x.p)).toNat) ∧
      (∀ x, (o = some x ∧ (∀ y, q = some y → y.d ≠ x.d) ∨ q = some x ∧ (∀ y, o = some y → y.d ≠ x.d)) → x.d ∉ wr →
        State.held c (getCore s c).shadow (.d x.d) (dualOp c wr f o q s) = leNat (mread 0 s.mem (rp (getCore s c) x.p).toNat 4) 0 4) ∧
      (∀ r, r ∉ loadsOf o ++ loadsOf q → State.held c (getCore s c).shadow r (dualOp c wr f o q s) = resNow (f (getCore s c)) r) := by
  have hclear : ∀ x, o = some x ∨ q = some x → accessTrap s c false (rp (getCore s c) x.p).toNat 4 = none := fun x hx =>
    accessTrap_load s c _ 4 (hpl x hx).2 (hpl x hx).1 hhard
  have ht : dualTrap c o q s (getCore s c) = none := by
    have hbind : ∀ l : Option DualLoad, (∀ x, l = some x → accessTrap s c false (rp (getCore s c) x.p).toNat 4 = none) →
        (l.bind fun q => (accessTrap s c false (rp (getCore s c) q.p).toNat 4).map (fun h => (h, rp (getCore s c) q.p))) = none := by
      rintro (_ | x) hx
      · rfl
      · rw [Option.bind_some, hx x rfl]
        rfl
    rw [dualTrap]
    dsimp only
    rw [hbind o fun x hx => hclear x (.inl hx), hbind q fun x hx => hclear x (.inr hx)]
  obtain ⟨hu, ho⟩ := dualOne_loaded c (getCore s c) wr o s (f (getCore s c)) (fun x hx => (hpl x (.inl hx)).2) hsoft
  obtain ⟨u, hu'⟩ : ∃ u, u = (dualOne c (getCore s c) wr o (s, f (getCore s c))).1 := ⟨_, rfl⟩
  obtain ⟨w, hw'⟩ : ∃ w, w = (dualOne c (getCore s c) wr o (s, f (getCore s c))).2 := ⟨_, rfl⟩
  have hpair : dualOne c (getCore s c) wr o (s, f (getCore s c)) = (u, w) := by rw [hu', hw']
  rw [← hu'] at hu
  rw [← hw'] at ho
  obtain ⟨hv, hq⟩ := dualOne_loaded c (getCore s c) (wr ++ (o.map DualLoad.d).toList) q u w (fun x hx => (hpl x (.inr hx)).2) (by rw [hu]; exact hsoft)
  have hact : dualAct c wr f o q (getCore s c) s = dualOne c (getCore s c) (wr ++ (o.map DualLoad.d).toList) q (u, w) := by
    rw [dualAct, hpair]
  rw [← hact] at hv hq
  have hfree : (dualAct c wr f o q (getCore s c) s).1 = { s with free := (dualAct c wr f o q (getCore s c) s).1.free } := by
    rw [hv, hu]
  have hmem : u.mem = s.mem := by rw [hu]
  obtain ⟨v, hv'⟩ : ∃ v, v = (dualAct c wr f o q (getCore s c) s).1 := ⟨_, rfl⟩
  obtain ⟨z, hz⟩ : ∃ z, z = (dualAct c wr f o q (getCore s c) s).2 := ⟨_, rfl⟩
  rw [← hv'] at hfree
  rw [← hz, hmem] at hq
  obtain ⟨h1, h2⟩ := access_acted c (dualTrap c o q) (dualStall c o q)
    (fun k s => withCore c k (fun _ => (dualAct c wr f o q k s).2) (dualAct c wr f o q k s).1) s v (fun _ => z)
    (rs ++ (loadsOf o ++ loadsOf q)) h ht (by rw [hv', hz]) (by rw [hfree]) (hf.trans (ho.kept.trans hq.kept))
  rw [dualOp_eq, zeroRefused_none _ _ _ _ _ ht]
  refine ⟨onlyCore_of_free hfree h1, ?_, ?_, fun r hr => ?_⟩
  · rintro x (hx | hx)
    · rw [h2]
      by_cases hsame : ∃ y, q = some y ∧ y.p = x.p
      · obtain ⟨y, hy, hp⟩ := hsame
        rw [← hp]
        exact hq.pointer y hy
      · rw [hq.kept.resNow_eq, ho.pointer x hx]
        rw [mem_loadsOf]
        rintro ⟨y, hy, hr | hr⟩
        · cases hr
        · exact hsame ⟨y, hy, (Res.p.inj hr).symm⟩
    · rw [h2]
      exact hq.pointer x hx
  · rintro x (⟨hx, hne⟩ | ⟨hx, hne⟩) hd
    · rw [h2, hq.kept.resNow_eq, ho.data x hx hd]
      rw [mem_loadsOf]
      rintro ⟨y, hy, hr | hr⟩
      · exact hne y hy (Res.d.inj hr).symm
      · cases hr
    · rw [h2]
      refine hq.data x hx ?_
      rw [List.mem_append]
      rintro (hm | hm)
      · exact hd hm
      · obtain ⟨y, hy, hyd⟩ := Option.map_eq_some_iff.1 (Option.mem_toList.1 hm)
        exact hne y hy hyd
  · rw [List.mem_append, not_or] at hr
    rw [h2, hq.kept.resNow_eq _ hr.2, ho.kept.resNow_eq _ hr.1]

/-- The registers that the enabled loads write. -/
theorem loads_eq (o q : Option DualLoad) : ([o, q].filterMap id).flatMap (fun x => [Res.d x.d, .p x.p]) = loadsOf o ++ loadsOf q := by
  cases o <;> cases q <;> rfl

/-- A misaligned load of a format D instruction halts the compact core (R349). -/
theorem dualOp_misaligned (wr : List Nat) (f : Core → Core) (o q : Option DualLoad) (x : DualLoad) (s : State) (h : State.coreRuns 4 s)
    (hin : inLocal (rp (getCore s 4) x.p).toNat = true) (hal : (rp (getCore s 4) x.p).toNat % 4 ≠ 0)
    (hx : o = some x ∧ q = none ∨ o = none ∧ q = some x) :
    HaltedAt (rp (getCore s 4) x.p) (getCore s 4) s (dualOp 4 wr f o q s) := by
  have hone := accessTrap_misaligned s false _ hin hal (mayWrite_local s _ hin)
  have ht : dualTrap 4 o q s (getCore s 4) = some (3, rp (getCore s 4) x.p) := by
    rcases hx with ⟨rfl, rfl⟩ | ⟨rfl, rfl⟩
    · rw [dualTrap]
      dsimp only
      rw [Option.bind_some, hone]
      rfl
    · rw [dualTrap]
      dsimp only
      rw [Option.bind_some, hone]
      rfl
  rw [dualOp_eq, issue_misaligned _ _ _ s _ h ht]
  exact (haltedAt_misaligned s _).zeroRefused _ _

/-- MACD is fractional and signed (R348). -/
def macdMode : MacMode := { sub := false, frac := true, uns := false, repl := false }

/-- The accumulation of MACD. -/
theorem macd_value (v : BitVec 72) (x y : Word) : macResult macdMode v x y =
    v + BitVec.ofInt 72 (x.toInt * y.toInt * 2) := by
  rw [macResult_eq _ v x y _ rfl]
  refine (BitVec.ofInt_add _ _).trans ?_
  exact congrArg (· + _) BitVec.ofInt_toInt

/-- Settles O50: each format D instruction by its computation and its loads. -/
theorem ladleDual : Obligations.LadleDual := by
  unfold Obligations.LadleDual
  refine ⟨fun s c d e a b o q h hhard hsoft k hk hpl rs hrs cmd r hc => ?loads, fun s d e a b x cmd h k hk hin hal hc => ?misaligned⟩
  case loads =>
    subst hk
    rw [loads_eq] at hrs
    subst hrs
    have hdata : Res.d d ∉ loadsOf o ++ loadsOf q ∨ ∃ x, (o = some x ∨ q = some x) ∧ x.d = d := by
      by_cases hm : Res.d d ∈ loadsOf o ++ loadsOf q
      · right
        rw [List.mem_append, mem_loadsOf, mem_loadsOf] at hm
        rcases hm with ⟨x, hx, hr | hr⟩ | ⟨x, hx, hr | hr⟩
        · exact ⟨x, .inl hx, (Res.d.inj hr).symm⟩
        · cases hr
        · exact ⟨x, .inr hx, (Res.d.inj hr).symm⟩
        · cases hr
      · exact .inl hm
    rcases hc with ⟨rfl, rfl⟩ | ⟨rfl, rfl⟩ | ⟨rfl, rfl⟩
    · obtain ⟨h1, h2, h3, h4⟩ := dualOp_acted c [d] (fun k => putD .fma d (fmaValue false d a b k) k) o q s [.d d] h hhard hsoft hpl
        (put_regsKept .fma (.d d) _ _)
      refine ⟨_, rfl, h1, h2, fun x hx hd => h3 x hx (by simpa using hd rfl), fun _ hne => ?_, (nomatch ·)⟩
      refine (h4 _ (hdata.resolve_right fun ⟨x, hx, hd⟩ => hne x hx hd)).trans ?_
      exact resNow_put_same .fma (.d d) _ _ (BitVec.isLt _)
    · obtain ⟨h1, h2, h3, h4⟩ := dualOp_acted c [] (fun k => put .mac (.acc e) (macResult macdMode (accSeen k e) (rd k a) (rd k b)).toNat k)
        o q s [.acc e] h hhard hsoft hpl (put_regsKept .mac (.acc e) _ _)
      refine ⟨_, rfl, h1, h2, fun x hx _ => h3 x hx List.not_mem_nil, (nomatch ·), fun _ => ?_⟩
      have hacc : Res.acc e ∉ loadsOf o ++ loadsOf q := by
        rw [List.mem_append, mem_loadsOf, mem_loadsOf]
        rintro (⟨x, -, hr | hr⟩ | ⟨x, -, hr | hr⟩) <;> cases hr
      refine (h4 _ hacc).trans ((resNow_put_same .mac (.acc e) _ _ (BitVec.isLt _)).trans ?_)
      exact congrArg BitVec.toNat (macd_value _ _ _)
    · obtain ⟨h1, h2, h3, -⟩ := dualOp_acted c [] id o q s [] h hhard hsoft hpl (RegsKept.refl _)
      exact ⟨_, rfl, h1, h2, fun x hx _ => h3 x hx List.not_mem_nil, (nomatch ·), (nomatch ·)⟩
  case misaligned =>
    subst hk
    rcases hc with rfl | rfl | rfl
    · exact ⟨_, rfl, dualOp_misaligned _ _ (some x) none x s h hin hal (.inl ⟨rfl, rfl⟩)⟩
    · exact ⟨_, rfl, dualOp_misaligned _ _ none (some x) x s h hin hal (.inr ⟨rfl, rfl⟩)⟩
    · exact ⟨_, rfl, dualOp_misaligned _ _ (some x) none x s h hin hal (.inl ⟨rfl, rfl⟩)⟩

end Sys2Proof.Machine

namespace Sys2Proof.Machine

/-! ### O59: register writes (R19 to R21, R27, R356, R400) -/

/-- A write of the host outside local memory is the bus's. -/
theorem exec_registerWrite_of (m : Master) (a : Nat) (v : Word) (s : State) (hm : m ≠ .compact) :
    exec (.registerWrite m a v) s = .next (busWrite m (sourceOf m) a 4 v s).1 := by
  have hg : compactGate m (fun s => (busWrite m (sourceOf m) a 4 v s).1) s = (busWrite m (sourceOf m) a 4 v s).1 :=
    compactGate_of_passes m _ s fun h => absurd h hm
  change Host.Outcome.next (if inLocal a then (busWrite m (sourceOf m) a 4 v s).1
    else compactGate m (fun s => (busWrite m (sourceOf m) a 4 v s).1) s) = _
  rw [hg, ite_self]

/-- A misaligned write and one that its master may not make are refused (R21). -/
theorem busWrite_refused (m : Master) (src : Source) (a : Nat) (v : Word) (s : State) (h : a % 4 ≠ 0 ∨ mayWrite s m a = false) :
    busWrite m src a 4 v s = wAccess s := by
  refine if_pos ?_
  rcases h with h | h
  · simp [accessOk, h]
  · simp [h]

/-- A host's write of an aligned word of a register region outside the windows goes to its unit (R19, R20). -/
theorem busWrite_unit (r : Region) (src : Source) (a : Nat) (v : Word) (s : State) (h4 : a % 4 = 0) (hr : regionOf a = some r)
    (hsram : r ≠ .sram) (hcap : r ≠ .cap) (hfuse : r ≠ .fuse) (hl : inLocal a = false) (hd : windowDead s r = false) :
    busWrite .host src a 4 v s = unitWrite .host src r (regionOfs r a) v s := by
  have hok : accessOk a 4 = true := by simp [accessOk, h4]
  have hm : mayWrite s .host a = true := by simp [mayWrite, hr, hcap, hfuse]
  cases r with
  | sram => exact absurd rfl hsram
  | _ => simp [busWrite, hok, hm, hr, hl, hd]

/-- A host's write of an aligned word of SRAM (R27). -/
theorem busWrite_sram (src : Source) (a : Nat) (v : Word) (s : State) (h4 : a % 4 = 0) (ha : a < 0x400000) :
    busWrite .host src a 4 v s = sramWrite .host a (leBytes 4 v.toNat) s := by
  have hok : accessOk a 4 = true := by simp [accessOk, h4]
  have hm : mayWrite s .host a = true := by simp [mayWrite, regionOf_sram a ha]
  rw [busWrite, hok, hm, regionOf_sram a ha]
  rfl

/-- Outside the partitions the word is stored. -/
theorem sramWrite_free (m : Master) (a : Nat) (bs : List Byte) (s : State) (hp : ∀ i, i < 8 → inPart s i a = false) :
    sramWrite m a bs s = wDone (memPut a bs s) := by
  have hany : (List.range 8).any (fun i => inPart s i a) = false := by
    rw [List.any_eq_false]
    intro i hi
    simp [hp i (List.mem_range.1 hi)]
  have hbank : bankAt s a = none := by
    rw [bankAt, if_neg]
    simp [hp ptAXIS (by decide)]
  unfold sramWrite
  rw [if_neg (by simp [hp ptLADLE (by decide)]), hbank]
  exact if_neg (by simp [hany])

/-- Below the axis windows and outside SRAM a region is a number of whole pages. -/
theorem regionOf_of_page (a b : Nat) (h : a / 0x10000 = b / 0x10000) (h1 : 0x400000 ≤ a) (h2 : a < 0x41000000) :
    regionOf a = regionOf b := by
  unfold regionOf
  rw [if_neg (show ¬a < 0x400000 by omega), if_neg (show ¬b < 0x400000 by omega),
    if_neg (show ¬(0x41000000 ≤ a ∧ a < 0x41080000) by omega), if_neg (show ¬(0x41000000 ≤ b ∧ b < 0x41080000) by omega),
    if_neg (show ¬(0x42000000 ≤ a ∧ a < 0x42020000) by omega), if_neg (show ¬(0x42000000 ≤ b ∧ b < 0x42020000) by omega), h]

/-- What lies in EVT. -/
theorem evt_unit (s : State) (o : Nat) (v : Word) (h4 : o % 4 = 0) (ho : o < 0x10000) :
    exec (.registerWrite .host (0x40020000 + o) v) s = .next (evtWrite o v s).1 := by
  have hr : regionOf (0x40020000 + o) = some .evt :=
    regionOf_of_page (0x40020000 + o) 0x40020000 (by omega) (by omega) (by omega)
  have hl : inLocal (0x40020000 + o) = false := by simp [inLocal]; omega
  have hofs : regionOfs .evt (0x40020000 + o) = o := by simp only [regionOfs]; omega
  rw [exec_registerWrite_of .host _ v s (by decide), busWrite_unit .evt _ _ v s (by omega) hr (by decide) (by decide) (by decide) hl rfl, hofs]
  rfl

/-- A word in its place in a 256-bit set. -/
theorem bankBits_getLsbD (v : Word) (k e : Nat) (he : e < 256) :
    (bankBits v k).getLsbD e = (decide (e / 32 = k) && v.getLsbD (e % 32)) := by
  rw [bankBits, BitVec.getLsbD_shiftLeft, BitVec.getLsbD_setWidth]
  by_cases h : e / 32 = k
  · have hs : e - 32 * k = e % 32 := by omega
    rw [hs]
    simp [h, he, show ¬ e < 32 * k by omega, show e % 32 < 256 by omega]
  · rw [decide_eq_false h, Bool.false_and]
    by_cases hlt : e < 32 * k
    · simp [hlt]
    · have : v.getLsbD (e - 32 * k) = false := BitVec.getLsbD_of_ge _ _ (by omega)
      simp [this]

/-- The bits of a number below n that are set by a test. -/
def bitsWhere (p : Nat → Bool) (n : Nat) : Nat := (List.range n).foldl (fun m e => if p e then m + 2 ^ e else m) 0

theorem bitsWhere_succ (p : Nat → Bool) (n : Nat) : bitsWhere p (n + 1) = if p n then bitsWhere p n + 2 ^ n else bitsWhere p n := by
  rw [bitsWhere, List.range_succ, List.foldl_append]
  rfl

theorem bitsWhere_lt (p : Nat → Bool) (n : Nat) : bitsWhere p n < 2 ^ n := by
  induction n with
  | zero => exact Nat.one_pos
  | succ n ih =>
    rw [bitsWhere_succ, Nat.pow_succ]
    split <;> omega

theorem bitsWhere_testBit (p : Nat → Bool) (n e : Nat) : (bitsWhere p n).testBit e = (decide (e < n) && p e) := by
  induction n with
  | zero => simp [bitsWhere]
  | succ n ih =>
    have hlt := bitsWhere_lt p n
    rw [bitsWhere_succ]
    rcases Nat.lt_trichotomy e n with h | rfl | h
    · have hn : (bitsWhere p n + 2 ^ n).testBit e = (bitsWhere p n).testBit e := by
        rw [Nat.add_comm, Nat.testBit_two_pow_add_gt h]
      split <;> simp_all [Nat.lt_succ_of_lt h]
    · have hn : (bitsWhere p e).testBit e = false := Nat.testBit_lt_two_pow hlt
      split
      · rw [Nat.add_comm, Nat.testBit_two_pow_add_eq, hn]
        simp_all
      · simp_all
    · have hb : ∀ m, m < 2 ^ (n + 1) → m.testBit e = false := fun m hm =>
        Nat.testBit_lt_two_pow (Nat.lt_of_lt_of_le hm (Nat.pow_le_pow_right (by decide) h))
      rw [hb _ (by split <;> rw [Nat.pow_succ] <;> omega)]
      simp; omega

/-- The valid events as a set. -/
theorem validSet_getLsbD (e : Nat) (he : e < 256) : validSet.getLsbD e = evValid e := by
  rw [validSet, BitVec.getLsbD_ofNat]
  change (decide (e < 256) && (bitsWhere evValid 256).testBit e) = _
  rw [bitsWhere_testBit]
  simp [he]

/-- The event flags that a word written to bank k clears (R400). -/
theorem clearedFlags_getLsbD (x : BitVec 256) (v : Word) (k e : Nat) (he : e < 256) :
    (x &&& ~~~ bankBits v k).getLsbD e = true ↔ x.getLsbD e = true ∧ (e / 32 = k → v.getLsbD (e % 32) = false) := by
  rw [BitVec.getLsbD_and, BitVec.getLsbD_not, bankBits_getLsbD v k e he]
  by_cases h : e / 32 = k <;> simp [h, he]

/-- The mask after a word written to bank k (R400). -/
theorem writtenMask_getLsbD (x : BitVec 256) (v : Word) (k e : Nat) (he : e < 256) :
    ((x &&& ~~~ bankBits 0xFFFFFFFF#32 k) ||| (bankBits v k &&& validSet)).getLsbD e =
      if e / 32 = k then v.getLsbD (e % 32) && evValid e else x.getLsbD e := by
  have hones : (0xFFFFFFFF#32).getLsbD (e % 32) = true := by
    have : (0xFFFFFFFF#32) = BitVec.allOnes 32 := by decide
    rw [this, BitVec.getLsbD_allOnes]
    exact decide_eq_true (Nat.mod_lt _ (by decide))
  rw [BitVec.getLsbD_or, BitVec.getLsbD_and, BitVec.getLsbD_and, BitVec.getLsbD_not, bankBits_getLsbD _ k e he, bankBits_getLsbD _ k e he,
    validSet_getLsbD e he, hones]
  by_cases h : e / 32 = k <;> simp [h, he]

/-- LINK B, SCHED and CASC have no register to write but the latched delay flag of LINK B (R20). -/
theorem readOnly_ignored (s : State) (r : Region) (o : Nat) (v : Word) (h : r = .link 1 ∧ o ≠ 0x100 ∨ r = .sched ∨ r = .casc) :
    unitWrite .host (sourceOf .host) r o v s = wIgnored s := by
  rcases h with ⟨rfl, ho⟩ | rfl | rfl
  · exact if_neg ho
  · rfl
  · rfl

/-- They are regions of whole pages whose units always answer. -/
theorem readOnly_region (s : State) (r : Region) (o : Nat) (h : r = .link 1 ∧ o ≠ 0x100 ∨ r = .sched ∨ r = .casc) :
    r ≠ .sram ∧ r ≠ .cap ∧ r ≠ .fuse ∧ windowDead s r = false ∧ ∀ a, regionOfs r a = a % 0x10000 := by
  rcases h with ⟨rfl, -⟩ | rfl | rfl
  · exact ⟨nofun, nofun, nofun, rfl, fun _ => rfl⟩
  · exact ⟨nofun, nofun, nofun, rfl, fun _ => rfl⟩
  · exact ⟨nofun, nofun, nofun, rfl, fun _ => rfl⟩

/-- Settles O59: each write by the region of its address. -/
theorem registerWrites : Obligations.RegisterWrites := by
  unfold Obligations.RegisterWrites
  refine ⟨fun s k v hk => ?flags, fun s k v hk => ?mask, fun s a v ha h4 hp hm => ?sram, fun s a v ha h4 hp => ?ladle,
    fun s m a v hm h => ?refused, fun s a v hr h4 hne => ?readOnly⟩
  case flags =>
    have he := evt_unit s (4 * k) v (by omega) (by omega)
    have hw : (evtWrite (4 * k) v s).1 = modEv (fun e => { e with flags := e.flags &&& ~~~ bankBits v k }) s := by
      rw [evtWrite, if_pos (by omega), Nat.mul_div_cancel_left k (by decide)]
      rfl
    refine ⟨_, he, fun e h => ?_, ?_⟩
    · rw [hw]
      exact clearedFlags_getLsbD s.ev.flags v k e h
    · rw [hw]
      rfl
  case mask =>
    have he := evt_unit s (0x20 + 4 * k) v (by omega) (by omega)
    have hw : (evtWrite (0x20 + 4 * k) v s).1 =
        modEv (fun e => { e with mask := (e.mask &&& ~~~ bankBits 0xFFFFFFFF#32 k) ||| (bankBits v k &&& validSet) }) s := by
      have hdiv : (0x20 + 4 * k - 0x20) / 4 = k := by omega
      rw [evtWrite, if_neg (by omega), if_pos (by omega), hdiv]
      rfl
    refine ⟨_, (congrArg (fun a => exec (.registerWrite .host a v) s) (by omega)).trans he, fun e h => ?_, ?_⟩
    · rw [hw]
      exact writtenMask_getLsbD s.ev.mask v k e h
    · rw [hw]
      rfl
  case sram =>
    have hb : (busWrite .host (sourceOf .host) a 4 v s).1 = memPutW a v s := by
      rw [busWrite_sram _ a v s h4 (by omega), sramWrite_free _ a _ s hp]
      rfl
    refine ⟨_, (exec_registerWrite_of .host a v s (by decide)).trans (congrArg Host.Outcome.next hb), memWord_memPutW_same s a v hm,
      fun x hx => mget_memPutW_out s a x v hm hx, rfl⟩
  case ladle =>
    have hb : (busWrite .host (sourceOf .host) a 4 v s).1 = { s with lad := { s.lad with
        held := s.lad.held ++ [{ due := s.sys.round + 1, addr := a, bytes := leBytes 4 v.toNat, own := false }] } } := by
      rw [busWrite_sram _ a v s h4 (by omega)]
      unfold sramWrite
      rw [if_pos hp]
      rfl
    exact ⟨_, (exec_registerWrite_of .host a v s (by decide)).trans (congrArg Host.Outcome.next hb), rfl, rfl, rfl⟩
  case refused =>
    have hb : (busWrite m (sourceOf m) a 4 v s).1 = busError s := by rw [busWrite_refused m _ a v s h]; rfl
    exact ⟨_, (exec_registerWrite_of m a v s hm).trans (congrArg Host.Outcome.next hb), raise_onlyEvents _ s,
      raise_raised _ _ rfl (by decide)⟩
  case readOnly =>
    have hread : ∀ r b o, regionOf b = some r → (r = .link 1 ∧ o ≠ 0x100 ∨ r = .sched ∨ r = .casc) → a = b + o → o < 0x10000 →
        b % 0x10000 = 0 → 0x400000 ≤ b → b < 0x40700000 →
        (busWrite .host (sourceOf .host) a 4 v s).1 = refuseWrite s := by
      intro r b o hb hkind ha ho hpage hlo hhi
      have hra : regionOf a = some r := (regionOf_of_page a b (by omega) (by omega) (by omega)).trans hb
      have hl : inLocal a = false := by simp [inLocal]; omega
      obtain ⟨h1, h2, h3, hd, hofs⟩ := readOnly_region s r o hkind
      have ho' : a % 0x10000 = o := by omega
      rw [busWrite_unit r _ a v s h4 hra h1 h2 h3 hl hd, hofs, ho', readOnly_ignored s r o v hkind]
      rfl
    have hb : (busWrite .host (sourceOf .host) a 4 v s).1 = refuseWrite s := by
      obtain ⟨o, ⟨ha, ho⟩ | ⟨ha, ho⟩ | ⟨ha, ho⟩⟩ := hr
      · exact hread (.link 1) 0x40110000 o rfl (.inl ⟨rfl, by omega⟩) ha ho (by decide) (by decide) (by decide)
      · exact hread .sched 0x40120000 o rfl (.inr (.inl rfl)) ha ho (by decide) (by decide) (by decide)
      · exact hread .casc 0x40410000 o rfl (.inr (.inr rfl)) ha ho (by decide) (by decide) (by decide)
    exact ⟨_, (exec_registerWrite_of .host a v s (by decide)).trans (congrArg Host.Outcome.next hb), raise_onlyEvents _ s,
      raise_raised _ _ rfl (by decide)⟩

end Sys2Proof.Machine

namespace Sys2Proof.Machine

/-! ### O56: Ethernet, the SPI target, the PHY and event pulses (R385, R386, R396, R397, R401) -/

/-- An Ethernet frame for the head, outside DEEP PARK. -/
theorem ethernetFrame_now (s : State) (l : List Byte) (hr : s.sys.inReset = false) (hn : s.host.netOk = true) (hd : s.sys.pwr ≠ .deep)
    (hm : macMine s (beNat l 0 6) = true) : exec (.ethernetFrame l) s = .next (ethernetNow l s) := by
  change Host.Outcome.next (ethernetFrame l s) = _
  simp [ethernetFrame, hr, hn, hm, hd]

/-- Outside DEEP PARK a command frame is judged at once; a port that is closed takes nothing either way. -/
theorem exec_commandFrame_now (snd : Sender) (l : List Byte) (s : State) (hd : s.sys.pwr ≠ .deep) :
    exec (.commandFrame snd l) s = .next (frameNow snd l s) := by
  change Host.Outcome.next (commandFrame snd l s) = _
  rw [commandFrame, frameNow]
  by_cases ho : portOpen s snd = true
  · simp [ho, hd]
  · simp [ho]

/-- An ARP request for an address of the head (R386). -/
theorem takeArp_request (s : State) (l : List Byte) (m : Nat) (h1 : 42 ≤ l.length) (h2 : beNat l 14 2 = 1) (h3 : beNat l 16 2 = 0x0800)
    (h4 : beNat l 18 2 = 0x0604) (h5 : beNat l 20 2 = 1) (hm : macOf s (BitVec.ofNat 32 (beNat l 38 4)) = some m)
    (hl : s.host.link = true) : takeArp l s = send (.answer (arpFrame (beNat l 6 6) m 2 (BitVec.ofNat 32 (beNat l 38 4))
      (beNat l 22 6) (BitVec.ofNat 32 (beNat l 28 4)))) s := by
  rw [takeArp, if_neg (by omega), hm]
  exact if_pos hl

/-- A datagram to the port of the head is the command frame that it carries (R386, R390). -/
theorem takeIp_datagram (s : State) (l : List Byte) (d : Dst) (hok : ip4Ok (l.drop 14) = true) (hudp : beNat (l.drop 14) 9 1 = 17)
    (hd : dstOf s (BitVec.ofNat 32 (beNat (l.drop 14) 16 4)) (beNat l 0 6) = some d)
    (hu : udpOk s (BitVec.ofNat 32 (beNat (l.drop 14) 12 4)) (BitVec.ofNat 32 (beNat (l.drop 14) 16 4))
      (((l.drop 14).take (beNat (l.drop 14) 2 2)).drop 20) = true) :
    takeIp l s = frameNow (.udp (BitVec.ofNat 32 (beNat (l.drop 14) 12 4)) (beNat (((l.drop 14).take (beNat (l.drop 14) 2 2)).drop 20) 0 2)
      (beNat l 6 6) d) (((((l.drop 14).take (beNat (l.drop 14) 2 2)).drop 20).take
        (beNat (((l.drop 14).take (beNat (l.drop 14) 2 2)).drop 20) 4 2)).drop 8) s := by
  rw [takeIp, hok, if_neg (by decide)]
  dsimp only
  rw [hd]
  dsimp only
  rw [if_neg (by omega), if_pos hu]

theorem wakeFrom_awake (n : Nat) (s : State) (h : s.sys.pwr ≠ .deep) : wakeFrom n s = s := if_neg fun ⟨hd, _⟩ => h hd

/-- The STATUS byte by its bits (R397). -/
theorem statusByte_bits (a b c : Bool) : (BitVec.ofNat 8 (b2n a + 2 * b2n b + 4 * b2n c)).getLsbD 0 = a ∧
    (BitVec.ofNat 8 (b2n a + 2 * b2n b + 4 * b2n c)).getLsbD 1 = b ∧ (BitVec.ofNat 8 (b2n a + 2 * b2n b + 4 * b2n c)).getLsbD 2 = c := by
  cases a <;> cases b <;> cases c <;> decide

/-- The pin of one pulse. -/
theorem clearedPin_getLsbD (x : BitVec 8) (p q : Nat) (hp : p < 8) :
    (x &&& ~~~ BitVec.ofNat 8 (2 ^ p)).getLsbD q = if q = p then false else x.getLsbD q := by
  rw [BitVec.getLsbD_and, BitVec.getLsbD_not, BitVec.getLsbD_ofNat, Nat.testBit_two_pow]
  by_cases h : q = p
  · subst h
    simp [hp]
  · by_cases hq : q < 8
    · simp [h, hq, Ne.symm h]
    · simp [h, BitVec.getLsbD_of_ge x q (by omega)]

/-- Settles O56: each command of the ports by the branch it takes. -/
theorem ethernetSpiAndPhy : Obligations.EthernetSpiAndPhy := by
  unfold Obligations.EthernetSpiAndPhy
  refine ⟨fun s l hr hn hd hm => ⟨fun hbad => ?dropped, fun m h1 h2 h3 h4 h5 h6 h7 hl => ?arp, fun p d b h1 h2 hp hok hudp hdst hb hu => ?datagram⟩,
    fun s l hm => ?others, fun s l ho hd => ?spi, fun s l ho => ?closed, fun s r hr hn hd => ?phy, fun s p hp => ?pulse⟩
  case dropped =>
    rw [ethernetFrame_now s l hr hn hd hm, ethernetNow]
    split
    · rfl
    · next h14 =>
      obtain ⟨h1, h2⟩ := hbad.resolve_left h14
      rw [if_neg h1, if_neg h2]
      rfl
  case arp =>
    rw [ethernetFrame_now s l hr hn hd hm, ethernetNow, if_neg (by omega), if_pos h2, takeArp_request s l m h1 h3 h4 h5 h6 h7 hl]
    rfl
  case datagram =>
    subst hp hb
    rw [ethernetFrame_now s l hr hn hd hm, ethernetNow, if_neg (by omega), if_neg (by omega), if_pos h2,
      takeIp_datagram s l d hok hudp hdst hu, exec_commandFrame_now _ _ s hd]
  case others =>
    change Host.Outcome.next (ethernetFrame l s) = _
    simp [ethernetFrame, hm]
  case spi =>
    refine ⟨?_, fun hout => ?_, fun q t hout => ?_, ?_⟩
    · change Host.Outcome.next (writeFrame l s) = Host.Outcome.next (commandFrame .spi l s)
      simp [writeFrame, spiCanTake, ho, hd]
    · change Host.Outcome.next (readFrame s) = _
      simp [readFrame, ho, hd, hout, send]
    · have he : readFrame s = send (.miso (beBytes 2 ((freeW s).toNat % 65536) ++ q.2)) (modHost (fun h => { h with out := t }) s.tick) := by
        simp [readFrame, ho, hd, hout]
      exact ⟨_, beBytes 2 ((freeW s).toNat % 65536), congrArg Host.Outcome.next he, rfl, rfl, rfl, rfl⟩
    · have he : (if spiOpen s then wakeFrom 2 (send (.miso [spiStatus s]) s) else s) = send (.miso [spiStatus s]) s := by
        rw [if_pos ho]
        exact wakeFrom_awake 2 _ hd
      have hc : spiCanTake s = true := by simp [spiCanTake, hd]
      obtain ⟨h0, h1, h2⟩ := statusByte_bits (s.host.out.any (fun q => !q.1)) (s.host.out.any (fun q => q.1)) (spiCanTake s)
      exact ⟨_, spiStatus s, congrArg Host.Outcome.next he, rfl, h0, h1, h2.trans hc⟩
  case closed =>
    refine ⟨?_, ?_, ?_⟩
    · change Host.Outcome.next (writeFrame l s) = _
      simp [writeFrame, ho]
    · change Host.Outcome.next (readFrame s) = _
      simp [readFrame, ho]
    · change Host.Outcome.next (if spiOpen s then wakeFrom 2 (send (.miso [spiStatus s]) s) else s) = _
      simp [ho]
  case phy =>
    obtain ⟨u, hu⟩ : ∃ u, u = modHost (fun h => { h with link := r.getLsbD 2, fdx := r.getLsbD 2 && freeB s }) s.tick := ⟨_, rfl⟩
    have he : phyPoll r s = if r.getLsbD 2 = s.host.link then u else raise evHostLink u := by
      rw [hu]
      simp [phyPoll, hr, hn, hd]
    obtain ⟨t, ht⟩ : ∃ t, t = phyPoll r s := ⟨_, rfl⟩
    have hev : State.onlyEvents u t ∧ (r.getLsbD 2 ≠ s.host.link → State.raised evHostLink t) := by
      rw [ht, he]
      split
      · next h => exact ⟨onlyEvents_refl u, fun hne => absurd h hne⟩
      · exact ⟨raise_onlyEvents _ u, fun _ => raise_raised _ _ rfl (by decide)⟩
    obtain ⟨hev, hraised⟩ := hev
    have hlink : t.host.link = r.getLsbD 2 ∧ t.host.fdx = (r.getLsbD 2 && freeB s) := by
      obtain ⟨hf, -⟩ := hev
      rw [hf, hu]
      exact ⟨rfl, rfl⟩
    obtain ⟨h1, h2⟩ := hlink
    refine ⟨t, congrArg Host.Outcome.next ht.symm, h1, fun h => by rw [h2, h]; rfl, hraised, ?_⟩
    rw [h1, h2]
    rw [hu] at hev
    exact hev
  case pulse =>
    refine ⟨_, rfl, ?_, fun q hq => ?_, rfl⟩
    · exact (clearedPin_getLsbD s.ev.pulse p p hp).trans (if_pos rfl)
    · exact (clearedPin_getLsbD s.ev.pulse p q hp).trans (if_neg hq)

end Sys2Proof.Machine

namespace Sys2Proof.Machine

/-! ### A command of the host that acts (R279, R281, R394) -/

/-- What t has of a reply r after the state u: the window, what leaves in the round, and free values. -/
def RepliedAfter (r : Reply) (u t : State) : Prop := State.replied r t ∧ t = { u with
  host := { u.host with window := t.host.window, out := t.host.out }
  tx := t.tx
  free := t.free
  ev := { u.ev with nlost := t.ev.nlost } }

theorem finish_replied (c : HostCmd) (r : Reply) (u : State) (hc : c.snd ≠ .core) : RepliedAfter r u (finish c r u) := by
  obtain ⟨v, hv⟩ : ∃ v, v = modHost (fun h => { h with window := (r :: h.window).take 256 }) u := ⟨_, rfl⟩
  have hfin : finish c r u = if pairRole u || !c.fwd then reply c.snd r v else v := by
    rw [hv]
    exact if_neg hc
  have hwin : v.host.window.head? = some r := by rw [hv]; rfl
  rw [hfin]
  split
  · refine ⟨by rw [State.replied, reply_host_window]; exact hwin, ?_⟩
    rw [reply_eq c.snd r v]
    rw [hv]
    rfl
  · refine ⟨hwin, ?_⟩
    rw [hv]
    rfl

/-- The command that is next acts on the head without it, and its reply enters the window. -/
theorem runCommand_acts (c : HostCmd) (l : List HostCmd) (op : Nat) (f : State → State × Nat × List Word) (s u : State) (st : Nat)
    (pl : List Word) (hn : State.nextIs c l s) (ho : c.op = op) (hf : f (State.withWaiting l s) = (u, st, pl)) :
    RepliedAfter ⟨c.seq, op, st, pl⟩ u (runCommand c.snd c.seq op c.pl f s) := by
  obtain ⟨hw, hr, hc⟩ := hn
  have hnext : nextCommand s c.snd c.seq op c.pl = some c := by
    rw [nextCommand, hw, List.find?_cons_of_pos hr]
    exact if_pos ⟨rfl, rfl, ho, rfl⟩
  have hout : takeOut s = State.withWaiting l s := by
    rw [takeOut, modWaiting, hw, List.eraseP_cons_of_pos hr]
    rfl
  rw [runCommand, hnext]
  dsimp only
  rw [hout, hf]
  exact finish_replied c _ u hc

theorem RepliedAfter.waiting {r : Reply} {u t : State} (h : RepliedAfter r u t) : t.host.waiting = u.host.waiting := by
  rw [h.2]

/-- What such a command leaves of the head is what it was given, but for the port. -/
theorem RepliedAfter.onlyPort {r : Reply} {u t s : State} (h : RepliedAfter r u t)
    (hu : u = { s with host := u.host, tx := u.tx, free := u.free, ev := { s.ev with nlost := u.ev.nlost } }) : State.onlyPort s t := by
  obtain ⟨-, ht⟩ := h
  rw [State.onlyPort, ht, hu]

theorem senderMaster_host (snd : Sender) (h : snd ≠ .core) : senderMaster snd = .host := if_neg h

/-! ### O57: READ and WRITE (R391 to R394) -/

/-- Every word of a block has an address in the map, and is well placed. -/
theorem wordAddrs_all (p : Nat → Bool) (a n : Nat) (h : ∀ i, i < n → p (a + 4 * i) = true) : (wordAddrs a n).all p = true := by
  rw [wordAddrs, List.all_map, List.all_eq_true]
  intro i hi
  exact h i (List.mem_range.1 hi)

/-- A block whose first word is out of place has none. -/
theorem wordAddrs_not_all (p : Nat → Bool) (a n : Nat) (hn : 1 ≤ n) (h : p a = false) : (wordAddrs a n).all p = false := by
  rw [List.all_eq_false]
  exact ⟨a, List.mem_map.2 ⟨0, List.mem_range.2 hn, rfl⟩, by simp [h]⟩

/-- Words of SRAM without errors (R29, R30). -/
theorem hostReads_sram (m : Master) (n a : Nat) (s : State) (hh : s.hardErr = []) (hs : s.softErr = []) (ha : a + 4 * n ≤ 0x400000) :
    hostReads m n a s = (s, (wordAddrs a n).map (memWord s)) := by
  have hword : ∀ b, b < 0x400000 → hostRead m b s = (s, memWord s b) := fun b hb => by
    have hbad : eccBad s (eccWord b) = false := by rw [eccBad, hh]; rfl
    have hfix : eccFix (eccWord b) s = s := by rw [eccFix, hs]; rfl
    have hread : eccRead (eccWord b) s = s := (if_neg (by simp [hbad])).trans hfix
    rw [hostRead, if_pos hb, eccLoad, hread]
    exact if_neg (by simp [hbad])
  induction n generalizing a with
  | zero => rfl
  | succ n ih =>
    have hcons : wordAddrs a (n + 1) = a :: wordAddrs (a + 4) n := by
      rw [wordAddrs, List.range_succ_eq_map, List.map_cons, List.map_map]
      refine congr (congrArg List.cons (Nat.add_zero a)) (List.map_congr_left fun i _ => ?_)
      simp only [Function.comp_apply]
      omega
    rw [hostReads, hword a (by omega), ih (a + 4) (by omega), hcons]
    rfl

/-- READ of SRAM without errors (R393). -/
theorem opRead_sram (a n : Nat) (s : State) (hh : s.hardErr = []) (hs : s.softErr = []) (ha : a + 4 * n ≤ 0x400000) (h4 : a % 4 = 0)
    (hn : 1 ≤ n) : opRead .host [BitVec.ofNat 32 a, BitVec.ofNat 32 n] s = (s, stOK, (wordAddrs a n).map (memWord s)) := by
  have hta : (BitVec.ofNat 32 a).toNat = a := by rw [BitVec.toNat_ofNat]; omega
  have htn : (BitVec.ofNat 32 n).toNat = n := by rw [BitVec.toNat_ofNat]; omega
  have hplace : (wordAddrs a n).all (fun x => accessOk x 4 && (regionOf x).isSome) = true := wordAddrs_all _ a n fun i hi => by
    simp [accessOk, regionOf_sram (a + 4 * i) (by omega)]
    omega
  have hright : (wordAddrs a n).all (fun x => (regionOf x).all (mayRead .host)) = true := wordAddrs_all _ a n fun i hi => by
    rw [regionOf_sram (a + 4 * i) (by omega)]
    rfl
  have hr := hostReads_sram .host n a s hh hs ha
  simp only [opRead, nth, List.getD_cons_zero, List.getD_cons_succ, hta, htn, hplace, hright, hr]
  rfl

/-- READ of one register word (R393). -/
theorem opRead_register (a : Nat) (s : State) (ha : 0x400000 ≤ a) (hlt : a < 2 ^ 32) (h4 : a % 4 = 0) (hr : (regionOf a).isSome = true) :
    opRead .host [BitVec.ofNat 32 a, 1#32] s = ((readWord .host a s).1, stOK, [(readWord .host a s).2]) := by
  have hta : (BitVec.ofNat 32 a).toNat = a := by rw [BitVec.toNat_ofNat]; omega
  have hone : (1#32).toNat = 1 := rfl
  have haddr : wordAddrs a 1 = [a] := rfl
  have hread : hostReads .host 1 a s = ((readWord .host a s).1, [(readWord .host a s).2]) := by
    rw [hostReads, hostRead, if_neg (by omega)]
    rfl
  have hmay : (regionOf a).all (mayRead .host) = true := by cases regionOf a <;> rfl
  simp only [opRead, nth, List.getD_cons_zero, List.getD_cons_succ, hta, hone, haddr, hread]
  simp [accessOk, h4, hr, hmay]

/-- A register that is read changes at most what its master has latched, and the counter of free values. -/
theorem readWord_frame (m : Master) (a : Nat) (s : State) :
    (readWord m a s).1 = { s with masters := (readWord m a s).1.masters, free := (readWord m a s).1.free } := by
  unfold readWord
  dsimp only
  split
  · rfl
  · split
    · rfl
    · split
      · rfl
      · split <;> rfl

/-- A block that is not in the map (R391, R393). -/
theorem opRead_outside (m : Master) (a n : Nat) (s : State) (hn : 1 ≤ n) (hn2 : n ≤ 255) (ha : a < 2 ^ 32) (h : a % 4 ≠ 0 ∨ regionOf a = none) :
    opRead m [BitVec.ofNat 32 a, BitVec.ofNat 32 n] s = (busError s, stADDRESS, []) := by
  have hta : (BitVec.ofNat 32 a).toNat = a := by rw [BitVec.toNat_ofNat]; omega
  have htn : (BitVec.ofNat 32 n).toNat = n := by rw [BitVec.toNat_ofNat]; omega
  have hplace : (wordAddrs a n).all (fun x => accessOk x 4 && (regionOf x).isSome) = false := wordAddrs_not_all _ a n hn (by
    rcases h with h | h
    · simp [accessOk, h]
    · simp [h])
  simp only [opRead, nth, List.getD_cons_zero, List.getD_cons_succ, hta, htn, hplace]
  rfl

theorem opWrite_outside (m : Master) (src : Source) (a : Nat) (w : Word) (s : State) (ha : a < 2 ^ 32) (h : a % 4 ≠ 0 ∨ regionOf a = none) :
    opWrite m src [BitVec.ofNat 32 a, w] s = (busError s, stADDRESS, []) := by
  have hta : (BitVec.ofNat 32 a).toNat = a := by rw [BitVec.toNat_ofNat]; omega
  have hlen : ([BitVec.ofNat 32 a, w] : List Word).length - 1 = 1 := rfl
  have hplace : (wordAddrs a 1).all (fun x => accessOk x 4 && (regionOf x).isSome) = false := wordAddrs_not_all _ a 1 (Nat.le_refl 1) (by
    rcases h with h | h
    · simp [accessOk, h]
    · simp [h])
  simp only [opWrite, nth, List.getD_cons_zero, hta, hlen, hplace]
  rfl

/-- WRITE of one word of free SRAM (R27, R393). -/
theorem opWrite_sram (src : Source) (a : Nat) (w : Word) (s : State) (ha : a + 4 ≤ 0x400000) (h4 : a % 4 = 0)
    (hp : ∀ i, i < 8 → inPart s i a = false) : opWrite .host src [BitVec.ofNat 32 a, w] s = (memPutW a w s, stOK, [0#32]) := by
  have hta : (BitVec.ofNat 32 a).toNat = a := by rw [BitVec.toNat_ofNat]; omega
  have hlen : ([BitVec.ofNat 32 a, w] : List Word).length - 1 = 1 := rfl
  have haddr : wordAddrs a 1 = [a] := rfl
  have hb : busWrite .host src a 4 w s = (memPutW a w s, .done) := by
    rw [busWrite_sram src a w s h4 (by omega), sramWrite_free _ a _ s hp]
    rfl
  have hwrites : hostWrites .host src a [w] {} s = (memPutW a w s, {}) := by
    rw [hostWrites, hb]
    rfl
  have hseal : sealBars s a = false := by simp [sealBars]; omega
  simp only [opWrite, nth, List.getD_cons_zero, hta, hlen, haddr, List.drop_succ_cons, List.drop_zero, hwrites]
  simp [accessOk, h4, regionOf_sram a (by omega), mayWrite, hseal]

/-- Settles O57: each command by what it reads or writes, and its reply. -/
theorem hostReadWrite : Obligations.HostReadWrite := by
  unfold Obligations.HostReadWrite
  refine ⟨fun s c l a n hn ho hpl h1 h2 ha h4 hh hs => ?readSram, fun s c l a hn ho hpl ha hlt h4 hr => ?readRegister,
    fun s c l a w hn ho hpl ha h4 hp hm => ?write, fun s c l a n w cmd hn hc ha hbad => ?outside, fun s snd seq pl hw => ?none⟩
  case readSram =>
    have hf : opRead (senderMaster c.snd) c.pl (State.withWaiting l s) = (State.withWaiting l s, stOK, (wordAddrs a n).map (memWord s)) := by
      rw [senderMaster_host _ hn.2.2, hpl]
      exact opRead_sram a n (State.withWaiting l s) hh hs ha h4 h1
    have ht := runCommand_acts c l 1 _ s _ _ _ hn ho hf
    exact ⟨_, rfl, ht.waiting, ht.1, ht.onlyPort rfl⟩
  case readRegister =>
    have hf : opRead (senderMaster c.snd) c.pl (State.withWaiting l s) = ((readWord .host a (State.withWaiting l s)).1, stOK,
        [(readWord .host a (State.withWaiting l s)).2]) := by
      rw [senderMaster_host _ hn.2.2, hpl]
      exact opRead_register a (State.withWaiting l s) ha hlt h4 hr
    have hframe := readWord_frame .host a (State.withWaiting l s)
    have ht := runCommand_acts c l 1 _ s _ _ _ hn ho hf
    generalize (readWord .host a (State.withWaiting l s)).1 = u at hframe ht
    have hmasters := congrArg State.masters ht.2
    refine ⟨_, rfl, ht.waiting.trans (by rw [hframe]; rfl), ht.1, ht.onlyPort ?_⟩
    rw [hmasters, hframe]
    rfl
  case write =>
    have hf : opWrite (senderMaster c.snd) (senderSource c.snd) c.pl (State.withWaiting l s) =
        (memPutW a w (State.withWaiting l s), stOK, [0#32]) := by
      rw [senderMaster_host _ hn.2.2, hpl]
      exact opWrite_sram _ a w (State.withWaiting l s) ha h4 hp
    have ht := runCommand_acts c l 2 _ s _ _ _ hn ho hf
    have hmem := congrArg State.mem ht.2
    refine ⟨_, rfl, ht.waiting, ht.1, ?_, fun x hx => ?_, ht.onlyPort ?_⟩
    · rw [memWord, hmem]
      exact memWord_memPutW_same (State.withWaiting l s) a w hm
    · rw [hmem]
      exact mget_memPutW_out (State.withWaiting l s) a x w hm hx
    · rw [hmem]
      rfl
  case outside =>
    have hrefused : ∀ f, f (State.withWaiting l s) = (busError (State.withWaiting l s), stADDRESS, []) →
        ∃ t, t = runCommand c.snd c.seq c.op c.pl f s ∧ t.host.waiting = l ∧ State.replied ⟨c.seq, c.op, 4, []⟩ t ∧
          State.raised evBusError t ∧ t.mem = s.mem ∧ t.cfg = s.cfg ∧ t.axes = s.axes ∧ t.boot = s.boot := fun f hf => by
      have ht := runCommand_acts c l c.op f s _ _ _ hn rfl hf
      have hraised : State.raised evBusError (busError (State.withWaiting l s)) := raise_raised _ _ rfl (by decide)
      refine ⟨_, rfl, ht.waiting.trans (raise_host_waiting _ _), ht.1, ?_, ?_, ?_, ?_, ?_⟩
      · rw [State.raised, ht.2]
        exact hraised
      · rw [ht.2, busError]
        exact raise_mem _ _
      · rw [ht.2, busError]
        exact raise_cfg _ _
      · rw [ht.2, busError]
        exact raise_axes _ _
      · rw [ht.2, busError]
        exact raise_boot _ _
    rcases hc with ⟨ho, hpl, h1, h2, rfl⟩ | ⟨ho, hpl, rfl⟩
    · obtain ⟨t, ht, h⟩ := hrefused (opRead (senderMaster c.snd) c.pl) (by rw [hpl]; exact opRead_outside _ a n _ h1 h2 ha hbad)
      rw [ho] at ht h ⊢
      exact ⟨t, congrArg Host.Outcome.next ht.symm, h⟩
    · obtain ⟨t, ht, h⟩ := hrefused (opWrite (senderMaster c.snd) (senderSource c.snd) c.pl) (by rw [hpl]; exact opWrite_outside _ _ a w _ ha hbad)
      rw [ho] at ht h ⊢
      exact ⟨t, congrArg Host.Outcome.next ht.symm, h⟩
  case none =>
    have hnone : ∀ op f, runCommand snd seq op pl f s = s := fun op f => by
      rw [runCommand, nextCommand, hw]
      rfl
    exact ⟨congrArg Host.Outcome.next (hnone 1 _), congrArg Host.Outcome.next (hnone 2 _)⟩

end Sys2Proof.Machine

namespace Sys2Proof.Machine

/-! ### O58: the other opcodes (R392, R402) -/

/-- The profile of the owner that was changed. -/
theorem getProf_modProf (s : State) (o : Owner) (f : Prof → Prof) : getProf (modProf s o f) o = f (getProf s o) := by
  cases o with
  | axis a => exact congrArg Axis.prof (getAx_modAx_self s a _)
  | group g => exact congrArg Group.prof (modGr_getGr_self s g _)

/-- No profile is changed by an event of its owner. -/
theorem getProf_raiseOw (o : Owner) (cause : Nat) (s : State) : getProf (raiseOw o cause s) o = getProf s o := by
  cases o with
  | axis a => exact congrArg Axis.prof (getAx_raiseAx a cause s a)
  | group g => exact congrArg Group.prof (getGr_raiseGr g cause s g)

/-- A refused command leaves the queue and what was accepted. -/
theorem getProf_pfRefuse (o : Owner) (code : Nat) (s : State) : getProf (pfRefuse o code s) o =
    { getProf s o with errCode := code, refused := inc16 (getProf s o).refused } := by
  rw [pfRefuse, getProf_raiseOw, getProf_modProf]

theorem pfRefuse_host_waiting (o : Owner) (code : Nat) (s : State) : (pfRefuse o code s).host.waiting = s.host.waiting := by
  cases o with
  | axis a => exact raise_host_waiting _ _
  | group g => exact raise_host_waiting _ _

/-- The profiles after a command's reply. -/
theorem RepliedAfter.getProf_eq {r : Reply} {u t : State} (h : RepliedAfter r u t) (o : Owner) : getProf t o = getProf u o := by
  rw [h.2]
  cases o <;> rfl

/-- The owner that QUEUE_MOVE names. -/
def moveOwner (w : Word) : Owner := if bit w 31 then .group (bits w 22 16) else .axis (bits w 22 16)

/-- An accepted command waits behind those accepted before it (R168). -/
def accepting (op : Nat) (m : Move) (s : State) (p : Prof) : Prof :=
  { p with accepted := p.accepted ++ [(s.sys.round, pfCmdOf op m (lateMove s p))] }

section
variable (w : Word) (ms : List Word) (s : State) (o : Owner) (m : Move)

/-- QUEUE_MOVE is the profile command of its owner (R392). -/
theorem opQueueMove_eq (hop : 1 ≤ bits w 3 0) (ho : o = moveOwner w) (hm : m = moveOf (fun i => nth 0#32 ms i))
    (hd : ownerDead s o = false) : opQueueMove (w :: ms) s =
      if pfCheck o (bits w 3 0) m s ≠ 0 then refusal (some (pfCheck o (bits w 3 0) m s)) (pfCommand o (bits w 3 0) m s)
      else (pfCommand o (bits w 3 0) m s, stOK, [BitVec.ofNat 32 (getProf s o).errCode]) := by
  subst ho hm
  have h0 : (if bits w 3 0 = 0 then 0 else pfCheck (moveOwner w) (bits w 3 0) (moveOf (fun i => nth 0#32 ms i)) s) =
      pfCheck (moveOwner w) (bits w 3 0) (moveOf (fun i => nth 0#32 ms i)) s := if_neg (by omega)
  have hn : ¬ownerDead s (moveOwner w) = true := by simp [hd]
  rw [← h0]
  exact if_neg hn

/-- Of a move that passes the checks of R170. -/
theorem opQueueMove_accepted (hop : 1 ≤ bits w 3 0) (ho : o = moveOwner w) (hm : m = moveOf (fun i => nth 0#32 ms i))
    (hd : ownerDead s o = false) (hc : pfCheck o (bits w 3 0) m s = 0) :
    opQueueMove (w :: ms) s = (modProf s o (accepting (bits w 3 0) m s), stOK, [BitVec.ofNat 32 (getProf s o).errCode]) := by
  rw [opQueueMove_eq w ms s o m hop ho hm hd, if_neg (by simp [hc]), pfCommand_of_ok _ _ _ s (by omega) hc]
  rfl

/-- And of one that does not. -/
theorem opQueueMove_refused (hop : 1 ≤ bits w 3 0) (ho : o = moveOwner w) (hm : m = moveOf (fun i => nth 0#32 ms i))
    (hd : ownerDead s o = false) (hc : pfCheck o (bits w 3 0) m s ≠ 0) : opQueueMove (w :: ms) s =
      (pfRefuse o (pfCheck o (bits w 3 0) m s) s, stREFUSED, [BitVec.ofNat 32 (pfCheck o (bits w 3 0) m s)]) := by
  rw [opQueueMove_eq w ms s o m hop ho hm hd, if_pos hc, pfCommand_of_refused _ _ _ _ s (by omega) rfl hc]
  rfl

end

/-- BANK_WRITE of one word stores it in the inactive bank (R102). -/
theorem opBankWrite_word (w v : Word) (s : State) (hb : bit w 31 = false) (hx : bits w 22 16 < usableAxes s)
    (hp : (getAx s (bits w 22 16)).ctl.swapPend = false) (hd : windowDead s (.axis (bits w 22 16)) = false) :
    ∃ pl, opBankWrite [w, v] s =
      (memPutW (coefAddr s (bits w 22 16) (!(getAx s (bits w 22 16)).ctl.bank) 0 (bits w 7 0)) v s, stOK, pl) := by
  have hlt : bits w 22 16 < 128 := Nat.mod_lt _ (by decide)
  have hi : bits w 7 0 < 256 := Nat.mod_lt _ (by decide)
  have hwr : bankWritable s (bits w 22 16) (!(getAx s (bits w 22 16)).ctl.bank) = true :=
    bankWritable_eq_true s _ _ (by simp) hp
  have he := exec_registerWrite_host_bank s (bits w 22 16) (bits w 7 0) v (!(getAx s (bits w 22 16)).ctl.bank) hx hlt hi
  rw [if_pos hwr, exec_registerWrite_of .host _ v s (by decide)] at he
  have hbase : 0x41000000 + 0x1000 * bits w 22 16 + (if (getAx s (bits w 22 16)).ctl.bank then 0x800 else 0xC00) + 4 * bits w 7 0 =
      0x41000000 + 0x1000 * bits w 22 16 + (if (!(getAx s (bits w 22 16)).ctl.bank) then 0xC00 else 0x800) + 4 * bits w 7 0 := by
    cases (getAx s (bits w 22 16)).ctl.bank <;> rfl
  have hstore : (hostWrites .host .ethernet (0x41000000 + 0x1000 * bits w 22 16 +
      (if (getAx s (bits w 22 16)).ctl.bank then 0x800 else 0xC00) + 4 * bits w 7 0) [v] {} s).1 =
      memPutW (coefAddr s (bits w 22 16) (!(getAx s (bits w 22 16)).ctl.bank) 0 (bits w 7 0)) v s := by
    rw [hbase]
    exact Host.Outcome.next.inj he
  refine ⟨[axstat (memPutW (coefAddr s (bits w 22 16) (!(getAx s (bits w 22 16)).ctl.bank) 0 (bits w 7 0)) v s) (bits w 22 16)], ?_⟩
  simp only [opBankWrite, nth, List.getD_cons_zero, List.drop_succ_cons, List.drop_zero, hstore, hd, hb, Bool.false_eq_true, if_false]

/-- SUBSCRIBE of a new sender (R402). -/
theorem opSubscribe_new (snd : Sender) (pl : List Word) (s : State) (i : Nat) (hen : bit (nth 0#32 pl 0) 0 = true)
    (hs : subSlot s snd = none) (hf : (List.range 4).find? (fun i => (tget none s.host.subs i).isNone) = some i) :
    opSubscribe snd pl s = (setSub i (some { snd := snd, set := setOf (fun k => nth 0#32 pl (k + 1)) }) s, stOK, [BitVec.ofNat 32 i]) := by
  simp only [opSubscribe, hen, hs, hf, if_true]

/-- While no slot is free it is refused. -/
theorem opSubscribe_full (snd : Sender) (pl : List Word) (s : State) (hen : bit (nth 0#32 pl 0) 0 = true)
    (hs : subSlot s snd = none) (hf : (List.range 4).find? (fun i => (tget none s.host.subs i).isNone) = none) :
    opSubscribe snd pl s = (s, stREFUSED, [1#32]) := by
  simp only [opSubscribe, hen, hs, hf, if_true]
  rfl

/-- RECORD_READ of a record of the working copy in SRAM without errors (R326). -/
theorem opRecordRead_found (pl : List Word) (s : State) (a n : Nat)
    (hr : recordAt s (bits (nth 0#32 pl 0) 17 16) (bits (nth 0#32 pl 0) 10 0) = some (a, n)) (ha : a + 4 * n ≤ 0x400000)
    (hh : s.hardErr = []) (hs : s.softErr = []) : opRecordRead pl s = (s, stOK, (wordAddrs a n).map (memWord s)) := by
  simp only [opRecordRead, hr, hostReads_sram .host n a s hh hs ha]

/-- IMAGE that is not refused (R376, R392). -/
theorem opImage_accepted (pl : List Word) (w : Word) (s : State) (hw : pl.head? = some w) (hk : bits w 31 16 = Config.key)
    (hr : imgRefusal s (bits w 3 0) (bits w 5 4) (bits w 15 8) = 0) (h5 : bits w 3 0 ≠ 5) : ∃ b, b = { s.boot with
        lastCmd := bits w 3 0, busy := true
        job := some (bits w 3 0, if s.boot.noImage then bits w 5 4 else s.boot.inact, (pl.drop 1).take (bits w 15 8)) } ∧
      opImage pl s = ({ s with boot := b }, stOK, [imgstat { s with boot := b }]) := by
  have hfirst : nth 0#32 pl 0 = w := by
    cases pl with
    | nil => cases hw
    | cons x xs => exact Option.some.inj hw
  refine ⟨_, rfl, ?_⟩
  rw [← imageCmd_accepted (bits w 3 0) (bits w 5 4) (bits w 15 8) (pl.drop 1) s hr h5]
  simp only [opImage, hfirst, hr]
  rw [if_neg (by simp [hk]), if_neg (by simp)]

/-- Settles O58: each opcode by what it leaves and its reply. -/
theorem hostOpcodes : Obligations.HostOpcodes := by
  unfold Obligations.HostOpcodes
  refine ⟨fun s u c l w ms o m hn ho hpl hms hop hu hd hown hmove => ⟨fun hok => ?moveAccepted, fun hbad => ?moveRefused⟩,
    fun s c l w v hn ho hpl hb hx hp hd hm a ha => ?bankWrite, fun s c l i hn ho hen hsub => ⟨fun hf => ?subscribe, fun hf => ?noSlot⟩,
    fun s c l a n hn ho hr ha hh hs => ?record, fun s c l w hn ho hw hk hr h5 => ?image, fun s c l hn ho hpl => ?headState⟩
  case moveAccepted =>
    subst hu
    have hf := opQueueMove_accepted w ms (State.withWaiting l s) o m hop hown hmove hd hok
    rw [← hpl] at hf
    have ht := runCommand_acts c l 3 _ s _ _ _ hn ho hf
    have hframe := modProf_onlyAxesGroups (State.withWaiting l s) o (accepting (bits w 3 0) m (State.withWaiting l s))
    have hprof := getProf_modProf (State.withWaiting l s) o (accepting (bits w 3 0) m (State.withWaiting l s))
    have hsame : getProf (State.withWaiting l s) o = getProf s o := by cases o <;> rfl
    rw [hsame] at hprof ht
    generalize modProf (State.withWaiting l s) o (accepting (bits w 3 0) m (State.withWaiting l s)) = u at hframe hprof ht
    have haxes := congrArg State.axes ht.2
    have hgroups := congrArg State.groups ht.2
    refine ⟨_, rfl, ht.waiting.trans (congrArg (fun t => t.host.waiting) hframe), (ht.getProf_eq o).trans hprof, ht.1, ht.onlyPort ?_⟩
    rw [haxes, hgroups, hframe]
    rfl
  case moveRefused =>
    subst hu
    have hf := opQueueMove_refused w ms (State.withWaiting l s) o m hop hown hmove hd hbad
    rw [← hpl] at hf
    have ht := runCommand_acts c l 3 _ s _ _ _ hn ho hf
    have hprof := (ht.getProf_eq o).trans (getProf_pfRefuse _ _ _)
    have hsame : getProf (State.withWaiting l s) o = getProf s o := by cases o <;> rfl
    rw [hsame] at hprof
    exact ⟨_, rfl, ht.waiting.trans (pfRefuse_host_waiting _ _ _), (congrArg Prof.accepted hprof).trans rfl,
      (congrArg Prof.queue hprof).trans rfl, ht.1⟩
  case bankWrite =>
    obtain ⟨pl, hf⟩ := opBankWrite_word w v (State.withWaiting l s) hb hx hp hd
    rw [← hpl] at hf
    have ht := runCommand_acts c l 4 _ s _ _ _ hn ho hf
    subst ha
    have hmem := congrArg State.mem ht.2
    refine ⟨_, rfl, ht.waiting, ?_, fun x hx => ?_, ht.onlyPort ?_⟩
    · rw [memWord, hmem]
      exact memWord_memPutW_same (State.withWaiting l s) _ v hm
    · rw [hmem]
      exact mget_memPutW_out (State.withWaiting l s) _ x v hm hx
    · rw [hmem]
      rfl
  case subscribe =>
    have ht := runCommand_acts c l 5 _ s _ _ _ hn ho (opSubscribe_new c.snd c.pl (State.withWaiting l s) i hen hsub hf)
    have hsubs : (runCommand c.snd c.seq 5 c.pl (opSubscribe c.snd c.pl) s).host.subs =
        tset s.host.subs i (some { snd := c.snd, set := setOf (fun k => nth 0#32 c.pl (k + 1)) }) := by
      rw [ht.2]
      rfl
    refine ⟨_, rfl, ht.waiting, ?_, fun j hj => ?_, ht.1, ht.onlyPort rfl⟩
    · rw [hsubs, tget_tset_self]
    · rw [hsubs, tget_tset_ne _ _ _ _ _ hj]
  case noSlot =>
    have ht := runCommand_acts c l 5 _ s _ _ _ hn ho (opSubscribe_full c.snd c.pl (State.withWaiting l s) hen hsub hf)
    exact ⟨_, rfl, ht.waiting, (congrArg (fun t => t.host.subs) ht.2).trans rfl, ht.1, ht.onlyPort rfl⟩
  case record =>
    have ht := runCommand_acts c l 6 _ s _ _ _ hn ho (opRecordRead_found c.pl (State.withWaiting l s) a n hr ha hh hs)
    exact ⟨_, rfl, ht.waiting, ht.1, ht.onlyPort rfl⟩
  case image =>
    obtain ⟨b, hb, hf⟩ := opImage_accepted c.pl w (State.withWaiting l s) hw hk hr h5
    have ht := runCommand_acts c l 7 _ s _ _ _ hn ho hf
    have hboot : (runCommand c.snd c.seq 7 c.pl (opImage c.pl) s).boot = b := by rw [ht.2]
    refine ⟨_, rfl, ht.waiting, hboot.trans hb, ?_, ht.onlyPort ?_⟩
    · rw [hboot]
      exact ht.1
    · rw [hboot]
      rfl
  case headState =>
    have hf : opHeadState c.pl (State.withWaiting l s) = (State.withWaiting l s, stOK, headWords (State.withWaiting l s)) := by
      rw [hpl]
      simp [opHeadState, nth]
    have ht := runCommand_acts c l 8 _ s _ _ _ hn ho hf
    exact ⟨_, rfl, ht.waiting, ht.1, ht.onlyPort rfl⟩

end Sys2Proof.Machine
